-- ==== Sys2Proof/Word.lean ====
section
/-! DEFINITION. The words of the VL9160: bytes, 32-bit register words, the formats of R5, sparse tables and register-map rows. -/
namespace Sys2Proof

/-- A register word (R6): registers are 32 bits wide. -/
abbrev Word := BitVec 32

/-- One byte. -/
abbrev Byte := BitVec 8

/-- The committed value of one register of the map: a single word, a 40-, 48- or 64-bit pair, or a T80 triple (R5, R7). -/
abbrev RegVal := BitVec 80

/-- P40, A40, F40 and Q40 values (R5). -/
abbrev Fix40 := BitVec 40

/-- A 96-bit accumulator (R5). -/
abbrev Acc := BitVec 96

/-- A sparse table: strictly rising keys, and no entry equal to what an unlisted key reads as. -/
abbrev Tbl (α : Type) := List (Nat × α)

/-- The surviving code of R10: `b` every reset, `p` all but POR, `w` the WDT, SOFT and LINK resets, `n` no reset. -/
inductive Surv | b | p | w | n
deriving DecidableEq, Repr

/-- The reset kinds of R438, in their ranking order. -/
inductive ResetKind | por | pin | wdt | soft | link
deriving DecidableEq, Repr

/-- One row of the register map (R10): offset of its first instance, words of its value, whether its words are read and written
by the latching rule of R7, array dimensions (count, stride), writable bits, write-1-to-clear bits and surviving code. -/
structure RegRow where
  base : Nat
  words : Nat
  pair : Bool
  dims : List (Nat × Nat)
  rw : Nat
  w1c : Nat
  surv : Surv
deriving DecidableEq, Repr

/-- The party that makes an access (R7): the host through BAR0, or one of the eight cores through register space. -/
inductive Party | host | core (k : Fin 8)
deriving DecidableEq, Repr

/-- A phasor: real and imaginary parts in P40 counts (R5). -/
structure Phasor where
  re : Int
  im : Int
deriving DecidableEq, Repr

/-- The number of a party, for tables kept by party: the host 0, core k is k + 1. -/
def Party.num : Party → Nat
  | .host => 0
  | .core k => k.val + 1

end Sys2Proof
end

