-- ==== Sys2Proof/Syntax.lean ====
section
/-! DEFINITION. The commands of the block: one constructor for each row of the spec's operation table, with the operands that the
sender or the environment gives. -/
namespace Sys2Proof

/-- Width of a register access in bytes (R6). -/
inductive AccessSize | b1 | b2 | b4 | b8
deriving DecidableEq, Repr

/-- What a check of stored bits finds (R429, R435), and what befalls its handling (R432): nothing; a correctable error; an uncorrectable one;
a correctable one whose write-back meets an uncorrectable error; an uncorrectable one whose handling (a poison or table entry, the record)
meets another; an uncorrectable one whose record the fault collector's own memory fails to take. -/
inductive MemErr | ok | ce | ue | ceAgain | ueAgain | ueNoRec
deriving DecidableEq, Repr

/-- A frame as a port receives it (R71, R89, R90): octets from the destination address through the FCS, whether the PHY marked an
error or the FCS failed, and the quarter-tick offset of its delimiter in 1/16 ns after the current counter value. -/
structure RxFrame where
  octets : List Byte
  phyErr : Bool
  fcsErr : Bool
  /-- Captured time minus the current counter value, in 1/16 ns. -/
  skew : Int
deriving DecidableEq, Repr

/-- Who outside the hardware's own paths queues a frame (R113): the PTP and other firmware, and the host. -/
inductive TxSource | ptp | firmware | host
deriving DecidableEq, Repr

/-- The cross-clock FIFOs and queues that follow R166. -/
inductive Fifo
  | crossing (f : Fin 5) | panel (p : Fin 16) | mend | measurement | time | txts | seamHost | hostAlarm | radioRx | intake | firn
deriving DecidableEq, Repr

/-- A node that fires (R177): its number, the iteration tag and engine instant of its tokens, and what the checks of the microcode word
and of a data word it loads find. -/
structure Firing where
  node : Nat
  tag : Nat
  inst : Nat
  uerr : MemErr
  derr : MemErr
  cerr : MemErr := .ok
deriving DecidableEq, Repr

/-- What the checks of an operand load find at entry `at_` of its list (R188, R198, R200): the slot read, the operand link, and the tile word
that its write reads and modifies. Other entries meet no error. -/
structure LoadErrs where
  at_ : Nat := 0
  slot : MemErr := .ok
  link : MemErr := .ok
  tile : MemErr := .ok
deriving DecidableEq, Repr

/-- What a bay's chain measured over one cycle (R302, R307). -/
structure BayCycle where
  vals : List Int
deriving DecidableEq, Repr

/-- A local synchrophasor item (R304). -/
structure LocalItem where
  vals : List Int
deriving DecidableEq, Repr

/-- A radio frame as received, at the end of its last symbol (R385): the PSDU with its FCS, the PHR's MS bit and FCS type, signal
strength and link quality, and the end of the SFD less the counter value now, in ns. -/
structure RadioRx where
  psdu : List Byte
  ms : Bool
  fcs4 : Bool
  rssi : Byte
  lqi : Byte
  sfd : Int
deriving DecidableEq, Repr


/-- The commands of the VL9160, one constructor for each row of the operation table. -/
inductive Instr
  /-- REGISTER_WRITE (R8). A write to a register that has no row of its own, which takes effect per its access code, reserved-bit, RWL, locked-field and silent rules. -/
  | registerWrite (who : Party) (addr : BitVec 26) (size : AccessSize) (v : BitVec 64)
  /-- PAIR_LO_READ (R7). A read of the LO word of a 40-bit or wider pair returns bits [31:0] and latches the high bits into that party's holding register. -/
  | pairLoRead (who : Party) (addr : BitVec 26) (size : AccessSize)
  /-- PAIR_LO_WRITE (R7). A write of the LO word of a pair is held without effect, for that party, until HI is written. -/
  | pairLoWrite (who : Party) (addr : BitVec 26) (w : Word)
  /-- PAIR_HI_WRITE (R7). A write of the HI word of a pair commits the held LO value and the new high bits together. -/
  | pairHiWrite (who : Party) (addr : BitVec 26) (w : Word)
  /-- HELLO (R463). The Fledal HELLO command opens or keeps a session for major version 1 and returns the version, image state and SERIAL. -/
  | hello (tag : BitVec 16) (payload : List Byte)
  /-- FEATURES (R45). The Fledal FEATURES command returns the offered and the accepted feature sets. -/
  | features (tag : BitVec 16) (payload : List Byte)
  /-- NEGOTIATE (R45). The Fledal NEGOTIATE command forms the accepted set, closed under prerequisites, when no image is loaded, and otherwise replies ALREADY. -/
  | negotiate (tag : BitVec 16) (payload : List Byte)
  /-- IMAGE_STAGE (R465). The Fledal IMAGE_STAGE command writes one chunk into the staging area at the staged count, or completes with STAGE_ORDER or BAD_LEN. -/
  | imageStage (tag : BitVec 16) (payload : List Byte)
  /-- IMAGE_COMMIT (R31). The Fledal IMAGE_COMMIT command, with an activation instant A, moves the image state to VERIFY and starts the checks of the staged image. -/
  | imageCommit (tag : BitVec 16) (payload : List Byte)
  /-- IMAGE_STATUS (R464). The Fledal IMAGE_STATUS command returns FEAT_IMG_STATE, the pending patterns and the activation instant. -/
  | imageStatus (tag : BitVec 16) (payload : List Byte)
  /-- BYE (R463). The Fledal BYE command closes the session. -/
  | bye (tag : BitVec 16) (payload : List Byte)
  /-- TIME_OF_DAY (R464). The Fledal TIME_OF_DAY command gives firmware the UTC seconds marked by the last PPS_IN edge. -/
  | timeOfDay (tag : BitVec 16) (payload : List Byte)
  /-- FW_STAGE (R466). In recovery, the FW_STAGE command stages a firmware object into shared SRAM under the ordering rule of the staged count. -/
  | fwStage (tag : BitVec 16) (payload : List Byte)
  /-- FW_BOOT (R466). In recovery, the FW_BOOT command verifies the staged firmware object and boots it, or replies IMAGE_FAIL with the fail code. -/
  | fwBoot (tag : BitVec 16) (payload : List Byte)
  /-- FLDL_RESP (R461). A write of FLDL_RESP with GO ends the running mailbox command, clearing BUSY and setting DONE. -/
  | fldlResp (who : Party) (w : Word)
  /-- AUTONOMOUS_LOAD (R46). When the grace period ends with no HELLO registered, the device forms the accepted set from REQ_FEAT and starts loading the autonomous image from QSPI. -/
  | autonomousLoad (image : List Byte)
  /-- IMAGE_VERIFY_END (R31). The ordered checks of a staged image end, either refusing it with a fail code or passing it for full or partial application. -/
  | imageVerifyEnd
  /-- FULL_IMAGE_APPLY (R32). After ingest stops and the engines finish their instants, open seams are discarded, every pattern is applied, windows are reset and ingest resumes. -/
  | fullImageApply
  /-- ACTIVATION_INSTANT (R37). The UTC counter reaches A, after which instants with T0 at or after A use the new pattern banks. -/
  | activationInstant
  /-- PWIN_COMMIT (R41). A write of FAB_PWIN_VAL_HI commits a parameter window value that lies within its bounds and comes from a party that WHO names. -/
  | pwinCommit (who : Party) (n : Fin 4096) (hi : Word)
  /-- SERVO_SAMPLE_POST (R64). A write of TIME_SVO_POST posts a servo sample, which is judged on the next tick against the source and the lock state. -/
  | servoSamplePost (who : Party) (w : Word)
  /-- TIME_INC_WRITE (R58). A write of TIME_INC_HI commits the base increment, clamped to ±500 ppm, or is rejected and counted in REFUSED. -/
  | timeIncWrite (who : Party) (hi : Word)
  /-- TIME_SLEW_TICKS_WRITE (R58). A write of TIME_SLEW_TICKS starts, restarts or ends a slew, or is rejected and counted in REFUSED. -/
  | timeSlewTicksWrite (who : Party) (w : Word)
  /-- SLEW_END (R58). A running slew's tick count expires and the counter returns to the base increment. -/
  | slewEnd
  /-- TIME_SRC_WRITE (R64). A write of TIME_SRC records a new discipline source and, from LOCKED or HOLDOVER, enters HOLDOVER with cause SOURCE. -/
  | timeSrcWrite (who : Party) (w : Word)
  /-- REARM (R61). A write of TIME_CTRL.REARM within an authorised window moves the discipline state to ARMED. -/
  | rearm (who : Party) (w : Word)
  /-- HOLD_TIMEOUT (R64). With no accepted sample for the hold timeout, LOCKED enters HOLDOVER with cause TIMEOUT. -/
  | holdTimeout
  /-- ERR_LIMIT (R62). The published error estimate rises above TIME_ERR_LIMIT and ERR_LIMIT is raised. -/
  | errLimit
  /-- UTCOFS_WRITE (R55). A write of TIME_UTCOFS sets the UTC offset and schedules a leap second, or sets neither leap bit when both are written. -/
  | utcofsWrite (who : Party) (w : Word)
  /-- LEAP_APPLIED (R55). At the first UTC midnight after a leap bit is set, the offset changes by one second, the bit clears and LEAP_APPLIED is raised. -/
  | leapApplied
  /-- PPS_EDGE (R70). The selected PPS_IN edge is timestamped, corrected and held in TIME_PPS_LAST unless it follows the last accepted edge within 500 ms. -/
  | ppsEdge (rising : Bool) (half : Fin 8)
  /-- PPS_MISSING (R70). No PPS edge arrives within 1,100 ms, so PPS_MISS_CNT increments and PPS_PRESENT clears. -/
  | ppsMissing
  /-- TIME_NOW_READ (R83). A read of TIME_NOW_NS latches the seconds, fraction and mains angle of the same tick. -/
  | timeNowRead (who : Party)
  /-- TXTS_INFO_READ (R83). A read of TIME_TXTS_INFO latches the head entry of the transmit timestamp FIFO. -/
  | txtsInfoRead (who : Party)
  /-- TXTS_POP (R83). A read of TIME_TXTS_SEC_HI removes the head entry of the transmit timestamp FIFO. -/
  | txtsPop (who : Party)
  /-- MANG_UPDATE (R73). A tracker increment arriving over the bridge renews the per-tick increment of the mains angle. -/
  | mangUpdate (inc : BitVec 64) (freq : Fix40) (err : MemErr)
  /-- MANG_LOCK (R75). Ten consecutive cycles with phase error below 0.1° move the mains angle from ACQUIRE to LOCKED. -/
  | mangLock
  /-- MANG_UNLOCK (R75). Low level for 2 cycles, or frequency out of range, moves the mains angle from LOCKED to FREERUN. -/
  | mangUnlock
  /-- MANG_REACQUIRE (R75). Restored level and frequency move the mains angle from FREERUN to ACQUIRE. -/
  | mangReacquire
  /-- TACK_COMMIT (R76). A write of a tack's control word commits the whole tack entry at once. -/
  | tackCommit (who : Party) (k : Fin 64) (w : Word)
  /-- TACK_FIRE (R77). A tack falls due on its base counter and performs its action, advancing or disabling itself. -/
  | tackFire (k : Fin 64)
  /-- TPO_PULSE_END (R80). A TPO pulse's width expires and the pin returns to its inactive level. -/
  | tpoPulseEnd (pin : Fin 8)
  /-- LINK_UP (R86). An enabled Ethernet port trains, and its LINK bit sets. -/
  | linkUp (port : Fin 4)
  /-- LINK_DOWN (R86). A trained link is lost, and ETH_LINK_CNT counts it while an image is loaded. -/
  | linkDown (port : Fin 4)
  /-- FRAME_RECEIVE (R89). A received frame is timestamped, filtered, classified, checked, judged for PRP duplicates and delivered to its class at its last octet. -/
  | frameReceive (port : Fin 4) (rx : RxFrame) (errs : List (Nat × MemErr))
  /-- TCP_ACK_TIMER (R106). ACK_US after the first unacknowledged segment, the device sends a pure acknowledgement on a HW-mode connection. -/
  | tcpAckTimer (conn : Fin 4096)
  /-- HOST_RING_WRITE (R110). A staged host-class frame is written into the descriptors of its ring, truncated or dropped when buffers run out, and then completed. -/
  | hostRingWrite (ring : Fin 8) (bufs : List (BitVec 64))
  /-- HRX_RING_ENABLE (R108). A write that sets EN of a host receive ring from 0 to 1 applies BASE and CFG and sets HEAD and TAIL to 0. -/
  | hrxRingEnable (who : Party) (ring : Fin 8) (w : Word)
  /-- HRX_TAIL_WRITE (R108). The reader gives descriptors to a host receive ring by writing TAIL. -/
  | hrxTailWrite (who : Party) (ring : Fin 8) (w : Word)
  /-- HRX_IRQ_TIMER (R112). TIME µs after the first completed frame, a ring raises HRX_READY and sets its pending bit. -/
  | hrxIrqTimer (ring : Fin 8)
  /-- TQ_POP (R104). A write of ETH_TQ_POP releases the head entry of the time queue. -/
  | tqPop (who : Party) (w : Word)
  /-- PRP_LAN_FAIL (R96). A port of a PRP pair receives no frame carrying an RCT for 2 × PRP_LIFECHK while its partner does, and is marked silent. -/
  | prpLanFail (port : Fin 4)
  /-- PRP_SUPERVISION (R95). Every PRP_LIFECHK ms, the device queues a PRP supervision frame on both ports of a pair. -/
  | prpSupervision (pair : Fin 2)
  /-- FRAME_TRANSMIT (R113). A port starts the next frame from its transmit queues in strict priority, with an RCT on PRP pairs and a wake from LPI first when needed. -/
  | frameTransmit (port : Fin 4) (given : List (TxSource × List Byte))
  /-- LPI_TX_ENTER (R88). With TX_EN set, a transmitter idle for LPI_IDLE µs enters low-power idle. -/
  | lpiTxEnter (port : Fin 4)
  /-- LPI_RX (R88). The link partner enters or leaves receive low-power idle on an LPI-enabled port. -/
  | lpiRx (port : Fin 4) (enter : Bool)
  /-- DECODE_FRAME (R122). The decoders take a measurement frame, check it in order, convert its sources and hand them to the seam engine. -/
  | decodeFrame (reinj : Bool) (err : MemErr) (errs : List (Nat × MemErr))
  /-- STREAM_SILENT (R127). A stream passes no frame for RESEND_S s, sets SILENT and sends command 0x0002 if it has a template. -/
  | streamSilent (stream : Fin 16384)
  /-- COMMAND_RESEND (R127). Every RESEND_S s while a stream stays silent, the device resends command 0x0002. -/
  | commandResend (stream : Fin 16384)
  /-- DEC_CMD (R132). A write of DEC_CMD queues one C37.118 command frame, or counts it lost when the FIFO is full. -/
  | decCmd (who : Party) (w : Word)
  /-- DEC_CMD_SEND (R132). The command FIFO's head is built and sent in UDP, or placed in DEC_CMD_BUF, at most one per microsecond. -/
  | decCmdSend
  /-- REINJ_GO (R133). A write of DEC_REINJ_GO enters a reinjected TCP frame at decoding order 1, or is held until BUSY clears. -/
  | reinjGo (who : Party) (w : Word)
  /-- UPSTREAM_FRAME_BUILD (R135). Once every item an upstream stream draws on for an instant is ready, its C37.118 frame is built and queued. -/
  | upstreamFrameBuild (stream : Fin 16) (errs : List (Nat × MemErr))
  /-- SEAM_ITEM_ADMIT (R148). The seam engine takes a decoded item, drops it as early, treats it as late, opens its seam, discards it as a duplicate or writes its slot. -/
  | seamItemAdmit (errs : List (Nat × MemErr))
  /-- SEAM_OPEN_TIME (R150). When the counter reaches T0(H + 1), the group opens the instant, skipping and force-closing as needed. -/
  | seamOpenTime (group : Fin 256) (errs : List (Nat × MemErr))
  /-- SEAM_DEADLINE (R152). The counter reaches T0 + D for an open seam, which becomes ready with cause DEADLINE. -/
  | seamDeadline (group : Fin 256)
  /-- SEAM_CLOSE (R154). A ready seam whose lower seams have closed is frozen, counted and closed, and its token is emitted. -/
  | seamClose (group : Fin 256) (errs : List (Nat × MemErr))
  /-- HIST_RECORD_WRITE (R164). The history writer writes a closed seam's record into the history ring and advances the write pointer. -/
  | histRecordWrite (errs : List MemErr)
  /-- SEAM_LRN_RESET (R157). A write of SEAM_LRN_RESET clears the learners of one group's members. -/
  | seamLrnReset (who : Party) (w : Word)
  /-- SEAM_MEND_POP (R159). A write of SEAM_MEND_POP releases the oldest mend record. -/
  | seamMendPop (who : Party) (w : Word)
  /-- SEAM_SLOT_SEL (R168). A write of SEAM_SLOT_SEL starts a 256-byte snapshot of a slot with ABSENT merged. -/
  | seamSlotSel (who : Party) (w : Word)
  /-- SLOT_SNAPSHOT_READY (R168). A slot snapshot completes and SEAM_SLOT_STAT.READY sets. -/
  | slotSnapshotReady (err : MemErr)
  /-- FIFO_STALE (R166). A non-empty cross-clock FIFO goes unread for its stale-tail time, raises its stale event once and counts it. -/
  | fifoStale (fifo : Fifo)
  /-- PANEL_TOKEN_RECEIVE (R186). A panel's instant assembler files a seam token and releases complete instants to the engine queue. -/
  | panelTokenReceive (panel : Fin 16)
  /-- OPERAND_LOAD (R188). An idle panel takes the oldest queued instant and loads its operand list from the seam store. -/
  | operandLoad (panel : Fin 16) (errs : LoadErrs)
  /-- ENGINE_START (R188). At the later of 4,000 cycles after C and the end of the load, a panel loads its counters, increments INST and triggers START_NODE. -/
  | engineStart (panel : Fin 16)
  /-- TOKEN_ARRIVE (R177). An operand token reaches a tile's matching store, is filed under its key, replaces a filled port or waits when the store is full. -/
  | tokenArrive (tile : Fin 256) (err : MemErr)
  /-- DEP_COUNTER_FIRE (R181). A dependence counter reaches zero, emits its trigger tokens and reloads INIT. -/
  | depCounterFire (panel : Fin 16) (k : Fin 64)
  /-- RING_BLOCK_WRITE (R182). A BLOCK cell writes 8 lanes into the destination tile's SRAM and decrements the named counter. -/
  | ringBlockWrite (panel : Fin 16) (err : MemErr)
  /-- ENGINE_INSTANT_END (R190). The lead panel's DONE ends an engine instant: orphans are swept, the span is recorded and the completion goes to the cores. -/
  | engineInstantEnd (panel : Fin 16) (voids : List Nat)
  /-- SCRUB_WORD (R197). A tile's next scrub word falls due and is read, checked and corrected. -/
  | scrubWord (tile : Fin 256) (err : MemErr)
  /-- FAB_TWIN_SEL (R199). A write of FAB_TWIN_SEL with GO reads one tile word through the window share. -/
  | fabTwinSel (who : Party) (w : Word)
  /-- TWIN_READY (R199). The tile window read completes and FAB_TWIN_STAT.READY sets. -/
  | twinReady (err : MemErr)
  /-- MUL (R173). The microcode MUL operation sets an accumulator to the exact product of two 40-bit operands. -/
  | mul (t : Fin 256) (f : Firing)
  /-- MACC (R173). The microcode MACC operation adds a product to an accumulator with saturation. -/
  | macc (t : Fin 256) (f : Firing)
  /-- MSUB (R173). The microcode MSUB operation subtracts a product from an accumulator with saturation. -/
  | msub (t : Fin 256) (f : Firing)
  /-- CMAC (R173). The microcode CMAC operation accumulates a complex phasor product into an accumulator pair. -/
  | cmac (t : Fin 256) (f : Firing)
  /-- EXTR (R173). The microcode EXTR operation extracts a scaled, rounded 40-bit value from an accumulator. -/
  | extr (t : Fin 256) (f : Firing)
  /-- CLR (R179). The microcode CLR operation clears an accumulator. -/
  | clr (t : Fin 256) (f : Firing)
  /-- ACCADD (R179). The microcode ACCADD operation adds C × 2^SH to an accumulator. -/
  | accadd (t : Fin 256) (f : Firing)
  /-- ADD (R179). The microcode ALU ADD operation adds two 40-bit values. -/
  | add (t : Fin 256) (f : Firing)
  /-- SUB (R179). The microcode ALU SUB operation subtracts two 40-bit values. -/
  | sub (t : Fin 256) (f : Firing)
  /-- NEG (R179). The microcode ALU NEG operation negates a value. -/
  | neg (t : Fin 256) (f : Firing)
  /-- ABS (R179). The microcode ALU ABS operation returns an absolute value. -/
  | abs (t : Fin 256) (f : Firing)
  /-- MIN (R179). The microcode ALU MIN operation returns the smaller value. -/
  | min (t : Fin 256) (f : Firing)
  /-- MAX (R179). The microcode ALU MAX operation returns the larger value. -/
  | max (t : Fin 256) (f : Firing)
  /-- CMPLT (R179). The microcode ALU CMPLT operation compares for less-than. -/
  | cmplt (t : Fin 256) (f : Firing)
  /-- CMPGE (R179). The microcode ALU CMPGE operation compares for greater-or-equal. -/
  | cmpge (t : Fin 256) (f : Firing)
  /-- AND (R179). The microcode ALU AND operation forms a bitwise AND. -/
  | and (t : Fin 256) (f : Firing)
  /-- OR (R179). The microcode ALU OR operation forms a bitwise OR. -/
  | or (t : Fin 256) (f : Firing)
  /-- XOR (R179). The microcode ALU XOR operation forms a bitwise XOR. -/
  | xor (t : Fin 256) (f : Firing)
  /-- SHL (R179). The microcode ALU SHL operation shifts left. -/
  | shl (t : Fin 256) (f : Firing)
  /-- SHRA (R179). The microcode ALU SHRA operation shifts right arithmetically. -/
  | shra (t : Fin 256) (f : Firing)
  /-- SEL (R179). The microcode ALU SEL operation selects A when C is non-zero and B otherwise. -/
  | sel (t : Fin 256) (f : Firing)
  /-- MOVI (R179). The microcode ALU MOVI operation loads a sign-extended immediate. -/
  | movi (t : Fin 256) (f : Firing)
  /-- ROT (R174). The microcode CORDIC ROT operation rotates a phasor by an A40 angle. -/
  | rot (t : Fin 256) (f : Firing)
  /-- VEC (R174). The microcode CORDIC VEC operation returns the magnitude and angle of a phasor. -/
  | vec (t : Fin 256) (f : Firing)
  /-- SINCOS (R174). The microcode CORDIC SINCOS operation returns the cosine and sine of an angle. -/
  | sincos (t : Fin 256) (f : Firing)
  /-- ATAN2 (R174). The microcode CORDIC ATAN2 operation returns the angle of (y, x). -/
  | atan2 (t : Fin 256) (f : Firing)
  /-- DIV (R174). The microcode DIV operation returns a correctly rounded quotient, VOID on a zero divisor. -/
  | div (t : Fin 256) (f : Firing)
  /-- RECIP (R174). The microcode RECIP operation returns a correctly rounded reciprocal. -/
  | recip (t : Fin 256) (f : Firing)
  /-- SQRT (R174). The microcode SQRT operation returns a correctly rounded square root, VOID for a negative operand. -/
  | sqrt (t : Fin 256) (f : Firing)
  /-- RSQRT (R174). The microcode RSQRT operation returns a correctly rounded reciprocal square root. -/
  | rsqrt (t : Fin 256) (f : Firing)
  /-- LD40 (R179). The microcode LD40 operation loads one 40-bit lane from tile SRAM. -/
  | ld40 (t : Fin 256) (f : Firing)
  /-- LD64 (R179). The microcode LD64 operation loads one 64-bit word from tile SRAM. -/
  | ld64 (t : Fin 256) (f : Firing)
  /-- ST40 (R179). The microcode ST40 operation stores one 40-bit lane. -/
  | st40 (t : Fin 256) (f : Firing)
  /-- ST64 (R179). The microcode ST64 operation stores one 64-bit word. -/
  | st64 (t : Fin 256) (f : Firing)
  /-- LDX40 (R179). The microcode LDX40 operation loads a lane at an address indexed by register A. -/
  | ldx40 (t : Fin 256) (f : Firing)
  /-- STX40 (R179). The microcode STX40 operation stores a lane at an address indexed by register A. -/
  | stx40 (t : Fin 256) (f : Firing)
  /-- SEND_LOCAL (R179). The microcode SEND LOCAL operation sends a token to a tile of the same panel. -/
  | sendLocal (t : Fin 256) (f : Firing)
  /-- SEND_RING (R182). The microcode SEND RING operation sends a TOKEN cell by a route entry. -/
  | sendRing (t : Fin 256) (f : Firing)
  /-- SEND_CNT (R181). The microcode SEND CNT operation decrements a dependence counter. -/
  | sendCnt (t : Fin 256) (f : Firing)
  /-- SEND_ALARM (R182). The microcode SEND ALARM operation sends an alarm entry to the alarm path. -/
  | sendAlarm (t : Fin 256) (f : Firing)
  /-- SEND_DONE (R190). The microcode SEND DONE operation sends the DONE cell that ends the engine instant. -/
  | sendDone (t : Fin 256) (f : Firing)
  /-- SEND_BLOCK (R182). The microcode SEND BLOCK operation sends 8 SRAM lanes as a BLOCK cell. -/
  | sendBlock (t : Fin 256) (f : Firing)
  /-- NOP (R179). The microcode NOP operation does nothing. -/
  | nop (t : Fin 256) (f : Firing)
  /-- LOOP (R179). The microcode LOOP operation resends its token with TAG + 1 until TAG reaches register A. -/
  | loopTok (t : Fin 256) (f : Firing)
  /-- END (R179). The microcode END operation ends a node sequence. -/
  | endSeq (t : Fin 256) (f : Firing)
  /-- TRAP (R179). The microcode TRAP operation raises the orphan fault. -/
  | trap (t : Fin 256) (f : Firing)
  /-- REFAC_GO (R217). A write of SE_REFAC_CTRL.GO in IDLE takes queued requests and starts a refactorisation, or is rejected. -/
  | refacGo (who : Party) (inst : Fin 4) (w : Word)
  /-- REFAC_READY (R218). A refactorisation's computation ends, and its state enters READY. -/
  | refacReady (inst : Fin 4)
  /-- SE_BUS_SEL (R224). A write of SE_BUS_SEL takes a snapshot of one bus from the last instant. -/
  | seBusSel (who : Party) (inst : Fin 4) (w : Word)
  /-- SE_CHAN_SEL (R224). A write of SE_CHAN_SEL takes a snapshot of one channel. -/
  | seChanSel (who : Party) (inst : Fin 4) (w : Word)
  /-- THR_MON_SEL (R248). A write of THR_MON_SEL takes a snapshot of one monitor. -/
  | thrMonSel (who : Party) (inst : Fin 4) (w : Word)
  /-- OSC_PAIR_SEL (R274). A write of OSC_PAIR_SEL takes a snapshot of one signal-band pair. -/
  | oscPairSel (who : Party) (inst : Fin 4) (w : Word)
  /-- ALARM_ENTRY_RECEIVE (R280). The alarm path takes an alarm entry from crossing 3, opening or completing its alarm instant or discarding it as stale. -/
  | alarmEntryReceive
  /-- MERGE_TIMEOUT (R280). MERGE_US after it opened, an incomplete alarm instant becomes due. -/
  | mergeTimeout
  /-- ALARM_MERGE (R281). A due alarm instant is merged in ascending T0, updating class counts, states, pins, GOOSE and host records. -/
  | alarmMerge (errs : List (Nat × MemErr))
  /-- GOOSE_REPEAT (R285). A template's retransmission interval expires and the message is sent again with sqNum + 1. -/
  | gooseRepeat (tmpl : Fin 64)
  /-- CLASS_HOLD_EXPIRY (R282). A class's minimum hold time expires, moving it from ON or HOLD to IDLE or LATCH. -/
  | classHoldExpiry (cls : Fin 256)
  /-- ALM_ACK (R282). A write of ALM_ACK releases a latched class. -/
  | almAck (who : Party) (w : Word)
  /-- ALM_PIN_FORCE (R283). A write of ALM_PIN_FORCE drives or releases ALM_N pins by force. -/
  | almPinForce (who : Party) (w : Word)
  /-- MOD_LOSS (R293). A channel's bitstream holds one value for STUCK_N modulator clocks, and its MOD_LOSS bit sets. -/
  | modLoss (ch : Fin 24)
  /-- STN_BANK_SWAP (R298). A write of STN_BANK_SWAP starts, holds or replaces a coefficient bank cross-fade request. -/
  | stnBankSwap (who : Party) (w : Word)
  /-- STN_BANK_DONE (R298). A cross-fade's last sample makes the new bank active and handles any held request. -/
  | stnBankDone
  /-- REPHASE_END (R300). Station-input sample instants return to the grid after a time step, ending the re-phase. -/
  | rephaseEnd
  /-- RANGE_SWITCH (R301). A current moves between its LOW and HIGH range paths. -/
  | rangeSwitch (cur : Fin 8) (high : Bool)
  /-- BAY_CYCLE_END (R302). At a zero of its tracker angle, a bay writes its per-cycle quantities and advances its energy accumulators. -/
  | bayCycleEnd (bay : Fin 2) (m : BayCycle)
  /-- ZERO_CROSSING (R303). An armed signal crosses zero going positive, and its crossing time and period are recorded. -/
  | zeroCrossing (z : Fin 16)
  /-- ZC_TIMEOUT (R303). A signal has no crossing for ZC_TMO ms, and its ZC_LOST bit sets. -/
  | zcTimeout (z : Fin 16)
  /-- LOCAL_PMU_ITEM (R304). After its window closes, the station inputs compute the local synchrophasor item for T0 and send it over bridge crossing 1. -/
  | localPmuItem (m : LocalItem) (err : MemErr)
  /-- EPO_PULSE_START (R310). An owed energy pulse starts on its EPO pin after the minimum inactive gap. -/
  | epoPulseStart (pin : Fin 4)
  /-- EPO_PULSE_END (R310). An EPO pulse's width expires and the pin returns to its inactive level. -/
  | epoPulseEnd (pin : Fin 4)
  /-- PERIODIC_SAVE (R311). Every SAVE_PERIOD s, an energy save of kind PERIODIC starts in the slot that is not valid. -/
  | periodicSave
  /-- SAVE_COMPLETE (R311). An energy save finishes writing and its slot becomes the valid slot. -/
  | saveComplete
  /-- STN_ECLR (R309). An authorised write of STN_ECLR zeroes the energy accumulators, residues and wrap bits and starts a CLEAR save. -/
  | stnEclr (who : Party) (w : Word)
  /-- AUX_CTRL_START (R319). A write of AUX_CTRL.START starts a sequencer scan, or holds the start while a scan runs. -/
  | auxCtrlStart (who : Party) (w : Word)
  /-- AUX_CONT_START (R319). The continuous-scan period expires and starts or holds a scan. -/
  | auxContStart
  /-- AUX_CONVERSION_END (R319). A sequencer conversion ends, its entry's result is written and the scan advances or ends. -/
  | auxConversionEnd (code : BitVec 16) (err : MemErr)
  /-- AUX_URGENT (R320). A write of AUX_URGENT queues an urgent conversion, or drops it when the queue is full. -/
  | auxUrgent (who : Party) (w : Word)
  /-- AUX_URGENT_END (R320). An urgent conversion ends and its result goes to AUX_URG_RESULT. -/
  | auxUrgentEnd (code : BitVec 16) (err : MemErr)
  /-- AUX_URG_READ (R323). A read of AUX_URG_RESULT returns the result and clears VALID. -/
  | auxUrgRead (who : Party)
  /-- CAP_TRIG_ARM (R329). A write of CAP_TRIG_ARM arms a trigger, which fires at once if IMMEDIATE. -/
  | capTrigArm (who : Party) (w : Word)
  /-- CAP_TRIG_FIRE (R330). A write of CAP_TRIG_FIRE fires an armed trigger at the write's time. -/
  | capTrigFire (who : Party) (w : Word)
  /-- LEVEL_TRIGGER (R330). A station-input sample first meets an armed LEVEL trigger's condition and the trigger fires. -/
  | levelTrigger (trig : Fin 64)
  /-- CAP_STOP (R331). A write of CAP_PLAN_CTRL.STOP stops a plan and abandons its record in progress. -/
  | capStop (who : Party) (w : Word)
  /-- CAP_REARM (R331). A write of CAP_PLAN_CTRL.REARM re-arms a stopped plan. -/
  | capRearm (who : Party) (w : Word)
  /-- CAP_SEAM_ROW (R333). Within 1 ms of a group's close, a SEAM plan writes a row of that seam's lanes. -/
  | capSeamRow (plan : Fin 16)
  /-- CAP_DONE (R331). A record holds POST rows from its trigger row, is completed with its header and measurements, and the next slot is armed. -/
  | capDone (plan : Fin 16) (err : MemErr) (errAt : Nat)
  /-- CAP_SPILL_COPY (R334). A completed record is copied to the spill ring, or a MARK is written and the spill stops. -/
  | capSpillCopy
  /-- CAP_SPILL_RPTR_WRITE (R334). A write of CAP_SPILL_RPTR frees spill space and may resume a stopped spill. -/
  | capSpillRptrWrite (who : Party) (hi : Word)
  /-- FIRN_UPDATE (R337). A watched value from the update queue is applied to its quantity's current halves. -/
  | firnUpdate (err : List MemErr)
  /-- FIRN_PERIOD (R336). The counter reaches a period boundary, and each quantity's halves turn over. -/
  | firnPeriod (period : Fin 3)
  /-- FIRN_CLR (R338). An authorised write of FIRN_CLR resets the chosen periods and writes a clear record. -/
  | firnClr (who : Party) (w : Word)
  /-- BOOT_COMPLETE (R347). The boot ROM finishes loading and verifying the firmware object, jumping to it or entering recovery. -/
  | bootComplete (object : List Byte)
  /-- CORE_RELEASE (R347). A write of DISP_CORE_RUN releases or holds cores 1 to 7. -/
  | coreRelease (who : Party) (w : Word)
  /-- DTAKE (R355). A read of dtake takes the core's bobbin slot and makes its thread RUNNING, or returns zero. -/
  | dtake (core : Fin 8)
  /-- DDONE (R356). A write of ddone ends the running activation and decrements DONE_JOB, or counts an orphan. -/
  | ddone (core : Fin 8) (v : BitVec 64)
  /-- DPOST (R351). A write of dpost places a token in the core post buffer, stalling while the buffer is full. -/
  | dpost (core : Fin 8) (v : BitVec 64)
  /-- DCANCEL (R358). A write of dcancel cancels one thread under the thread state rules. -/
  | dcancel (core : Fin 8) (v : BitVec 64)
  /-- DJOB (R353). A write of djob decrements one job by 1. -/
  | djob (core : Fin 8) (v : BitVec 64)
  /-- DIPI (R345). A write of dipi sets MSIP of each named core. -/
  | dipi (core : Fin 8) (v : BitVec 64)
  /-- MTICKCMP_WRITE (R345). A write of mtickcmp sets the compare value for the core's machine timer. -/
  | mtickcmpWrite (core : Fin 8) (v : BitVec 64)
  /-- MTIMER_EXPIRY (R345). The time CSR reaches mtickcmp, and MTIP becomes pending. -/
  | mtimerExpiry (core : Fin 8)
  /-- DISP_POST (R351). A write of DISP_POST places a token in the external intake. -/
  | dispPost (who : Party) (w : Word)
  /-- DISP_CANCEL (R358). A write of DISP_CANCEL cancels one thread. -/
  | dispCancel (who : Party) (w : Word)
  /-- DISP_JOB_DEC (R353). A write of DISP_JOB_DEC decrements one job. -/
  | dispJobDec (who : Party) (w : Word)
  /-- NOTICE_TAKE (R350). The dispatcher takes a seam-close, engine DONE, merge or refactorisation notice and decrements the job its map entry names. -/
  | noticeTake
  /-- JOB_FIRE (R353). A job's counter reaches zero, posts its token and reloads INIT. -/
  | jobFire (job : Fin 256) (errs : List (Nat × MemErr))
  /-- TOKEN_FILE (R352). The dispatcher takes a token from the intake or the post buffer and files, replaces or discards it, readying the thread when complete. -/
  | tokenFile (errs : List (Nat × MemErr))
  /-- SLOT_FILL (R354). An empty bobbin slot of a running core is filled with the best eligible ready thread and its argument block copy starts. -/
  | slotFill (core : Fin 8)
  /-- SLOT_VALID (R354). The argument block copy ends, the slot becomes valid and BOBBIN becomes pending. -/
  | slotValid (core : Fin 8) (errs : List (Nat × MemErr))
  /-- TRACE_WRITE (R359). A buffered trace entry is written to the trace ring, with a LOST entry first after drops. -/
  | traceWrite
  /-- NDK_LINK_UP (R364). A Noduko receiver reaches block lock and 64 valid cells, and comes up. -/
  | ndkLinkUp (lane : Fin 2)
  /-- NDK_LINK_DOWN (R364). A Noduko receiver loses block lock or has no valid cell for 10 µs, goes down and the ring wraps. -/
  | ndkLinkDown (lane : Fin 2)
  /-- NDK_CELL_RECEIVE (R367). A received cell is checked, forwarded or removed, and handled per its kind when addressed to the device. -/
  | ndkCellReceive (lane : Fin 2) (cell : List Byte) (errs : List (Nat × MemErr))
  /-- NDK_POLL_LOST (R368). A round does not return within ROUND_TMO, so the master restarts it. -/
  | ndkPollLost
  /-- NDK_MASTER (R369). A MASTER_EN device sees no POLL for its timeout and becomes station master. -/
  | ndkMaster
  /-- NDK_ACK_TIMER (R370). ACK_US after the first unacknowledged DATA cell, the receiver sends an ACK. -/
  | ndkAckTimer (dev : Fin 8)
  /-- NDK_RETRANSMIT (R370). RTX_US after a send, an unacknowledged DATA cell is resent, or abandoned after RTX_MAX sends. -/
  | ndkRetransmit (errs : List (Nat × MemErr))
  /-- NDK_TIME_SEND (R372). Every TIME_MS ms, the master sends a TIME cell with its origin timestamp. -/
  | ndkTimeSend
  /-- NDK_HOP_ECHO (R372). At link-up and every second, a lane-level echo measures the hop's one-way delay. -/
  | ndkHopEcho (lane : Fin 2) (delay : BitVec 32)
  /-- NDK_UNWRAP (R373). A link up for UNWRAP_MS continuously undoes its wrap. -/
  | ndkUnwrap (lane : Fin 2)
  /-- MIRROR_TIMEOUT (R375). A standby hears no cell from its peer for MIRROR_TMO and takes over when the SERIALs match. -/
  | mirrorTimeout
  /-- NDK_MIRROR_TAKE (R375). A write of NDK_MIRROR_CTRL.TAKE makes the device ACTIVE and sends TAKE in its STATUS. -/
  | ndkMirrorTake (who : Party) (w : Word)
  /-- SUPERFRAME_START (R382). At each superframe start the coordinator sends the secured Enhanced Beacon. -/
  | superframeStart
  /-- RADIO_FRAME_RECEIVE (R385). A received radio frame is checked, and accepted frames update drift and enter the receive queue. -/
  | radioFrameReceive (rx : RadioRx) (err : MemErr) (errs : List (Nat × MemErr))
  /-- RADIO_ACK_SEND (R387). 1,000 µs after an accepted frame with AR, the device sends its Enh-Ack with a time correction. -/
  | radioAckSend
  /-- SLOT_MISS (R389). A sensor's slot ends without a frame passing order 4, which counts a miss and may queue a wake-up or mark the sensor LOST. -/
  | slotMiss (sensor : Fin 256)
  /-- RADIO_WAKE (R390). WU_LEAD_US before the superframe, the device sends a sensor's wake-up signature and opens its recovery slot. -/
  | radioWake (sensor : Fin 256)
  /-- RADIO_DOWNLINK_SEND (R392). 1,000 µs after an acknowledgement with Frame Pending, the device sends the sensor's queued downlink frame. -/
  | radioDownlinkSend
  /-- DOWNLINK_ACK_TIMEOUT (R392). A downlink frame is not acknowledged in time and is resent later or discarded after three sends. -/
  | downlinkAckTimeout
  /-- RADIO_TXQ_CTRL (R392). A write of RADIO_TXQ_CTRL queues a downlink frame, or counts a failure when the queue is full. -/
  | radioTxqCtrl (who : Party) (w : Word)
  /-- RADIO_RXQ_POP (R388). A write of RADIO_RXQ_POP releases the head of the radio receive queue. -/
  | radioRxqPop (who : Party) (w : Word)
  /-- DUTY_HOUR_END (R393). The UTC hour ends, resetting the transmit time used and releasing withheld transmissions. -/
  | dutyHourEnd
  /-- STATUS (R425). The key-store STATUS command returns KEY_UID and KEY_STATUS. -/
  | status (mbx : Fin 2) (who : Party)
  /-- GENERATE (R425). The key-store GENERATE command writes a slot with random material. -/
  | generate (mbx : Fin 2) (who : Party) (inHand : BitVec 7)
  /-- IMPORT_PLAIN (R425). The key-store IMPORT_PLAIN command writes plaintext material into a slot. -/
  | importPlain (mbx : Fin 2) (who : Party) (inHand : BitVec 7)
  /-- IMPORT_WRAPPED (R425). The key-store IMPORT_WRAPPED command unwraps AES-256-GCM material into a slot. -/
  | importWrapped (mbx : Fin 2) (who : Party) (inHand : BitVec 7)
  /-- DERIVE (R407). The key-store DERIVE command writes a child slot by KMAC256 from a parent. -/
  | derive (mbx : Fin 2) (who : Party) (inHand : BitVec 7)
  /-- REVOKE (R408). The key-store REVOKE command revokes a slot and all its descendants in one step. -/
  | revoke (mbx : Fin 2) (who : Party) (inHand : BitVec 7)
  /-- BIND_SET (R425). The key-store BIND_SET command sets a binding's CUR and NEXT slots. -/
  | bindSet (mbx : Fin 2) (who : Party)
  /-- BIND_ROLL (R425). The key-store BIND_ROLL command moves NEXT to CUR. -/
  | bindRoll (mbx : Fin 2) (who : Party)
  /-- VERIFY (R417). The key-store VERIFY command checks a public-key digest and an ML-DSA-87 signature. -/
  | verify (mbx : Fin 2) (who : Party)
  /-- ATTEST (R423). The key-store ATTEST command writes a state block and its KMAC256 response. -/
  | attest (mbx : Fin 2) (who : Party)
  /-- PRIV_NONCE (R421). The key-store PRIV_NONCE command issues 32 random bytes as the mailbox's nonce. -/
  | privNonce (mbx : Fin 2) (who : Party)
  /-- TIME_REARM (R422). A verified privileged TIME_REARM command permits one write of TIME_CTRL.REARM within 1 s. -/
  | timeRearm (mbx : Fin 2) (who : Party)
  /-- CLEAR_STATS (R422). A verified privileged CLEAR_STATS command permits a write of FIRN_CLR and, with ENERGY, of STN_ECLR. -/
  | clearStats (mbx : Fin 2) (who : Party)
  /-- LIFECYCLE (R413). A verified privileged LIFECYCLE command starts a permitted life-cycle transition. -/
  | lifecycle (mbx : Fin 2) (who : Party)
  /-- UNLOAD (R35). A verified privileged UNLOAD command stops measurement, clears the patterns and returns the image state to NONE. -/
  | unload (mbx : Fin 2) (who : Party)
  /-- INSTALL_PK (R422). A verified privileged INSTALL_PK command writes a KIND 4 public-key digest slot. -/
  | installPk (mbx : Fin 2) (who : Party) (inHand : BitVec 7)
  /-- AUTH_WINDOW_EXPIRY (R422). A privileged command's authorisation window closes 1 s after verification. -/
  | authWindowExpiry (stats : Bool)
  /-- NONCE_LAPSE (R421). A mailbox nonce lapses 60 s after issue. -/
  | nonceLapse (mbx : Fin 2)
  /-- MIGRATION_COMPLETE (R413). A life-cycle migration finishes re-tagging, zeroes the old roots and clears MIGRATING. -/
  | migrationComplete (inHand : BitVec 7)
  /-- TAG_VERIFY_SWEEP (R402). The hourly background sweep verifies every slot tag. -/
  | tagVerifySweep (damaged : BitVec 64) (inHand : BitVec 7)
  /-- KEY_TAMPER (R415). A tamper source is detected: the roots are zeroed, the B fields reset and delivered keys withdrawn. -/
  | keyTamper (cause : Fin 6) (inHand : BitVec 7)
  /-- LEVEL_FAULT_ONSET (R430). A level fault condition begins, such as loss of PLL lock, REFCLK or bridge flits, or a critical temperature. -/
  | levelFaultOnset (src : Fin 96) (info : BitVec 24) (noRec : Bool)
  /-- FAULT_CLEAR (R433). A write of 1 to a FLT_STICKY bit clears it and its record, which re-sets if a level condition persists. -/
  | faultClear (who : Party) (k : Fin 3) (w : Word)
  /-- FAULT_INJECT (R435). A write of FLT_INJ arms, replaces or cancels a check-bit inversion for a checker. -/
  | faultInject (who : Party) (w : Word)
  /-- EVENT_CLEAR (R436). A write of 1 to an FLT_EVT_PEND bit clears a pending event, updating INT_N, MEIP and vector conditions. -/
  | eventClear (who : Party) (k : Fin 4) (w : Word)
  /-- POR (R438). A power-on reset from supply detectors, SUPMON below the reset level or release from HOLD. -/
  | por (supply : Bool) (batLost : Bool)
  /-- PIN_RESET (R438). RESET_N held low for at least 1 µs causes a PIN reset. -/
  | pinReset
  /-- SOFT_RESET (R438). A write of PWR_RESET with its key causes a SOFT reset. -/
  | softReset (who : Party) (w : Word)
  /-- LINK_RESET (R438). A PCI Express hot reset causes a LINK reset, or with LINK_MODE = 1 resets only the PCIe core and host queues. -/
  | linkReset
  /-- RESET_SEQUENCE_END (R439). The reset sequence ends, core 0 starts the boot ROM and event RESET is raised. -/
  | resetSequenceEnd
  /-- DDR_TRAINED (R439). DDR5 training ends, or fails and raises fault source 34. -/
  | ddrTrained (ch : Fin 2) (ok : Bool) (size : BitVec 8)
  /-- WDT_START (R440). A write of PWR_WDT_CFG with EN starts the watchdog, which then locks. -/
  | wdtStart (who : Party) (w : Word)
  /-- WDT_KICK (R440). A write of PWR_WDT_KICK with its key restarts the period and clears WARNED. -/
  | wdtKick (who : Party) (w : Word)
  /-- WDT_WARN (R440). The watchdog's first expiry sets WARNED, raises fault 28 and restarts the period. -/
  | wdtWarn
  /-- WDT_RESET (R440). A second watchdog expiry with WARNED set causes a WDT reset. -/
  | wdtReset
  /-- PARK_REQUEST (R444). A write of PWR_STATE_CTRL with TARGET PARK requests entry to PARK, held during VERIFY or migration. -/
  | parkRequest (who : Party) (w : Word)
  /-- RUN_REQUEST (R442). A write of PWR_STATE_CTRL with TARGET RUN requests return from PARK. -/
  | runRequest (who : Party) (w : Word)
  /-- HOLD_REQUEST (R445). A write of PWR_STATE_CTRL with TARGET HOLD stops measurement, makes a HOLD save and powers down all but the battery domain. -/
  | holdRequest (who : Party) (w : Word)
  /-- PWR_STATE (R444). An entry to PARK or a return to RUN completes and PWR_STATE is raised. -/
  | pwrState
  /-- SUPPLY_WARN (R447). SUPMON falls below the warning level, SUPWARN sets and a WARNING energy save starts. -/
  | supplyWarn (mv : BitVec 12)
  /-- SUPPLY_DIP (R447). SUPMON rises back above the warning level before the reset level, and SUPWARN clears. -/
  | supplyDip (mv : BitVec 12)
  /-- THERMAL (R447). The junction temperature rises above PWR_TEMP_WARN, and THERMAL is raised. -/
  | thermal (temp : BitVec 12)
  /-- HQ_RING_ENABLE (R457). A write that sets EN of a host completion ring from 0 to 1 applies BASE, CFG and WB and zeroes HEAD and TAIL. -/
  | hqRingEnable (who : Party) (q : Fin 2) (w : Word)
  /-- HQ_RING_DISABLE (R457). A write that clears EN of a host completion ring completes the entry in flight, writes the final HEAD and stops the ring. -/
  | hqRingDisable (who : Party) (q : Fin 2) (w : Word)
  /-- HQ_RING_WRITE (R458). With room and DMA running, a host queue entry is written to its ring, followed by the HEAD writeback. -/
  | hqRingWrite (q : Fin 2)
  /-- HQ_RING_IRQ_TIMER (R457). TIME µs after the first entry, the ring's pending bit sets. -/
  | hqRingIrqTimer (q : Fin 2)
  /-- DMA_RESUME (R454). Host DMA resumes, held MSI-X messages are sent and the queues drain. -/
  | dmaResume
  /-- BAR2_READ (R455). A BAR2 read returns DDR5 data through the window, poisoned when uncorrectable. -/
  | bar2Read (off : BitVec 32) (len : BitVec 13) (err : MemErr)
  /-- BAR2_WRITE (R455). A BAR2 write stores into DDR5 through the window, by read-modify-write when narrower than 8 bytes. -/
  | bar2Write (off : BitVec 32) (data : List Byte) (err : MemErr)
  /-- QSPI_COMMAND (R467). A write of HQ_QSPI_CTRL with GO issues a flash command from firmware. -/
  | qspiCommand (who : Party) (w : Word)
  /-- QSPI_DONE (R467). A firmware flash command finishes and BUSY clears. -/
  | qspiDone (data : List Byte)
  /-- I2C_READ (R468). An I2C transaction writes an index and reads registers of the target subset from it. -/
  | i2cRead (index : BitVec 16) (count : BitVec 8)
  /-- UART_RX (R469). A byte received on URXD enters the receive FIFO, or is dropped and counted when the FIFO is full. -/
  | uartRx (b : Byte)
  /-- UART_DATA_WRITE (R472). A write of HQ_UART_DATA queues a byte for transmission. -/
  | uartDataWrite (who : Party) (w : Word)
  /-- UART_DATA_READ (R472). A read of HQ_UART_DATA takes a byte from the receive FIFO. -/
  | uartDataRead (who : Party)
  /-- BYPASS (R470). The JTAG BYPASS instruction. -/
  | bypass (tdi : List Bool)
  /-- IDCODE (R470). The JTAG IDCODE instruction returns 0x1916_0553. -/
  | idcode
  /-- SAMPLE_PRELOAD (R470). The JTAG SAMPLE/PRELOAD instruction. -/
  | samplePreload (pins : List Bool) (tdi : List Bool)
  /-- EXTEST (R470). The JTAG EXTEST instruction. -/
  | extest (pins : List Bool) (tdi : List Bool)
  /-- CLAMP (R470). The JTAG CLAMP instruction. -/
  | clamp (tdi : List Bool)
  /-- HIGHZ (R470). The JTAG HIGHZ instruction. -/
  | highz (tdi : List Bool)
  /-- TIME_TICK (R52). On each tick of the 250 MHz time domain, the UTC counter advances by the increment in force and the mains angle by its per-tick increment. -/
  | timeTick
  /-- FAB_UE_ADDR_READ (R199). A read of FAB_UE_ADDR returns the first uncorrectable address and clears VALID. -/
  | fabUeAddrRead (who : Party)
  /-- SE_BUS_READY (R224). A bus snapshot requested by SE_BUS_SEL completes and SE_BUS_STAT.READY sets within 10 µs. -/
  | seBusReady (inst : Fin 4)
  /-- SE_CHAN_READY (R224). A channel snapshot requested by SE_CHAN_SEL completes and SE_CHAN_STAT.READY sets. -/
  | seChanReady (inst : Fin 4)
  /-- THR_MON_READY (R248). A monitor snapshot requested by THR_MON_SEL completes and THR_MON_STAT.READY sets within 10 µs. -/
  | thrMonReady (inst : Fin 4)
  /-- OSC_PAIR_READY (R274). A signal-band pair snapshot requested by OSC_PAIR_SEL completes and OSC_PAIR_STAT.READY sets within 10 µs. -/
  | oscPairReady (inst : Fin 4)
  /-- STN_OUTPUT_SAMPLE (R295). Each station-input output sample leaves the filter chain at 14,400 samples/s, with scaling, despiking, fade mixing, SAT counting and MOD_LOSS clearing applied, and is fed to POW capture rows. -/
  | stnOutputSample (mdat : List (BitVec 24)) (errs : List (Nat × MemErr))
  /-- BAY_TRACKER_LOCK (R302). A bay's positive-sequence tracker gains or loses lock, changing TRKq_LOCK in STN_STATUS and the lock bits of the local item. -/
  | bayTrackerLock (bay : Fin 2) (locked : Bool)
  /-- FIRN_SCRUB (R337). The background scrub of firn SRAM reads, checks and corrects records, completing a full pass within each hour. -/
  | firnScrub (qty : Fin 1024) (period : Fin 3) (half : Fin 2) (err : MemErr)
  /-- LEVEL_CONDITION_END (R431). The condition of a level fault source ends, such as a PLL relocking, REFCLK returning, bridge flits resuming or the temperature falling, so that a later recurrence counts as a new onset. -/
  | levelConditionEnd (src : Fin 96)
  /-- PCIE_CONFIG_WRITE (R454). A host configuration write changes Bus Master Enable, the power state or MSI-X Enable, stopping or allowing host DMA and switching event delivery between MSI-X and INT_N. -/
  | pcieConfigWrite (bme : Bool) (d3hot : Bool) (msix : Bool)
  /-- PCIE_LINK_DOWN (R454). The PCI Express link goes down without a hot reset, LINKUP clears and host DMA stops. -/
  | pcieLinkDown
  /-- UART_TX (R469). A byte leaves the UART transmit FIFO on UTXD and TXDEPTH falls. -/
  | uartTx
  /-- CORE_DEBUG_ACCESS (R470). A JTAG debug transport access to the RISC-V debug module is answered and may halt a core in MANUFACTURE, PROVISIONED and RETURNED, and is ignored in DEPLOYED and RETIRED. -/
  | coreDebugAccess (core : Fin 8) (halt : Bool)
deriving DecidableEq, Repr

end Sys2Proof
end

