-- ==== Sys2Proof/Config.lean ====
section
/-! DEFINITION. What an implementation fixes, the values the spec leaves open (free values, with no body), and the functions the
spec takes by name from other standards. -/
namespace Sys2Proof

/-- A fresh free value: the `n`-th value drawn, `w` bits wide. Random material, nonces and results the spec does not state. -/
opaque Config.free : (w : Nat) → (n : Nat) → BitVec w

/-- The grade of the part is E, not C (R2). -/
opaque Config.gradeE : Bool

/-- KEY_UID, from fuses (R427). -/
opaque Config.uid : BitVec 128

/-- The digest held in the vendor slot, from fuses (R399). -/
opaque Config.vendorDigest : List (BitVec 8)

/-- AES-256-CTR (R400): key, initial counter block, text. -/
opaque Config.aesCtr : List (BitVec 8) → List (BitVec 8) → List (BitVec 8) → List (BitVec 8)

/-- The window declarations a WINDOWS body holds: number, default, MIN, MAX and DESC of each (R40 gives no body layout). -/
opaque Config.windowDecls : List (BitVec 8) → List (Nat × Nat × Nat × Nat × Nat)

/-- Whether a FABRIC body meets the SRAM-port and matching-store bounds of R193: the spec states no computation. -/
opaque Config.fabricFits : List (BitVec 8) → Bool

/-- Which of the values within ±2 LSB of the exact one a CORDIC unit gives (R174): operation and operands. -/
opaque Config.cordic : (op : Nat) → Int → Int → Int → BitVec 8

/-- The angle VEC and ATAN2 give for the origin: the spec states none (R174). -/
opaque Config.originAngle : BitVec 40

/-- The rounding of a value that a refactorisation forms (R217 states none), which moves it by at most one LSB: which value, the exact one. -/
opaque Config.refacErr : Nat → Int → BitVec 40

/-- Taps of the station chain's halfband from its end to its centre, as Q40 (R294 states their number and response, not their values). -/
opaque Config.halfTap : (i : Nat) → BitVec 40

/-- The eight taps of a phase of the station chain's interpolator, as Q40 (R294 states no values). -/
opaque Config.interpTap : (phase i : Nat) → BitVec 40

/-- Whether a stage of the station chain rounds an inexact value up and not down (R294 states no rounding): stage, value before. -/
opaque Config.chainUp : (stage : Nat) → Int → Bool

/-- SHA3-512 of a message, 64 bytes (R29, FIPS 202). -/
opaque Config.sha3_512 : List (BitVec 8) → List (BitVec 8)

/-- ML-DSA-87 verification with an empty context string (R29, FIPS 204): public key, message, signature. -/
opaque Config.mldsa87 : List (BitVec 8) → List (BitVec 8) → List (BitVec 8) → Bool

/-- HMAC-SHA256 (R68, R131): key, message; 32 bytes. -/
opaque Config.hmacSha256 : List (BitVec 8) → List (BitVec 8) → List (BitVec 8)

/-- AES GMAC tag (R131): key, initialisation vector, message; 16 bytes. -/
opaque Config.gmac : List (BitVec 8) → List (BitVec 8) → List (BitVec 8) → List (BitVec 8)

/-- KMAC256 (R407, R423): key, message, customisation, output length in bytes. -/
opaque Config.kmac256 : List (BitVec 8) → List (BitVec 8) → List (BitVec 8) → Nat → List (BitVec 8)

/-- AES-256-GCM decryption (R425): key, initialisation vector, additional data, ciphertext, tag. -/
opaque Config.aesGcmOpen : List (BitVec 8) → List (BitVec 8) → List (BitVec 8) → List (BitVec 8) → List (BitVec 8) →
  Option (List (BitVec 8))

/-- AES-GCM encryption (R374): key, initialisation vector, additional data, plaintext; ciphertext followed by tag. -/
opaque Config.aesGcmSeal : List (BitVec 8) → List (BitVec 8) → List (BitVec 8) → List (BitVec 8) → List (BitVec 8)

/-- AES-128-CCM* of the radio (R385): key, nonce, additional data, payload; the MIC of the given length. -/
opaque Config.ccmMic : List (BitVec 8) → List (BitVec 8) → List (BitVec 8) → List (BitVec 8) → Nat → List (BitVec 8)

/-- AES-128-CCM* counter-mode encryption and decryption (R385): key, nonce, text. -/
opaque Config.ccmCtr : List (BitVec 8) → List (BitVec 8) → List (BitVec 8) → List (BitVec 8)

/-- What the authentication TLV of a received PTP message shows (R68, IEEE 1588-2019): key, frame octets; nothing where the message
carries none, otherwise whether its ICV verifies. -/
opaque Config.ptpAuth : List (BitVec 8) → List (BitVec 8) → Option Bool

/-- A PTP message with its authentication TLV inserted (R68, IEEE 1588-2019): key, frame octets. -/
opaque Config.ptpAuthSeal : List (BitVec 8) → List (BitVec 8) → List (BitVec 8)

end Sys2Proof
end

