-- ==== Sys2Proof/Machine/Tbl.lean ====
section
/-! DEFINITION. Sparse tables with one canonical form, and byte memories built on them. -/
namespace Sys2Proof.Machine
open Sys2Proof

/-- What key `k` holds; `d` where it is not listed. -/
def Tbl.get {α : Type} (m : Tbl α) (k : Nat) (d : α) : α :=
  match m with
  | [] => d
  | (j, v) :: t => if j = k then v else Tbl.get t k d

/-- `m` without key `k`. -/
def Tbl.del {α : Type} (m : Tbl α) (k : Nat) : Tbl α :=
  match m with
  | [] => []
  | (j, v) :: t => if j = k then Tbl.del t k else (j, v) :: Tbl.del t k

/-- `m` with `(k, v)` placed before the first larger key. -/
def Tbl.place {α : Type} (m : Tbl α) (k : Nat) (v : α) : Tbl α :=
  match m with
  | [] => [(k, v)]
  | (j, w) :: t => if k < j then (k, v) :: (j, w) :: t else (j, w) :: Tbl.place t k v

/-- `m` with key `k` holding `v`, where an unlisted `k` reads as `d`: storing `d` removes the entry. -/
def Tbl.set {α : Type} [DecidableEq α] (m : Tbl α) (k : Nat) (v d : α) : Tbl α :=
  if v = d then Tbl.del m k else Tbl.place (Tbl.del m k) k v

/-- Keys strictly rising. -/
def Tbl.sorted {α : Type} : Tbl α → Bool
  | [] => true
  | [_] => true
  | (j, _) :: (k, w) :: t => decide (j < k) && Tbl.sorted ((k, w) :: t)

/-- The canonical form over a uniform default `d`. -/
def Tbl.wf {α : Type} [DecidableEq α] (m : Tbl α) (d : α) : Bool :=
  Tbl.sorted m && m.all fun e => !decide (e.2 = d)

/-- The canonical form of a byte memory: an unlisted byte reads as 0. -/
abbrev Memory.wf (m : List Host.Cell) : Bool := Tbl.wf m 0

/-- One byte of a memory. -/
def Memory.byte (m : List Host.Cell) (a : Nat) : Byte := Tbl.get m a 0

/-- One byte written. -/
def Memory.setByte (m : List Host.Cell) (a : Nat) (b : Byte) : List Host.Cell := Tbl.set m a b 0

/-- `n` bytes from address `a` up. -/
def Memory.read (m : List Host.Cell) (a n : Nat) : List Byte :=
  match n with
  | 0 => []
  | k + 1 => Memory.byte m a :: Memory.read m (a + 1) k

/-- Bytes written from address `a` up. -/
def Memory.write (m : List Host.Cell) (a : Nat) (bs : List Byte) : List Host.Cell :=
  match bs with
  | [] => m
  | b :: t => Memory.write (Memory.setByte m a b) (a + 1) t

/-- Little-endian value of bytes. -/
def leNat : List Byte → Nat
  | [] => 0
  | b :: t => b.toNat + 256 * leNat t

/-- The `n` little-endian bytes of a value. -/
def leBytes (n v : Nat) : List Byte :=
  match n with
  | 0 => []
  | k + 1 => BitVec.ofNat 8 v :: leBytes k (v / 256)

/-- Big-endian value of bytes. -/
def beNat (bs : List Byte) : Nat := bs.foldl (fun a b => a * 256 + b.toNat) 0

/-- The `n` big-endian bytes of a value. -/
def beBytes (n v : Nat) : List Byte := (leBytes n v).reverse

/-- The octets of a text of ASCII characters. -/
def ascii (t : String) : List Byte := t.toList.map fun c => BitVec.ofNat 8 c.toNat

/-- Octets padded with zeros to `n`. -/
def padTo (n : Nat) (l : List Byte) : List Byte := l ++ List.replicate (n - l.length) 0

/-- Field `len` bits wide at bit `lo` of a number. -/
def fld (v lo len : Nat) : Nat := v / 2 ^ lo % 2 ^ len

/-- `v` with the field of `len` bits at bit `lo` replaced by `x`. -/
def putFld (v lo len x : Nat) : Nat :=
  v / 2 ^ (lo + len) * 2 ^ (lo + len) + x % 2 ^ len * 2 ^ lo + v % 2 ^ lo

/-- A bit as a number at bit `i`. -/
def bitAt (x : Bool) (i : Nat) : Nat := if x then 2 ^ i else 0

/-- A `w`-bit two's complement number as an integer. -/
def sInt (w v : Nat) : Int :=
  if v % 2 ^ w < 2 ^ (w - 1) then (v % 2 ^ w : Nat) else ((v % 2 ^ w : Nat) : Int) - ((2 ^ w : Nat) : Int)

/-- An integer as a `w`-bit two's complement number. -/
def uNat (w : Nat) (i : Int) : Nat := (i % ((2 ^ w : Nat) : Int)).toNat

/-- `i` held between the bounds of a signed `w`-bit number. -/
def clampS (w : Nat) (i : Int) : Int :=
  max (-((2 ^ (w - 1) : Nat) : Int)) (min (((2 ^ (w - 1) : Nat) : Int) - 1) i)

/-- Nearest integer to `n / d` for positive `d`, halves away from zero. -/
def roundDiv (n : Int) (d : Nat) : Int :=
  if n < 0 then -(((2 * (-n) + d) / (2 * d) : Int)) else (2 * n + d) / (2 * d)

end Sys2Proof.Machine
end

