-- ==== Sys2Proof/Machine/Fixed.lean ====
section
/-! DEFINITION. Fixed-point arithmetic: rounding (R173), divide and square root, the CORDIC operations (R174) and float32 values. -/
namespace Sys2Proof.Machine
open Sys2Proof

/-- `n / d` for positive `d`, rounded half to even. -/
def rhe (n : Int) (d : Nat) : Int :=
  let q := n / (d : Int)
  let r := n % (d : Int)
  if 2 * r < d then q else if (d : Int) < 2 * r then q + 1 else if q % 2 = 0 then q else q + 1

/-- `n / d` for positive `d`, rounded by RND (R173): 0 half to even, 1 toward minus infinity, 2 toward zero, 3 half away from zero. -/
def rnd (mode : Nat) (n : Int) (d : Nat) : Int :=
  match mode with
  | 0 => rhe n d
  | 1 => n / (d : Int)
  | 2 => Int.tdiv n d
  | _ => roundDiv n d

/-- `n × 2^e`, rounded half to even. -/
def rheExp (n : Int) (e : Int) : Int := if 0 ≤ e then n * (2 ^ e.toNat : Nat) else rhe n (2 ^ (-e).toNat)

/-- The largest magnitude of a saturated 40-bit result, 2^39 − 1. -/
def max39 : Int := 2 ^ 39 - 1

/-- Saturation at ±(2^39 − 1). -/
def sat39 (v : Int) : Int := max (-max39) (min max39 v)

/-- A value saturates. -/
def over39 (v : Int) : Bool := v < -max39 || max39 < v

/-- The largest `r` below 2^n with r² ≤ v, from `r0` up. -/
def isqrtFrom (v r0 : Nat) : Nat → Nat
  | 0 => r0
  | n + 1 => isqrtFrom v (if (r0 + 2 ^ n) * (r0 + 2 ^ n) ≤ v then r0 + 2 ^ n else r0) n

/-- Integer square root of `v` below 2^192. -/
def isqrt (v : Nat) : Nat := isqrtFrom v 0 96

/-- √v rounded by RND. -/
def sqrtRnd (mode v : Nat) : Nat :=
  let r := isqrt v
  if (mode = 0 || mode = 3) && r * r + r < v then r + 1 else r

/-- DIV (R174): round(a × 2^sh / b), saturated, and whether the result is VOID. -/
def divFix (mode sh : Nat) (a b : Int) : Int × Bool :=
  if b = 0 then ((if 0 ≤ a then max39 else -max39), true)
  else
    let n := a * (2 ^ sh : Nat)
    (sat39 (if 0 < b then rnd mode n b.toNat else rnd mode (-n) (-b).toNat), false)

/-- SQRT (R174): round(√(a × 2^sh)), saturated, and whether the result is VOID. -/
def sqrtFix (mode sh : Nat) (a : Int) : Int × Bool :=
  if a < 0 then (0, true) else (sat39 (sqrtRnd mode (a.toNat * 2 ^ sh)), false)

/-- RECIP (R174): DIV with a = 1 × 2^sh. -/
def recipFix (mode sh : Nat) (b : Int) : Int × Bool := divFix mode sh (2 ^ sh : Nat) b

/-- RSQRT (R174): with a = 1 × 2^sh over √(x × 2^sh), round(a × 2^sh / √(x × 2^sh)), saturated; a zero operand is a zero divisor, a negative
one gives 0. -/
def rsqrtFix (mode sh : Nat) (a : Int) : Int × Bool :=
  if a < 0 then (0, true)
  else if a = 0 then (max39, true)
  else
    let n := 2 ^ (3 * sh)
    let r := isqrt (n / a.toNat)
    let up := (mode = 0 || mode = 3) && (2 * r + 1) * (2 * r + 1) * a.toNat < 4 * n
    (sat39 (if up then r + 1 else r : Nat), false)

/-! ## CORDIC (R174) -/

/-- π × 2^128. -/
def piQ : Nat := 1069028584064966747859680373161870783300

/-- Terms of an alternating power series: the next term is −t·x²/((k+1)(k+2)); values carry 96 fraction bits. -/
def series (x2 t : Int) (k : Nat) : Nat → Int
  | 0 => 0
  | n + 1 => t + series x2 (-(t * x2 / 2 ^ 96) / ((k + 1) * (k + 2) : Nat)) (k + 2) n

/-- Cosine and sine, with 96 fraction bits, of the angle `r / 2^bits` turn within the first quarter. -/
def cosSinQ (r bits : Nat) : Int × Int :=
  let x : Int := (r * piQ / 2 ^ (bits + 31) : Nat)
  let x2 := x * x / 2 ^ 96
  (series x2 (2 ^ 96) 0 20, series x2 x 1 20)

/-- Cosine and sine, with 96 fraction bits, of an A40 angle. -/
def cosSin (a : Nat) : Int × Int :=
  let cs := cosSinQ (a % 2 ^ 38) 40
  match a / 2 ^ 38 % 4 with
  | 0 => cs
  | 1 => (-cs.2, cs.1)
  | 2 => (-cs.1, -cs.2)
  | _ => (cs.2, -cs.1)

/-- A result within ±2 LSB of `v / 2^bits`: which one is the unit's own (R174). -/
def within2 (pick : BitVec 8) (v : Int) (bits : Nat) : Int :=
  let d : Int := (2 ^ bits : Nat)
  if v % d = 0 then v / d - 2 + (pick.toNat % 5 : Nat) else v / d - 1 + (pick.toNat % 4 : Nat)

/-- A result within ±4 LSB of `v / d`: which one is the unit's own (R264). -/
def within4 (pick : BitVec 8) (v : Int) (d : Nat) : Int :=
  if v % (d : Int) = 0 then v / (d : Int) - 4 + (pick.toNat % 9 : Nat) else v / (d : Int) - 3 + (pick.toNat % 8 : Nat)

/-- ROT: a phasor rotated by an A40 angle, before saturation. -/
def rotRaw (p : Phasor) (a : Nat) : Phasor :=
  let cs := cosSin a
  { re := within2 (Config.cordic 0 p.re p.im a) (p.re * cs.1 - p.im * cs.2) 96
    im := within2 (Config.cordic 1 p.re p.im a) (p.re * cs.2 + p.im * cs.1) 96 }

/-- ROT, saturated. -/
def rot (p : Phasor) (a : Nat) : Phasor := { re := sat39 (rotRaw p a).re, im := sat39 (rotRaw p a).im }

/-- SINCOS: the Q40 cosine and sine of an A40 angle. -/
def sinCos40 (a : Nat) : Int × Int :=
  let cs := cosSin a
  (sat39 (within2 (Config.cordic 2 a 0 0) cs.1 57), sat39 (within2 (Config.cordic 3 a 0 0) cs.2 57))

/-- The largest `k` below 2^n above `k0`, in 2^-bits turns, with x·sin ≤ y·cos, for a point of the first quarter. -/
def atanFrom (bits : Nat) (x y : Int) (k0 : Nat) : Nat → Nat
  | 0 => k0
  | n + 1 =>
    let k := k0 + 2 ^ n
    let cs := cosSinQ k bits
    atanFrom bits x y (if x * cs.2 ≤ y * cs.1 then k else k0) n

/-- The angle of (x, y), in 2^-(q + 2) turns, for a point other than the origin. -/
def angleAt (q : Nat) (x y : Int) : Nat :=
  if 0 < x && 0 ≤ y then atanFrom (q + 2) x y 0 q
  else if x ≤ 0 && 0 < y then 2 ^ q + atanFrom (q + 2) y (-x) 0 q
  else if x < 0 && y ≤ 0 then 2 * 2 ^ q + atanFrom (q + 2) (-x) (-y) 0 q
  else 3 * 2 ^ q + atanFrom (q + 2) (-y) x 0 q

/-- The angle of (x, y), in 2^-56 turns, for a point other than the origin. -/
def angle56 (x y : Int) : Nat := angleAt 54 x y

/-- ATAN2: the A40 angle of (y, x); the spec gives none for the origin. -/
def atan40 (x y : Int) : Nat :=
  if x = 0 && y = 0 then Config.originAngle.toNat
  else uNat 40 (within2 (Config.cordic 4 x y 0) (angle56 x y) 16)

/-- The P40 magnitude of a phasor, saturated. -/
def mag40 (p : Phasor) : Int :=
  let n := (p.re * p.re + p.im * p.im).toNat
  if n = 0 then max 0 (within2 (Config.cordic 5 0 0 0) 0 16)
  else max 0 (sat39 (within2 (Config.cordic 5 p.re p.im 0) (isqrt (2 ^ 32 * n)) 16))

/-- VEC: magnitude and A40 angle of a phasor. -/
def vec (p : Phasor) : Int × Nat := (mag40 p, atan40 p.re p.im)

/-! ## Extraction (R173) -/

/-- An exact product or sum extracted with SH = 30, RND 0, SAT 1. -/
def ext30 (v : Int) : Int := sat39 (rhe v (2 ^ 30))

/-- The complex product of two phasors, not extracted. -/
def cmulRaw (a b : Phasor) : Int × Int := (a.re * b.re - a.im * b.im, a.re * b.im + a.im * b.re)

/-! ## float32 -/

/-- A float32 as significand and exponent of two; nothing for NaN and infinity. -/
def f32 (w : Nat) : Option (Int × Int) :=
  let e := fld w 23 8
  let m : Int := (if e = 0 then fld w 0 23 else 2 ^ 23 + fld w 0 23 : Nat)
  let m := if fld w 31 1 = 1 then -m else m
  if e = 255 then none else some (m, ((max e 1 : Nat) : Int) - 150)

/-- The float32 nearest to `n × 2^e`, halves to even; overflow gives infinity. -/
def toF32 (n : Int) (e : Int) : Nat :=
  if n = 0 then 0
  else
    let sign := if n < 0 then 2 ^ 31 else 0
    let len : Int := (Nat.log2 n.natAbs : Nat)
    -- exponent of the last place kept
    let q := max (len + e - 23) (-149)
    let m := rheExp n.natAbs (e - q)
    let m2 := if m = 2 ^ 24 then 2 ^ 23 else m
    let q2 := if m = 2 ^ 24 then q + 1 else q
    if m2 < 2 ^ 23 then sign + m2.toNat
    else if 104 < q2 then sign + 255 * 2 ^ 23
    else sign + (2 ^ 23 * (q2 + 150) + (m2 - 2 ^ 23)).toNat

end Sys2Proof.Machine
end

