-- ==== Sys2Proof/Machine/Reg.lean ====
section
/-! DEFINITION. The names and BAR0 offsets of every register of the spec's register tables (R40, R49, R83, R114, R115,
R139, R168, R199, R224, R247, R248, R274, R275, R289, R322, R323, R340, R341, R362, R376, R397, R427, R449, R450, R471, R472),
under the spec's own names. An array takes its indices in the order of its name; where the block has instances (a port p,
an engine instance e), that index comes first. -/
namespace Sys2Proof.Reg

/-- R40: [31:0]; RW. -/
def FAB_PWIN_VAL (n : Nat) : Nat := 0x900000 + 0x20 * n
/-- R40: [31:0]; RO. -/
def FAB_PWIN_MIN (n : Nat) : Nat := 0x900008 + 0x20 * n
/-- R40: [31:0]; RO. -/
def FAB_PWIN_MAX (n : Nat) : Nat := 0x900010 + 0x20 * n
/-- R40: [3:0] FMT; [4] APPLY; [6:5] WHO; [31:16] TARGET; RO. -/
def FAB_PWIN_DESC (n : Nat) : Nat := 0x900018 + 0x20 * n
/-- R40: [0]; RO. -/
def FAB_PWIN_PEND (n : Nat) : Nat := 0x90001c + 0x20 * n
/-- R49: [31:0]; RO. -/
def FEAT_OFFER (i : Nat) : Nat := 0x0 + 0x4 * i
/-- R49: [31:0]; RO. -/
def FEAT_ACC (i : Nat) : Nat := 0x20 + 0x4 * i
/-- R49: [15:0] PART; [23:16] STEP; RO. -/
def FEAT_ID : Nat := 0x40
/-- R49: [15:8] MAJOR; [7:0] MINOR; RO. -/
def FEAT_FLDL_VER : Nat := 0x44
/-- R49: [2:0] STATE; [15:8] FAIL; [16] PEND; RO. -/
def FEAT_IMG_STATE : Nat := 0x100
/-- R49: [31:0]; RO. -/
def FEAT_IMG_VERSION : Nat := 0x104
/-- R49: [31:0]; RO. -/
def FEAT_IMG_SERIAL : Nat := 0x108
/-- R49: [31:0]; RO. -/
def FEAT_IMG_FLOOR : Nat := 0x110
/-- R49: T80; RO. -/
def FEAT_IMG_ACT : Nat := 0x114
/-- R49: [31:0]; RO. -/
def FEAT_IMG_PEND : Nat := 0x120
/-- R49: [31:0]; RO. -/
def FEAT_RELOAD_DISC : Nat := 0x124
/-- R83: [31:0]; RO. -/
def TIME_NOW_NS : Nat := 0x100000
/-- R83: [31:0]; RO. -/
def TIME_NOW_SEC_LO : Nat := 0x100004
/-- R83: [15:0]; RO. -/
def TIME_NOW_SEC_HI : Nat := 0x100008
/-- R83: [31:0]; RO. -/
def TIME_NOW_FRAC : Nat := 0x10000c
/-- R83: [31:0]; RO. -/
def TIME_NOW_MANG : Nat := 0x100010
/-- R83: [31:0]; RW. -/
def TIME_INC : Nat := 0x100020
/-- R83: [31:0]; RW. -/
def TIME_SLEW_INC : Nat := 0x100028
/-- R83: [31:0]; RW. -/
def TIME_SLEW_TICKS : Nat := 0x100030
/-- R83: [31:0]; RO. -/
def TIME_INC_RUN : Nat := 0x100034
/-- R83: [31:0]; RW. -/
def TIME_SVO_OFS : Nat := 0x100040
/-- R83: [15:0] SRC; [17:16] TYPE; [31] STEP; WO. -/
def TIME_SVO_POST : Nat := 0x100048
/-- R83: [31:0]; RW. -/
def TIME_SVO_ERR : Nat := 0x10004c
/-- R83: [15:0] ID; [17:16] TYPE; RW. -/
def TIME_SRC : Nat := 0x100050
/-- R83: [2:0] STATE; [6:4] CAUSE; [8] PPS_PRESENT; [9] CLAMP (W1C); [11:10] EPOCH; RO, CLAMP W1C. -/
def TIME_STATE : Nat := 0x100054
/-- R83: [31:0]; RO. -/
def TIME_EST_ERR : Nat := 0x100058
/-- R83: [3:0]; RO. -/
def TIME_QUAL : Nat := 0x10005c
/-- R83: [0] REARM; WO. -/
def TIME_CTRL : Nat := 0x100060
/-- R83: [31:0]; RO. -/
def TIME_JUMP_THR : Nat := 0x100064
/-- R83: [15:0]; RO. -/
def TIME_HOLD_TMO : Nat := 0x100068
/-- R83: [16:0]; RW. -/
def TIME_HOLD_DRIFT : Nat := 0x10006c
/-- R83: [31:0]; RW. -/
def TIME_ERR_LIMIT : Nat := 0x100070
/-- R83: [15:0] OFFSET (signed s); [16] LEAP61; [17] LEAP59; RW. -/
def TIME_UTCOFS : Nat := 0x100074
/-- R83: [63:0]; RO. -/
def TIME_LAST_OFS : Nat := 0x100078
/-- R83: [63:0]; RO. -/
def TIME_LAST_STEP : Nat := 0x100080
/-- R83: [47:0]; RO. -/
def TIME_STEP_CNT : Nat := 0x100088
/-- R83: [47:0]; RO. -/
def TIME_REFUSE_CNT : Nat := 0x100090
/-- R83: [47:0]; RO. -/
def TIME_MCHG_CNT : Nat := 0x100098
/-- R83: [47:0]; RO. -/
def TIME_STALE_CNT : Nat := 0x1000a0
/-- R83: [47:0]; RO. -/
def TIME_RATE_REJ_CNT : Nat := 0x1000a8
/-- R83: [47:0]; RO. -/
def TIME_PPS_MISS_CNT : Nat := 0x1000b0
/-- R83: [47:0]; RO. -/
def TIME_AUTH_FAIL_CNT : Nat := 0x1000b8
/-- R83: [47:0]; RO. -/
def TIME_TXTS_LOST_CNT : Nat := 0x1000c0
/-- R83: [47:0]; RO. -/
def TIME_MANG_UNLOCK_CNT : Nat := 0x1000c8
/-- R83: [47:0]; RO. -/
def TIME_TXTS_STALE_CNT : Nat := 0x1000d0
/-- R83: T80; RO. -/
def TIME_PPS_LAST : Nat := 0x100100
/-- R83: [31:0]; RW. -/
def TIME_PPS_DLY : Nat := 0x10010c
/-- R83: [31:0]; RW. -/
def TIME_RXCORR (p : Nat) : Nat := 0x100120 + 0x8 * p
/-- R83: [31:0]; RW. -/
def TIME_TXCORR (p : Nat) : Nat := 0x100124 + 0x8 * p
/-- R83: [3:0]; RO. -/
def TIME_TSPOINT : Nat := 0x100140
/-- R83: [15:0] SEQID; [19:16] MSGTYPE; [21:20] PORT; [23:22] EPOCH; [31] VALID; RO. -/
def TIME_TXTS_INFO : Nat := 0x100180
/-- R83: [31:0]; RO. -/
def TIME_TXTS_NS : Nat := 0x100184
/-- R83: [31:0]; RO. -/
def TIME_TXTS_SEC_LO : Nat := 0x100188
/-- R83: [15:0]; RO. -/
def TIME_TXTS_SEC_HI : Nat := 0x10018c
/-- R83: [1:0]; RO. -/
def TIME_MANG_STATE : Nat := 0x100200
/-- R83: F40; RO. -/
def TIME_MANG_FREQ : Nat := 0x100204
/-- R83: [0] MBAY; [2:1] MQTY; [3] MNOM; [15:8] MIN_LEVEL; RO. -/
def TIME_MANG_CFG : Nat := 0x10020c
/-- R83: Per R81; Per R81. -/
def TACK_ENTRY (k : Nat) (i : Nat) : Nat := 0x108000 + 0x20 * k + 0x4 * i
/-- R83: [31:0]; W1C. -/
def TACK_FIRED_LO : Nat := 0x108800
/-- R83: [31:0]; W1C. -/
def TACK_FIRED_HI : Nat := 0x108804
/-- R83: [47:0]; RO. -/
def TACK_SKIP_CNT : Nat := 0x108808
/-- R114: [0] LINK; [1] LPI_TX; [2] LPI_RX; [4:3] SPEED; [5] FEC; [6] AN_DONE; RO. -/
def ETH_PORT_STATUS (p : Nat) : Nat := 0x200000 + 0x10000 * p
/-- R114: [31:0]; RO. -/
def ETH_MAC_LO (p : Nat) : Nat := 0x200004 + 0x10000 * p
/-- R114: [15:0]; RO. -/
def ETH_MAC_HI (p : Nat) : Nat := 0x200008 + 0x10000 * p
/-- R114: [0] TX_EN; [25:16] TW; RW. -/
def ETH_LPI_CTRL (p : Nat) : Nat := 0x20000c + 0x10000 * p
/-- R114: [15:0]; RW. -/
def ETH_LPI_IDLE (p : Nat) : Nat := 0x200010 + 0x10000 * p
/-- R114: [47:0]; RO. -/
def ETH_RX_FRAMES (p : Nat) : Nat := 0x200100 + 0x10000 * p
/-- R114: [47:0]; RO. -/
def ETH_RX_OCTETS (p : Nat) : Nat := 0x200108 + 0x10000 * p
/-- R114: [47:0]; RO. -/
def ETH_RX_DROP (p : Nat) : Nat := 0x200110 + 0x10000 * p
/-- R114: [47:0]; RO. -/
def ETH_RX_FRAGMENT (p : Nat) : Nat := 0x200118 + 0x10000 * p
/-- R114: [47:0]; RO. -/
def ETH_RX_RUNT (p : Nat) : Nat := 0x200120 + 0x10000 * p
/-- R114: [47:0]; RO. -/
def ETH_RX_OVERSIZE (p : Nat) : Nat := 0x200128 + 0x10000 * p
/-- R114: [47:0]; RO. -/
def ETH_RX_PHY_ERR (p : Nat) : Nat := 0x200130 + 0x10000 * p
/-- R114: [47:0]; RO. -/
def ETH_RX_FCS_ERR (p : Nat) : Nat := 0x200138 + 0x10000 * p
/-- R114: [47:0]; RO. -/
def ETH_RX_ADDR_FILT (p : Nat) : Nat := 0x200140 + 0x10000 * p
/-- R114: [47:0]; RO. -/
def ETH_RX_UNMATCHED (p : Nat) : Nat := 0x200148 + 0x10000 * p
/-- R114: [47:0]; RO. -/
def ETH_RX_PAUSE (p : Nat) : Nat := 0x200150 + 0x10000 * p
/-- R114: [47:0]; RO. -/
def ETH_RX_IP_ERR (p : Nat) : Nat := 0x200158 + 0x10000 * p
/-- R114: [47:0]; RO. -/
def ETH_RX_L4_ERR (p : Nat) : Nat := 0x200160 + 0x10000 * p
/-- R114: [47:0]; RO. -/
def ETH_RX_IP_FRAG (p : Nat) : Nat := 0x200168 + 0x10000 * p
/-- R114: [47:0]; RO. -/
def ETH_RX_MEAS (p : Nat) : Nat := 0x200170 + 0x10000 * p
/-- R114: [47:0]; RO. -/
def ETH_RX_HOST (p : Nat) : Nat := 0x200178 + 0x10000 * p
/-- R114: [47:0]; RO. -/
def ETH_RX_TIME (p : Nat) : Nat := 0x200180 + 0x10000 * p
/-- R114: [47:0]; RO. -/
def ETH_RX_TIME_LONG (p : Nat) : Nat := 0x200188 + 0x10000 * p
/-- R114: [47:0]; RO. -/
def ETH_RX_HOST_OVR (p : Nat) : Nat := 0x200190 + 0x10000 * p
/-- R114: [47:0]; RO. -/
def ETH_RX_PRP_NO_RCT (p : Nat) : Nat := 0x200198 + 0x10000 * p
/-- R114: [47:0]; RO. -/
def ETH_RX_PRP_WRONG_LAN (p : Nat) : Nat := 0x2001a0 + 0x10000 * p
/-- R114: [47:0]; RO. -/
def ETH_TX_FRAMES (p : Nat) : Nat := 0x2001a8 + 0x10000 * p
/-- R114: [47:0]; RO. -/
def ETH_TX_OCTETS (p : Nat) : Nat := 0x2001b0 + 0x10000 * p
/-- R114: [47:0]; RO. -/
def ETH_LPI_TX_CNT (p : Nat) : Nat := 0x2001b8 + 0x10000 * p
/-- R114: [47:0]; RO. -/
def ETH_LPI_RX_CNT (p : Nat) : Nat := 0x2001c0 + 0x10000 * p
/-- R114: [47:0]; RO. -/
def ETH_LINK_CNT (p : Nat) : Nat := 0x2001c8 + 0x10000 * p
/-- R115: Header word 0 of R98; RO. -/
def ETH_CFG : Nat := 0x240000
/-- R115: [13:0] FRAME_MAX; RO. -/
def ETH_LIMITS : Nat := 0x240004
/-- R115: [47:0]; RO. -/
def ETH_PRP_DUP_CNT (q : Nat) : Nat := 0x240100 + 0x20 * q
/-- R115: [47:0]; RO. -/
def ETH_PRP_OOW_CNT (q : Nat) : Nat := 0x240108 + 0x20 * q
/-- R115: [47:0]; RO. -/
def ETH_PRP_EVICT_CNT (q : Nat) : Nat := 0x240110 + 0x20 * q
/-- R115: [0] A_SILENT; [1] B_SILENT; RO. -/
def ETH_PRP_STATUS (q : Nat) : Nat := 0x240118 + 0x20 * q
/-- R115: [47:0]; RO. -/
def ETH_MQ_LOST_CNT : Nat := 0x240180
/-- R115: [13:0]; RO. -/
def ETH_MQ_DEPTH : Nat := 0x240188
/-- R115: [31:0]; RW. -/
def ETH_TQ_BASE : Nat := 0x240190
/-- R115: [7:0] INDEX; [31] VALID; RO. -/
def ETH_TQ_HEAD : Nat := 0x240194
/-- R115: [0]; WO. -/
def ETH_TQ_POP : Nat := 0x240198
/-- R115: [47:0]; RO. -/
def ETH_TQ_LOST_CNT : Nat := 0x2401a0
/-- R115: [47:0]; RO. -/
def ETH_MQ_STALE_CNT : Nat := 0x2401a8
/-- R115: [47:0]; RO. -/
def ETH_TQ_STALE_CNT : Nat := 0x2401b0
/-- R115: [47:0]; RO. -/
def ETH_TCP_HW_SEG : Nat := 0x2401c0
/-- R115: [47:0]; RO. -/
def ETH_TCP_SW_SEG : Nat := 0x2401c8
/-- R115: [47:0]; RO. -/
def ETH_TCP_OLD_SEG : Nat := 0x2401d0
/-- R115: [31:0]; RO. -/
def ETH_TCP_SW_MAP (i : Nat) : Nat := 0x2401d8 + 0x4 * i
/-- R115: [31:0]; RW. -/
def ETH_HRX_BASE_LO (r : Nat) : Nat := 0x240400 + 0x40 * r
/-- R115: [31:0]; RW. -/
def ETH_HRX_BASE_HI (r : Nat) : Nat := 0x240404 + 0x40 * r
/-- R115: [4:0] LOG2N 6 to 16; [14:8] BUFSZ in 256 B units, 1 to 64; [16] OWNER; [17] EN; RW. -/
def ETH_HRX_CFG (r : Nat) : Nat := 0x240408 + 0x40 * r
/-- R115: [15:0]; RO. -/
def ETH_HRX_HEAD (r : Nat) : Nat := 0x24040c + 0x40 * r
/-- R115: [15:0]; RW. -/
def ETH_HRX_TAIL (r : Nat) : Nat := 0x240410 + 0x40 * r
/-- R115: [15:0] COUNT; [31:16] TIME, µs; RW. -/
def ETH_HRX_IRQ (r : Nat) : Nat := 0x240414 + 0x40 * r
/-- R115: [47:0]; RO. -/
def ETH_HRX_NOBUF_CNT (r : Nat) : Nat := 0x240418 + 0x40 * r
/-- R115: [47:0]; RO. -/
def ETH_HRX_TRUNC_CNT (r : Nat) : Nat := 0x240420 + 0x40 * r
/-- R115: [7:0]; W1C. -/
def ETH_HRX_PEND : Nat := 0x240600
/-- R115: Per R105; RW; word 9 RO. -/
def ETH_TCP_CONN (n : Nat) (i : Nat) : Nat := 0x250000 + 0x40 * n + 0x4 * i
/-- R139: [2:0] CFG_RING; [15:8] RESEND_S; RO. -/
def DEC_CFG : Nat := 0x300000
/-- R139: [14:0] STREAM_CNT; [30:16] SRC_CNT; RO. -/
def DEC_COUNTS : Nat := 0x300004
/-- R139: [47:0]; RO. -/
def DEC_FRAMES_CNT : Nat := 0x300100
/-- R139: [47:0]; RO. -/
def DEC_BLOCKS_CNT : Nat := 0x300108
/-- R139: [47:0]; RO. -/
def DEC_CHK_ERR_CNT : Nat := 0x300110
/-- R139: [47:0]; RO. -/
def DEC_UNKNOWN_CNT : Nat := 0x300118
/-- R139: [47:0]; RO. -/
def DEC_SHAPE_CNT : Nat := 0x300120
/-- R139: [47:0]; RO. -/
def DEC_OFFGRID_CNT : Nat := 0x300128
/-- R139: [47:0]; RO. -/
def DEC_AUTH_FAIL_CNT : Nat := 0x300130
/-- R139: [47:0]; RO. -/
def DEC_REPLAY_CNT : Nat := 0x300138
/-- R139: [47:0]; RO. -/
def DEC_ENC_CNT : Nat := 0x300140
/-- R139: [47:0]; RO. -/
def DEC_SAT_CNT : Nat := 0x300148
/-- R139: [47:0]; RO. -/
def DEC_NONDATA_CNT : Nat := 0x300150
/-- R139: [47:0]; RO. -/
def DEC_NONDATA_DROP_CNT : Nat := 0x300158
/-- R139: [47:0]; RO. -/
def DEC_KEYREV_CNT : Nat := 0x300160
/-- R139: [47:0]; RO. -/
def DEC_CMD_LOST_CNT : Nat := 0x300168
/-- R139: [47:0]; RO. -/
def DEC_UP_FRAMES_CNT : Nat := 0x300170
/-- R139: [47:0]; RO. -/
def DEC_UP_SKIP_CNT : Nat := 0x300178
/-- R139: [31:0]; RW. -/
def DEC_REINJ_ADDR : Nat := 0x300200
/-- R139: [11:0] LEN; [27:16] CONN; RW. -/
def DEC_REINJ_LEN : Nat := 0x300204
/-- R139: T80; RW. -/
def DEC_REINJ_TS : Nat := 0x300208
/-- R139: [1:0] EPOCH; [31] GO; WO. -/
def DEC_REINJ_GO : Nat := 0x300214
/-- R139: [0] BUSY; RO. -/
def DEC_REINJ_STATUS : Nat := 0x300218
/-- R139: [13:0] STREAM; [31:16] CMD; WO. -/
def DEC_CMD : Nat := 0x300300
/-- R139: [4:0] DEPTH; [9:8] LAST_RESULT; RO. -/
def DEC_CMD_STATUS : Nat := 0x300304
/-- R139: [31:0]; RO. -/
def DEC_CMD_BUF (i : Nat) : Nat := 0x300340 + 0x4 * i
/-- R139: [31:0]; W1C. -/
def DEC_CFGCHG_MAP (i : Nat) : Nat := 0x300400 + 0x4 * i
/-- R139: [31:0]; RO. -/
def DEC_SILENT_MAP (i : Nat) : Nat := 0x300c00 + 0x4 * i
/-- R139: [0] SILENT; [1] CFGCHG; [2] NEXTKEY; RO. -/
def DEC_STREAM_FLAGS (n : Nat) : Nat := 0x310000 + 0x20 * n
/-- R139: [47:0]; RO. -/
def DEC_STREAM_FRAMES (n : Nat) : Nat := 0x310004 + 0x20 * n
/-- R139: [47:0]; RO. -/
def DEC_STREAM_SHAPE (n : Nat) : Nat := 0x31000c + 0x20 * n
/-- R139: [47:0]; RO. -/
def DEC_STREAM_DROPS (n : Nat) : Nat := 0x310014 + 0x20 * n
/-- R139: [31:0]; RO. -/
def DEC_STREAM_SPDU (n : Nat) : Nat := 0x31001c + 0x20 * n
/-- R139: [31:0]; RO. -/
def DEC_SRC_Q (s : Nat) : Nat := 0x390000 + 0x4 * s
/-- R168: [8:0] GRP_CNT; [9] HIST_EN; [10] HIST_FULL; RO. -/
def SEAM_CFG : Nat := 0x400000
/-- R168: [0] INIT_DONE; RO. -/
def SEAM_STORE_STATE : Nat := 0x400004
/-- R168: [47:0]; RO. -/
def SEAM_ITEMS_CNT : Nat := 0x400100
/-- R168: [47:0]; RO. -/
def SEAM_CLOSED_CNT : Nat := 0x400108
/-- R168: [47:0]; RO. -/
def SEAM_COMPLETE_CNT : Nat := 0x400110
/-- R168: [47:0]; RO. -/
def SEAM_QUORUM_CNT : Nat := 0x400118
/-- R168: [47:0]; RO. -/
def SEAM_DEADLINE_CNT : Nat := 0x400120
/-- R168: [47:0]; RO. -/
def SEAM_OVERRUN_CNT : Nat := 0x400128
/-- R168: [47:0]; RO. -/
def SEAM_SKIP_CNT : Nat := 0x400130
/-- R168: [47:0]; RO. -/
def SEAM_SHORT_CNT : Nat := 0x400138
/-- R168: [47:0]; RO. -/
def SEAM_ABSENT_CNT : Nat := 0x400140
/-- R168: [47:0]; RO. -/
def SEAM_BAD_CNT : Nat := 0x400148
/-- R168: [47:0]; RO. -/
def SEAM_EARLY_CNT : Nat := 0x400150
/-- R168: [47:0]; RO. -/
def SEAM_LATE_CNT : Nat := 0x400158
/-- R168: [47:0]; RO. -/
def SEAM_MEND_CNT : Nat := 0x400160
/-- R168: [47:0]; RO. -/
def SEAM_DUP_CNT : Nat := 0x400168
/-- R168: [47:0]; RO. -/
def SEAM_LRN_DISC_CNT : Nat := 0x400170
/-- R168: [47:0]; RO. -/
def SEAM_HIST_LOST_CNT : Nat := 0x400178
/-- R168: [47:0]; RO. -/
def SEAM_HIST_WRAP_CNT : Nat := 0x400180
/-- R168: [47:0]; RO. -/
def SEAM_RESET_DISC_CNT : Nat := 0x400188
/-- R168: [47:0]; RO. -/
def SEAM_NOGRP_CNT : Nat := 0x400190
/-- R168: [47:0]; RO. -/
def SEAM_FIFO_LOST_CNT (f : Nat) : Nat := 0x400200 + 0x20 * f
/-- R168: [47:0]; RO. -/
def SEAM_FIFO_STALE_CNT (f : Nat) : Nat := 0x400208 + 0x20 * f
/-- R168: [15:0] DEPTH; [16] EMPTY; RO. -/
def SEAM_FIFO_STATUS (f : Nat) : Nat := 0x400210 + 0x20 * f
/-- R168: [9:0] INDEX; [31] VALID; RO. -/
def SEAM_MEND_HEAD : Nat := 0x400300
/-- R168: [0]; WO. -/
def SEAM_MEND_POP : Nat := 0x400304
/-- R168: [31:0]; RO. -/
def SEAM_HIST_BASE_LO : Nat := 0x400380
/-- R168: [31:0]; RO. -/
def SEAM_HIST_BASE_HI : Nat := 0x400384
/-- R168: [16:0]; RO. -/
def SEAM_HIST_SIZE : Nat := 0x400388
/-- R168: [31:0]; RO. -/
def SEAM_HIST_WPTR_LO : Nat := 0x40038c
/-- R168: [31:0]; RO. -/
def SEAM_HIST_WPTR_HI : Nat := 0x400390
/-- R168: [15:0]; RO. -/
def SEAM_HIST_LAP : Nat := 0x400394
/-- R168: [13:0] SOURCE; [18:16] WAY; WO. -/
def SEAM_SLOT_SEL : Nat := 0x400400
/-- R168: [0] READY; RO. -/
def SEAM_SLOT_STAT : Nat := 0x400404
/-- R168: [31:0]; RO. -/
def SEAM_SLOT_DATA (i : Nat) : Nat := 0x400500 + 0x4 * i
/-- R168: [13:0]; RW. -/
def SEAM_LRN_SEL : Nat := 0x400600
/-- R168: [7:0] GROUP; [31] GO; WO. -/
def SEAM_LRN_RESET : Nat := 0x400604
/-- R168: [15:0]; RO. -/
def SEAM_LRN_BIN (i : Nat) : Nat := 0x400680 + 0x4 * i
/-- R168: [31:0]; W1C. -/
def SEAM_CLOSE_PEND (i : Nat) : Nat := 0x400700 + 0x4 * i
/-- R168: [3:0] OPEN; [7:4] READY; RO. -/
def SEAM_GRP_STATE (g : Nat) : Nat := 0x410000 + 0x40 * g
/-- R168: 8 × [31:0]; RO. -/
def SEAM_GRP_TOKEN (g : Nat) (i : Nat) : Nat := 0x410008 + 0x40 * g + 0x4 * i
/-- R168: [31:0]; RO. -/
def SEAM_GRP_DL (g : Nat) : Nat := 0x410028 + 0x40 * g
/-- R168: [13:0]; RO. -/
def SEAM_GRP_DLSRC (g : Nat) : Nat := 0x41002c + 0x40 * g
/-- R168: [47:0]; RO. -/
def SEAM_GRP_OVERRUN_CNT (g : Nat) : Nat := 0x410030 + 0x40 * g
/-- R168: [47:0]; RO. -/
def SEAM_GRP_DEADLINE_CNT (g : Nat) : Nat := 0x410038 + 0x40 * g
/-- R168: [31:0]; RO. -/
def SEAM_SRC_Q (s : Nat) : Nat := 0x420000 + 0x4 * s
/-- R168: [15:0] TOTAL; [20:16] QBIN; [21] TRAINED; RO. -/
def SEAM_SRC_LRN (s : Nat) : Nat := 0x430000 + 0x4 * s
/-- R199: [31:0]; RO. -/
def FAB_ROLE_LO : Nat := 0x800000
/-- R199: [31:0]; RO. -/
def FAB_ROLE_HI : Nat := 0x800004
/-- R199: [15:0]; RO. -/
def FAB_LEAD : Nat := 0x800008
/-- R199: [15:0] BUSY; [31:16] CLKEN; RO. -/
def FAB_PANEL_STATUS : Nat := 0x80000c
/-- R199: [11:0]; RW. -/
def FAB_SCRUB_SWEEP : Nat := 0x800010
/-- R199: [47:0]; RO. -/
def FAB_SCRUB_PASS_CNT : Nat := 0x800100
/-- R199: [47:0]; RO. -/
def FAB_CE_CNT : Nat := 0x800108
/-- R199: [47:0]; RO. -/
def FAB_UE_CNT : Nat := 0x800110
/-- R199: [47:0]; RO. -/
def FAB_ORPHAN_CNT : Nat := 0x800118
/-- R199: [47:0]; RO. -/
def FAB_MATCH_COLL_CNT : Nat := 0x800120
/-- R199: [47:0]; RO. -/
def FAB_MATCH_STALL_CNT : Nat := 0x800128
/-- R199: [47:0]; RO. -/
def FAB_ACC_SAT_CNT : Nat := 0x800130
/-- R199: [47:0]; RO. -/
def FAB_OVF_CNT : Nat := 0x800138
/-- R199: [47:0]; RO. -/
def FAB_CNT_UNDER_CNT : Nat := 0x800140
/-- R199: [47:0]; RO. -/
def FAB_ASM_SKIP_CNT : Nat := 0x800148
/-- R199: [47:0]; RO. -/
def FAB_ASM_FORCE_CNT : Nat := 0x800150
/-- R199: [47:0]; RO. -/
def FAB_ASM_STALE_CNT : Nat := 0x800158
/-- R199: [47:0]; RO. -/
def FAB_QDROP_CNT : Nat := 0x800160
/-- R199: [47:0]; RO. -/
def FAB_LATESTART_CNT : Nat := 0x800168
/-- R199: [47:0]; RO. -/
def FAB_SPAN_OVER_CNT : Nat := 0x800170
/-- R199: [7:0] TILE; [8] MEM (0 data, 1 microcode); [23:9] WORD; [31] VALID; RO. -/
def FAB_UE_ADDR : Nat := 0x800200
/-- R199: [31:0]; RO. -/
def FAB_UC_POISON (i : Nat) : Nat := 0x800210 + 0x4 * i
/-- R199: [7:0] TILE; [22:8] WORD; [31] GO; WO. -/
def FAB_TWIN_SEL : Nat := 0x800300
/-- R199: [0] READY; [1] CE; [2] UE; RO. -/
def FAB_TWIN_STAT : Nat := 0x800304
/-- R199: [31:0]; RO. -/
def FAB_TWIN_DATA_LO : Nat := 0x800308
/-- R199: [31:0]; RO. -/
def FAB_TWIN_DATA_HI : Nat := 0x80030c
/-- R199: [2:0] ROLE; [3] LEAD; [5:4] INST; [6] BUSY; [10:7] QDEPTH; [14:11] PEND; [23:16] INSTSEQ; RO. -/
def FAB_PNL_STATE (p : Nat) : Nat := 0x810000 + 0x1000 * p
/-- R199: [47:0]; RO. -/
def FAB_PNL_INST_CNT (p : Nat) : Nat := 0x810008 + 0x1000 * p
/-- R199: [31:0]; RO. -/
def FAB_PNL_LOAD_LAST (p : Nat) : Nat := 0x810010 + 0x1000 * p
/-- R199: [31:0]; RO. -/
def FAB_PNL_SPAN_LAST (p : Nat) : Nat := 0x810014 + 0x1000 * p
/-- R199: [31:0]; RW. -/
def FAB_PNL_SPAN_MAX (p : Nat) : Nat := 0x810018 + 0x1000 * p
/-- R199: [31:0]; RO. -/
def FAB_PNL_SPAN_COMP (p : Nat) : Nat := 0x81001c + 0x1000 * p
/-- R199: [47:0]; RO. -/
def FAB_PNL_BG_SLOTS (p : Nat) : Nat := 0x810020 + 0x1000 * p
/-- R199: [19:0]; RO. -/
def FAB_PNL_CNT (p : Nat) (k : Nat) : Nat := 0x810100 + 0x1000 * p + 0x4 * k
/-- R224: [13:0]; RO. -/
def SE_BUSES (e : Nat) : Nat := 0xc00000 + 0x10000 * e
/-- R224: [17:0]; RO. -/
def SE_CHANS (e : Nat) : Nat := 0xc00004 + 0x10000 * e
/-- R224: [21:0]; RO. -/
def SE_FACT_ENT (e : Nat) : Nat := 0xc00008 + 0x10000 * e
/-- R224: [21:0]; RO. -/
def SE_POOL (e : Nat) : Nat := 0xc0000c + 0x10000 * e
/-- R224: [21:0]; RO. -/
def SE_POOL_FREE (e : Nat) : Nat := 0xc00010 + 0x10000 * e
/-- R224: [0]; RO. -/
def SE_BANK (e : Nat) : Nat := 0xc00020 + 0x10000 * e
/-- R224: [1:0]; RO. -/
def SE_REFAC_STATE (e : Nat) : Nat := 0xc00024 + 0x10000 * e
/-- R224: [0] GO; WO. -/
def SE_REFAC_CTRL (e : Nat) : Nat := 0xc00028 + 0x10000 * e
/-- R224: [17:0]; RO. -/
def SE_REQ_PEND (e : Nat) : Nat := 0xc0002c + 0x10000 * e
/-- R224: [17:0]; RO. -/
def SE_REFAC_TAKEN (e : Nat) : Nat := 0xc00030 + 0x10000 * e
/-- R224: [13:0]; RO. -/
def SE_REFAC_COLS (e : Nat) : Nat := 0xc00034 + 0x10000 * e
/-- R224: [31:0]; RO. -/
def SE_REFAC_LAST (e : Nat) : Nat := 0xc00038 + 0x10000 * e
/-- R224: [11:0]; RO. -/
def SE_LAST_FLAGS (e : Nat) : Nat := 0xc00040 + 0x10000 * e
/-- R224: T80; RO. -/
def SE_LAST_T0 (e : Nat) : Nat := 0xc00044 + 0x10000 * e
/-- R224: [17:0]; RO. -/
def SE_LAST_SUBST (e : Nat) : Nat := 0xc00050 + 0x10000 * e
/-- R224: [17:0]; RO. -/
def SE_LAST_DROPPED (e : Nat) : Nat := 0xc00054 + 0x10000 * e
/-- R224: [16:0] CHAN; [31] VALID; RO. -/
def SE_BD_CHAN (e : Nat) : Nat := 0xc00058 + 0x10000 * e
/-- R224: P40; RO. -/
def SE_BD_RN (e : Nat) : Nat := 0xc0005c + 0x10000 * e
/-- R224: F40; RO. -/
def SE_FMEAN (e : Nat) : Nat := 0xc00064 + 0x10000 * e
/-- R224: [47:0]; RO. -/
def SE_INST_CNT (e : Nat) : Nat := 0xc00100 + 0x10000 * e
/-- R224: [47:0]; RO. -/
def SE_SUBST_CNT (e : Nat) : Nat := 0xc00108 + 0x10000 * e
/-- R224: [47:0]; RO. -/
def SE_CORR_CNT (e : Nat) : Nat := 0xc00110 + 0x10000 * e
/-- R224: [47:0]; RO. -/
def SE_BDMORE_CNT (e : Nat) : Nat := 0xc00118 + 0x10000 * e
/-- R224: [47:0]; RO. -/
def SE_DROP_CNT (e : Nat) : Nat := 0xc00120 + 0x10000 * e
/-- R224: [47:0]; RO. -/
def SE_RESTORE_CNT (e : Nat) : Nat := 0xc00128 + 0x10000 * e
/-- R224: [47:0]; RO. -/
def SE_SWAP_CNT (e : Nat) : Nat := 0xc00130 + 0x10000 * e
/-- R224: [47:0]; RO. -/
def SE_SPLIT_CNT (e : Nat) : Nat := 0xc00138 + 0x10000 * e
/-- R224: [47:0]; RO. -/
def SE_REJ_CNT (e : Nat) : Nat := 0xc00140 + 0x10000 * e
/-- R224: [47:0]; RO. -/
def SE_ABORT_CNT (e : Nat) : Nat := 0xc00148 + 0x10000 * e
/-- R224: [47:0]; RO. -/
def SE_PSEUDO_CNT (e : Nat) : Nat := 0xc00150 + 0x10000 * e
/-- R224: [47:0]; RO. -/
def SE_COLD_CNT (e : Nat) : Nat := 0xc00158 + 0x10000 * e
/-- R224: [47:0]; RO. -/
def SE_LOWRED_CNT (e : Nat) : Nat := 0xc00160 + 0x10000 * e
/-- R224: [47:0]; RO. -/
def SE_VOID_CNT (e : Nat) : Nat := 0xc00168 + 0x10000 * e
/-- R224: [13:0]; WO. -/
def SE_BUS_SEL (e : Nat) : Nat := 0xc00200 + 0x10000 * e
/-- R224: [0] READY; [1] PRED_ONLY; [2] PSEUDO; RO. -/
def SE_BUS_STAT (e : Nat) : Nat := 0xc00204 + 0x10000 * e
/-- R224: P40; RO. -/
def SE_BUS_RE (e : Nat) : Nat := 0xc00208 + 0x10000 * e
/-- R224: P40; RO. -/
def SE_BUS_IM (e : Nat) : Nat := 0xc00210 + 0x10000 * e
/-- R224: P40; RO. -/
def SE_BUS_MAG (e : Nat) : Nat := 0xc00218 + 0x10000 * e
/-- R224: A40; RO. -/
def SE_BUS_ANG (e : Nat) : Nat := 0xc00220 + 0x10000 * e
/-- R224: [16:0]; WO. -/
def SE_CHAN_SEL (e : Nat) : Nat := 0xc00240 + 0x10000 * e
/-- R224: [0] READY; [2:1] MODE; [3] SUBST; [4] CORR; [5] CRIT; [15:8] CNT; RO. -/
def SE_CHAN_STAT (e : Nat) : Nat := 0xc00244 + 0x10000 * e
/-- R224: P40; RO. -/
def SE_CHAN_T (e : Nat) : Nat := 0xc00248 + 0x10000 * e
/-- R224: P40; RO. -/
def SE_CHAN_K2 (e : Nat) : Nat := 0xc00250 + 0x10000 * e
/-- R247: [14:0]; RO. -/
def FLOE_NODES (e : Nat) : Nat := 0xc80000 + 0x1000 * e
/-- R247: [16:0]; RO. -/
def FLOE_EDGES (e : Nat) : Nat := 0xc80004 + 0x1000 * e
/-- R247: [13:0] NODE; [15:14] WHICH; [16] LOST; RO. -/
def FLOE_REF (e : Nat) : Nat := 0xc80008 + 0x1000 * e
/-- R247: [8:0]; RO. -/
def FLOE_LAST_FLAGS (e : Nat) : Nat := 0xc8000c + 0x1000 * e
/-- R247: T80; RO. -/
def FLOE_LAST_T0 (e : Nat) : Nat := 0xc80010 + 0x1000 * e
/-- R247: [15:0]; RO. -/
def FLOE_SEQ (e : Nat) : Nat := 0xc8001c + 0x1000 * e
/-- R247: [14:0]; RO. -/
def FLOE_FLOES (e : Nat) : Nat := 0xc80020 + 0x1000 * e
/-- R247: [14:0]; RO. -/
def FLOE_MAIN_SIZE (e : Nat) : Nat := 0xc80024 + 0x1000 * e
/-- R247: [13:0]; RO. -/
def FLOE_MAIN_LABEL (e : Nat) : Nat := 0xc80028 + 0x1000 * e
/-- R247: [14:0]; RO. -/
def FLOE_ISL_NODES (e : Nat) : Nat := 0xc8002c + 0x1000 * e
/-- R247: [14:0]; RO. -/
def FLOE_OUT_NODES (e : Nat) : Nat := 0xc80030 + 0x1000 * e
/-- R247: [14:0]; RO. -/
def FLOE_DARK_NODES (e : Nat) : Nat := 0xc80034 + 0x1000 * e
/-- R247: [16:0]; RO. -/
def FLOE_UNBOND (e : Nat) : Nat := 0xc80038 + 0x1000 * e
/-- R247: [16:0]; RO. -/
def FLOE_HELD (e : Nat) : Nat := 0xc8003c + 0x1000 * e
/-- R247: [0] ISLAND; [1] REF_MINOR; [2] REF_LOST; RO. -/
def FLOE_COND (e : Nat) : Nat := 0xc80040 + 0x1000 * e
/-- R247: [47:0]; RO. -/
def FLOE_INST_CNT (e : Nat) : Nat := 0xc80100 + 0x1000 * e
/-- R247: [47:0]; RO. -/
def FLOE_SPLIT_CNT (e : Nat) : Nat := 0xc80108 + 0x1000 * e
/-- R247: [47:0]; RO. -/
def FLOE_JOIN_CNT (e : Nat) : Nat := 0xc80110 + 0x1000 * e
/-- R247: [47:0]; RO. -/
def FLOE_ISLAND_CNT (e : Nat) : Nat := 0xc80118 + 0x1000 * e
/-- R247: [47:0]; RO. -/
def FLOE_REFMIN_CNT (e : Nat) : Nat := 0xc80120 + 0x1000 * e
/-- R247: [47:0]; RO. -/
def FLOE_REFLOST_CNT (e : Nat) : Nat := 0xc80128 + 0x1000 * e
/-- R247: [47:0]; RO. -/
def FLOE_COLD_CNT (e : Nat) : Nat := 0xc80130 + 0x1000 * e
/-- R247: [47:0]; RO. -/
def FLOE_HOLDEXP_CNT (e : Nat) : Nat := 0xc80138 + 0x1000 * e
/-- R247: [47:0]; RO. -/
def FLOE_SLIPSKIP_CNT (e : Nat) : Nat := 0xc80140 + 0x1000 * e
/-- R247: [6:0]; RO. -/
def FLOE_TAB_CNT (e : Nat) : Nat := 0xc803f8 + 0x1000 * e
/-- R247: [14:0]; RO. -/
def FLOE_TAB_OVER (e : Nat) : Nat := 0xc803fc + 0x1000 * e
/-- R247: [13:0] LABEL; [29:16] SIZE; RO. -/
def FLOE_TAB_LABEL (e : Nat) (k : Nat) : Nat := 0xc80400 + 0x1000 * e + 0x10 * k
/-- R247: [14:0] ISL; [30:16] DARK; RO. -/
def FLOE_TAB_NODES (e : Nat) (k : Nat) : Nat := 0xc80404 + 0x1000 * e + 0x10 * k
/-- R247: [13:0] LABEL; [16:14] STATE; [17] DARK; [25:18] CNT; RO. -/
def FLOE_NODE (e : Nat) (n : Nat) : Nat := 0xc90000 + 0x10000 * e + 0x4 * n
/-- R248: [16:0]; RO. -/
def THR_MON1 (e : Nat) : Nat := 0xd80000 + 0x1000 * e
/-- R248: [14:0]; RO. -/
def THR_MON2 (e : Nat) : Nat := 0xd80004 + 0x1000 * e
/-- R248: [16:0]; RO. -/
def THR_PAIRS (e : Nat) : Nat := 0xd80008 + 0x1000 * e
/-- R248: [5:0]; RO. -/
def THR_LAST_FLAGS (e : Nat) : Nat := 0xd8000c + 0x1000 * e
/-- R248: T80; RO. -/
def THR_LAST_T0 (e : Nat) : Nat := 0xd80010 + 0x1000 * e
/-- R248: [15:0]; RO. -/
def THR_SEQ (e : Nat) : Nat := 0xd8001c + 0x1000 * e
/-- R248: [17:0]; RO. -/
def THR_ACTIVE (e : Nat) : Nat := 0xd80020 + 0x1000 * e
/-- R248: [47:0]; RO. -/
def THR_INST_CNT (e : Nat) : Nat := 0xd80100 + 0x1000 * e
/-- R248: [47:0]; RO. -/
def THR_ASSERT_CNT (e : Nat) : Nat := 0xd80108 + 0x1000 * e
/-- R248: [47:0]; RO. -/
def THR_RELEASE_CNT (e : Nat) : Nat := 0xd80110 + 0x1000 * e
/-- R248: [47:0]; RO. -/
def THR_HELD_CNT (e : Nat) : Nat := 0xd80118 + 0x1000 * e
/-- R248: [47:0]; RO. -/
def THR_ENTRY_CNT (e : Nat) : Nat := 0xd80120 + 0x1000 * e
/-- R248: [16:0] INDEX; [18:17] KIND; WO. -/
def THR_MON_SEL (e : Nat) : Nat := 0xd80200 + 0x1000 * e
/-- R248: [0] READY; [2:1] STATE; [3] HELD; [15:8] CNT; RO. -/
def THR_MON_STAT (e : Nat) : Nat := 0xd80204 + 0x1000 * e
/-- R248: 40 bits; RO. -/
def THR_MON_VAL (e : Nat) : Nat := 0xd80208 + 0x1000 * e
/-- R248: [31:0]; RO. -/
def THR_ACTIVE_MAP (e : Nat) (w : Nat) : Nat := 0xdc0000 + 0x8000 * e + 0x4 * w
/-- R274: [12:0]; RO. -/
def OSC_SIGS (e : Nat) : Nat := 0xd00000 + 0x1000 * e
/-- R274: [8:0]; RO. -/
def OSC_GROUPS (e : Nat) : Nat := 0xd00004 + 0x1000 * e
/-- R274: [12:0]; RO. -/
def OSC_BANDS (e : Nat) : Nat := 0xd00008 + 0x1000 * e
/-- R274: [7:0]; RO. -/
def OSC_LAST_FLAGS (e : Nat) : Nat := 0xd0000c + 0x1000 * e
/-- R274: T80; RO. -/
def OSC_LAST_T0 (e : Nat) : Nat := 0xd00010 + 0x1000 * e
/-- R274: [15:0]; RO. -/
def OSC_SEQ (e : Nat) : Nat := 0xd0001c + 0x1000 * e
/-- R274: [12:0]; RO. -/
def OSC_ACTIVE (e : Nat) : Nat := 0xd00020 + 0x1000 * e
/-- R274: [12:0]; RO. -/
def OSC_TRACKING (e : Nat) : Nat := 0xd00024 + 0x1000 * e
/-- R274: [12:0]; RO. -/
def OSC_WARMING (e : Nat) : Nat := 0xd00028 + 0x1000 * e
/-- R274: [47:0]; RO. -/
def OSC_INST_CNT (e : Nat) : Nat := 0xd00100 + 0x1000 * e
/-- R274: [47:0]; RO. -/
def OSC_ADV_CNT (e : Nat) : Nat := 0xd00108 + 0x1000 * e
/-- R274: [47:0]; RO. -/
def OSC_ASSERT_CNT (e : Nat) : Nat := 0xd00110 + 0x1000 * e
/-- R274: [47:0]; RO. -/
def OSC_RELEASE_CNT (e : Nat) : Nat := 0xd00118 + 0x1000 * e
/-- R274: [47:0]; RO. -/
def OSC_HELD_CNT (e : Nat) : Nat := 0xd00120 + 0x1000 * e
/-- R274: [47:0]; RO. -/
def OSC_MISS_CNT (e : Nat) : Nat := 0xd00128 + 0x1000 * e
/-- R274: [47:0]; RO. -/
def OSC_SIG_RESTART_CNT (e : Nat) : Nat := 0xd00130 + 0x1000 * e
/-- R274: [47:0]; RO. -/
def OSC_GRP_RESTART_CNT (e : Nat) : Nat := 0xd00138 + 0x1000 * e
/-- R274: [47:0]; RO. -/
def OSC_SAT_CNT (e : Nat) : Nat := 0xd00140 + 0x1000 * e
/-- R274: [47:0]; RO. -/
def OSC_FITINV_CNT (e : Nat) : Nat := 0xd00148 + 0x1000 * e
/-- R274: [12:0] SIG; [27:16] BAND; WO. -/
def OSC_PAIR_SEL (e : Nat) : Nat := 0xd00200 + 0x1000 * e
/-- R274: [0] READY; [1] AVAIL; [2] WARMING; [3] REF; [4] NOPAIR; RO. -/
def OSC_PAIR_STAT (e : Nat) : Nat := 0xd00204 + 0x1000 * e
/-- R274: P40; RO. -/
def OSC_PAIR_AMP (e : Nat) : Nat := 0xd00208 + 0x1000 * e
/-- R274: P40; RO. -/
def OSC_PAIR_SHRE (e : Nat) : Nat := 0xd00210 + 0x1000 * e
/-- R274: P40; RO. -/
def OSC_PAIR_SHIM (e : Nat) : Nat := 0xd00218 + 0x1000 * e
/-- R274: Q40; RO. -/
def OSC_PAIR_COH (e : Nat) : Nat := 0xd00220 + 0x1000 * e
/-- R275: [1:0] STATE; [2] TRACK; [3] HELD; [11:4] CNT; [12] DAMP; [13] AMP; [14] GROW; RO. -/
def OSC_BAND_STATE (b : Nat) : Nat := 0xd40000 + 0x40 * b
/-- R275: F40; RO. -/
def OSC_BAND_F (b : Nat) : Nat := 0xd40004 + 0x40 * b
/-- R275: Q40; RO. -/
def OSC_BAND_ZETA (b : Nat) : Nat := 0xd4000c + 0x40 * b
/-- R275: P40; RO. -/
def OSC_BAND_AREF (b : Nat) : Nat := 0xd40014 + 0x40 * b
/-- R275: P40; RO. -/
def OSC_BAND_ENERGY (b : Nat) : Nat := 0xd4001c + 0x40 * b
/-- R275: Q40; RO. -/
def OSC_BAND_COH (b : Nat) : Nat := 0xd40024 + 0x40 * b
/-- R275: P40; RO. -/
def OSC_BAND_ZMAG (b : Nat) : Nat := 0xd4002c + 0x40 * b
/-- R289: [8:0] CLASS_CNT; [22:16] TMPL_CNT; RO. -/
def ALM_CFG : Nat := 0xe00000
/-- R289: [11:0]; RO. -/
def ALM_WAIT : Nat := 0xe00004
/-- R289: [15:0]; RO. -/
def ALM_MERGE_US : Nat := 0xe00008
/-- R289: [7:0]; RO. -/
def ALM_PINS : Nat := 0xe00010
/-- R289: [7:0]; RW. -/
def ALM_PIN_FORCE : Nat := 0xe00014
/-- R289: [7:0] CLASS; [31] GO; WO. -/
def ALM_ACK : Nat := 0xe00018
/-- R289: T80; RO. -/
def ALM_LAST_T0 : Nat := 0xe00020
/-- R289: [31:0]; RO. -/
def ALM_LAST_OFS : Nat := 0xe0002c
/-- R289: [3:0]; RO. -/
def ALM_OPEN : Nat := 0xe00030
/-- R289: [15:0]; RO. -/
def ALM_SEQ : Nat := 0xe00034
/-- R289: [47:0]; RO. -/
def ALM_MERGE_CNT : Nat := 0xe00100
/-- R289: [47:0]; RO. -/
def ALM_ENTRY_CNT : Nat := 0xe00108
/-- R289: [47:0]; RO. -/
def ALM_INCOMPLETE_CNT : Nat := 0xe00110
/-- R289: [47:0]; RO. -/
def ALM_OVER_CNT : Nat := 0xe00118
/-- R289: [47:0]; RO. -/
def ALM_STALE_ENTRY_CNT : Nat := 0xe00120
/-- R289: [47:0]; RO. -/
def ALM_ASSERT_CNT : Nat := 0xe00128
/-- R289: [47:0]; RO. -/
def ALM_RELEASE_CNT : Nat := 0xe00130
/-- R289: [47:0]; RO. -/
def ALM_GOOSE_CNT : Nat := 0xe00138
/-- R289: [47:0]; RO. -/
def ALM_GOOSE_KEY_CNT : Nat := 0xe00140
/-- R289: [47:0]; RO. -/
def ALM_HREC_CNT : Nat := 0xe00148
/-- R289: [47:0]; RO. -/
def ALM_HREC_LOST_CNT : Nat := 0xe00150
/-- R289: [1:0] STATE; [19:2] COUNT; [20] INCOMPLETE; RO. -/
def ALM_CLASS (c : Nat) : Nat := 0xe00400 + 0x4 * c
/-- R289: [31:0]; RO. -/
def ALM_GOOSE_STNUM (k : Nat) : Nat := 0xe00800 + 0x10 * k
/-- R289: [31:0]; RO. -/
def ALM_GOOSE_SQNUM (k : Nat) : Nat := 0xe00804 + 0x10 * k
/-- R289: [15:0]; RO. -/
def ALM_GOOSE_IVL (k : Nat) : Nat := 0xe00808 + 0x10 * k
/-- R322: [8:0] R; [15:12] MCK_EN; [16] PMU_CLASS; [17] PMU_BAY; RO. -/
def STN_CFG : Nat := 0x1000000
/-- R322: [0] RUN; [1] REPHASE; [2] FADE; [4:3] ACTIVE; [6:5] FROM; [7] HELD; [9:8] HELD_BANK; [10] TRK0_LOCK; [11] TRK1_LOCK; RO. -/
def STN_STATUS : Nat := 0x1000004
/-- R322: [1:0] BANK; [31] GO; WO. -/
def STN_BANK_SWAP : Nat := 0x1000008
/-- R322: [23:0]; RO. -/
def STN_MOD_LOSS : Nat := 0x100000c
/-- R322: [7:0]; RO. -/
def STN_RANGE : Nat := 0x1000010
/-- R322: [7:0]; RO. -/
def STN_NOLOAD : Nat := 0x1000014
/-- R322: [15:0]; RO. -/
def STN_ZC_LOST : Nat := 0x1000018
/-- R322: [0] ANY_VALID; [1] SLOT; [3:2] KIND; [4] BUSY; [5] RESTORED; RO. -/
def STN_SAVE_STATE : Nat := 0x100001c
/-- R322: T80; RO. -/
def STN_SAVE_T0 : Nat := 0x1000020
/-- R322: [31:0]; RO. -/
def STN_SAVE_SEQ : Nat := 0x100002c
/-- R322: [7:0]; RW. -/
def STN_SAVE_PERIOD : Nat := 0x1000030
/-- R322: [31] GO; WO. -/
def STN_ECLR : Nat := 0x1000034
/-- R322: [47:0]; RO. -/
def STN_MOD_LOSS_CNT : Nat := 0x1000100
/-- R322: [47:0]; RO. -/
def STN_SAT_CNT : Nat := 0x1000108
/-- R322: [47:0]; RO. -/
def STN_RANGE_CNT : Nat := 0x1000110
/-- R322: [47:0]; RO. -/
def STN_ZC_TMO_CNT : Nat := 0x1000118
/-- R322: [47:0]; RO. -/
def STN_SWAP_CNT : Nat := 0x1000120
/-- R322: [47:0]; RO. -/
def STN_SWAP_REPL_CNT : Nat := 0x1000128
/-- R322: [47:0]; RO. -/
def STN_REPHASE_CNT : Nat := 0x1000130
/-- R322: [47:0]; RO. -/
def STN_SAVE_CNT : Nat := 0x1000138
/-- R322: [47:0]; RO. -/
def STN_SAVE_MISS_CNT : Nat := 0x1000140
/-- R322: [47:0]; RO. -/
def STN_SAVE_FAIL_CNT : Nat := 0x1000148
/-- R322: [47:0]; RO. -/
def STN_EPO_OVF_CNT : Nat := 0x1000150
/-- R322: T80; RO. -/
def STN_ZC_TIME (z : Nat) : Nat := 0x1000400 + 0x20 * z
/-- R322: [31:0]; RO. -/
def STN_ZC_PERIOD (z : Nat) : Nat := 0x100040c + 0x20 * z
/-- R322: [47:0]; RO. -/
def STN_ZC_CNT (z : Nat) : Nat := 0x1000410 + 0x20 * z
/-- R322: [15:0]; RO. -/
def STN_Q_SEQ (q : Nat) : Nat := 0x1000800 + 0x200 * q
/-- R322: [31:0]; RO. -/
def STN_Q_HELD (q : Nat) : Nat := 0x1000804 + 0x200 * q
/-- R322: F40; RO. -/
def STN_FREQ (q : Nat) : Nat := 0x1000808 + 0x200 * q
/-- R322: F40; RO. -/
def STN_ROCOF (q : Nat) : Nat := 0x1000810 + 0x200 * q
/-- R322: P40; RO. -/
def STN_RMS (q : Nat) (m : Nat) : Nat := 0x1000818 + 0x200 * q + 0x8 * m
/-- R322: P40; RO. -/
def STN_P (q : Nat) (e : Nat) : Nat := 0x1000858 + 0x200 * q + 0x8 * e
/-- R322: P40; RO. -/
def STN_Q (q : Nat) (e : Nat) : Nat := 0x1000878 + 0x200 * q + 0x8 * e
/-- R322: P40; RO. -/
def STN_S (q : Nat) (e : Nat) : Nat := 0x1000898 + 0x200 * q + 0x8 * e
/-- R322: Q40; RO. -/
def STN_PF (q : Nat) (e : Nat) : Nat := 0x10008b8 + 0x200 * q + 0x8 * e
/-- R322: A40; RO. -/
def STN_PHANG (q : Nat) (j : Nat) : Nat := 0x10008d8 + 0x200 * q + 0x8 * j
/-- R322: A40; RO. -/
def STN_VANG (q : Nat) (j : Nat) : Nat := 0x10008f0 + 0x200 * q + 0x8 * j
/-- R322: [63:0]; RO. -/
def STN_E (q : Nat) (e : Nat) (k : Nat) : Nat := 0x1002000 + 0x100 * q + 0x40 * e + 0x8 * k
/-- R322: [31:0]; W1C. -/
def STN_EWRAP (q : Nat) : Nat := 0x1002200 + 0x4 * q
/-- R322: Record word 0; RO. -/
def STN_EPO_CFG (p : Nat) : Nat := 0x1002400 + 0x20 * p
/-- R322: [15:0]; RO. -/
def STN_EPO_OWED (p : Nat) : Nat := 0x1002404 + 0x20 * p
/-- R322: [47:0]; RO. -/
def STN_EPO_CNT (p : Nat) : Nat := 0x1002408 + 0x20 * p
/-- R322: [31:0]; RW, locked per R299. -/
def STN_BANK (b : Nat) (w : Nat) : Nat := 0x1004000 + 0x400 * b + 0x4 * w
/-- R323: [5:0] ENT_CNT; [23:8] CONT_US; RO. -/
def AUX_CFG : Nat := 0x1100000
/-- R323: [4:0] FIRST; [31] START; WO. -/
def AUX_CTRL : Nat := 0x1100004
/-- R323: [3:0] CH; [31] GO; WO. -/
def AUX_URGENT : Nat := 0x1100008
/-- R323: [0] BUSY; [5:1] ENTRY; [6] HELD; [9:7] URG_DEPTH; RO. -/
def AUX_STATUS : Nat := 0x110000c
/-- R323: [19:0] CODE; [23:20] CH; [31] VALID; RO. -/
def AUX_URG_RESULT : Nat := 0x1100010
/-- R323: T80; RO. -/
def AUX_URG_T : Nat := 0x1100014
/-- R323: [31:0]; W1C. -/
def AUX_LIMIT_PEND : Nat := 0x1100020
/-- R323: [47:0]; RO. -/
def AUX_CONV_CNT : Nat := 0x1100100
/-- R323: [47:0]; RO. -/
def AUX_SCAN_CNT : Nat := 0x1100108
/-- R323: [47:0]; RO. -/
def AUX_SCAN_REPL_CNT : Nat := 0x1100110
/-- R323: [47:0]; RO. -/
def AUX_URG_CNT : Nat := 0x1100118
/-- R323: [47:0]; RO. -/
def AUX_URG_LOST_CNT : Nat := 0x1100120
/-- R323: [19:0]; RO. -/
def AUX_RESULT (e : Nat) : Nat := 0x1100200 + 0x10 * e
/-- R323: T80; RO. -/
def AUX_RESULT_T (e : Nat) : Nat := 0x1100204 + 0x10 * e
/-- R340: [4:0] PLAN_CNT; [14:8] TRIG_CNT; RO. -/
def CAP_CFG : Nat := 0x1200000
/-- R340: [3:0] PLAN; [8] REARM; [9] STOP; WO. -/
def CAP_PLAN_CTRL : Nat := 0x1200004
/-- R340: [5:0] TRIG; [31] GO; WO. -/
def CAP_TRIG_ARM : Nat := 0x1200008
/-- R340: [5:0] TRIG; [31] GO; WO. -/
def CAP_TRIG_FIRE : Nat := 0x120000c
/-- R340: [31:0]; RO. -/
def CAP_TRIG_ARMED_LO : Nat := 0x1200010
/-- R340: [31:0]; RO. -/
def CAP_TRIG_ARMED_HI : Nat := 0x1200014
/-- R340: [31:0]; RO. -/
def CAP_SPILL_WPTR_LO : Nat := 0x1200020
/-- R340: [31:0]; RO. -/
def CAP_SPILL_WPTR_HI : Nat := 0x1200024
/-- R340: [31:0]; RW. -/
def CAP_SPILL_RPTR_LO : Nat := 0x1200028
/-- R340: [31:0]; RW. -/
def CAP_SPILL_RPTR_HI : Nat := 0x120002c
/-- R340: [15:0]; RO. -/
def CAP_SPILL_LAP : Nat := 0x1200030
/-- R340: [0] STOPPED; [1] BUSY; [15:8] PENDING; RO. -/
def CAP_SPILL_STATE : Nat := 0x1200034
/-- R340: [11:0]; RW. -/
def CAP_WIN_BASE : Nat := 0x1200040
/-- R340: [47:0]; RO. -/
def CAP_REC_CNT : Nat := 0x1200100
/-- R340: [47:0]; RO. -/
def CAP_TRIG_CNT : Nat := 0x1200108
/-- R340: [47:0]; RO. -/
def CAP_RETRIG_CNT : Nat := 0x1200110
/-- R340: [47:0]; RO. -/
def CAP_TRIG_MISS_CNT : Nat := 0x1200118
/-- R340: [47:0]; RO. -/
def CAP_OVERWRITE_CNT : Nat := 0x1200120
/-- R340: [47:0]; RO. -/
def CAP_SEG_WRAP_CNT : Nat := 0x1200128
/-- R340: [47:0]; RO. -/
def CAP_SPILL_CNT : Nat := 0x1200130
/-- R340: [47:0]; RO. -/
def CAP_SPILL_STOP_CNT : Nat := 0x1200138
/-- R340: [47:0]; RO. -/
def CAP_CE_CNT : Nat := 0x1200140
/-- R340: [47:0]; RO. -/
def CAP_UE_CNT : Nat := 0x1200148
/-- R340: [2:0] STATE; [27:16] SLOT; RO. -/
def CAP_PLAN_STATE (n : Nat) : Nat := 0x1201000 + 0x40 * n
/-- R340: [11:0] SEG; [31] VALID; RO. -/
def CAP_PLAN_LAST (n : Nat) : Nat := 0x1201004 + 0x40 * n
/-- R340: [47:0]; RO. -/
def CAP_PLAN_REC_CNT (n : Nat) : Nat := 0x1201008 + 0x40 * n
/-- R340: [23:0]; RO. -/
def CAP_PLAN_FILL (n : Nat) : Nat := 0x1201010 + 0x40 * n
/-- R340: [31:0]; RO. -/
def CAP_WIN (i : Nat) : Nat := 0x1280000 + 0x4 * i
/-- R341: [10:0] WATCH_CNT; RO. -/
def FIRN_CFG : Nat := 0x1300000
/-- R341: [9:0]; RW. -/
def FIRN_QSEL : Nat := 0x1300004
/-- R341: [2:0] PERIODS; [31] GO; WO. -/
def FIRN_CLR : Nat := 0x1300008
/-- R341: [2:0]; RO. -/
def FIRN_CUR : Nat := 0x130000c
/-- R341: T80; RO. -/
def FIRN_PSTART (p : Nat) : Nat := 0x1300010 + 0x10 * p
/-- R341: [9:0] QTY; [11:10] PERIOD; [12] HALF; [13] LIVE; [31] VALID; RO. -/
def FIRN_POISON (k : Nat) : Nat := 0x1300080 + 0x8 * k
/-- R341: [31:0]; RO. -/
def FIRN_POISON_T (k : Nat) : Nat := 0x1300084 + 0x8 * k
/-- R341: [47:0]; RO. -/
def FIRN_UPD_CNT : Nat := 0x1300100
/-- R341: [47:0]; RO. -/
def FIRN_LOST_CNT : Nat := 0x1300108
/-- R341: [47:0]; RO. -/
def FIRN_SKIP_CNT : Nat := 0x1300110
/-- R341: [47:0]; RO. -/
def FIRN_PERIOD_SKIP_CNT : Nat := 0x1300118
/-- R341: [47:0]; RO. -/
def FIRN_CLR_CNT : Nat := 0x1300120
/-- R341: [47:0]; RO. -/
def FIRN_CE_CNT : Nat := 0x1300128
/-- R341: [47:0]; RO. -/
def FIRN_UE_CNT : Nat := 0x1300130
/-- R341: [47:0]; RO. -/
def FIRN_POISON_OVF_CNT : Nat := 0x1300138
/-- R341: [47:0]; RO. -/
def FIRN_POISON_DROP_CNT : Nat := 0x1300140
/-- R341: T80; RO. -/
def FIRN_CLRLOG (k : Nat) : Nat := 0x1300200 + 0x10 * k
/-- R341: [2:0] PERIODS; [7:3] UNPOISONED; [31:8] CLR_SEQ [23:0]; RO. -/
def FIRN_CLRLOG_INFO (k : Nat) : Nat := 0x130020c + 0x10 * k
/-- R341: [2:0]; RO. -/
def FIRN_CLRLOG_HEAD : Nat := 0x1300280
/-- R341: R337; RO. -/
def FIRN_REC (r : Nat) (i : Nat) : Nat := 0x1310000 + 0x200 * r + 0x4 * i
/-- R362: [10:0] THR_CNT; [24:16] JOB_CNT; RO. -/
def DISP_CFG : Nat := 0x1400000
/-- R362: [7:0]; RW. -/
def DISP_CORE_RUN : Nat := 0x1400004
/-- R362: [3:0] STAGE; [11:8] FAIL; RO. -/
def DISP_BOOT : Nat := 0x1400008
/-- R362: [9:0] THREAD; [11:10] PORT; [31:16] VALUE; WO. -/
def DISP_POST : Nat := 0x140000c
/-- R362: [9:0]; WO. -/
def DISP_CANCEL : Nat := 0x1400010
/-- R362: [7:0]; WO. -/
def DISP_JOB_DEC : Nat := 0x1400014
/-- R362: [31:0]; RO. -/
def DISP_READY_LO : Nat := 0x1400018
/-- R362: [31:0]; RO. -/
def DISP_READY_HI : Nat := 0x140001c
/-- R362: [31:0]; RO. -/
def DISP_TRACE_BASE_LO : Nat := 0x1400020
/-- R362: [31:0]; RO. -/
def DISP_TRACE_BASE_HI : Nat := 0x1400024
/-- R362: [15:0] INDEX; [31:16] LAP; RO. -/
def DISP_TRACE_WPTR : Nat := 0x1400028
/-- R362: [15:0]; RW. -/
def DISP_TRACE_MASK : Nat := 0x140002c
/-- R362: [6:0] DEPTH; [7] EMPTY; RO. -/
def DISP_XQ_STATUS : Nat := 0x1400030
/-- R362: [47:0]; RO. -/
def DISP_POST_CNT : Nat := 0x1400100
/-- R362: [47:0]; RO. -/
def DISP_READY_CNT : Nat := 0x1400108
/-- R362: [47:0]; RO. -/
def DISP_TAKE_CNT : Nat := 0x1400110
/-- R362: [47:0]; RO. -/
def DISP_DONE_CNT : Nat := 0x1400118
/-- R362: [47:0]; RO. -/
def DISP_CANCEL_CNT : Nat := 0x1400120
/-- R362: [47:0]; RO. -/
def DISP_COR_CNT : Nat := 0x1400128
/-- R362: [47:0]; RO. -/
def DISP_COLL_CNT : Nat := 0x1400130
/-- R362: [47:0]; RO. -/
def DISP_DISC_CNT : Nat := 0x1400138
/-- R362: [47:0]; RO. -/
def DISP_DISPLACE_CNT : Nat := 0x1400140
/-- R362: [47:0]; RO. -/
def DISP_JOB_FIRE_CNT : Nat := 0x1400148
/-- R362: [47:0]; RO. -/
def DISP_JOB_UNDER_CNT : Nat := 0x1400150
/-- R362: [47:0]; RO. -/
def DISP_POST_STALL_CNT : Nat := 0x1400158
/-- R362: [47:0]; RO. -/
def DISP_XQ_LOST_CNT : Nat := 0x1400160
/-- R362: [47:0]; RO. -/
def DISP_XQ_STALE_CNT : Nat := 0x1400168
/-- R362: [47:0]; RO. -/
def DISP_DONE_ORPHAN_CNT : Nat := 0x1400170
/-- R362: [47:0]; RO. -/
def DISP_TRACE_WRAP_CNT : Nat := 0x1400178
/-- R362: [47:0]; RO. -/
def DISP_TRACE_LOST_CNT : Nat := 0x1400180
/-- R362: [1:0] STATE; [2] RUNNING; [12:3] THREAD; [13] SLOT_VALID; [23:14] SLOT_THREAD; RO. -/
def DISP_CORE (k : Nat) : Nat := 0x1401000 + 0x10 * k
/-- R362: [47:0]; RO. -/
def DISP_CORE_TAKE_CNT (k : Nat) : Nat := 0x1401008 + 0x10 * k
/-- R362: [1:0] STATE; [2] PEND; [6:3] FILLED; [12:7] PRIO; RO. -/
def DISP_THR (t : Nat) : Nat := 0x1402000 + 0x4 * t
/-- R362: [15:0]; RO. -/
def DISP_JOB (j : Nat) : Nat := 0x1403000 + 0x4 * j
/-- R376: Header word 0; RO. -/
def NDK_CFG : Nat := 0x1500000
/-- R376: [0] RXA_UP; [1] RXB_UP; [2] WRAP_A; [3] WRAP_B; [4] MASTER; [7:5] MASTER_NUM; [23:8] POLLSEQ; RO. -/
def NDK_STATUS : Nat := 0x1500004
/-- R376: [0] ACTIVE; [1] MISMATCH; [2] PEER_SEEN; RO. -/
def NDK_MIRROR : Nat := 0x1500008
/-- R376: [0] TAKE; WO. -/
def NDK_MIRROR_CTRL : Nat := 0x150000c
/-- R376: [63:0]; RO. -/
def NDK_TIME_OFS : Nat := 0x1500010
/-- R376: [2:0] STATE; [7:4] QUAL; [15:8] SEQ; RO. -/
def NDK_TIME_MST : Nat := 0x1500018
/-- R376: [31:0]; RO. -/
def NDK_TIME_ERR : Nat := 0x150001c
/-- R376: [31:0]; RO. -/
def NDK_HOP_DLY (d : Nat) : Nat := 0x1500020 + 0x4 * d
/-- R376: [47:0]; RO. -/
def NDK_RUNT_CNT : Nat := 0x1500100
/-- R376: [47:0]; RO. -/
def NDK_LONG_CNT : Nat := 0x1500108
/-- R376: [47:0]; RO. -/
def NDK_CRC_CNT : Nat := 0x1500110
/-- R376: [47:0]; RO. -/
def NDK_ORBIT_CNT : Nat := 0x1500118
/-- R376: [47:0]; RO. -/
def NDK_AUTH_FAIL_CNT : Nat := 0x1500120
/-- R376: [47:0]; RO. -/
def NDK_DUP_CNT : Nat := 0x1500128
/-- R376: [47:0]; RO. -/
def NDK_RTX_CNT : Nat := 0x1500130
/-- R376: [47:0]; RO. -/
def NDK_RTX_ABANDON_CNT : Nat := 0x1500138
/-- R376: [47:0]; RO. -/
def NDK_TXQ_LOST_CNT : Nat := 0x1500140
/-- R376: [47:0]; RO. -/
def NDK_FWD_UNKNOWN_CNT : Nat := 0x1500148
/-- R376: [47:0]; RO. -/
def NDK_POLL_LOST_CNT : Nat := 0x1500150
/-- R376: [47:0]; RO. -/
def NDK_WRAP_CNT : Nat := 0x1500158
/-- R376: [47:0]; RO. -/
def NDK_KEYREV_CNT : Nat := 0x1500160
/-- R376: [47:0]; RO. -/
def NDK_TAKEOVER_CNT : Nat := 0x1500168
/-- R376: [47:0]; RO. -/
def NDK_YIELD_CNT : Nat := 0x1500170
/-- R376: [47:0]; RO. -/
def NDK_TX_CNT : Nat := 0x1500178
/-- R376: [47:0]; RO. -/
def NDK_RX_CNT : Nat := 0x1500180
/-- R397: Header word 0; RO. -/
def RADIO_CFG : Nat := 0x1600000
/-- R397: [0] BEACON; [1] DUTY_HOLD; [2] PLL_LOCK; RO. -/
def RADIO_STATUS : Nat := 0x1600004
/-- R397: [39:0]; RO. -/
def RADIO_SFN : Nat := 0x1600008
/-- R397: [31:0]; RO. -/
def RADIO_DUTY_USED : Nat := 0x1600010
/-- R397: [4:0]; RW. -/
def RADIO_TX_PWR : Nat := 0x1600014
/-- R397: [7:0] INDEX; [31] VALID; RO. -/
def RADIO_RXQ_HEAD : Nat := 0x1600020
/-- R397: [0]; WO. -/
def RADIO_RXQ_POP : Nat := 0x1600024
/-- R397: [31:0]; RW. -/
def RADIO_RXQ_BASE : Nat := 0x1600028
/-- R397: [31:0]; RW. -/
def RADIO_TXQ_ADDR : Nat := 0x1600030
/-- R397: [7:0] SENSOR; [18:8] LEN; [31] GO; WO. -/
def RADIO_TXQ_CTRL : Nat := 0x1600034
/-- R397: [4:0] DEPTH; [15:8] SENSOR; [16] OK; RO. -/
def RADIO_TXQ_STATUS : Nat := 0x1600038
/-- R397: [47:0]; RO. -/
def RADIO_RX_CNT : Nat := 0x1600100
/-- R397: [47:0]; RO. -/
def RADIO_ACK_CNT : Nat := 0x1600108
/-- R397: [47:0]; RO. -/
def RADIO_DUP_CNT : Nat := 0x1600110
/-- R397: [47:0]; RO. -/
def RADIO_SHORT_CNT : Nat := 0x1600118
/-- R397: [47:0]; RO. -/
def RADIO_FCS_ERR_CNT : Nat := 0x1600120
/-- R397: [47:0]; RO. -/
def RADIO_UNKNOWN_CNT : Nat := 0x1600128
/-- R397: [47:0]; RO. -/
def RADIO_SLOT_ERR_CNT : Nat := 0x1600130
/-- R397: [47:0]; RO. -/
def RADIO_AUTH_FAIL_CNT : Nat := 0x1600138
/-- R397: [47:0]; RO. -/
def RADIO_MISS_CNT : Nat := 0x1600140
/-- R397: [47:0]; RO. -/
def RADIO_WAKE_CNT : Nat := 0x1600148
/-- R397: [47:0]; RO. -/
def RADIO_LOST_CNT : Nat := 0x1600150
/-- R397: [47:0]; RO. -/
def RADIO_RXQ_LOST_CNT : Nat := 0x1600158
/-- R397: [47:0]; RO. -/
def RADIO_RXQ_STALE_CNT : Nat := 0x1600160
/-- R397: [47:0]; RO. -/
def RADIO_DUTY_WAIT_CNT : Nat := 0x1600168
/-- R397: [47:0]; RO. -/
def RADIO_KEYREV_CNT : Nat := 0x1600170
/-- R397: [47:0]; RO. -/
def RADIO_TX_FAIL_CNT : Nat := 0x1600178
/-- R397: [47:0]; RO. -/
def RADIO_CTR_EXH_CNT : Nat := 0x1600180
/-- R397: [31:0]; RO. -/
def RADIO_BCN_CTR : Nat := 0x1600190
/-- R397: [1:0] STATE; [3:2] MISSES; [11:4] WAKES; [12] PEND; RO. -/
def RADIO_SNS_STATE (s : Nat) : Nat := 0x1601000 + 0x20 * s
/-- R397: [31:0]; RO. -/
def RADIO_SNS_DRIFT (s : Nat) : Nat := 0x1601004 + 0x20 * s
/-- R397: [31:0]; RO. -/
def RADIO_SNS_ERR (s : Nat) : Nat := 0x1601008 + 0x20 * s
/-- R397: [7:0] RSSI; [15:8] LQI; RO. -/
def RADIO_SNS_LINK (s : Nat) : Nat := 0x160100c + 0x20 * s
/-- R397: [31:0]; RO. -/
def RADIO_SNS_RXCTR (s : Nat) : Nat := 0x1601010 + 0x20 * s
/-- R397: [31:0]; RO. -/
def RADIO_SNS_TXCTR (s : Nat) : Nat := 0x1601014 + 0x20 * s
/-- R397: [31:0]; RO. -/
def RADIO_SNS_LAST (s : Nat) : Nat := 0x1601018 + 0x20 * s
/-- R427: [2:0] LCSTATE; [3] MIGRATING; [4] BATLOSS (W1C); [5] TAMPERED (W1C); RO. -/
def KEY_STATUS : Nat := 0x1700000
/-- R427: [3:0]; RO. -/
def KEY_ROOT_STATE : Nat := 0x1700004
/-- R427: [1:0] TIN_EN; [3:2] TIN_POL (1: high active); [11:4] DEB, 1 to 255; RW, locked per R416. -/
def KEY_TAMP_CFG : Nat := 0x1700008
/-- R427: [0] TIN0; [1] TIN1; [2] MESH; [3] VBAT; [4] TEMP; [5] CLOCK; W1C. -/
def KEY_TAMP_CAUSE : Nat := 0x170000c
/-- R427: [47:0]; RO. -/
def KEY_TAMP_TICKS : Nat := 0x1700010
/-- R427: [47:0]; RO. -/
def KEY_BAT_TICKS : Nat := 0x1700018
/-- R427: [15:0]; RO. -/
def KEY_TAMP_CNT : Nat := 0x1700020
/-- R427: [31:0]; RO. -/
def KEY_FW_FLOOR : Nat := 0x1700024
/-- R427: [31:0]; RO. -/
def KEY_FW_VERSION : Nat := 0x1700028
/-- R427: [31:0]; RW. -/
def KEY_IMG_PK : Nat := 0x170002c
/-- R427: [31:0]; RO. -/
def KEY_UID (i : Nat) : Nat := 0x1700030 + 0x4 * i
/-- R427: [31:0]; RO. -/
def KEY_SLOT_STATE (i : Nat) : Nat := 0x1700040 + 0x4 * i
/-- R427: [47:0]; RO. -/
def KEY_CMD_CNT : Nat := 0x1700100
/-- R427: [47:0]; RO. -/
def KEY_CMD_ERR_CNT : Nat := 0x1700108
/-- R427: [47:0]; RO. -/
def KEY_VERIFY_CNT : Nat := 0x1700110
/-- R427: [47:0]; RO. -/
def KEY_VERIFY_FAIL_CNT : Nat := 0x1700118
/-- R427: [47:0]; RO. -/
def KEY_PRIV_CNT : Nat := 0x1700120
/-- R427: [47:0]; RO. -/
def KEY_PRIV_FAIL_CNT : Nat := 0x1700128
/-- R427: [47:0]; RO. -/
def KEY_REVOKE_CNT : Nat := 0x1700130
/-- R427: [47:0]; RO. -/
def KEY_TAGFAIL_CNT : Nat := 0x1700138
/-- R427: [47:0]; RO. -/
def KEY_LATEUSE_CNT : Nat := 0x1700140
/-- R427: [47:0]; RO. -/
def KEY_ATTEST_CNT : Nat := 0x1700148
/-- R427: Words 0–2 of R399 at +0, +4, +8; RO. -/
def KEY_SLOT_HDR (s : Nat) (i : Nat) : Nat := 0x1700400 + 0x10 * s + 0x4 * i
/-- R427: [7:0] CUR; [15:8] NEXT; [18:16] USE; RO. -/
def KEY_BIND (b : Nat) : Nat := 0x1700800 + 0x4 * b
/-- R427: [7:0] CODE; [31] GO; WO. -/
def KEY_MBX_CTRL (m : Nat) : Nat := 0x1701000 + 0x10 * m
/-- R427: [0] BUSY; [11:8] RESULT; RO. -/
def KEY_MBX_STATUS (m : Nat) : Nat := 0x1701004 + 0x10 * m
/-- R427: 8 KiB; RW. -/
def KEY_MBX_BUF (m : Nat) (i : Nat) : Nat := 0x1702000 + 0x2000 * m + 0x4 * i
/-- R449: [31:0]; W1C. -/
def FLT_STICKY (i : Nat) : Nat := 0x1800000 + 0x4 * i
/-- R449: [6:0] SOURCE; [31] VALID; RO, VALID W1C. -/
def FLT_FIRST : Nat := 0x1800010
/-- R449: [6:0] SOURCE; [8] BITS; [23:16] COUNT; [31] ARM; WO. -/
def FLT_INJ : Nat := 0x1800020
/-- R449: [6:0] SOURCE; [15:8] LEFT; [16] NONE; RO. -/
def FLT_INJ_STATUS : Nat := 0x1800024
/-- R449: [31:0]; W1C. -/
def FLT_EVT_PEND (i : Nat) : Nat := 0x1800040 + 0x4 * i
/-- R449: T80; RO. -/
def FLT_REC_T (n : Nat) : Nat := 0x1800100 + 0x10 * n
/-- R449: [23:0] INFO; [28] NOREC; [29] INJ; [30] MERGED; [31] VALID; RO. -/
def FLT_REC_INFO (n : Nat) : Nat := 0x180010c + 0x10 * n
/-- R449: [47:0]; RO. -/
def FLT_SRC_CNT (n : Nat) : Nat := 0x1800800 + 0x8 * n
/-- R449: [0] HOST; [1] CORE; [4:2] CORE_NUM; [13:8] VECTOR; RW. -/
def FLT_EVT_ROUTE (e : Nat) : Nat := 0x1800c00 + 0x4 * e
/-- R450: [1:0] STATE; [2] SUPWARN; [3] MOVING; RO. -/
def PWR_STATE : Nat := 0x1900000
/-- R450: [1:0] TARGET; [31:16] KEY; WO. -/
def PWR_STATE_CTRL : Nat := 0x1900004
/-- R450: [31:16] KEY; WO. -/
def PWR_RESET : Nat := 0x1900008
/-- R450: [0] POR; [1] PIN; [2] WDT; [3] SOFT; [4] LINK; [5] SUPPLY; [6] HOLD; W1C. -/
def PWR_RESET_CAUSE : Nat := 0x190000c
/-- R450: [0] LINK_MODE; [1] WAKE; RW. -/
def PWR_CFG : Nat := 0x1900010
/-- R450: [15:0] PERIOD; [31] EN; RW, locked once EN. -/
def PWR_WDT_CFG : Nat := 0x1900014
/-- R450: [15:0] KEY; WO. -/
def PWR_WDT_KICK : Nat := 0x1900018
/-- R450: [0] EN; [1] WARNED; [31:16] remaining ms; RO. -/
def PWR_WDT_STATE : Nat := 0x190001c
/-- R450: [9:0] WARN; [25:16] RST; RW. -/
def PWR_SUPMON_CFG : Nat := 0x1900020
/-- R450: [11:0]; RO. -/
def PWR_TEMP : Nat := 0x1900024
/-- R450: [11:0]; RW. -/
def PWR_TEMP_WARN : Nat := 0x1900028
/-- R450: [11:0]; RO. -/
def PWR_TEMP_CRIT : Nat := 0x190002c
/-- R450: [47:0]; RO. -/
def PWR_SUPPLY_WARN_CNT : Nat := 0x1900100
/-- R450: [47:0]; RO. -/
def PWR_SUPPLY_DIP_CNT : Nat := 0x1900108
/-- R450: [47:0]; RO. -/
def PWR_RST_CNT (k : Nat) : Nat := 0x1900110 + 0x8 * k
/-- R450: [47:0]; RO. -/
def PWR_PARK_DISC_CNT : Nat := 0x1900140
/-- R450: [47:0]; RO. -/
def PWR_WDT_WARN_CNT : Nat := 0x1900148
/-- R450: [47:0]; RO. -/
def PWR_THERM_CNT : Nat := 0x1900150
/-- R471: [31] GO; WO. -/
def FLDL_DOORBELL : Nat := 0x10000
/-- R471: [0] BUSY; [1] DONE (W1C); [2] SESSION; [3] RECOVERY; RO, DONE W1C. -/
def FLDL_STATUS : Nat := 0x10004
/-- R471: [2:0] CORE; [8] IRQ; RW. -/
def FLDL_CFG : Nat := 0x10008
/-- R471: [31] GO; WO. -/
def FLDL_RESP : Nat := 0x1000c
/-- R471: [27:0]; RO. -/
def FLDL_STAGED : Nat := 0x10010
/-- R471: [47:0]; RO. -/
def FLDL_CMD_CNT : Nat := 0x10100
/-- R471: [47:0]; RO. -/
def FLDL_DB_IGN_CNT : Nat := 0x10108
/-- R471: 64 KiB; RW. -/
def FLDL_REQ (i : Nat) : Nat := 0x20000 + 0x4 * i
/-- R471: 64 KiB; RW. -/
def FLDL_RSP (i : Nat) : Nat := 0x30000 + 0x4 * i
/-- R472: [0] LINKUP; [3:1] SPEED, 1 to 4 for 2.5 to 16 GT/s; [6:4] WIDTH, lanes; [7] BME; [8] MSIX_EN; [10:9] DSTATE, 0 D0, 3 D3hot; RO. -/
def HQ_PCIE_STATUS : Nat := 0x1a00000
/-- R472: [7:0] BASE; RW. -/
def HQ_DDR_WIN : Nat := 0x1a00004
/-- R472: [8:0] CH0; [24:16] CH1; RO. -/
def HQ_DDR_SIZE : Nat := 0x1a00008
/-- R472: [0] RING0; [1] RING1; [2] ATTN; RW. -/
def HQ_IRQ_EN : Nat := 0x1a00010
/-- R472: [0] ALM_STALE; [1] SEAM_LOST; [2] SEAM_STALE; W1C. -/
def HQ_ATTN : Nat := 0x1a00014
/-- R472: [15:0] STALE, µs; RW. -/
def HQ_SEAM_CFG : Nat := 0x1a00018
/-- R472: [1:0]; W1C. -/
def HQ_RING_PEND : Nat := 0x1a0001c
/-- R472: [31:0]; RW. -/
def HQ_SEAM_MASK (i : Nat) : Nat := 0x1a00020 + 0x4 * i
/-- R472: [31:0]; RW. -/
def HQ_RING_BASE_LO (q : Nat) : Nat := 0x1a00100 + 0x40 * q
/-- R472: [31:0]; RW. -/
def HQ_RING_BASE_HI (q : Nat) : Nat := 0x1a00104 + 0x40 * q
/-- R472: [4:0] LOG2N, 6 to 16; [8] EN; RW. -/
def HQ_RING_CFG (q : Nat) : Nat := 0x1a00108 + 0x40 * q
/-- R472: [15:0]; RO. -/
def HQ_RING_HEAD (q : Nat) : Nat := 0x1a0010c + 0x40 * q
/-- R472: [15:0]; RW. -/
def HQ_RING_TAIL (q : Nat) : Nat := 0x1a00110 + 0x40 * q
/-- R472: [31:0]; RW. -/
def HQ_RING_WB_LO (q : Nat) : Nat := 0x1a00114 + 0x40 * q
/-- R472: [31:0]; RW. -/
def HQ_RING_WB_HI (q : Nat) : Nat := 0x1a00118 + 0x40 * q
/-- R472: [15:0] COUNT; [31:16] TIME, µs; RW. -/
def HQ_RING_IRQ (q : Nat) : Nat := 0x1a0011c + 0x40 * q
/-- R472: [47:0]; RO. -/
def HQ_DMA_CNT (q : Nat) : Nat := 0x1a00120 + 0x40 * q
/-- R472: [47:0]; RO. -/
def HQ_SEAM_LOST_CNT : Nat := 0x1a00200
/-- R472: [47:0]; RO. -/
def HQ_SEAM_STALE_CNT : Nat := 0x1a00208
/-- R472: [47:0]; RO. -/
def HQ_ALM_STALE_CNT : Nat := 0x1a00210
/-- R472: [47:0]; RO. -/
def HQ_BAR2_POISON_CNT : Nat := 0x1a00218
/-- R472: [47:0]; RO. -/
def HQ_UART_LOST_CNT : Nat := 0x1a00220
/-- R472: [15:0] DIV; RW. -/
def HQ_UART_CFG : Nat := 0x1a00300
/-- R472: [7:0]; RW. -/
def HQ_UART_DATA : Nat := 0x1a00304
/-- R472: [6:0] RXDEPTH; [14:8] TXDEPTH; RO. -/
def HQ_UART_STATUS : Nat := 0x1a00308
/-- R472: [7:0] OPCODE; [8] ADDR4; [11:9] ADDR_BYTES; [15:12] DUMMY; [24:16] LEN, 0 to 256; [29] WRITE; [30] BUSY (RO); [31] GO; RW. -/
def HQ_QSPI_CTRL : Nat := 0x1a00340
/-- R472: [31:0]; RW. -/
def HQ_QSPI_ADDR : Nat := 0x1a00344
/-- R472: [31:0]; RW. -/
def HQ_QSPI_BUF (i : Nat) : Nat := 0x1a00400 + 0x4 * i
/-- R472: 68 × 16 bytes; RW. -/
def HQ_MSIX_TABLE (i : Nat) : Nat := 0x1a08000 + 0x4 * i
/-- R472: [67:0]; RO. -/
def HQ_MSIX_PBA : Nat := 0x1a09000

end Sys2Proof.Reg
end

