-- ==== Sys2Proof/Machine/RegMap.lean ====
section
/-! DEFINITION. The register map: one row for each register of the spec's tables, with the width of its value in 32-bit words,
its array dimensions, its writable and write-1-to-clear bits (R8), its reset value and its surviving code (R10). -/
namespace Sys2Proof.Machine
open Sys2Proof

/-- R40. -/
def regRowsFABR40 : List RegRow := [
  ⟨Reg.FAB_PWIN_VAL 0, 2, true, [(4096, 0x20)], 0xffffffffff, 0x0, .w⟩,
  ⟨Reg.FAB_PWIN_MIN 0, 2, true, [(4096, 0x20)], 0x0, 0x0, .w⟩,
  ⟨Reg.FAB_PWIN_MAX 0, 2, true, [(4096, 0x20)], 0x0, 0x0, .w⟩,
  ⟨Reg.FAB_PWIN_DESC 0, 1, false, [(4096, 0x20)], 0x0, 0x0, .w⟩,
  ⟨Reg.FAB_PWIN_PEND 0, 1, false, [(4096, 0x20)], 0x0, 0x0, .w⟩]

/-- R49. -/
def regRowsFEATR49 : List RegRow := [
  ⟨Reg.FEAT_OFFER 0, 1, false, [(8, 0x4)], 0x0, 0x0, .n⟩,
  ⟨Reg.FEAT_ACC 0, 1, false, [(8, 0x4)], 0x0, 0x0, .w⟩,
  ⟨Reg.FEAT_ID, 1, false, [], 0x0, 0x0, .n⟩,
  ⟨Reg.FEAT_FLDL_VER, 1, false, [], 0x0, 0x0, .n⟩,
  ⟨Reg.FEAT_IMG_STATE, 1, false, [], 0x0, 0x0, .w⟩,
  ⟨Reg.FEAT_IMG_VERSION, 1, false, [], 0x0, 0x0, .w⟩,
  ⟨Reg.FEAT_IMG_SERIAL, 2, true, [], 0x0, 0x0, .w⟩,
  ⟨Reg.FEAT_IMG_FLOOR, 1, false, [], 0x0, 0x0, .b⟩,
  ⟨Reg.FEAT_IMG_ACT, 3, true, [], 0x0, 0x0, .w⟩,
  ⟨Reg.FEAT_IMG_PEND, 1, false, [], 0x0, 0x0, .w⟩,
  ⟨Reg.FEAT_RELOAD_DISC, 2, true, [], 0x0, 0x0, .w⟩]

/-- R83. -/
def regRowsTIMER83p0 : List RegRow := [
  ⟨Reg.TIME_NOW_NS, 1, false, [], 0x0, 0x0, .w⟩,
  ⟨Reg.TIME_NOW_SEC_LO, 1, false, [], 0x0, 0x0, .w⟩,
  ⟨Reg.TIME_NOW_SEC_HI, 1, false, [], 0x0, 0x0, .w⟩,
  ⟨Reg.TIME_NOW_FRAC, 1, false, [], 0x0, 0x0, .w⟩,
  ⟨Reg.TIME_NOW_MANG, 2, true, [], 0x0, 0x0, .n⟩,
  ⟨Reg.TIME_INC, 2, true, [], 0xffffffffff, 0x0, .w⟩,
  ⟨Reg.TIME_SLEW_INC, 2, true, [], 0xffffffffff, 0x0, .w⟩,
  ⟨Reg.TIME_SLEW_TICKS, 1, false, [], 0xffffffff, 0x0, .w⟩,
  ⟨Reg.TIME_INC_RUN, 2, true, [], 0x0, 0x0, .w⟩,
  ⟨Reg.TIME_SVO_OFS, 2, true, [], 0xffffffffffffffff, 0x0, .n⟩,
  ⟨Reg.TIME_SVO_POST, 1, false, [], 0x0, 0x0, .n⟩,
  ⟨Reg.TIME_SVO_ERR, 1, false, [], 0xffffffff, 0x0, .w⟩]

/-- R83. -/
def regRowsTIMER83p1 : List RegRow := [
  ⟨Reg.TIME_SRC, 1, false, [], 0x3ffff, 0x0, .w⟩,
  ⟨Reg.TIME_STATE, 1, false, [], 0x0, 0x200, .w⟩,
  ⟨Reg.TIME_EST_ERR, 1, false, [], 0x0, 0x0, .w⟩,
  ⟨Reg.TIME_QUAL, 1, false, [], 0x0, 0x0, .w⟩,
  ⟨Reg.TIME_CTRL, 1, false, [], 0x0, 0x0, .n⟩,
  ⟨Reg.TIME_JUMP_THR, 1, false, [], 0x0, 0x0, .w⟩,
  ⟨Reg.TIME_HOLD_TMO, 1, false, [], 0x0, 0x0, .w⟩,
  ⟨Reg.TIME_HOLD_DRIFT, 1, false, [], 0x1ffff, 0x0, .w⟩,
  ⟨Reg.TIME_ERR_LIMIT, 1, false, [], 0xffffffff, 0x0, .w⟩,
  ⟨Reg.TIME_UTCOFS, 1, false, [], 0x3ffff, 0x0, .w⟩,
  ⟨Reg.TIME_LAST_OFS, 2, true, [], 0x0, 0x0, .w⟩,
  ⟨Reg.TIME_LAST_STEP, 2, true, [], 0x0, 0x0, .w⟩]

/-- R83. -/
def regRowsTIMER83p2 : List RegRow := [
  ⟨Reg.TIME_STEP_CNT, 2, true, [], 0x0, 0x0, .w⟩,
  ⟨Reg.TIME_REFUSE_CNT, 2, true, [], 0x0, 0x0, .w⟩,
  ⟨Reg.TIME_MCHG_CNT, 2, true, [], 0x0, 0x0, .w⟩,
  ⟨Reg.TIME_STALE_CNT, 2, true, [], 0x0, 0x0, .w⟩,
  ⟨Reg.TIME_RATE_REJ_CNT, 2, true, [], 0x0, 0x0, .w⟩,
  ⟨Reg.TIME_PPS_MISS_CNT, 2, true, [], 0x0, 0x0, .w⟩,
  ⟨Reg.TIME_AUTH_FAIL_CNT, 2, true, [], 0x0, 0x0, .w⟩,
  ⟨Reg.TIME_TXTS_LOST_CNT, 2, true, [], 0x0, 0x0, .w⟩,
  ⟨Reg.TIME_MANG_UNLOCK_CNT, 2, true, [], 0x0, 0x0, .w⟩,
  ⟨Reg.TIME_TXTS_STALE_CNT, 2, true, [], 0x0, 0x0, .w⟩,
  ⟨Reg.TIME_PPS_LAST, 3, true, [], 0x0, 0x0, .w⟩,
  ⟨Reg.TIME_PPS_DLY, 1, false, [], 0xffffffff, 0x0, .w⟩]

/-- R83. -/
def regRowsTIMER83p3 : List RegRow := [
  ⟨Reg.TIME_RXCORR 0, 1, false, [(4, 0x8)], 0xffffffff, 0x0, .w⟩,
  ⟨Reg.TIME_TXCORR 0, 1, false, [(4, 0x8)], 0xffffffff, 0x0, .w⟩,
  ⟨Reg.TIME_TSPOINT, 1, false, [], 0x0, 0x0, .w⟩,
  ⟨Reg.TIME_TXTS_INFO, 1, false, [], 0x0, 0x0, .n⟩,
  ⟨Reg.TIME_TXTS_NS, 1, false, [], 0x0, 0x0, .n⟩,
  ⟨Reg.TIME_TXTS_SEC_LO, 1, false, [], 0x0, 0x0, .n⟩,
  ⟨Reg.TIME_TXTS_SEC_HI, 1, false, [], 0x0, 0x0, .n⟩,
  ⟨Reg.TIME_MANG_STATE, 1, false, [], 0x0, 0x0, .n⟩,
  ⟨Reg.TIME_MANG_FREQ, 2, true, [], 0x0, 0x0, .n⟩,
  ⟨Reg.TIME_MANG_CFG, 1, false, [], 0x0, 0x0, .w⟩]

/-- R83. -/
def regRowsTACKR83 : List RegRow := [
  ⟨Reg.TACK_ENTRY 0 0, 1, false, [(64, 0x20), (8, 0x4)], 0x0, 0x0, .w⟩,
  ⟨Reg.TACK_FIRED_LO, 1, false, [], 0x0, 0xffffffff, .w⟩,
  ⟨Reg.TACK_FIRED_HI, 1, false, [], 0x0, 0xffffffff, .w⟩,
  ⟨Reg.TACK_SKIP_CNT, 2, true, [], 0x0, 0x0, .w⟩]

/-- R114. -/
def regRowsETHR114p0 : List RegRow := [
  ⟨Reg.ETH_PORT_STATUS 0, 1, false, [(4, 0x10000)], 0x0, 0x0, .n⟩,
  ⟨Reg.ETH_MAC_LO 0, 1, false, [(4, 0x10000)], 0x0, 0x0, .w⟩,
  ⟨Reg.ETH_MAC_HI 0, 1, false, [(4, 0x10000)], 0x0, 0x0, .w⟩,
  ⟨Reg.ETH_LPI_CTRL 0, 1, false, [(4, 0x10000)], 0x3ff0001, 0x0, .w⟩,
  ⟨Reg.ETH_LPI_IDLE 0, 1, false, [(4, 0x10000)], 0xffff, 0x0, .w⟩,
  ⟨Reg.ETH_RX_FRAMES 0, 2, true, [(4, 0x10000)], 0x0, 0x0, .w⟩,
  ⟨Reg.ETH_RX_OCTETS 0, 2, true, [(4, 0x10000)], 0x0, 0x0, .w⟩,
  ⟨Reg.ETH_RX_DROP 0, 2, true, [(4, 0x10000)], 0x0, 0x0, .w⟩,
  ⟨Reg.ETH_RX_FRAGMENT 0, 2, true, [(4, 0x10000)], 0x0, 0x0, .w⟩,
  ⟨Reg.ETH_RX_RUNT 0, 2, true, [(4, 0x10000)], 0x0, 0x0, .w⟩,
  ⟨Reg.ETH_RX_OVERSIZE 0, 2, true, [(4, 0x10000)], 0x0, 0x0, .w⟩,
  ⟨Reg.ETH_RX_PHY_ERR 0, 2, true, [(4, 0x10000)], 0x0, 0x0, .w⟩]

/-- R114. -/
def regRowsETHR114p1 : List RegRow := [
  ⟨Reg.ETH_RX_FCS_ERR 0, 2, true, [(4, 0x10000)], 0x0, 0x0, .w⟩,
  ⟨Reg.ETH_RX_ADDR_FILT 0, 2, true, [(4, 0x10000)], 0x0, 0x0, .w⟩,
  ⟨Reg.ETH_RX_UNMATCHED 0, 2, true, [(4, 0x10000)], 0x0, 0x0, .w⟩,
  ⟨Reg.ETH_RX_PAUSE 0, 2, true, [(4, 0x10000)], 0x0, 0x0, .w⟩,
  ⟨Reg.ETH_RX_IP_ERR 0, 2, true, [(4, 0x10000)], 0x0, 0x0, .w⟩,
  ⟨Reg.ETH_RX_L4_ERR 0, 2, true, [(4, 0x10000)], 0x0, 0x0, .w⟩,
  ⟨Reg.ETH_RX_IP_FRAG 0, 2, true, [(4, 0x10000)], 0x0, 0x0, .w⟩,
  ⟨Reg.ETH_RX_MEAS 0, 2, true, [(4, 0x10000)], 0x0, 0x0, .w⟩,
  ⟨Reg.ETH_RX_HOST 0, 2, true, [(4, 0x10000)], 0x0, 0x0, .w⟩,
  ⟨Reg.ETH_RX_TIME 0, 2, true, [(4, 0x10000)], 0x0, 0x0, .w⟩,
  ⟨Reg.ETH_RX_TIME_LONG 0, 2, true, [(4, 0x10000)], 0x0, 0x0, .w⟩,
  ⟨Reg.ETH_RX_HOST_OVR 0, 2, true, [(4, 0x10000)], 0x0, 0x0, .w⟩]

/-- R114. -/
def regRowsETHR114p2 : List RegRow := [
  ⟨Reg.ETH_RX_PRP_NO_RCT 0, 2, true, [(4, 0x10000)], 0x0, 0x0, .w⟩,
  ⟨Reg.ETH_RX_PRP_WRONG_LAN 0, 2, true, [(4, 0x10000)], 0x0, 0x0, .w⟩,
  ⟨Reg.ETH_TX_FRAMES 0, 2, true, [(4, 0x10000)], 0x0, 0x0, .w⟩,
  ⟨Reg.ETH_TX_OCTETS 0, 2, true, [(4, 0x10000)], 0x0, 0x0, .w⟩,
  ⟨Reg.ETH_LPI_TX_CNT 0, 2, true, [(4, 0x10000)], 0x0, 0x0, .w⟩,
  ⟨Reg.ETH_LPI_RX_CNT 0, 2, true, [(4, 0x10000)], 0x0, 0x0, .w⟩,
  ⟨Reg.ETH_LINK_CNT 0, 2, true, [(4, 0x10000)], 0x0, 0x0, .w⟩]

/-- R115. -/
def regRowsETHR115p0 : List RegRow := [
  ⟨Reg.ETH_CFG, 1, false, [], 0x0, 0x0, .w⟩,
  ⟨Reg.ETH_LIMITS, 1, false, [], 0x0, 0x0, .w⟩,
  ⟨Reg.ETH_PRP_DUP_CNT 0, 2, true, [(2, 0x20)], 0x0, 0x0, .w⟩,
  ⟨Reg.ETH_PRP_OOW_CNT 0, 2, true, [(2, 0x20)], 0x0, 0x0, .w⟩,
  ⟨Reg.ETH_PRP_EVICT_CNT 0, 2, true, [(2, 0x20)], 0x0, 0x0, .w⟩,
  ⟨Reg.ETH_PRP_STATUS 0, 1, false, [(2, 0x20)], 0x0, 0x0, .n⟩,
  ⟨Reg.ETH_MQ_LOST_CNT, 2, true, [], 0x0, 0x0, .w⟩,
  ⟨Reg.ETH_MQ_DEPTH, 1, false, [], 0x0, 0x0, .n⟩,
  ⟨Reg.ETH_TQ_BASE, 1, false, [], 0xffffffff, 0x0, .w⟩,
  ⟨Reg.ETH_TQ_HEAD, 1, false, [], 0x0, 0x0, .n⟩,
  ⟨Reg.ETH_TQ_POP, 1, false, [], 0x0, 0x0, .n⟩,
  ⟨Reg.ETH_TQ_LOST_CNT, 2, true, [], 0x0, 0x0, .w⟩]

/-- R115. -/
def regRowsETHR115p1 : List RegRow := [
  ⟨Reg.ETH_MQ_STALE_CNT, 2, true, [], 0x0, 0x0, .w⟩,
  ⟨Reg.ETH_TQ_STALE_CNT, 2, true, [], 0x0, 0x0, .w⟩,
  ⟨Reg.ETH_TCP_HW_SEG, 2, true, [], 0x0, 0x0, .w⟩,
  ⟨Reg.ETH_TCP_SW_SEG, 2, true, [], 0x0, 0x0, .w⟩,
  ⟨Reg.ETH_TCP_OLD_SEG, 2, true, [], 0x0, 0x0, .w⟩,
  ⟨Reg.ETH_TCP_SW_MAP 0, 1, false, [(128, 0x4)], 0x0, 0x0, .n⟩,
  ⟨Reg.ETH_HRX_BASE_LO 0, 1, false, [(8, 0x40)], 0xffffffff, 0x0, .n⟩,
  ⟨Reg.ETH_HRX_BASE_HI 0, 1, false, [(8, 0x40)], 0xffffffff, 0x0, .n⟩,
  ⟨Reg.ETH_HRX_CFG 0, 1, false, [(8, 0x40)], 0x37f1f, 0x0, .n⟩,
  ⟨Reg.ETH_HRX_HEAD 0, 1, false, [(8, 0x40)], 0x0, 0x0, .n⟩,
  ⟨Reg.ETH_HRX_TAIL 0, 1, false, [(8, 0x40)], 0xffff, 0x0, .n⟩,
  ⟨Reg.ETH_HRX_IRQ 0, 1, false, [(8, 0x40)], 0xffffffff, 0x0, .n⟩]

/-- R115. -/
def regRowsETHR115p2 : List RegRow := [
  ⟨Reg.ETH_HRX_NOBUF_CNT 0, 2, true, [(8, 0x40)], 0x0, 0x0, .w⟩,
  ⟨Reg.ETH_HRX_TRUNC_CNT 0, 2, true, [(8, 0x40)], 0x0, 0x0, .w⟩,
  ⟨Reg.ETH_HRX_PEND, 1, false, [], 0x0, 0xff, .n⟩,
  ⟨Reg.ETH_TCP_CONN 0 0, 1, false, [(4096, 0x40), (16, 0x4)], 0xffffffff, 0x0, .n⟩]

/-- R139. -/
def regRowsDECR139p0 : List RegRow := [
  ⟨Reg.DEC_CFG, 1, false, [], 0x0, 0x0, .w⟩,
  ⟨Reg.DEC_COUNTS, 1, false, [], 0x0, 0x0, .w⟩,
  ⟨Reg.DEC_FRAMES_CNT, 2, true, [], 0x0, 0x0, .w⟩,
  ⟨Reg.DEC_BLOCKS_CNT, 2, true, [], 0x0, 0x0, .w⟩,
  ⟨Reg.DEC_CHK_ERR_CNT, 2, true, [], 0x0, 0x0, .w⟩,
  ⟨Reg.DEC_UNKNOWN_CNT, 2, true, [], 0x0, 0x0, .w⟩,
  ⟨Reg.DEC_SHAPE_CNT, 2, true, [], 0x0, 0x0, .w⟩,
  ⟨Reg.DEC_OFFGRID_CNT, 2, true, [], 0x0, 0x0, .w⟩,
  ⟨Reg.DEC_AUTH_FAIL_CNT, 2, true, [], 0x0, 0x0, .w⟩,
  ⟨Reg.DEC_REPLAY_CNT, 2, true, [], 0x0, 0x0, .w⟩,
  ⟨Reg.DEC_ENC_CNT, 2, true, [], 0x0, 0x0, .w⟩,
  ⟨Reg.DEC_SAT_CNT, 2, true, [], 0x0, 0x0, .w⟩]

/-- R139. -/
def regRowsDECR139p1 : List RegRow := [
  ⟨Reg.DEC_NONDATA_CNT, 2, true, [], 0x0, 0x0, .w⟩,
  ⟨Reg.DEC_NONDATA_DROP_CNT, 2, true, [], 0x0, 0x0, .w⟩,
  ⟨Reg.DEC_KEYREV_CNT, 2, true, [], 0x0, 0x0, .w⟩,
  ⟨Reg.DEC_CMD_LOST_CNT, 2, true, [], 0x0, 0x0, .w⟩,
  ⟨Reg.DEC_UP_FRAMES_CNT, 2, true, [], 0x0, 0x0, .w⟩,
  ⟨Reg.DEC_UP_SKIP_CNT, 2, true, [], 0x0, 0x0, .w⟩,
  ⟨Reg.DEC_REINJ_ADDR, 1, false, [], 0xffffffff, 0x0, .n⟩,
  ⟨Reg.DEC_REINJ_LEN, 1, false, [], 0xfff0fff, 0x0, .n⟩,
  ⟨Reg.DEC_REINJ_TS, 3, true, [], 0xffffffffffffffffffff, 0x0, .n⟩,
  ⟨Reg.DEC_REINJ_GO, 1, false, [], 0x0, 0x0, .n⟩,
  ⟨Reg.DEC_REINJ_STATUS, 1, false, [], 0x0, 0x0, .n⟩,
  ⟨Reg.DEC_CMD, 1, false, [], 0x0, 0x0, .n⟩]

/-- R139. -/
def regRowsDECR139p2 : List RegRow := [
  ⟨Reg.DEC_CMD_STATUS, 1, false, [], 0x0, 0x0, .n⟩,
  ⟨Reg.DEC_CMD_BUF 0, 1, false, [(5, 0x4)], 0x0, 0x0, .n⟩,
  ⟨Reg.DEC_CFGCHG_MAP 0, 1, false, [(512, 0x4)], 0x0, 0xffffffff, .w⟩,
  ⟨Reg.DEC_SILENT_MAP 0, 1, false, [(512, 0x4)], 0x0, 0x0, .n⟩,
  ⟨Reg.DEC_STREAM_FLAGS 0, 1, false, [(16384, 0x20)], 0x0, 0x0, .w⟩,
  ⟨Reg.DEC_STREAM_FRAMES 0, 2, true, [(16384, 0x20)], 0x0, 0x0, .w⟩,
  ⟨Reg.DEC_STREAM_SHAPE 0, 2, true, [(16384, 0x20)], 0x0, 0x0, .w⟩,
  ⟨Reg.DEC_STREAM_DROPS 0, 2, true, [(16384, 0x20)], 0x0, 0x0, .w⟩,
  ⟨Reg.DEC_STREAM_SPDU 0, 1, false, [(16384, 0x20)], 0x0, 0x0, .w⟩,
  ⟨Reg.DEC_SRC_Q 0, 1, false, [(16384, 0x4)], 0x0, 0x0, .w⟩]

/-- R168. -/
def regRowsSEAMR168p0 : List RegRow := [
  ⟨Reg.SEAM_CFG, 1, false, [], 0x0, 0x0, .w⟩,
  ⟨Reg.SEAM_STORE_STATE, 1, false, [], 0x0, 0x0, .p⟩,
  ⟨Reg.SEAM_ITEMS_CNT, 2, true, [], 0x0, 0x0, .w⟩,
  ⟨Reg.SEAM_CLOSED_CNT, 2, true, [], 0x0, 0x0, .w⟩,
  ⟨Reg.SEAM_COMPLETE_CNT, 2, true, [], 0x0, 0x0, .w⟩,
  ⟨Reg.SEAM_QUORUM_CNT, 2, true, [], 0x0, 0x0, .w⟩,
  ⟨Reg.SEAM_DEADLINE_CNT, 2, true, [], 0x0, 0x0, .w⟩,
  ⟨Reg.SEAM_OVERRUN_CNT, 2, true, [], 0x0, 0x0, .w⟩,
  ⟨Reg.SEAM_SKIP_CNT, 2, true, [], 0x0, 0x0, .w⟩,
  ⟨Reg.SEAM_SHORT_CNT, 2, true, [], 0x0, 0x0, .w⟩,
  ⟨Reg.SEAM_ABSENT_CNT, 2, true, [], 0x0, 0x0, .w⟩,
  ⟨Reg.SEAM_BAD_CNT, 2, true, [], 0x0, 0x0, .w⟩]

/-- R168. -/
def regRowsSEAMR168p1 : List RegRow := [
  ⟨Reg.SEAM_EARLY_CNT, 2, true, [], 0x0, 0x0, .w⟩,
  ⟨Reg.SEAM_LATE_CNT, 2, true, [], 0x0, 0x0, .w⟩,
  ⟨Reg.SEAM_MEND_CNT, 2, true, [], 0x0, 0x0, .w⟩,
  ⟨Reg.SEAM_DUP_CNT, 2, true, [], 0x0, 0x0, .w⟩,
  ⟨Reg.SEAM_LRN_DISC_CNT, 2, true, [], 0x0, 0x0, .w⟩,
  ⟨Reg.SEAM_HIST_LOST_CNT, 2, true, [], 0x0, 0x0, .w⟩,
  ⟨Reg.SEAM_HIST_WRAP_CNT, 2, true, [], 0x0, 0x0, .w⟩,
  ⟨Reg.SEAM_RESET_DISC_CNT, 2, true, [], 0x0, 0x0, .w⟩,
  ⟨Reg.SEAM_NOGRP_CNT, 2, true, [], 0x0, 0x0, .w⟩,
  ⟨Reg.SEAM_FIFO_LOST_CNT 0, 2, true, [(6, 0x20)], 0x0, 0x0, .w⟩,
  ⟨Reg.SEAM_FIFO_STALE_CNT 0, 2, true, [(6, 0x20)], 0x0, 0x0, .w⟩,
  ⟨Reg.SEAM_FIFO_STATUS 0, 1, false, [(6, 0x20)], 0x0, 0x0, .n⟩]

/-- R168. -/
def regRowsSEAMR168p2 : List RegRow := [
  ⟨Reg.SEAM_MEND_HEAD, 1, false, [], 0x0, 0x0, .n⟩,
  ⟨Reg.SEAM_MEND_POP, 1, false, [], 0x0, 0x0, .n⟩,
  ⟨Reg.SEAM_HIST_BASE_LO, 1, false, [], 0x0, 0x0, .w⟩,
  ⟨Reg.SEAM_HIST_BASE_HI, 1, false, [], 0x0, 0x0, .w⟩,
  ⟨Reg.SEAM_HIST_SIZE, 1, false, [], 0x0, 0x0, .w⟩,
  ⟨Reg.SEAM_HIST_WPTR_LO, 1, false, [], 0x0, 0x0, .w⟩,
  ⟨Reg.SEAM_HIST_WPTR_HI, 1, false, [], 0x0, 0x0, .w⟩,
  ⟨Reg.SEAM_HIST_LAP, 1, false, [], 0x0, 0x0, .w⟩,
  ⟨Reg.SEAM_SLOT_SEL, 1, false, [], 0x0, 0x0, .n⟩,
  ⟨Reg.SEAM_SLOT_STAT, 1, false, [], 0x0, 0x0, .n⟩,
  ⟨Reg.SEAM_SLOT_DATA 0, 1, false, [(64, 0x4)], 0x0, 0x0, .n⟩,
  ⟨Reg.SEAM_LRN_SEL, 1, false, [], 0x3fff, 0x0, .n⟩]

/-- R168. -/
def regRowsSEAMR168p3 : List RegRow := [
  ⟨Reg.SEAM_LRN_RESET, 1, false, [], 0x0, 0x0, .n⟩,
  ⟨Reg.SEAM_LRN_BIN 0, 1, false, [(32, 0x4)], 0x0, 0x0, .w⟩,
  ⟨Reg.SEAM_CLOSE_PEND 0, 1, false, [(8, 0x4)], 0x0, 0xffffffff, .n⟩,
  ⟨Reg.SEAM_GRP_STATE 0, 1, false, [(256, 0x40)], 0x0, 0x0, .n⟩,
  ⟨Reg.SEAM_GRP_TOKEN 0 0, 1, false, [(256, 0x40), (8, 0x4)], 0x0, 0x0, .w⟩,
  ⟨Reg.SEAM_GRP_DL 0, 1, false, [(256, 0x40)], 0x0, 0x0, .w⟩,
  ⟨Reg.SEAM_GRP_DLSRC 0, 1, false, [(256, 0x40)], 0x0, 0x0, .w⟩,
  ⟨Reg.SEAM_GRP_OVERRUN_CNT 0, 2, true, [(256, 0x40)], 0x0, 0x0, .w⟩,
  ⟨Reg.SEAM_GRP_DEADLINE_CNT 0, 2, true, [(256, 0x40)], 0x0, 0x0, .w⟩,
  ⟨Reg.SEAM_SRC_Q 0, 1, false, [(16384, 0x4)], 0x0, 0x0, .w⟩,
  ⟨Reg.SEAM_SRC_LRN 0, 1, false, [(16384, 0x4)], 0x0, 0x0, .w⟩]

/-- R199. -/
def regRowsFABR199p0 : List RegRow := [
  ⟨Reg.FAB_ROLE_LO, 1, false, [], 0x0, 0x0, .w⟩,
  ⟨Reg.FAB_ROLE_HI, 1, false, [], 0x0, 0x0, .w⟩,
  ⟨Reg.FAB_LEAD, 1, false, [], 0x0, 0x0, .w⟩,
  ⟨Reg.FAB_PANEL_STATUS, 1, false, [], 0x0, 0x0, .n⟩,
  ⟨Reg.FAB_SCRUB_SWEEP, 1, false, [], 0xfff, 0x0, .w⟩,
  ⟨Reg.FAB_SCRUB_PASS_CNT, 2, true, [], 0x0, 0x0, .w⟩,
  ⟨Reg.FAB_CE_CNT, 2, true, [], 0x0, 0x0, .w⟩,
  ⟨Reg.FAB_UE_CNT, 2, true, [], 0x0, 0x0, .w⟩,
  ⟨Reg.FAB_ORPHAN_CNT, 2, true, [], 0x0, 0x0, .w⟩,
  ⟨Reg.FAB_MATCH_COLL_CNT, 2, true, [], 0x0, 0x0, .w⟩,
  ⟨Reg.FAB_MATCH_STALL_CNT, 2, true, [], 0x0, 0x0, .w⟩,
  ⟨Reg.FAB_ACC_SAT_CNT, 2, true, [], 0x0, 0x0, .w⟩]

/-- R199. -/
def regRowsFABR199p1 : List RegRow := [
  ⟨Reg.FAB_OVF_CNT, 2, true, [], 0x0, 0x0, .w⟩,
  ⟨Reg.FAB_CNT_UNDER_CNT, 2, true, [], 0x0, 0x0, .w⟩,
  ⟨Reg.FAB_ASM_SKIP_CNT, 2, true, [], 0x0, 0x0, .w⟩,
  ⟨Reg.FAB_ASM_FORCE_CNT, 2, true, [], 0x0, 0x0, .w⟩,
  ⟨Reg.FAB_ASM_STALE_CNT, 2, true, [], 0x0, 0x0, .w⟩,
  ⟨Reg.FAB_QDROP_CNT, 2, true, [], 0x0, 0x0, .w⟩,
  ⟨Reg.FAB_LATESTART_CNT, 2, true, [], 0x0, 0x0, .w⟩,
  ⟨Reg.FAB_SPAN_OVER_CNT, 2, true, [], 0x0, 0x0, .w⟩,
  ⟨Reg.FAB_UE_ADDR, 1, false, [], 0x0, 0x0, .w⟩,
  ⟨Reg.FAB_UC_POISON 0, 1, false, [(8, 0x4)], 0x0, 0x0, .w⟩,
  ⟨Reg.FAB_TWIN_SEL, 1, false, [], 0x0, 0x0, .n⟩,
  ⟨Reg.FAB_TWIN_STAT, 1, false, [], 0x0, 0x0, .n⟩]

/-- R199. -/
def regRowsFABR199p2 : List RegRow := [
  ⟨Reg.FAB_TWIN_DATA_LO, 1, false, [], 0x0, 0x0, .n⟩,
  ⟨Reg.FAB_TWIN_DATA_HI, 1, false, [], 0x0, 0x0, .n⟩,
  ⟨Reg.FAB_PNL_STATE 0, 1, false, [(16, 0x1000)], 0x0, 0x0, .n⟩,
  ⟨Reg.FAB_PNL_INST_CNT 0, 2, true, [(16, 0x1000)], 0x0, 0x0, .w⟩,
  ⟨Reg.FAB_PNL_LOAD_LAST 0, 1, false, [(16, 0x1000)], 0x0, 0x0, .n⟩,
  ⟨Reg.FAB_PNL_SPAN_LAST 0, 1, false, [(16, 0x1000)], 0x0, 0x0, .n⟩,
  ⟨Reg.FAB_PNL_SPAN_MAX 0, 1, false, [(16, 0x1000)], 0xffffffff, 0x0, .w⟩,
  ⟨Reg.FAB_PNL_SPAN_COMP 0, 1, false, [(16, 0x1000)], 0x0, 0x0, .w⟩,
  ⟨Reg.FAB_PNL_BG_SLOTS 0, 2, true, [(16, 0x1000)], 0x0, 0x0, .w⟩,
  ⟨Reg.FAB_PNL_CNT 0 0, 1, false, [(16, 0x1000), (64, 0x4)], 0x0, 0x0, .n⟩]

/-- R224. -/
def regRowsSER224p0 : List RegRow := [
  ⟨Reg.SE_BUSES 0, 1, false, [(4, 0x10000)], 0x0, 0x0, .w⟩,
  ⟨Reg.SE_CHANS 0, 1, false, [(4, 0x10000)], 0x0, 0x0, .w⟩,
  ⟨Reg.SE_FACT_ENT 0, 1, false, [(4, 0x10000)], 0x0, 0x0, .w⟩,
  ⟨Reg.SE_POOL 0, 1, false, [(4, 0x10000)], 0x0, 0x0, .w⟩,
  ⟨Reg.SE_POOL_FREE 0, 1, false, [(4, 0x10000)], 0x0, 0x0, .n⟩,
  ⟨Reg.SE_BANK 0, 1, false, [(4, 0x10000)], 0x0, 0x0, .w⟩,
  ⟨Reg.SE_REFAC_STATE 0, 1, false, [(4, 0x10000)], 0x0, 0x0, .n⟩,
  ⟨Reg.SE_REFAC_CTRL 0, 1, false, [(4, 0x10000)], 0x0, 0x0, .n⟩,
  ⟨Reg.SE_REQ_PEND 0, 1, false, [(4, 0x10000)], 0x0, 0x0, .n⟩,
  ⟨Reg.SE_REFAC_TAKEN 0, 1, false, [(4, 0x10000)], 0x0, 0x0, .n⟩,
  ⟨Reg.SE_REFAC_COLS 0, 1, false, [(4, 0x10000)], 0x0, 0x0, .n⟩,
  ⟨Reg.SE_REFAC_LAST 0, 1, false, [(4, 0x10000)], 0x0, 0x0, .n⟩]

/-- R224. -/
def regRowsSER224p1 : List RegRow := [
  ⟨Reg.SE_LAST_FLAGS 0, 1, false, [(4, 0x10000)], 0x0, 0x0, .n⟩,
  ⟨Reg.SE_LAST_T0 0, 3, true, [(4, 0x10000)], 0x0, 0x0, .n⟩,
  ⟨Reg.SE_LAST_SUBST 0, 1, false, [(4, 0x10000)], 0x0, 0x0, .n⟩,
  ⟨Reg.SE_LAST_DROPPED 0, 1, false, [(4, 0x10000)], 0x0, 0x0, .n⟩,
  ⟨Reg.SE_BD_CHAN 0, 1, false, [(4, 0x10000)], 0x0, 0x0, .n⟩,
  ⟨Reg.SE_BD_RN 0, 2, true, [(4, 0x10000)], 0x0, 0x0, .n⟩,
  ⟨Reg.SE_FMEAN 0, 2, true, [(4, 0x10000)], 0x0, 0x0, .n⟩,
  ⟨Reg.SE_INST_CNT 0, 2, true, [(4, 0x10000)], 0x0, 0x0, .w⟩,
  ⟨Reg.SE_SUBST_CNT 0, 2, true, [(4, 0x10000)], 0x0, 0x0, .w⟩,
  ⟨Reg.SE_CORR_CNT 0, 2, true, [(4, 0x10000)], 0x0, 0x0, .w⟩,
  ⟨Reg.SE_BDMORE_CNT 0, 2, true, [(4, 0x10000)], 0x0, 0x0, .w⟩,
  ⟨Reg.SE_DROP_CNT 0, 2, true, [(4, 0x10000)], 0x0, 0x0, .w⟩]

/-- R224. -/
def regRowsSER224p2 : List RegRow := [
  ⟨Reg.SE_RESTORE_CNT 0, 2, true, [(4, 0x10000)], 0x0, 0x0, .w⟩,
  ⟨Reg.SE_SWAP_CNT 0, 2, true, [(4, 0x10000)], 0x0, 0x0, .w⟩,
  ⟨Reg.SE_SPLIT_CNT 0, 2, true, [(4, 0x10000)], 0x0, 0x0, .w⟩,
  ⟨Reg.SE_REJ_CNT 0, 2, true, [(4, 0x10000)], 0x0, 0x0, .w⟩,
  ⟨Reg.SE_ABORT_CNT 0, 2, true, [(4, 0x10000)], 0x0, 0x0, .w⟩,
  ⟨Reg.SE_PSEUDO_CNT 0, 2, true, [(4, 0x10000)], 0x0, 0x0, .w⟩,
  ⟨Reg.SE_COLD_CNT 0, 2, true, [(4, 0x10000)], 0x0, 0x0, .w⟩,
  ⟨Reg.SE_LOWRED_CNT 0, 2, true, [(4, 0x10000)], 0x0, 0x0, .w⟩,
  ⟨Reg.SE_VOID_CNT 0, 2, true, [(4, 0x10000)], 0x0, 0x0, .w⟩,
  ⟨Reg.SE_BUS_SEL 0, 1, false, [(4, 0x10000)], 0x0, 0x0, .n⟩,
  ⟨Reg.SE_BUS_STAT 0, 1, false, [(4, 0x10000)], 0x0, 0x0, .n⟩,
  ⟨Reg.SE_BUS_RE 0, 2, true, [(4, 0x10000)], 0x0, 0x0, .n⟩]

/-- R224. -/
def regRowsSER224p3 : List RegRow := [
  ⟨Reg.SE_BUS_IM 0, 2, true, [(4, 0x10000)], 0x0, 0x0, .n⟩,
  ⟨Reg.SE_BUS_MAG 0, 2, true, [(4, 0x10000)], 0x0, 0x0, .n⟩,
  ⟨Reg.SE_BUS_ANG 0, 2, true, [(4, 0x10000)], 0x0, 0x0, .n⟩,
  ⟨Reg.SE_CHAN_SEL 0, 1, false, [(4, 0x10000)], 0x0, 0x0, .n⟩,
  ⟨Reg.SE_CHAN_STAT 0, 1, false, [(4, 0x10000)], 0x0, 0x0, .n⟩,
  ⟨Reg.SE_CHAN_T 0, 2, true, [(4, 0x10000)], 0x0, 0x0, .n⟩,
  ⟨Reg.SE_CHAN_K2 0, 2, true, [(4, 0x10000)], 0x0, 0x0, .n⟩]

/-- R247. -/
def regRowsFLOER247p0 : List RegRow := [
  ⟨Reg.FLOE_NODES 0, 1, false, [(4, 0x1000)], 0x0, 0x0, .w⟩,
  ⟨Reg.FLOE_EDGES 0, 1, false, [(4, 0x1000)], 0x0, 0x0, .w⟩,
  ⟨Reg.FLOE_REF 0, 1, false, [(4, 0x1000)], 0x0, 0x0, .n⟩,
  ⟨Reg.FLOE_LAST_FLAGS 0, 1, false, [(4, 0x1000)], 0x0, 0x0, .n⟩,
  ⟨Reg.FLOE_LAST_T0 0, 3, true, [(4, 0x1000)], 0x0, 0x0, .n⟩,
  ⟨Reg.FLOE_SEQ 0, 1, false, [(4, 0x1000)], 0x0, 0x0, .n⟩,
  ⟨Reg.FLOE_FLOES 0, 1, false, [(4, 0x1000)], 0x0, 0x0, .n⟩,
  ⟨Reg.FLOE_MAIN_SIZE 0, 1, false, [(4, 0x1000)], 0x0, 0x0, .n⟩,
  ⟨Reg.FLOE_MAIN_LABEL 0, 1, false, [(4, 0x1000)], 0x0, 0x0, .n⟩,
  ⟨Reg.FLOE_ISL_NODES 0, 1, false, [(4, 0x1000)], 0x0, 0x0, .n⟩,
  ⟨Reg.FLOE_OUT_NODES 0, 1, false, [(4, 0x1000)], 0x0, 0x0, .n⟩,
  ⟨Reg.FLOE_DARK_NODES 0, 1, false, [(4, 0x1000)], 0x0, 0x0, .n⟩]

/-- R247. -/
def regRowsFLOER247p1 : List RegRow := [
  ⟨Reg.FLOE_UNBOND 0, 1, false, [(4, 0x1000)], 0x0, 0x0, .n⟩,
  ⟨Reg.FLOE_HELD 0, 1, false, [(4, 0x1000)], 0x0, 0x0, .n⟩,
  ⟨Reg.FLOE_COND 0, 1, false, [(4, 0x1000)], 0x0, 0x0, .w⟩,
  ⟨Reg.FLOE_INST_CNT 0, 2, true, [(4, 0x1000)], 0x0, 0x0, .w⟩,
  ⟨Reg.FLOE_SPLIT_CNT 0, 2, true, [(4, 0x1000)], 0x0, 0x0, .w⟩,
  ⟨Reg.FLOE_JOIN_CNT 0, 2, true, [(4, 0x1000)], 0x0, 0x0, .w⟩,
  ⟨Reg.FLOE_ISLAND_CNT 0, 2, true, [(4, 0x1000)], 0x0, 0x0, .w⟩,
  ⟨Reg.FLOE_REFMIN_CNT 0, 2, true, [(4, 0x1000)], 0x0, 0x0, .w⟩,
  ⟨Reg.FLOE_REFLOST_CNT 0, 2, true, [(4, 0x1000)], 0x0, 0x0, .w⟩,
  ⟨Reg.FLOE_COLD_CNT 0, 2, true, [(4, 0x1000)], 0x0, 0x0, .w⟩,
  ⟨Reg.FLOE_HOLDEXP_CNT 0, 2, true, [(4, 0x1000)], 0x0, 0x0, .w⟩,
  ⟨Reg.FLOE_SLIPSKIP_CNT 0, 2, true, [(4, 0x1000)], 0x0, 0x0, .w⟩]

/-- R247. -/
def regRowsFLOER247p2 : List RegRow := [
  ⟨Reg.FLOE_TAB_CNT 0, 1, false, [(4, 0x1000)], 0x0, 0x0, .n⟩,
  ⟨Reg.FLOE_TAB_OVER 0, 1, false, [(4, 0x1000)], 0x0, 0x0, .n⟩,
  ⟨Reg.FLOE_TAB_LABEL 0 0, 1, false, [(4, 0x1000), (64, 0x10)], 0x0, 0x0, .n⟩,
  ⟨Reg.FLOE_TAB_NODES 0 0, 1, false, [(4, 0x1000), (64, 0x10)], 0x0, 0x0, .n⟩,
  ⟨Reg.FLOE_NODE 0 0, 1, false, [(4, 0x10000), (16384, 0x4)], 0x0, 0x0, .w⟩]

/-- R248. -/
def regRowsTHRR248p0 : List RegRow := [
  ⟨Reg.THR_MON1 0, 1, false, [(4, 0x1000)], 0x0, 0x0, .w⟩,
  ⟨Reg.THR_MON2 0, 1, false, [(4, 0x1000)], 0x0, 0x0, .w⟩,
  ⟨Reg.THR_PAIRS 0, 1, false, [(4, 0x1000)], 0x0, 0x0, .w⟩,
  ⟨Reg.THR_LAST_FLAGS 0, 1, false, [(4, 0x1000)], 0x0, 0x0, .n⟩,
  ⟨Reg.THR_LAST_T0 0, 3, true, [(4, 0x1000)], 0x0, 0x0, .n⟩,
  ⟨Reg.THR_SEQ 0, 1, false, [(4, 0x1000)], 0x0, 0x0, .n⟩,
  ⟨Reg.THR_ACTIVE 0, 1, false, [(4, 0x1000)], 0x0, 0x0, .w⟩,
  ⟨Reg.THR_INST_CNT 0, 2, true, [(4, 0x1000)], 0x0, 0x0, .w⟩,
  ⟨Reg.THR_ASSERT_CNT 0, 2, true, [(4, 0x1000)], 0x0, 0x0, .w⟩,
  ⟨Reg.THR_RELEASE_CNT 0, 2, true, [(4, 0x1000)], 0x0, 0x0, .w⟩,
  ⟨Reg.THR_HELD_CNT 0, 2, true, [(4, 0x1000)], 0x0, 0x0, .w⟩,
  ⟨Reg.THR_ENTRY_CNT 0, 2, true, [(4, 0x1000)], 0x0, 0x0, .w⟩]

/-- R248. -/
def regRowsTHRR248p1 : List RegRow := [
  ⟨Reg.THR_MON_SEL 0, 1, false, [(4, 0x1000)], 0x0, 0x0, .n⟩,
  ⟨Reg.THR_MON_STAT 0, 1, false, [(4, 0x1000)], 0x0, 0x0, .n⟩,
  ⟨Reg.THR_MON_VAL 0, 2, true, [(4, 0x1000)], 0x0, 0x0, .n⟩,
  ⟨Reg.THR_ACTIVE_MAP 0 0, 1, false, [(4, 0x8000), (8192, 0x4)], 0x0, 0x0, .w⟩]

/-- R274. -/
def regRowsOSCR274p0 : List RegRow := [
  ⟨Reg.OSC_SIGS 0, 1, false, [(4, 0x1000)], 0x0, 0x0, .w⟩,
  ⟨Reg.OSC_GROUPS 0, 1, false, [(4, 0x1000)], 0x0, 0x0, .w⟩,
  ⟨Reg.OSC_BANDS 0, 1, false, [(4, 0x1000)], 0x0, 0x0, .w⟩,
  ⟨Reg.OSC_LAST_FLAGS 0, 1, false, [(4, 0x1000)], 0x0, 0x0, .n⟩,
  ⟨Reg.OSC_LAST_T0 0, 3, true, [(4, 0x1000)], 0x0, 0x0, .n⟩,
  ⟨Reg.OSC_SEQ 0, 1, false, [(4, 0x1000)], 0x0, 0x0, .n⟩,
  ⟨Reg.OSC_ACTIVE 0, 1, false, [(4, 0x1000)], 0x0, 0x0, .w⟩,
  ⟨Reg.OSC_TRACKING 0, 1, false, [(4, 0x1000)], 0x0, 0x0, .w⟩,
  ⟨Reg.OSC_WARMING 0, 1, false, [(4, 0x1000)], 0x0, 0x0, .w⟩,
  ⟨Reg.OSC_INST_CNT 0, 2, true, [(4, 0x1000)], 0x0, 0x0, .w⟩,
  ⟨Reg.OSC_ADV_CNT 0, 2, true, [(4, 0x1000)], 0x0, 0x0, .w⟩,
  ⟨Reg.OSC_ASSERT_CNT 0, 2, true, [(4, 0x1000)], 0x0, 0x0, .w⟩]

/-- R274. -/
def regRowsOSCR274p1 : List RegRow := [
  ⟨Reg.OSC_RELEASE_CNT 0, 2, true, [(4, 0x1000)], 0x0, 0x0, .w⟩,
  ⟨Reg.OSC_HELD_CNT 0, 2, true, [(4, 0x1000)], 0x0, 0x0, .w⟩,
  ⟨Reg.OSC_MISS_CNT 0, 2, true, [(4, 0x1000)], 0x0, 0x0, .w⟩,
  ⟨Reg.OSC_SIG_RESTART_CNT 0, 2, true, [(4, 0x1000)], 0x0, 0x0, .w⟩,
  ⟨Reg.OSC_GRP_RESTART_CNT 0, 2, true, [(4, 0x1000)], 0x0, 0x0, .w⟩,
  ⟨Reg.OSC_SAT_CNT 0, 2, true, [(4, 0x1000)], 0x0, 0x0, .w⟩,
  ⟨Reg.OSC_FITINV_CNT 0, 2, true, [(4, 0x1000)], 0x0, 0x0, .w⟩,
  ⟨Reg.OSC_PAIR_SEL 0, 1, false, [(4, 0x1000)], 0x0, 0x0, .n⟩,
  ⟨Reg.OSC_PAIR_STAT 0, 1, false, [(4, 0x1000)], 0x0, 0x0, .n⟩,
  ⟨Reg.OSC_PAIR_AMP 0, 2, true, [(4, 0x1000)], 0x0, 0x0, .n⟩,
  ⟨Reg.OSC_PAIR_SHRE 0, 2, true, [(4, 0x1000)], 0x0, 0x0, .n⟩,
  ⟨Reg.OSC_PAIR_SHIM 0, 2, true, [(4, 0x1000)], 0x0, 0x0, .n⟩]

/-- R274. -/
def regRowsOSCR274p2 : List RegRow := [
  ⟨Reg.OSC_PAIR_COH 0, 2, true, [(4, 0x1000)], 0x0, 0x0, .n⟩]

/-- R275. -/
def regRowsOSCR275 : List RegRow := [
  ⟨Reg.OSC_BAND_STATE 0, 1, false, [(4096, 0x40)], 0x0, 0x0, .w⟩,
  ⟨Reg.OSC_BAND_F 0, 2, true, [(4096, 0x40)], 0x0, 0x0, .w⟩,
  ⟨Reg.OSC_BAND_ZETA 0, 2, true, [(4096, 0x40)], 0x0, 0x0, .w⟩,
  ⟨Reg.OSC_BAND_AREF 0, 2, true, [(4096, 0x40)], 0x0, 0x0, .w⟩,
  ⟨Reg.OSC_BAND_ENERGY 0, 2, true, [(4096, 0x40)], 0x0, 0x0, .w⟩,
  ⟨Reg.OSC_BAND_COH 0, 2, true, [(4096, 0x40)], 0x0, 0x0, .w⟩,
  ⟨Reg.OSC_BAND_ZMAG 0, 2, true, [(4096, 0x40)], 0x0, 0x0, .w⟩]

/-- R289. -/
def regRowsALMR289p0 : List RegRow := [
  ⟨Reg.ALM_CFG, 1, false, [], 0x0, 0x0, .w⟩,
  ⟨Reg.ALM_WAIT, 1, false, [], 0x0, 0x0, .w⟩,
  ⟨Reg.ALM_MERGE_US, 1, false, [], 0x0, 0x0, .w⟩,
  ⟨Reg.ALM_PINS, 1, false, [], 0x0, 0x0, .w⟩,
  ⟨Reg.ALM_PIN_FORCE, 1, false, [], 0xff, 0x0, .n⟩,
  ⟨Reg.ALM_ACK, 1, false, [], 0x0, 0x0, .n⟩,
  ⟨Reg.ALM_LAST_T0, 3, true, [], 0x0, 0x0, .n⟩,
  ⟨Reg.ALM_LAST_OFS, 1, false, [], 0x0, 0x0, .n⟩,
  ⟨Reg.ALM_OPEN, 1, false, [], 0x0, 0x0, .n⟩,
  ⟨Reg.ALM_SEQ, 1, false, [], 0x0, 0x0, .n⟩,
  ⟨Reg.ALM_MERGE_CNT, 2, true, [], 0x0, 0x0, .w⟩,
  ⟨Reg.ALM_ENTRY_CNT, 2, true, [], 0x0, 0x0, .w⟩]

/-- R289. -/
def regRowsALMR289p1 : List RegRow := [
  ⟨Reg.ALM_INCOMPLETE_CNT, 2, true, [], 0x0, 0x0, .w⟩,
  ⟨Reg.ALM_OVER_CNT, 2, true, [], 0x0, 0x0, .w⟩,
  ⟨Reg.ALM_STALE_ENTRY_CNT, 2, true, [], 0x0, 0x0, .w⟩,
  ⟨Reg.ALM_ASSERT_CNT, 2, true, [], 0x0, 0x0, .w⟩,
  ⟨Reg.ALM_RELEASE_CNT, 2, true, [], 0x0, 0x0, .w⟩,
  ⟨Reg.ALM_GOOSE_CNT, 2, true, [], 0x0, 0x0, .w⟩,
  ⟨Reg.ALM_GOOSE_KEY_CNT, 2, true, [], 0x0, 0x0, .w⟩,
  ⟨Reg.ALM_HREC_CNT, 2, true, [], 0x0, 0x0, .w⟩,
  ⟨Reg.ALM_HREC_LOST_CNT, 2, true, [], 0x0, 0x0, .w⟩,
  ⟨Reg.ALM_CLASS 0, 1, false, [(256, 0x4)], 0x0, 0x0, .w⟩,
  ⟨Reg.ALM_GOOSE_STNUM 0, 1, false, [(64, 0x10)], 0x0, 0x0, .w⟩,
  ⟨Reg.ALM_GOOSE_SQNUM 0, 1, false, [(64, 0x10)], 0x0, 0x0, .w⟩]

/-- R289. -/
def regRowsALMR289p2 : List RegRow := [
  ⟨Reg.ALM_GOOSE_IVL 0, 1, false, [(64, 0x10)], 0x0, 0x0, .w⟩]

/-- R322. -/
def regRowsSTNR322p0 : List RegRow := [
  ⟨Reg.STN_CFG, 1, false, [], 0x0, 0x0, .w⟩,
  ⟨Reg.STN_STATUS, 1, false, [], 0x0, 0x0, .w⟩,
  ⟨Reg.STN_BANK_SWAP, 1, false, [], 0x0, 0x0, .n⟩,
  ⟨Reg.STN_MOD_LOSS, 1, false, [], 0x0, 0x0, .n⟩,
  ⟨Reg.STN_RANGE, 1, false, [], 0x0, 0x0, .w⟩,
  ⟨Reg.STN_NOLOAD, 1, false, [], 0x0, 0x0, .n⟩,
  ⟨Reg.STN_ZC_LOST, 1, false, [], 0x0, 0x0, .n⟩,
  ⟨Reg.STN_SAVE_STATE, 1, false, [], 0x0, 0x0, .b⟩,
  ⟨Reg.STN_SAVE_T0, 3, true, [], 0x0, 0x0, .b⟩,
  ⟨Reg.STN_SAVE_SEQ, 1, false, [], 0x0, 0x0, .b⟩,
  ⟨Reg.STN_SAVE_PERIOD, 1, false, [], 0xff, 0x0, .w⟩,
  ⟨Reg.STN_ECLR, 1, false, [], 0x0, 0x0, .n⟩]

/-- R322. -/
def regRowsSTNR322p1 : List RegRow := [
  ⟨Reg.STN_MOD_LOSS_CNT, 2, true, [], 0x0, 0x0, .w⟩,
  ⟨Reg.STN_SAT_CNT, 2, true, [], 0x0, 0x0, .w⟩,
  ⟨Reg.STN_RANGE_CNT, 2, true, [], 0x0, 0x0, .w⟩,
  ⟨Reg.STN_ZC_TMO_CNT, 2, true, [], 0x0, 0x0, .w⟩,
  ⟨Reg.STN_SWAP_CNT, 2, true, [], 0x0, 0x0, .w⟩,
  ⟨Reg.STN_SWAP_REPL_CNT, 2, true, [], 0x0, 0x0, .w⟩,
  ⟨Reg.STN_REPHASE_CNT, 2, true, [], 0x0, 0x0, .w⟩,
  ⟨Reg.STN_SAVE_CNT, 2, true, [], 0x0, 0x0, .w⟩,
  ⟨Reg.STN_SAVE_MISS_CNT, 2, true, [], 0x0, 0x0, .w⟩,
  ⟨Reg.STN_SAVE_FAIL_CNT, 2, true, [], 0x0, 0x0, .b⟩,
  ⟨Reg.STN_EPO_OVF_CNT, 2, true, [], 0x0, 0x0, .w⟩,
  ⟨Reg.STN_ZC_TIME 0, 3, true, [(16, 0x20)], 0x0, 0x0, .n⟩]

/-- R322. -/
def regRowsSTNR322p2 : List RegRow := [
  ⟨Reg.STN_ZC_PERIOD 0, 1, false, [(16, 0x20)], 0x0, 0x0, .n⟩,
  ⟨Reg.STN_ZC_CNT 0, 2, true, [(16, 0x20)], 0x0, 0x0, .w⟩,
  ⟨Reg.STN_Q_SEQ 0, 1, false, [(2, 0x200)], 0x0, 0x0, .n⟩,
  ⟨Reg.STN_Q_HELD 0, 1, false, [(2, 0x200)], 0x0, 0x0, .n⟩,
  ⟨Reg.STN_FREQ 0, 2, true, [(2, 0x200)], 0x0, 0x0, .n⟩,
  ⟨Reg.STN_ROCOF 0, 2, true, [(2, 0x200)], 0x0, 0x0, .n⟩,
  ⟨Reg.STN_RMS 0 0, 2, true, [(2, 0x200), (8, 0x8)], 0x0, 0x0, .n⟩,
  ⟨Reg.STN_P 0 0, 2, true, [(2, 0x200), (4, 0x8)], 0x0, 0x0, .n⟩,
  ⟨Reg.STN_Q 0 0, 2, true, [(2, 0x200), (4, 0x8)], 0x0, 0x0, .n⟩,
  ⟨Reg.STN_S 0 0, 2, true, [(2, 0x200), (4, 0x8)], 0x0, 0x0, .n⟩,
  ⟨Reg.STN_PF 0 0, 2, true, [(2, 0x200), (4, 0x8)], 0x0, 0x0, .n⟩,
  ⟨Reg.STN_PHANG 0 0, 2, true, [(2, 0x200), (3, 0x8)], 0x0, 0x0, .n⟩]

/-- R322. -/
def regRowsSTNR322p3 : List RegRow := [
  ⟨Reg.STN_VANG 0 0, 2, true, [(2, 0x200), (3, 0x8)], 0x0, 0x0, .n⟩,
  ⟨Reg.STN_E 0 0 0, 2, true, [(2, 0x100), (4, 0x40), (8, 0x8)], 0x0, 0x0, .p⟩,
  ⟨Reg.STN_EWRAP 0, 1, false, [(2, 0x4)], 0x0, 0xffffffff, .p⟩,
  ⟨Reg.STN_EPO_CFG 0, 1, false, [(4, 0x20)], 0x0, 0x0, .w⟩,
  ⟨Reg.STN_EPO_OWED 0, 1, false, [(4, 0x20)], 0x0, 0x0, .w⟩,
  ⟨Reg.STN_EPO_CNT 0, 2, true, [(4, 0x20)], 0x0, 0x0, .w⟩,
  ⟨Reg.STN_BANK 0 0, 1, false, [(4, 0x400), (256, 0x4)], 0xffffffff, 0x0, .w⟩]

/-- R323. -/
def regRowsAUXR323p0 : List RegRow := [
  ⟨Reg.AUX_CFG, 1, false, [], 0x0, 0x0, .w⟩,
  ⟨Reg.AUX_CTRL, 1, false, [], 0x0, 0x0, .n⟩,
  ⟨Reg.AUX_URGENT, 1, false, [], 0x0, 0x0, .n⟩,
  ⟨Reg.AUX_STATUS, 1, false, [], 0x0, 0x0, .n⟩,
  ⟨Reg.AUX_URG_RESULT, 1, false, [], 0x0, 0x0, .n⟩,
  ⟨Reg.AUX_URG_T, 3, true, [], 0x0, 0x0, .n⟩,
  ⟨Reg.AUX_LIMIT_PEND, 1, false, [], 0x0, 0xffffffff, .n⟩,
  ⟨Reg.AUX_CONV_CNT, 2, true, [], 0x0, 0x0, .w⟩,
  ⟨Reg.AUX_SCAN_CNT, 2, true, [], 0x0, 0x0, .w⟩,
  ⟨Reg.AUX_SCAN_REPL_CNT, 2, true, [], 0x0, 0x0, .w⟩,
  ⟨Reg.AUX_URG_CNT, 2, true, [], 0x0, 0x0, .w⟩,
  ⟨Reg.AUX_URG_LOST_CNT, 2, true, [], 0x0, 0x0, .w⟩]

/-- R323. -/
def regRowsAUXR323p1 : List RegRow := [
  ⟨Reg.AUX_RESULT 0, 1, false, [(32, 0x10)], 0x0, 0x0, .n⟩,
  ⟨Reg.AUX_RESULT_T 0, 3, true, [(32, 0x10)], 0x0, 0x0, .n⟩]

/-- R340. -/
def regRowsCAPR340p0 : List RegRow := [
  ⟨Reg.CAP_CFG, 1, false, [], 0x0, 0x0, .w⟩,
  ⟨Reg.CAP_PLAN_CTRL, 1, false, [], 0x0, 0x0, .n⟩,
  ⟨Reg.CAP_TRIG_ARM, 1, false, [], 0x0, 0x0, .n⟩,
  ⟨Reg.CAP_TRIG_FIRE, 1, false, [], 0x0, 0x0, .n⟩,
  ⟨Reg.CAP_TRIG_ARMED_LO, 1, false, [], 0x0, 0x0, .n⟩,
  ⟨Reg.CAP_TRIG_ARMED_HI, 1, false, [], 0x0, 0x0, .n⟩,
  ⟨Reg.CAP_SPILL_WPTR_LO, 1, false, [], 0x0, 0x0, .w⟩,
  ⟨Reg.CAP_SPILL_WPTR_HI, 1, false, [], 0x0, 0x0, .w⟩,
  ⟨Reg.CAP_SPILL_RPTR_LO, 1, false, [], 0xffffffff, 0x0, .w⟩,
  ⟨Reg.CAP_SPILL_RPTR_HI, 1, false, [], 0xffffffff, 0x0, .w⟩,
  ⟨Reg.CAP_SPILL_LAP, 1, false, [], 0x0, 0x0, .w⟩,
  ⟨Reg.CAP_SPILL_STATE, 1, false, [], 0x0, 0x0, .n⟩]

/-- R340. -/
def regRowsCAPR340p1 : List RegRow := [
  ⟨Reg.CAP_WIN_BASE, 1, false, [], 0xfff, 0x0, .n⟩,
  ⟨Reg.CAP_REC_CNT, 2, true, [], 0x0, 0x0, .w⟩,
  ⟨Reg.CAP_TRIG_CNT, 2, true, [], 0x0, 0x0, .w⟩,
  ⟨Reg.CAP_RETRIG_CNT, 2, true, [], 0x0, 0x0, .w⟩,
  ⟨Reg.CAP_TRIG_MISS_CNT, 2, true, [], 0x0, 0x0, .w⟩,
  ⟨Reg.CAP_OVERWRITE_CNT, 2, true, [], 0x0, 0x0, .w⟩,
  ⟨Reg.CAP_SEG_WRAP_CNT, 2, true, [], 0x0, 0x0, .w⟩,
  ⟨Reg.CAP_SPILL_CNT, 2, true, [], 0x0, 0x0, .w⟩,
  ⟨Reg.CAP_SPILL_STOP_CNT, 2, true, [], 0x0, 0x0, .w⟩,
  ⟨Reg.CAP_CE_CNT, 2, true, [], 0x0, 0x0, .w⟩,
  ⟨Reg.CAP_UE_CNT, 2, true, [], 0x0, 0x0, .w⟩,
  ⟨Reg.CAP_PLAN_STATE 0, 1, false, [(16, 0x40)], 0x0, 0x0, .n⟩]

/-- R340. -/
def regRowsCAPR340p2 : List RegRow := [
  ⟨Reg.CAP_PLAN_LAST 0, 1, false, [(16, 0x40)], 0x0, 0x0, .w⟩,
  ⟨Reg.CAP_PLAN_REC_CNT 0, 2, true, [(16, 0x40)], 0x0, 0x0, .w⟩,
  ⟨Reg.CAP_PLAN_FILL 0, 1, false, [(16, 0x40)], 0x0, 0x0, .n⟩,
  ⟨Reg.CAP_WIN 0, 1, false, [(131072, 0x4)], 0x0, 0x0, .p⟩]

/-- R341. -/
def regRowsFIRNR341p0 : List RegRow := [
  ⟨Reg.FIRN_CFG, 1, false, [], 0x0, 0x0, .w⟩,
  ⟨Reg.FIRN_QSEL, 1, false, [], 0x3ff, 0x0, .n⟩,
  ⟨Reg.FIRN_CLR, 1, false, [], 0x0, 0x0, .n⟩,
  ⟨Reg.FIRN_CUR, 1, false, [], 0x0, 0x0, .w⟩,
  ⟨Reg.FIRN_PSTART 0, 3, true, [(3, 0x10)], 0x0, 0x0, .w⟩,
  ⟨Reg.FIRN_POISON 0, 1, false, [(16, 0x8)], 0x0, 0x0, .b⟩,
  ⟨Reg.FIRN_POISON_T 0, 1, false, [(16, 0x8)], 0x0, 0x0, .b⟩,
  ⟨Reg.FIRN_UPD_CNT, 2, true, [], 0x0, 0x0, .w⟩,
  ⟨Reg.FIRN_LOST_CNT, 2, true, [], 0x0, 0x0, .w⟩,
  ⟨Reg.FIRN_SKIP_CNT, 2, true, [], 0x0, 0x0, .w⟩,
  ⟨Reg.FIRN_PERIOD_SKIP_CNT, 2, true, [], 0x0, 0x0, .w⟩,
  ⟨Reg.FIRN_CLR_CNT, 2, true, [], 0x0, 0x0, .w⟩]

/-- R341. -/
def regRowsFIRNR341p1 : List RegRow := [
  ⟨Reg.FIRN_CE_CNT, 2, true, [], 0x0, 0x0, .w⟩,
  ⟨Reg.FIRN_UE_CNT, 2, true, [], 0x0, 0x0, .w⟩,
  ⟨Reg.FIRN_POISON_OVF_CNT, 2, true, [], 0x0, 0x0, .w⟩,
  ⟨Reg.FIRN_POISON_DROP_CNT, 2, true, [], 0x0, 0x0, .w⟩,
  ⟨Reg.FIRN_CLRLOG 0, 3, true, [(16, 0x10)], 0x0, 0x0, .b⟩,
  ⟨Reg.FIRN_CLRLOG_INFO 0, 1, false, [(16, 0x10)], 0x0, 0x0, .b⟩,
  ⟨Reg.FIRN_CLRLOG_HEAD, 1, false, [], 0x0, 0x0, .b⟩,
  ⟨Reg.FIRN_REC 0 0, 1, false, [(6, 0x200)], 0x0, 0x0, .w⟩]

/-- R337, R341: the values of a record after its GEN, each of several words one value of R7. -/
def regRowsFIRNR341p2 : List RegRow := [
  ⟨Reg.FIRN_REC 0 1, 3, true, [(6, 0x200)], 0x0, 0x0, .w⟩,
  ⟨Reg.FIRN_REC 0 4, 2, true, [(6, 0x200)], 0x0, 0x0, .w⟩,
  ⟨Reg.FIRN_REC 0 6, 3, true, [(6, 0x200)], 0x0, 0x0, .w⟩,
  ⟨Reg.FIRN_REC 0 9, 2, true, [(6, 0x200)], 0x0, 0x0, .w⟩,
  ⟨Reg.FIRN_REC 0 11, 3, true, [(6, 0x200)], 0x0, 0x0, .w⟩,
  ⟨Reg.FIRN_REC 0 14, 2, true, [(6, 0x200)], 0x0, 0x0, .w⟩,
  ⟨Reg.FIRN_REC 0 16, 3, true, [(6, 0x200)], 0x0, 0x0, .w⟩,
  ⟨Reg.FIRN_REC 0 19, 1, false, [(6, 0x200), (65, 0x4)], 0x0, 0x0, .w⟩]

/-- R362. -/
def regRowsDISPR362p0 : List RegRow := [
  ⟨Reg.DISP_CFG, 1, false, [], 0x0, 0x0, .w⟩,
  ⟨Reg.DISP_CORE_RUN, 1, false, [], 0xff, 0x0, .n⟩,
  ⟨Reg.DISP_BOOT, 1, false, [], 0x0, 0x0, .n⟩,
  ⟨Reg.DISP_POST, 1, false, [], 0x0, 0x0, .n⟩,
  ⟨Reg.DISP_CANCEL, 1, false, [], 0x0, 0x0, .n⟩,
  ⟨Reg.DISP_JOB_DEC, 1, false, [], 0x0, 0x0, .n⟩,
  ⟨Reg.DISP_READY_LO, 1, false, [], 0x0, 0x0, .n⟩,
  ⟨Reg.DISP_READY_HI, 1, false, [], 0x0, 0x0, .n⟩,
  ⟨Reg.DISP_TRACE_BASE_LO, 1, false, [], 0x0, 0x0, .w⟩,
  ⟨Reg.DISP_TRACE_BASE_HI, 1, false, [], 0x0, 0x0, .w⟩,
  ⟨Reg.DISP_TRACE_WPTR, 1, false, [], 0x0, 0x0, .w⟩,
  ⟨Reg.DISP_TRACE_MASK, 1, false, [], 0xffff, 0x0, .w⟩]

/-- R362. -/
def regRowsDISPR362p1 : List RegRow := [
  ⟨Reg.DISP_XQ_STATUS, 1, false, [], 0x0, 0x0, .n⟩,
  ⟨Reg.DISP_POST_CNT, 2, true, [], 0x0, 0x0, .w⟩,
  ⟨Reg.DISP_READY_CNT, 2, true, [], 0x0, 0x0, .w⟩,
  ⟨Reg.DISP_TAKE_CNT, 2, true, [], 0x0, 0x0, .w⟩,
  ⟨Reg.DISP_DONE_CNT, 2, true, [], 0x0, 0x0, .w⟩,
  ⟨Reg.DISP_CANCEL_CNT, 2, true, [], 0x0, 0x0, .w⟩,
  ⟨Reg.DISP_COR_CNT, 2, true, [], 0x0, 0x0, .w⟩,
  ⟨Reg.DISP_COLL_CNT, 2, true, [], 0x0, 0x0, .w⟩,
  ⟨Reg.DISP_DISC_CNT, 2, true, [], 0x0, 0x0, .w⟩,
  ⟨Reg.DISP_DISPLACE_CNT, 2, true, [], 0x0, 0x0, .w⟩,
  ⟨Reg.DISP_JOB_FIRE_CNT, 2, true, [], 0x0, 0x0, .w⟩,
  ⟨Reg.DISP_JOB_UNDER_CNT, 2, true, [], 0x0, 0x0, .w⟩]

/-- R362. -/
def regRowsDISPR362p2 : List RegRow := [
  ⟨Reg.DISP_POST_STALL_CNT, 2, true, [], 0x0, 0x0, .w⟩,
  ⟨Reg.DISP_XQ_LOST_CNT, 2, true, [], 0x0, 0x0, .w⟩,
  ⟨Reg.DISP_XQ_STALE_CNT, 2, true, [], 0x0, 0x0, .w⟩,
  ⟨Reg.DISP_DONE_ORPHAN_CNT, 2, true, [], 0x0, 0x0, .w⟩,
  ⟨Reg.DISP_TRACE_WRAP_CNT, 2, true, [], 0x0, 0x0, .w⟩,
  ⟨Reg.DISP_TRACE_LOST_CNT, 2, true, [], 0x0, 0x0, .w⟩,
  ⟨Reg.DISP_CORE 0, 1, false, [(8, 0x10)], 0x0, 0x0, .n⟩,
  ⟨Reg.DISP_CORE_TAKE_CNT 0, 2, true, [(8, 0x10)], 0x0, 0x0, .w⟩,
  ⟨Reg.DISP_THR 0, 1, false, [(1024, 0x4)], 0x0, 0x0, .n⟩,
  ⟨Reg.DISP_JOB 0, 1, false, [(256, 0x4)], 0x0, 0x0, .n⟩]

/-- R376. -/
def regRowsNDKR376p0 : List RegRow := [
  ⟨Reg.NDK_CFG, 1, false, [], 0x0, 0x0, .w⟩,
  ⟨Reg.NDK_STATUS, 1, false, [], 0x0, 0x0, .n⟩,
  ⟨Reg.NDK_MIRROR, 1, false, [], 0x0, 0x0, .n⟩,
  ⟨Reg.NDK_MIRROR_CTRL, 1, false, [], 0x0, 0x0, .n⟩,
  ⟨Reg.NDK_TIME_OFS, 2, true, [], 0x0, 0x0, .n⟩,
  ⟨Reg.NDK_TIME_MST, 1, false, [], 0x0, 0x0, .n⟩,
  ⟨Reg.NDK_TIME_ERR, 1, false, [], 0x0, 0x0, .n⟩,
  ⟨Reg.NDK_HOP_DLY 0, 1, false, [(8, 0x4)], 0x0, 0x0, .n⟩,
  ⟨Reg.NDK_RUNT_CNT, 2, true, [], 0x0, 0x0, .w⟩,
  ⟨Reg.NDK_LONG_CNT, 2, true, [], 0x0, 0x0, .w⟩,
  ⟨Reg.NDK_CRC_CNT, 2, true, [], 0x0, 0x0, .w⟩,
  ⟨Reg.NDK_ORBIT_CNT, 2, true, [], 0x0, 0x0, .w⟩]

/-- R376. -/
def regRowsNDKR376p1 : List RegRow := [
  ⟨Reg.NDK_AUTH_FAIL_CNT, 2, true, [], 0x0, 0x0, .w⟩,
  ⟨Reg.NDK_DUP_CNT, 2, true, [], 0x0, 0x0, .w⟩,
  ⟨Reg.NDK_RTX_CNT, 2, true, [], 0x0, 0x0, .w⟩,
  ⟨Reg.NDK_RTX_ABANDON_CNT, 2, true, [], 0x0, 0x0, .w⟩,
  ⟨Reg.NDK_TXQ_LOST_CNT, 2, true, [], 0x0, 0x0, .w⟩,
  ⟨Reg.NDK_FWD_UNKNOWN_CNT, 2, true, [], 0x0, 0x0, .w⟩,
  ⟨Reg.NDK_POLL_LOST_CNT, 2, true, [], 0x0, 0x0, .w⟩,
  ⟨Reg.NDK_WRAP_CNT, 2, true, [], 0x0, 0x0, .w⟩,
  ⟨Reg.NDK_KEYREV_CNT, 2, true, [], 0x0, 0x0, .w⟩,
  ⟨Reg.NDK_TAKEOVER_CNT, 2, true, [], 0x0, 0x0, .w⟩,
  ⟨Reg.NDK_YIELD_CNT, 2, true, [], 0x0, 0x0, .w⟩,
  ⟨Reg.NDK_TX_CNT, 2, true, [], 0x0, 0x0, .w⟩]

/-- R376. -/
def regRowsNDKR376p2 : List RegRow := [
  ⟨Reg.NDK_RX_CNT, 2, true, [], 0x0, 0x0, .w⟩]

/-- R397. -/
def regRowsRADIOR397p0 : List RegRow := [
  ⟨Reg.RADIO_CFG, 1, false, [], 0x0, 0x0, .w⟩,
  ⟨Reg.RADIO_STATUS, 1, false, [], 0x0, 0x0, .n⟩,
  ⟨Reg.RADIO_SFN, 2, true, [], 0x0, 0x0, .n⟩,
  ⟨Reg.RADIO_DUTY_USED, 1, false, [], 0x0, 0x0, .n⟩,
  ⟨Reg.RADIO_TX_PWR, 1, false, [], 0x1f, 0x0, .w⟩,
  ⟨Reg.RADIO_RXQ_HEAD, 1, false, [], 0x0, 0x0, .n⟩,
  ⟨Reg.RADIO_RXQ_POP, 1, false, [], 0x0, 0x0, .n⟩,
  ⟨Reg.RADIO_RXQ_BASE, 1, false, [], 0xffffffff, 0x0, .w⟩,
  ⟨Reg.RADIO_TXQ_ADDR, 1, false, [], 0xffffffff, 0x0, .n⟩,
  ⟨Reg.RADIO_TXQ_CTRL, 1, false, [], 0x0, 0x0, .n⟩,
  ⟨Reg.RADIO_TXQ_STATUS, 1, false, [], 0x0, 0x0, .n⟩,
  ⟨Reg.RADIO_RX_CNT, 2, true, [], 0x0, 0x0, .w⟩]

/-- R397. -/
def regRowsRADIOR397p1 : List RegRow := [
  ⟨Reg.RADIO_ACK_CNT, 2, true, [], 0x0, 0x0, .w⟩,
  ⟨Reg.RADIO_DUP_CNT, 2, true, [], 0x0, 0x0, .w⟩,
  ⟨Reg.RADIO_SHORT_CNT, 2, true, [], 0x0, 0x0, .w⟩,
  ⟨Reg.RADIO_FCS_ERR_CNT, 2, true, [], 0x0, 0x0, .w⟩,
  ⟨Reg.RADIO_UNKNOWN_CNT, 2, true, [], 0x0, 0x0, .w⟩,
  ⟨Reg.RADIO_SLOT_ERR_CNT, 2, true, [], 0x0, 0x0, .w⟩,
  ⟨Reg.RADIO_AUTH_FAIL_CNT, 2, true, [], 0x0, 0x0, .w⟩,
  ⟨Reg.RADIO_MISS_CNT, 2, true, [], 0x0, 0x0, .w⟩,
  ⟨Reg.RADIO_WAKE_CNT, 2, true, [], 0x0, 0x0, .w⟩,
  ⟨Reg.RADIO_LOST_CNT, 2, true, [], 0x0, 0x0, .w⟩,
  ⟨Reg.RADIO_RXQ_LOST_CNT, 2, true, [], 0x0, 0x0, .w⟩,
  ⟨Reg.RADIO_RXQ_STALE_CNT, 2, true, [], 0x0, 0x0, .w⟩]

/-- R397. -/
def regRowsRADIOR397p2 : List RegRow := [
  ⟨Reg.RADIO_DUTY_WAIT_CNT, 2, true, [], 0x0, 0x0, .w⟩,
  ⟨Reg.RADIO_KEYREV_CNT, 2, true, [], 0x0, 0x0, .w⟩,
  ⟨Reg.RADIO_TX_FAIL_CNT, 2, true, [], 0x0, 0x0, .w⟩,
  ⟨Reg.RADIO_CTR_EXH_CNT, 2, true, [], 0x0, 0x0, .w⟩,
  ⟨Reg.RADIO_BCN_CTR, 1, false, [], 0x0, 0x0, .b⟩,
  ⟨Reg.RADIO_SNS_STATE 0, 1, false, [(256, 0x20)], 0x0, 0x0, .n⟩,
  ⟨Reg.RADIO_SNS_DRIFT 0, 1, false, [(256, 0x20)], 0x0, 0x0, .n⟩,
  ⟨Reg.RADIO_SNS_ERR 0, 1, false, [(256, 0x20)], 0x0, 0x0, .n⟩,
  ⟨Reg.RADIO_SNS_LINK 0, 1, false, [(256, 0x20)], 0x0, 0x0, .n⟩,
  ⟨Reg.RADIO_SNS_RXCTR 0, 1, false, [(256, 0x20)], 0x0, 0x0, .b⟩,
  ⟨Reg.RADIO_SNS_TXCTR 0, 1, false, [(256, 0x20)], 0x0, 0x0, .b⟩,
  ⟨Reg.RADIO_SNS_LAST 0, 1, false, [(256, 0x20)], 0x0, 0x0, .n⟩]

/-- R427. -/
def regRowsKEYR427p0 : List RegRow := [
  ⟨Reg.KEY_STATUS, 1, false, [], 0x0, 0x30, .b⟩,
  ⟨Reg.KEY_ROOT_STATE, 1, false, [], 0x0, 0x0, .b⟩,
  ⟨Reg.KEY_TAMP_CFG, 1, false, [], 0xfff, 0x0, .b⟩,
  ⟨Reg.KEY_TAMP_CAUSE, 1, false, [], 0x0, 0x3f, .b⟩,
  ⟨Reg.KEY_TAMP_TICKS, 2, true, [], 0x0, 0x0, .b⟩,
  ⟨Reg.KEY_BAT_TICKS, 2, true, [], 0x0, 0x0, .b⟩,
  ⟨Reg.KEY_TAMP_CNT, 1, false, [], 0x0, 0x0, .b⟩,
  ⟨Reg.KEY_FW_FLOOR, 1, false, [], 0x0, 0x0, .b⟩,
  ⟨Reg.KEY_FW_VERSION, 1, false, [], 0x0, 0x0, .n⟩,
  ⟨Reg.KEY_IMG_PK, 1, false, [], 0xffffffff, 0x0, .w⟩,
  ⟨Reg.KEY_UID 0, 1, false, [(4, 0x4)], 0x0, 0x0, .n⟩,
  ⟨Reg.KEY_SLOT_STATE 0, 1, false, [(8, 0x4)], 0x0, 0x0, .n⟩]

/-- R427. -/
def regRowsKEYR427p1 : List RegRow := [
  ⟨Reg.KEY_CMD_CNT, 2, true, [], 0x0, 0x0, .w⟩,
  ⟨Reg.KEY_CMD_ERR_CNT, 2, true, [], 0x0, 0x0, .w⟩,
  ⟨Reg.KEY_VERIFY_CNT, 2, true, [], 0x0, 0x0, .w⟩,
  ⟨Reg.KEY_VERIFY_FAIL_CNT, 2, true, [], 0x0, 0x0, .w⟩,
  ⟨Reg.KEY_PRIV_CNT, 2, true, [], 0x0, 0x0, .w⟩,
  ⟨Reg.KEY_PRIV_FAIL_CNT, 2, true, [], 0x0, 0x0, .w⟩,
  ⟨Reg.KEY_REVOKE_CNT, 2, true, [], 0x0, 0x0, .w⟩,
  ⟨Reg.KEY_TAGFAIL_CNT, 2, true, [], 0x0, 0x0, .w⟩,
  ⟨Reg.KEY_LATEUSE_CNT, 2, true, [], 0x0, 0x0, .w⟩,
  ⟨Reg.KEY_ATTEST_CNT, 2, true, [], 0x0, 0x0, .w⟩,
  ⟨Reg.KEY_SLOT_HDR 0 0, 1, false, [(64, 0x10), (3, 0x4)], 0x0, 0x0, .b⟩,
  ⟨Reg.KEY_BIND 0, 1, false, [(256, 0x4)], 0x0, 0x0, .w⟩]

/-- R427. -/
def regRowsKEYR427p2 : List RegRow := [
  ⟨Reg.KEY_MBX_CTRL 0, 1, false, [(2, 0x10)], 0x0, 0x0, .n⟩,
  ⟨Reg.KEY_MBX_STATUS 0, 1, false, [(2, 0x10)], 0x0, 0x0, .n⟩,
  ⟨Reg.KEY_MBX_BUF 0 0, 1, false, [(2, 0x2000), (2048, 0x4)], 0xffffffff, 0x0, .n⟩]

/-- R449. -/
def regRowsFLTR449 : List RegRow := [
  ⟨Reg.FLT_STICKY 0, 1, false, [(3, 0x4)], 0x0, 0xffffffff, .w⟩,
  ⟨Reg.FLT_FIRST, 1, false, [], 0x0, 0x80000000, .w⟩,
  ⟨Reg.FLT_INJ, 1, false, [], 0x0, 0x0, .n⟩,
  ⟨Reg.FLT_INJ_STATUS, 1, false, [], 0x0, 0x0, .n⟩,
  ⟨Reg.FLT_EVT_PEND 0, 1, false, [(4, 0x4)], 0x0, 0xffffffff, .n⟩,
  ⟨Reg.FLT_REC_T 0, 3, true, [(96, 0x10)], 0x0, 0x0, .w⟩,
  ⟨Reg.FLT_REC_INFO 0, 1, false, [(96, 0x10)], 0x0, 0x0, .w⟩,
  ⟨Reg.FLT_SRC_CNT 0, 2, true, [(96, 0x8)], 0x0, 0x0, .w⟩,
  ⟨Reg.FLT_EVT_ROUTE 0, 1, false, [(128, 0x4)], 0x3f1f, 0x0, .w⟩]

/-- R450. -/
def regRowsPWRR450p0 : List RegRow := [
  ⟨Reg.PWR_STATE, 1, false, [], 0x0, 0x0, .n⟩,
  ⟨Reg.PWR_STATE_CTRL, 1, false, [], 0x0, 0x0, .n⟩,
  ⟨Reg.PWR_RESET, 1, false, [], 0x0, 0x0, .n⟩,
  ⟨Reg.PWR_RESET_CAUSE, 1, false, [], 0x0, 0x7f, .n⟩,
  ⟨Reg.PWR_CFG, 1, false, [], 0x3, 0x0, .p⟩,
  ⟨Reg.PWR_WDT_CFG, 1, false, [], 0x8000ffff, 0x0, .n⟩,
  ⟨Reg.PWR_WDT_KICK, 1, false, [], 0x0, 0x0, .n⟩,
  ⟨Reg.PWR_WDT_STATE, 1, false, [], 0x0, 0x0, .n⟩,
  ⟨Reg.PWR_SUPMON_CFG, 1, false, [], 0x3ff03ff, 0x0, .b⟩,
  ⟨Reg.PWR_TEMP, 1, false, [], 0x0, 0x0, .n⟩,
  ⟨Reg.PWR_TEMP_WARN, 1, false, [], 0xfff, 0x0, .w⟩,
  ⟨Reg.PWR_TEMP_CRIT, 1, false, [], 0x0, 0x0, .n⟩]

/-- R450. -/
def regRowsPWRR450p1 : List RegRow := [
  ⟨Reg.PWR_SUPPLY_WARN_CNT, 2, true, [], 0x0, 0x0, .p⟩,
  ⟨Reg.PWR_SUPPLY_DIP_CNT, 2, true, [], 0x0, 0x0, .p⟩,
  ⟨Reg.PWR_RST_CNT 0, 2, true, [(5, 0x8)], 0x0, 0x0, .b⟩,
  ⟨Reg.PWR_PARK_DISC_CNT, 2, true, [], 0x0, 0x0, .w⟩,
  ⟨Reg.PWR_WDT_WARN_CNT, 2, true, [], 0x0, 0x0, .w⟩,
  ⟨Reg.PWR_THERM_CNT, 2, true, [], 0x0, 0x0, .w⟩]

/-- R471. -/
def regRowsFLDLR471 : List RegRow := [
  ⟨Reg.FLDL_DOORBELL, 1, false, [], 0x0, 0x0, .n⟩,
  ⟨Reg.FLDL_STATUS, 1, false, [], 0x0, 0x2, .n⟩,
  ⟨Reg.FLDL_CFG, 1, false, [], 0x107, 0x0, .w⟩,
  ⟨Reg.FLDL_RESP, 1, false, [], 0x0, 0x0, .n⟩,
  ⟨Reg.FLDL_STAGED, 1, false, [], 0x0, 0x0, .n⟩,
  ⟨Reg.FLDL_CMD_CNT, 2, true, [], 0x0, 0x0, .w⟩,
  ⟨Reg.FLDL_DB_IGN_CNT, 2, true, [], 0x0, 0x0, .w⟩,
  ⟨Reg.FLDL_REQ 0, 1, false, [(16384, 0x4)], 0xffffffff, 0x0, .n⟩,
  ⟨Reg.FLDL_RSP 0, 1, false, [(16384, 0x4)], 0xffffffff, 0x0, .n⟩]

/-- R472. -/
def regRowsHQR472p0 : List RegRow := [
  ⟨Reg.HQ_PCIE_STATUS, 1, false, [], 0x0, 0x0, .n⟩,
  ⟨Reg.HQ_DDR_WIN, 1, false, [], 0xff, 0x0, .w⟩,
  ⟨Reg.HQ_DDR_SIZE, 1, false, [], 0x0, 0x0, .n⟩,
  ⟨Reg.HQ_IRQ_EN, 1, false, [], 0x7, 0x0, .n⟩,
  ⟨Reg.HQ_ATTN, 1, false, [], 0x0, 0x7, .n⟩,
  ⟨Reg.HQ_SEAM_CFG, 1, false, [], 0xffff, 0x0, .w⟩,
  ⟨Reg.HQ_RING_PEND, 1, false, [], 0x0, 0x3, .n⟩,
  ⟨Reg.HQ_SEAM_MASK 0, 1, false, [(8, 0x4)], 0xffffffff, 0x0, .n⟩,
  ⟨Reg.HQ_RING_BASE_LO 0, 1, false, [(2, 0x40)], 0xffffffff, 0x0, .n⟩,
  ⟨Reg.HQ_RING_BASE_HI 0, 1, false, [(2, 0x40)], 0xffffffff, 0x0, .n⟩,
  ⟨Reg.HQ_RING_CFG 0, 1, false, [(2, 0x40)], 0x11f, 0x0, .n⟩,
  ⟨Reg.HQ_RING_HEAD 0, 1, false, [(2, 0x40)], 0x0, 0x0, .n⟩]

/-- R472. -/
def regRowsHQR472p1 : List RegRow := [
  ⟨Reg.HQ_RING_TAIL 0, 1, false, [(2, 0x40)], 0xffff, 0x0, .n⟩,
  ⟨Reg.HQ_RING_WB_LO 0, 1, false, [(2, 0x40)], 0xffffffff, 0x0, .n⟩,
  ⟨Reg.HQ_RING_WB_HI 0, 1, false, [(2, 0x40)], 0xffffffff, 0x0, .n⟩,
  ⟨Reg.HQ_RING_IRQ 0, 1, false, [(2, 0x40)], 0xffffffff, 0x0, .n⟩,
  ⟨Reg.HQ_DMA_CNT 0, 2, true, [(2, 0x40)], 0x0, 0x0, .w⟩,
  ⟨Reg.HQ_SEAM_LOST_CNT, 2, true, [], 0x0, 0x0, .w⟩,
  ⟨Reg.HQ_SEAM_STALE_CNT, 2, true, [], 0x0, 0x0, .w⟩,
  ⟨Reg.HQ_ALM_STALE_CNT, 2, true, [], 0x0, 0x0, .w⟩,
  ⟨Reg.HQ_BAR2_POISON_CNT, 2, true, [], 0x0, 0x0, .w⟩,
  ⟨Reg.HQ_UART_LOST_CNT, 2, true, [], 0x0, 0x0, .w⟩,
  ⟨Reg.HQ_UART_CFG, 1, false, [], 0xffff, 0x0, .w⟩,
  ⟨Reg.HQ_UART_DATA, 1, false, [], 0xff, 0x0, .n⟩]

/-- R472. -/
def regRowsHQR472p2 : List RegRow := [
  ⟨Reg.HQ_UART_STATUS, 1, false, [], 0x0, 0x0, .n⟩,
  ⟨Reg.HQ_QSPI_CTRL, 1, false, [], 0x21ffffff, 0x0, .n⟩,
  ⟨Reg.HQ_QSPI_ADDR, 1, false, [], 0xffffffff, 0x0, .n⟩,
  ⟨Reg.HQ_QSPI_BUF 0, 1, false, [(64, 0x4)], 0xffffffff, 0x0, .n⟩,
  ⟨Reg.HQ_MSIX_TABLE 0, 1, false, [(272, 0x4)], 0xffffffff, 0x0, .n⟩,
  ⟨Reg.HQ_MSIX_PBA, 3, false, [], 0x0, 0x0, .n⟩]

/-- Every register of the spec. -/
def regRows : List RegRow :=
  regRowsFABR40 ++ regRowsFEATR49 ++ regRowsTIMER83p0 ++ regRowsTIMER83p1 ++ regRowsTIMER83p2 ++
  regRowsTIMER83p3 ++ regRowsTACKR83 ++ regRowsETHR114p0 ++ regRowsETHR114p1 ++ regRowsETHR114p2 ++
  regRowsETHR115p0 ++ regRowsETHR115p1 ++ regRowsETHR115p2 ++ regRowsDECR139p0 ++ regRowsDECR139p1 ++
  regRowsDECR139p2 ++ regRowsSEAMR168p0 ++ regRowsSEAMR168p1 ++ regRowsSEAMR168p2 ++ regRowsSEAMR168p3 ++
  regRowsFABR199p0 ++ regRowsFABR199p1 ++ regRowsFABR199p2 ++ regRowsSER224p0 ++ regRowsSER224p1 ++
  regRowsSER224p2 ++ regRowsSER224p3 ++ regRowsFLOER247p0 ++ regRowsFLOER247p1 ++ regRowsFLOER247p2 ++
  regRowsTHRR248p0 ++ regRowsTHRR248p1 ++ regRowsOSCR274p0 ++ regRowsOSCR274p1 ++ regRowsOSCR274p2 ++
  regRowsOSCR275 ++ regRowsALMR289p0 ++ regRowsALMR289p1 ++ regRowsALMR289p2 ++ regRowsSTNR322p0 ++
  regRowsSTNR322p1 ++ regRowsSTNR322p2 ++ regRowsSTNR322p3 ++ regRowsAUXR323p0 ++ regRowsAUXR323p1 ++
  regRowsCAPR340p0 ++ regRowsCAPR340p1 ++ regRowsCAPR340p2 ++ regRowsFIRNR341p0 ++ regRowsFIRNR341p1 ++ regRowsFIRNR341p2 ++
  regRowsDISPR362p0 ++ regRowsDISPR362p1 ++ regRowsDISPR362p2 ++ regRowsNDKR376p0 ++ regRowsNDKR376p1 ++
  regRowsNDKR376p2 ++ regRowsRADIOR397p0 ++ regRowsRADIOR397p1 ++ regRowsRADIOR397p2 ++ regRowsKEYR427p0 ++
  regRowsKEYR427p1 ++ regRowsKEYR427p2 ++ regRowsFLTR449 ++ regRowsPWRR450p0 ++ regRowsPWRR450p1 ++
  regRowsFLDLR471 ++ regRowsHQR472p0 ++ regRowsHQR472p1 ++ regRowsHQR472p2

end Sys2Proof.Machine
end

