-- ==== Sys2Proof/Machine/State.lean ====
section
/-! DEFINITION. The state of the VL9160 as plain data. The register file (`regs`) is the home of every register the spec's register
tables give; the structures hold what lies behind the registers: queues, tables, timers, engine states and memories. -/
namespace Sys2Proof.Machine
open Sys2Proof

/-- Why a command can stop with a fault. The spec gives every command of the table an effect, and an access the device does not
serve falls under the silent rule (R51), so no command raises one: the type has no constructor. -/
inductive Fault
deriving DecidableEq, Repr

/-- Why a command can be refused. -/
inductive Refusal
  /-- Raised by `exec` for a command whose meaning is not written; safe: the model stops where the device goes on. -/
  | notModelled (mnemonic : String)
deriving DecidableEq, Repr

/-- What a command put out on one of the device's interfaces. `State.out` holds the last command's outputs; it is the model's own
field. -/
inductive Output
  /-- The value a register read returned. -/
  | read (v : BitVec 64)
  /-- The data of a BAR2 read completion, and its poisoned bit. -/
  | completion (data : List Byte) (poisoned : Bool)
  /-- A DMA write to a bus address. -/
  | dma (addr : Nat) (data : List Byte)
  /-- An MSI-X message: vector, address and data of its table entry. -/
  | msix (vector : Nat) (addr : Nat) (data : Nat)
  /-- A frame on an Ethernet port. -/
  | frame (port : Nat) (data : List Byte)
  /-- A cell on a Noduko lane. -/
  | cell (lane : Nat) (data : List Byte)
  /-- A radio transmission. -/
  | psdu (data : List Byte)
  /-- A wake-up signature sent to a radio sensor, most significant bit of each octet first. -/
  | wake (sensor : Nat) (data : List Byte)
  /-- A byte on UTXD. -/
  | uart (b : Byte)
  /-- Bytes read over I2C. -/
  | i2c (data : List Byte)
  /-- A flash command: opcode, address bytes and address, dummy clocks, length, and the data written (empty for a read). -/
  | flash (opcode addrBytes addr dummy len : Nat) (data : List Byte)
  /-- Bits shifted out on TDO, first bit first. -/
  | tdo (v : List Bool)
deriving DecidableEq, Repr

/-- What the image state of R35 goes back to when a load is abandoned. -/
inductive ImgBefore | none | loaded | failed
deriving DecidableEq, Repr

/-- A load under way (R31, R32): the state it started from, the activation instant the command gave, whether it is the autonomous
load, and whether the checks have passed and application is due. -/
structure Load where
  before : ImgBefore
  act : Nat := 0
  autonomous : Bool := false
  /-- Bytes staged when the load began (R31), and the signer's public key read then (R419). -/
  staged : Nat := 0
  pk : List Byte := []
  passed : Bool := false
  /-- The image as the checks passed it: later writes of the staging area do not reach it (R32). -/
  image : List Byte := []
deriving DecidableEq, Repr

/-- The Wenif image in force and a pending partial image (R30 to R39). -/
structure Img where
  /-- Pattern bodies of the active banks, by TYPE. -/
  bodies : Tbl (List Byte) := []
  /-- Pattern bodies of a pending partial image, by TYPE (R36). -/
  idle : Tbl (List Byte) := []
  /-- The TYPEs whose pending body has been activated (A reached) but whose old bank is not yet released (R37, R38). -/
  activated : Bool := false
  /-- An image is in force: loaded, and not unloaded or cleared (R32, R34, R35). -/
  inForce : Bool := false
  load : Option Load := none
  /-- SERIAL, VERSION and RAISE_FLOOR of the pending partial image (R38). -/
  pendSerial : Nat := 0
  pendVersion : Nat := 0
  pendRaise : Bool := false
  /-- Pattern bank the loaded image's seams use: it changes at each release (R37). -/
  parity : Nat := 0
  /-- Declared windows by TARGET: window number plus one (R40). -/
  winOf : Tbl Nat := []
  /-- Window values that the engine instant being decided uses (the model's own field, set only within a command). -/
  held : Option (Tbl Nat) := none
  /-- The image in force was loaded under R46. -/
  auto : Bool := false
  /-- A verified UNLOAD waits for the engines to finish the instants they hold (R32, R35). -/
  unload : Bool := false
  /-- A HELLO has been registered since the reset (R46, R47). -/
  hello : Bool := false
  /-- Tick at which a reset that clears the image was released, until the grace period has brought its load (R46). -/
  grace : Option Nat := none
  /-- An IMAGE_STAGE or IMAGE_COMMIT held unanswered while an autonomous load runs (R47, R465). -/
  heldCmd : Option Instr := none
  /-- The GROUPS body that the last released partial image replaced, and its A: the bank in force at instants before it (R501). -/
  oldGroups : List Byte := []
  oldUntil : Nat := 0
deriving DecidableEq, Repr

/-- The Fledal mailbox beyond its registers (R461): the command in progress and the tag it answers with. -/
structure Fldl where
  cmd : Nat := 0
  tag : Nat := 0
  /-- Staged count of the recovery boot ROM's FW_STAGE (R466). -/
  fwStaged : Nat := 0
deriving DecidableEq, Repr

/-- Watch of a FIFO's stale tail (R166): the tick since which it has stood non-empty and unread, and whether its event was raised. -/
structure Watch where
  since : Nat := 0
  raised : Bool := false
deriving DecidableEq, Repr

/-- An entry of the transmit timestamp FIFO (R69). -/
structure TxTs where
  port : Nat
  msgType : Nat
  seqId : Nat
  epoch : Nat
  /-- T80. -/
  time : Nat
deriving DecidableEq, Repr

/-- The run-time side of one tack (R77, R78): words 0 to 6 held before the commit, due value on its base counter, firings so far,
and whether its last firing was on a mains angle not LOCKED. -/
structure Tack where
  staged : List Nat := [0, 0, 0, 0, 0, 0, 0]
  due : Nat := 0
  fired : Nat := 0
  live : Bool := false
  free : Bool := false
  /-- Tick of the last commit: the entry is decided on from the next tick on (R77, R78). -/
  since : Nat := 0
deriving DecidableEq, Repr

/-- A posted servo sample that waits for the next tick (R56): source identity, type, STEP, and the offset posted with it. -/
structure Sample where
  id : Nat
  ty : Nat
  step : Bool
  ofs : Nat
deriving DecidableEq, Repr

/-- What a read of TIME_NOW_NS latched for one party (R83, R7). -/
structure NowLatch where
  sec : BitVec 48 := 0
  frac : BitVec 32 := 0
  mang : BitVec 64 := 0
deriving DecidableEq, Repr

/-- The two time bases, the discipline and the tacks (R52 to R84, R500). -/
structure Time where
  sec : BitVec 48 := 0
  ns : BitVec 32 := 0
  frac : BitVec 32 := 0
  /-- The mains angle M64, with 32 further fraction bits below it for the per-tick increment (R73). -/
  mang : BitVec 96 := 0
  /-- Per-tick increment of the mains angle in units of 2^-64 turn (R73). -/
  mangInc : BitVec 64 := 0
  /-- A slew runs, at this increment (R58). -/
  slewInc : Option (BitVec 40) := none
  /-- Ticks since the last accepted sample, while an accepted sample exists (R62, R64). -/
  sinceAccept : Nat := 0
  /-- TIME_SVO_ERR at the last accepted sample (R62). -/
  errAtAccept : Nat := 0
  /-- TIME_EST_ERR stood above TIME_ERR_LIMIT when last judged (R62). -/
  errAbove : Bool := true
  /-- Counter value just after the last step of the counter, in ns (R155). -/
  stepAt : Option Nat := none
  /-- Ticks at which LOCKED was last left and LEAP_APPLIED last raised (R137). -/
  leftLock : Option Nat := none
  leapAt : Option Nat := none
  /-- The last applied leap deleted a second. -/
  leapDel : Bool := false
  /-- An image has been loaded since the last PIN or POR (R500). -/
  everLoaded : Bool := false
  /-- The UTC day number at whose start a leap bit acts (R55). -/
  leapDay : Nat := 0
  /-- Counter value, in ns, of the last accepted PPS edge (R70). -/
  ppsAt : Option Nat := none
  /-- A missing PPS edge has been reported since the last edge (R70). -/
  ppsMissed : Bool := false
  /-- Latches of TIME_NOW_NS reads, by party. -/
  now : Tbl NowLatch := []
  txts : List TxTs := []
  txtsWatch : Watch := {}
  /-- The FIFO entry latched by the last read of TIME_TXTS_INFO, by party. -/
  txtsLatch : Tbl (Option TxTs) := []
  tacks : Tbl Tack := []
  /-- For each TPO pin: the tick count at which its pulse ends, zero while none runs, and the POL of its last pulse (R80). -/
  tpo : Tbl (Nat × Bool) := []
  /-- Samples posted since the last tick, oldest first; TIME_SRC has been written with a different value since the last tick (R56, R65). -/
  samples : List Sample := []
  srcNew : Bool := false
  /-- Tick of the last step of the counter (R78). -/
  stepTick : Option Nat := none
  /-- 250 MHz ticks since POR or PIN, the base of every tick-counted interval. -/
  ticks : Nat := 0
deriving DecidableEq, Repr

/-- A staged host-class frame (R110), with what its descriptors will say of it (R109). -/
structure HostFrame where
  octets : List Byte
  ring : Nat
  port : Nat
  flags : Nat
  epoch : Nat
  rule : Nat
  vid : Nat
  tagged : Bool
  pcp : Nat
  rxts : Nat
  flen : Nat
deriving DecidableEq, Repr

/-- A frame in the measurement queue (R103): the UDP payload or the framed C37.118 octets, what the stream lookup needs of its headers,
and its corrected receive timestamp with its epoch. -/
structure MqFrame where
  payload : List Byte
  /-- 0 C37.118 over UDP, 1 C37.118 over TCP, 2 R-SV over UDP (R99). -/
  target : Nat
  port : Nat
  v6 : Bool
  saddr : Nat
  daddr : Nat
  sport : Nat
  dport : Nat
  conn : Nat
  /-- T80. -/
  rxts : Nat
  epoch : Nat
  /-- The frame as a host-class frame, should the decoder pass it on (R126). -/
  host : HostFrame
deriving DecidableEq, Repr

/-- A node-table entry (R93, R94). -/
structure PrpNode where
  used : Bool := false
  mac : Nat := 0
  high : Nat := 0
  win : BitVec 64 := 0
  /-- Tick of the last judgement. -/
  last : Nat := 0
deriving DecidableEq, Repr

/-- A frame waiting in a port's transmit queues (R113): its queue (0 alarm path to 4 host), its octets without FCS, and the tick before
which it does not start, for a frame queued during low-power idle (R88). -/
structure TxFrame where
  queue : Nat
  octets : List Byte
  ready : Nat := 0
deriving DecidableEq, Repr

/-- A host receive ring beyond its registers (R108, R112). -/
structure HrxRing where
  base : Nat := 0
  log2n : Nat := 0
  bufsz : Nat := 0
  firmware : Bool := false
  since : Nat := 0
  firstAt : Nat := 0
deriving DecidableEq, Repr

/-- The hardware side of a TCP connection beyond its entry (R105 to R107): octets not yet framed, segments not yet acknowledged with the
tick of the first, and the link-layer address the last segment came from. -/
structure TcpHw where
  stream : List Byte := []
  unacked : Nat := 0
  firstAt : Nat := 0
  rmac : List Byte := []
deriving DecidableEq, Repr

/-- The Ethernet ports beyond their registers (R85 to R116). -/
structure Eth where
  mq : List MqFrame := []
  mqWatch : Watch := {}
  tqHead : Nat := 0
  tqCount : Nat := 0
  tqWatch : Watch := {}
  staged : List HostFrame := []
  /-- Node tables, by pair × 16,384 + set × 4 + way. -/
  nodes : Tbl PrpNode := []
  /-- Transmit sequence counters of the two pairs (R95), and of their supervision frames. -/
  prpSeq : Tbl Nat := []
  supSeq : Tbl Nat := []
  supAt : Tbl Nat := []
  /-- Tick of each port's last valid frame with an RCT (R96). -/
  lastRct : Tbl Nat := []
  rings : Tbl HrxRing := []
  tcp : Tbl TcpHw := []
  /-- Transmit queues by port, each in order of queueing. -/
  txq : Tbl (List TxFrame) := []
  /-- Tick since which a port's transmitter has had nothing to send (R88). -/
  idleSince : Tbl Nat := []
deriving DecidableEq, Repr

/-- The decoded payload of a source (R128). Lists hold the lanes in order; a lane beyond the list is zero. -/
structure Payload where
  ph : List Phasor := []
  freq : Int := 0
  rocof : Int := 0
  an : List Int := []
  dg : List Nat := []
  qual : Nat := 0
  invalid : Nat := 0
deriving DecidableEq, Repr

/-- A decoded source item on its way to the seam engine (R122): source, key, the rate the decoder used, arrival timestamp (T80) and
epoch, and payload. -/
structure Item where
  src : Nat
  sec : Nat
  n : Nat
  rate : Nat
  arr : Nat
  epoch : Nat
  payload : Payload
deriving DecidableEq, Repr

/-- A frame given back by firmware (R133): octets, connection, arrival T80 and epoch. -/
structure Reinj where
  octets : List Byte
  conn : Nat
  ts : Nat
  epoch : Nat
deriving DecidableEq, Repr

/-- The frame decoders beyond their registers (R117 to R139). -/
structure Dec where
  /-- Command FIFO: stream and command word, oldest first (R132). -/
  cmds : List (Nat × Nat) := []
  /-- Tick of the last command frame sent. -/
  cmdAt : Option Nat := none
  /-- The reinjected frame that makes BUSY 1, and a GO that waits for it, with its epoch. -/
  reinj : Option Reinj := none
  heldGo : Option Nat := none
  /-- Tick of the image load, or of the activation that last replaced SOURCES (R127). -/
  base : Nat := 0
  /-- Tick of each stream's last frame to pass order 7, and of its last resend, plus one (R127). -/
  lastPass : Tbl Nat := []
  lastResend : Tbl Nat := []
  /-- Streams whose LAST_SPDU has been set since load or activation (R131). -/
  spduSet : Tbl Bool := []
  /-- T0 of the instant last built or skipped of each upstream stream (R135). -/
  upDone : Tbl Nat := []
  /-- Tick of the activation of an UPSTREAM pattern (R137). -/
  upAt : Option Nat := none
deriving DecidableEq, Repr

/-- A slot of the seam store (R145), but for the flags held in the maps (R146). -/
structure Slot where
  bad : Bool := false
  dup : Bool := false
  reinj : Bool := false
  epoch : Nat := 0
  group : Nat := 0
  source : Nat := 0
  arr : Nat := 0
  lat : Nat := 0
  sec : Nat := 0
  n : Nat := 0
  payload : Payload := {}
deriving DecidableEq, Repr

/-- A seam token (R160). -/
structure Token where
  group : Nat
  cause : Nat
  bank : Nat
  epoch : Nat
  short : Bool
  gap : Nat
  present : Nat
  nbad : Nat
  seq : Nat
  n : Nat
  way : Nat
  sec : Nat
  ofs : Nat
  dl : Nat
  /-- Reporting instant, ns, that the key gives at the group's rate. -/
  t0 : Nat
  /-- Tick of the close C. -/
  at_ : Nat
deriving DecidableEq, Repr

/-- A seam: a group at one reporting instant (R150 to R154). -/
structure Seam where
  inst : Nat
  rate : Nat
  t0 : Nat
  epoch : Nat
  dl : Nat
  quorum : Nat
  /-- Sources whose item was admitted, and those in the mend map. -/
  present : List Nat := []
  mended : List Nat := []
  /-- Cause of readiness, once ready (R152). -/
  ready : Option Nat := none
  closed : Bool := false
  /-- It was discarded without a token; its maps stay until its way opens anew (R146, R151). -/
  gone : Bool := false
deriving DecidableEq, Repr

/-- An alignment group at run time (R150): the lowest instant not yet closed, the highest opened, the seam that owns each way, the next
sequence number, the skips since the last token, and the parameters in force (DL_FIXED, MARGIN, DL_MIN, DL_MAX, QUORUM, QUANT). -/
structure Group where
  lo : Nat
  hi : Nat
  ways : Tbl (Option Seam) := []
  seq : Nat := 0
  gap : Nat := 0
  /-- No opening has been made since the group began (R151). -/
  fresh : Bool := true
  params : List Nat := []
  /-- The activation instant from which `params` hold, and the parameters of the bank before it. -/
  turn : Nat := 0
  before : List Nat := []
deriving DecidableEq, Repr

/-- The learner of a source (R155). -/
structure Learner where
  bins : List Nat := []
  total : Nat := 0
deriving DecidableEq, Repr

/-- An alarm path entry (R277), and the role of the panel whose ring stop sent it. -/
structure AlarmEntry where
  role : Nat := 0
  kind : Nat
  inst : Nat
  act : Nat := 0
  reset : Bool := false
  cls : Nat := 0
  pass : Nat := 0
  cond : Nat := 0
  cause : Nat := 0
  t0 : Nat
  valA : Nat := 0
  valB : Nat := 0
  active : Nat := 0
  first : Nat := 0
  modeF : Int := 0
  zeta : Int := 0
  aref : Int := 0
deriving DecidableEq, Repr

/-- A completion on its way to the dispatcher: a notice of R350. -/
inductive Note | seam (g : Nat) | engine (role inst : Nat) | merge | refac (e : Nat)
deriving DecidableEq, Repr

/-- The seam engine beyond its registers (R141 to R168). -/
structure SeamSt where
  /-- Crossings 0 (ingress) and 1 (bridge). -/
  ingress : List Item := []
  bridge : List Item := []
  /-- Crossing 2, by panel. -/
  tokens : Tbl (List Token) := []
  alarms : List AlarmEntry := []
  notes : List Note := []
  /-- Stale-tail watches: crossings 0 to 5 by number, the panels of crossing 2 at 16 + p. -/
  watch : Tbl Watch := []
  mendHead : Nat := 0
  mendCount : Nat := 0
  store : Tbl Slot := []
  groups : Tbl (Option Group) := []
  /-- Groups that a pending partial image adds or whose rate it changes, as they run from A on (R151, R162). -/
  next : Tbl (Option Group) := []
  /-- Groups that a released partial image removed or renumbered, for late items of instants before its A (R158, R501). -/
  past : Tbl (Option Group) := []
  learners : Tbl Learner := []
  /-- Learners of the sources that a pending partial image changes, for instants from A on, until A is reached (R39). -/
  fresh : Tbl Learner := []
  /-- The sources that the last activation changed, and its A: their items for instants before A feed no learner (R39). -/
  freshSrc : List Nat := []
  freshAt : Nat := 0
  /-- Seams waiting for the history writer, with their members in order, and each group's last record offset plus one (R163, R165). -/
  hist : List (Token × List Nat) := []
  histPrev : Tbl Nat := []
  /-- The slot a snapshot was asked of (R168). -/
  slotSel : Option (Nat × Nat) := none
deriving DecidableEq, Repr

/-- An operand token (R176). -/
structure Tok where
  node : Nat
  port : Nat
  bg : Bool := false
  tag : Nat
  inst : Nat
  value : BitVec 40
  void : Bool := false
  /-- It has waited for a free entry and was counted (R177). -/
  stalled : Bool := false
  /-- The crossbar input it comes by (R180): a tile of the panel, 16 the ring stop, 17 the operand link, triggers among it. -/
  src : Nat := 17
deriving DecidableEq, Repr

/-- An entry of a matching store (R177): its key and the tokens of its ports. -/
structure Match where
  node : Nat
  tag : Nat
  inst : Nat
  ports : List (Option Tok) := [none, none, none]
  /-- The arrival at its tile that made it ready to fire (R172). -/
  ready : Option Nat := none
deriving DecidableEq, Repr

/-- A tile (R170): accumulators with their VOID bits, registers with theirs, data SRAM by byte, matching store, tokens in its crossbar
input buffer and tokens that wait for it at their sources (R180), poisoned nodes, the next word the scrub reads and its finished sweeps. -/
structure Tile where
  accs : Tbl (BitVec 96 × Bool) := []
  regs : Tbl (BitVec 40 × Bool) := []
  sram : List Host.Cell := []
  store : List Match := []
  inbox : List Tok := []
  wait : List Tok := []
  /-- The crossbar input last served (R180). -/
  lastIn : Nat := 17
  /-- Tokens that have entered the matching store. -/
  arrivals : Nat := 0
  poison : List Nat := []
  scrub : Nat := 0
  sweeps : Nat := 0
  /-- Scrub words due, what has accrued towards the next in ns × words of a sweep, and the tick it was last reckoned at (R197). -/
  due : Nat := 0
  dueRem : Nat := 0
  dueAt : Option Nat := none
deriving DecidableEq, Repr

/-- A BLOCK cell on its way to a panel (R182): eight lanes, destination tile and lane, counter and class. -/
structure Block where
  tile : Nat
  lane : Nat
  cntr : Nat
  bg : Bool
  data : List (BitVec 40)
deriving DecidableEq, Repr

/-- A cell on the ring to a panel (R182), with the panel that sent it: a token for a tile, or a BLOCK. -/
inductive RingCell
  | token (src tile : Nat) (k : Tok)
  | block (src : Nat) (b : Block)
deriving DecidableEq, Repr

/-- An instant in a panel's assembler or engine queue (R186, R187): the tokens filed, groups resolved skipped, and the tick of C. -/
structure Pending where
  t0 : Nat
  tokens : List Token := []
  skipped : List Nat := []
  close : Nat := 0
deriving DecidableEq, Repr

/-- What the operand loader found of a source (R189). -/
structure Loaded where
  src : Nat
  absent : Bool := false
  bad : Bool := false
  sat : Bool := false
  short : Bool := false
  skip : Bool := false
  offrate : Bool := false
  payload : Payload := {}
  /-- LANES of the entries that loaded it. -/
  lanes : Nat := 0
deriving DecidableEq, Repr

/-- A panel (R186 to R190). -/
structure Panel where
  asm : List Pending := []
  /-- T0 of the last instant released. -/
  released : Option Nat := none
  queue : List Pending := []
  /-- The instant taken from the queue, its operands, the time in ns from C to the end of its load, and whether its engine has started. -/
  taken : Option Pending := none
  /-- Committed window values when its engine started, by TARGET (R42, R204). -/
  wins : Tbl Nat := []
  loaded : List Loaded := []
  loadEnd : Nat := 0
  started : Bool := false
  /-- INST, modulo 256. -/
  inst : Nat := 0
  /-- Cells on the ring to it, in the order they were sent (R182). -/
  cells : List RingCell := []
  /-- Foreground cells discarded since the last instant's end: orphans of this one (R200). -/
  lost : Nat := 0
  /-- Dependence counters that have reached zero and not yet fired (R181). -/
  zero : List Nat := []
  doneSent : Bool := false
deriving DecidableEq, Repr

/-- The analytic fabric beyond its registers (R170 to R200). -/
structure Fab where
  tiles : Tbl Tile := []
  panels : Tbl Panel := []
  /-- The word a tile-window read was asked of (R199). -/
  twin : Option (Nat × Nat) := none
  /-- The tick from which scrub words fall due: the last full image load (R195, R197). -/
  scrubFrom : Nat := 0
deriving DecidableEq, Repr

/-- A column of the factor (R209): DINV and its entries of L in structure order. -/
structure SeCol where
  dinv : Int := 0
  l : List Phasor := []
deriving DecidableEq, Repr

/-- The outputs of a decided estimator instant (R212, R222): bus phasors, magnitudes and angles, and the PRED_ONLY buses. -/
structure SeOut where
  t0 : Nat
  v : List Phasor
  mag : List Int
  ang : List Nat
  pred : List Nat
deriving DecidableEq, Repr

/-- An estimator instance (R210 to R220). The shadow bank's channel modes are the active ones but for the requests taken. -/
structure SeInst where
  cols : List SeCol := []
  /-- Shadow copies of columns that differ from the active ones. -/
  shadow : Tbl (Option SeCol) := []
  k2 : List Int := []
  k2S : List Int := []
  /-- Channel modes (0 USED, 1 DROP_REQ, 2 DROPPED, 3 USE_REQ) and counts. -/
  modes : Tbl Nat := []
  cnt : Tbl Nat := []
  /-- Buses whose pseudo weight is in use, in each bank. -/
  psw : List Nat := []
  pswS : List Nat := []
  /-- The last scaled estimate, mean frequency and T0 (R212). -/
  xprev : List Phasor := []
  f : Int := 0
  t0 : Option Nat := none
  /-- Raw branch status, open or not, and the consecutive instants it has been open (R215). -/
  raw : Tbl (Bool × Nat) := []
  reqs : List Nat := []
  taken : List Nat := []
  /-- 0 IDLE, 1 RUN, 2 READY, 3 IMG (R218). -/
  refac : Nat := 0
  /-- The activation instant A of the partial image that IMG waits with, and whether its swap has taken effect. -/
  imgA : Nat := 0
  begun : Bool := false
  /-- Buses with a pseudo weight of zero whose column a refactorisation held at DINV 512, in each bank (R217). -/
  lone : List Nat := []
  loneS : List Nat := []
  goAt : Nat := 0
  /-- Pool entries of shadow copies, and of copies that a swap retired until its instant ends. -/
  used : Nat := 0
  retired : Nat := 0
  /-- A swap took effect at the start of the instant that runs. -/
  swapped : Bool := false
  /-- The last decided instants, latest first, at most eight. -/
  outs : List SeOut := []
  /-- Of the last instant: t of the channels tested, those substituted, the one corrected. -/
  t : Tbl Int := []
  subst : List Nat := []
  corr : Option Nat := none
  /-- Register values of the snapshots asked for (R224). -/
  busSnap : List (Nat × Nat) := []
  chanSnap : List (Nat × Nat) := []
deriving DecidableEq, Repr

/-- An edge of a floe instance (R231): its bond, hold count and last angle difference. -/
structure FloeEdge where
  bond : Bool := true
  hold : Nat := 0
  th : Nat := 0
deriving DecidableEq, Repr

/-- A floe engine instance (R226 to R237). -/
structure FloeInst where
  edges : Tbl FloeEdge := []
  /-- States of nodes (0 IN, 1 OUT, 2 ISL, 3 RET) with their counts. -/
  nodes : Tbl (Nat × Nat) := []
  /-- Nodes lit in the last decided instant, and its T0 unless the next instant is COLD. -/
  lit : List Nat := []
  t0 : Option Nat := none
  /-- Asserted conditions (0 ISLAND, 1 REF_MINOR, 2 REF_LOST), each with the class its entry named. -/
  conds : List (Nat × Nat) := []
  /-- Consecutive instants REF_MINOR has held, and has been absent. -/
  minHeld : Nat := 0
  minGone : Nat := 0
  /-- Labels of floes with ISL or RET nodes at the last instant. -/
  labels : List Nat := []
  /-- No instant has been decided since the content was loaded; and the activation of the bank last begun. -/
  fresh : Bool := true
  act : Option Nat := none
deriving DecidableEq, Repr

/-- A threshold monitor (R243, R244): state (0 NORMAL, 1 PEND, 2 ACTIVE, 3 RELEASE), count, last judged value, held in the last instant. -/
structure Monitor where
  state : Nat := 0
  cnt : Nat := 0
  v : Int := 0
  held : Bool := false
deriving DecidableEq, Repr

/-- What pass 1 of an instant gave (R245, R246): its T0, the monitors that asserted and released with their classes, how many were held, and
whether RESET entries went before it. -/
structure ThrRun where
  t0 : Nat
  ons : List (Nat × Nat)
  offs : List (Nat × Nat)
  held : Nat
  reset : Bool
deriving DecidableEq, Repr

/-- A threshold engine instance (R239 to R246): monitors by their number in the active map. -/
structure ThrInst where
  mons : Tbl Monitor := []
  /-- The instant whose pass 1 has been run. -/
  ran : Option ThrRun := none
  /-- Classes with active monitors, each with their number and the lowest monitor number, as of the last instant. -/
  active : List (Nat × Nat × Nat) := []
  fresh : Bool := true
  act : Option Nat := none
  snap : List (Nat × Nat) := []
deriving DecidableEq, Repr

/-- A signal of the oscillation engine (R258 to R260, R267): running mean once an input has been taken, unwrapped angle, samples
accumulated toward an advance, and availability. -/
structure OscSig where
  m : Int := 0
  started : Bool := false
  aprev : Nat := 0
  raw : Int := 0
  angled : Bool := false
  sum : Int := 0
  n : Nat := 0
  miss : Nat := 0
  warm : Nat := 0
  avail : Bool := false
  availPrev : Bool := false
  part : Bool := false
deriving DecidableEq, Repr

/-- A signal-band pair (R261, R265): filter stages, the output of the previous advance, energy, cross term, and outputs. -/
structure OscPair where
  y1 : Phasor := ⟨0, 0⟩
  y2 : Phasor := ⟨0, 0⟩
  bp : Phasor := ⟨0, 0⟩
  es : Int := 0
  sx : Phasor := ⟨0, 0⟩
  amp : Int := 0
  shape : Phasor := ⟨0, 0⟩
  coh : Int := 0
deriving DecidableEq, Repr

/-- A band (R263, R264, R266, R269). -/
structure OscBand where
  rxy : Phasor := ⟨0, 0⟩
  ryy : Int := 0
  rxx : Int := 0
  k : Int := 0
  f : Int := 0
  zeta : Int := 0
  q : Int := 0
  zmag : Int := 0
  aref : Int := 0
  track : Bool := false
  state : Nat := 0
  cnt : Nat := 0
  held : Bool := false
  /-- DAMP, AMP and GROW when last judged. -/
  cause : Nat := 0
deriving DecidableEq, Repr

/-- A signal group at run time, with the records it runs from (R258, R268). -/
structure OscGroup where
  recs : List Nat := []
  /-- Its record number, bands, signals and reference signal, and its bands' classes, as of those records. -/
  sg : Nat := 0
  firstBand : Nat := 0
  nBand : Nat := 0
  firstSig : Nat := 0
  nSig : Nat := 0
  ref : Nat := 0
  /-- WARM. -/
  need : Nat := 0
  classes : List Nat := []
  /-- T0 and index of the last advance, and the advance index that samples are accumulated for. -/
  advAt : Option Nat := none
  advN : Nat := 0
  accN : Nat := 0
  warm : Nat := 0
  sigs : Tbl OscSig := []
  /-- By band × 4,096 + signal, both numbered within the group. -/
  pairs : Tbl OscPair := []
  bands : Tbl OscBand := []
deriving DecidableEq, Repr

/-- An oscillation engine instance (R250): its groups by SG_ID, and watchers active when a full image load restarted their groups. -/
structure OscInst where
  groups : Tbl (Option OscGroup) := []
  /-- Signal group, band and class of each. -/
  old : List (Nat × Nat × Nat) := []
  snap : List (Nat × Nat) := []
deriving DecidableEq, Repr

/-- An open alarm instant (R280): the tick it opened, its entries in order of arrival, and whether its merge timeout has passed. -/
structure AlmInstant where
  t0 : Nat
  opened : Nat
  entries : List AlarmEntry := []
  late : Bool := false
deriving DecidableEq, Repr

/-- An alarm class beyond its register (R281, R282): its part-counts, the tick its hold timer ends, and the UtcTime of its last ASSERT or
RELEASE. -/
structure AlmClass where
  /-- Floe flags set: instance × 4 + condition. -/
  floe : List Nat := []
  /-- Active counts of threshold instances. -/
  thr : Tbl Nat := []
  osc : Nat := 0
  holdEnd : Nat := 0
  changed : List Byte := []
deriving DecidableEq, Repr

/-- A GOOSE template at run time beyond its registers (R284, R285): encoded members, t, and the tick of the next message. -/
structure GooseRun where
  vals : List Byte := []
  t : List Byte := []
  due : Nat := 0
deriving DecidableEq, Repr

/-- The alarm path beyond its registers (R277 to R290). -/
structure Alm where
  instants : List AlmInstant := []
  /-- T0 of the last merge, and of each instance's last MARK (floe 0 to 3, threshold 4 to 7, oscillation 8 to 11). -/
  merged : Option Nat := none
  marks : Tbl (Option Nat) := []
  classes : Tbl AlmClass := []
  goose : Tbl GooseRun := []
  /-- Merges use the pending ALARMS pattern (R283). -/
  onNew : Bool := false
  /-- The ALARMS body of a released bank, in use until the first merge with T0 ≥ A (R283). -/
  kept : Option (List Byte) := none
  /-- UtcTime of the load: what a class that has not changed since gives. -/
  loaded : List Byte := []
  /-- The host alarm queue, oldest first (R286). -/
  queue : List (List Byte) := []
deriving DecidableEq, Repr

/-- A record of the firn recorder (R337). -/
structure FirnRec where
  gen : Nat := 0
  /-- T80. -/
  pstart : Nat := 0
  count : Nat := 0
  sum : Int := 0
  min : Int := 0
  minT : Nat := 0
  max : Int := 0
  maxT : Nat := 0
  bins : Tbl Nat := []
deriving DecidableEq, Repr

/-- A value on its way to the firn recorder (R335): its quantity, itself and its sample time (T80). -/
structure FirnUpd where
  qty : Nat
  v : Int
  t : Nat
deriving DecidableEq, Repr

/-- The firn recorder beyond its registers (R335 to R339). -/
structure Firn where
  /-- Records by quantity × 6 + period × 2 + half. -/
  recs : Tbl FirnRec := []
  queue : List FirnUpd := []
  watch : Watch := {}
  /-- Records in the volatile map of poisoned records. -/
  vol : List Nat := []
  /-- UTC seconds of the last boundary each period turned over at. -/
  bound : Tbl Nat := []
  clrSeq : Nat := 0
deriving DecidableEq, Repr

/-- What one signal or item element gathered over the samples of a row (R328, R332). -/
structure CapStat where
  n : Nat := 0
  min : Int := 0
  max : Int := 0
  sum : Int := 0
  sq : Int := 0
  nsat : Nat := 0
  ninv : Nat := 0
  /-- OR of the flags of its samples, as bits 40 to 44 of an element. -/
  flags : Nat := 0
deriving DecidableEq, Repr

/-- A stored row (R326): instant (ns) and epoch, a step or re-phase since the row before, its elements, and what its samples gathered. -/
structure CapRow where
  t : Nat
  epoch : Nat
  step : Bool
  elems : List Nat
  stats : List CapStat
deriving DecidableEq, Repr

/-- A plan at run time beyond its registers (R331). -/
structure CapPlan where
  /-- Index of the current slot in the plan's range. -/
  slot : Nat := 0
  /-- Rows held, oldest first, and the instant of the newest that left the circular slot. -/
  rows : List CapRow := []
  left : Option Nat := none
  /-- Rows stored since arming, and the reduced row in progress with its samples so far. -/
  fill : Nat := 0
  part : Option (CapRow × Nat) := none
  /-- Of a record in POST: trigger and its instant, trigger row once stored, last row once known, further triggers, LATE_TRIG. -/
  trig : Nat := 0
  trigT : Nat := 0
  trow : Option Nat := none
  last : Nat := 0
  retrig : Nat := 0
  late : Bool := false
  /-- Counter step last seen, for STEP. -/
  seen : Option Nat := none
  /-- Rows of closed seams that wait to be written. -/
  waiting : List CapRow := []
  /-- Slots: 1 holds a record, 2 holds one that awaits spill. -/
  used : Tbl Nat := []
deriving DecidableEq, Repr

/-- A completed record that awaits spill (R334): plan, slot, first byte in capture memory, length and sequence number. -/
structure CapSpill where
  plan : Nat
  slot : Nat
  addr : Nat
  len : Nat
  seq : Nat
deriving DecidableEq, Repr

/-- The capture engine beyond its registers (R325 to R334). -/
structure Cap where
  /-- The 8 MiB capture memory. -/
  mem : List Host.Cell := []
  plans : Tbl CapPlan := []
  /-- LEVEL triggers: condition of the previous sample since arming, and the instant of a crossing not yet taken. -/
  prev : Tbl (Option Bool) := []
  due : Tbl (Option Nat) := []
  spill : List CapSpill := []
  seq : Nat := 0
deriving DecidableEq, Repr

/-- A zero-crossing detector (R303): armed, the sample before with its instant, crossings not yet written, the last crossing, and the
tick from which its timeout counts. -/
structure ZeroDet where
  armed : Bool := false
  prev : Option (Int × Nat) := none
  due : List Nat := []
  last : Option Nat := none
  since : Nat := 0
deriving DecidableEq, Repr

/-- A bay's running cycle (R302, R307): samples, sums of squares by signal, sums of p by phase, signals with an INVALID sample; and Q and S
of its elements in the last complete cycle. -/
structure Bay where
  n : Nat := 0
  sq : List Int := [0, 0, 0, 0, 0, 0, 0, 0]
  p : List Int := [0, 0, 0]
  inv : List Nat := []
  q : List Int := [0, 0, 0, 0]
  s : List Int := [0, 0, 0, 0]
deriving DecidableEq, Repr

/-- A pulse output (R310): residue, active level driven, and the tick of its last change. -/
structure Epo where
  residue : Nat := 0
  active : Bool := false
  since : Nat := 0
deriving DecidableEq, Repr

/-- The content of a save slot (R311): accumulators, EPO residues, snapshot time (T80), sequence number and kind. -/
structure Save where
  acc : Tbl Nat := []
  residues : List Nat := []
  t : Nat := 0
  seq : Nat := 0
  kind : Nat := 0
deriving DecidableEq, Repr

/-- The filter chain of a channel (R294): the CIC's integrators and comb delays (modulo 2^48), the last 31 CIC outputs and the last 87
halfband outputs, newest first, and the last bit of the bitstream with how many clocks it has been held. -/
structure Chain where
  int : List Nat := [0, 0, 0, 0]
  comb : List Nat := [0, 0, 0, 0]
  cic : List Int := []
  half : List Int := []
  last : Option Bool := none
  run : Nat := 0
deriving DecidableEq, Repr

/-- The station inputs beyond their registers (R291 to R317). -/
structure Stn where
  /-- By channel: its filter chain. -/
  chain : Tbl Chain := []
  /-- The last sample number k on the grid since the chain began or a step, and the tick at which the last sample left (R295, R300). -/
  lastK : Option Nat := none
  outAt : Nat := 0
  /-- By channel: its last five scaled samples, newest first, each with INVALID and SAT as bits 0 and 1 (R296, R297). -/
  hist : Tbl (List (Int × Nat)) := []
  /-- By channel: output samples left until MOD_LOSS clears, once the bitstream has moved (R293). -/
  moved : Tbl Nat := []
  /-- The bank being faded to, the next sample of the fade, and the content it uses (R298, R299). -/
  fadeTo : Nat := 0
  fadeAt : Nat := 0
  fadeBank : List Nat := []
  /-- By current: it has seen a sample above RS_RETURN in the cycle, and its run of cycles without one (R301). -/
  rsBad : Tbl Bool := []
  rsCnt : Tbl Nat := []
  bays : Tbl Bay := []
  zc : Tbl ZeroDet := []
  /-- Instant (ns) of the last sample, and of the first since the chain began. -/
  lastT : Nat := 0
  firstT : Option Nat := none
  /-- Instants of the last second at which something marked a sample, newest first: INVALID and SAT by signal (bits 0 to 15 and 16 to 31),
  a re-phase (bit 32) or a step of the counter (bit 33). -/
  marks : List (Nat × Nat) := []
  /-- T0 of the last local synchrophasor item (R304). -/
  pmuT : Option Nat := none
  /-- The 64 accumulators, by 32 × bay + 8 × element + k (R307). -/
  acc : Tbl Nat := []
  epo : Tbl Epo := []
  /-- The two save slots and the save that runs: its slot and content (R311). -/
  slot0 : Save := {}
  slot1 : Save := {}
  save : Option (Nat × Save) := none
  saveAt : Nat := 0
deriving DecidableEq, Repr

/-- The scan that runs (R319): its AUXSEQ body, entry, conversions done with their sum, and the end of its first acquisition (T80). -/
structure AuxRun where
  body : List Byte
  entry : Nat
  n : Nat := 0
  sum : Nat := 0
  t : Nat := 0
deriving DecidableEq, Repr

/-- The auxiliary ADC beyond its registers (R318 to R321). -/
structure Aux where
  run : Option AuxRun := none
  /-- First entry of the held start. -/
  held : Option Nat := none
  /-- Urgent requests that wait, oldest first, and the input of the urgent conversion that runs. -/
  urgent : List Nat := []
  urg : Option Nat := none
  /-- Tick at which the conversion that runs began. -/
  since : Nat := 0
  /-- Tick of the last continuous start. -/
  contAt : Nat := 0
deriving DecidableEq, Repr

/-- A token on its way to the dispatcher (R351): thread, port, value, and its source code of R360 with the posting core. -/
structure Post where
  thread : Nat
  port : Nat
  value : Nat
  src : Nat
  core : Nat := 0
deriving DecidableEq, Repr

/-- A thread (R357): 0 IDLE, 1 READY, 2 SLOTTED, 3 RUNNING; the tokens filed by port, and the values its activation holds. -/
structure Thread where
  state : Nat := 0
  filed : Tbl (Option Nat) := []
  act : List Nat := []
deriving DecidableEq, Repr

/-- A core as the dispatcher and its device-specific CSRs see it (R345, R346, R354): slotted thread, whether the slot is valid and the
buffer its copy goes to, running thread and the buffer of the last one taken, values latched at `dtake`, and its timer and software
interrupts. -/
structure Core where
  slot : Option Nat := none
  valid : Bool := false
  running : Option Nat := none
  buf : Nat := 1
  dtok : BitVec 64 := 0
  dentry : BitVec 64 := 0
  mtickcmp : BitVec 64 := 0xFFFFFFFFFFFFFFFF
  mtip : Bool := false
  msip : Bool := false
deriving DecidableEq, Repr

/-- A trace entry before its LAP is known (R360). -/
structure Trace where
  w0 : Nat
  value : Nat
  ns : Nat
  sec : Nat
deriving DecidableEq, Repr

/-- The thread dispatcher and the cores beyond their registers (R343 to R361). -/
structure Disp where
  threads : Tbl Thread := []
  /-- Ready lists by priority, each from its head. -/
  ready : Tbl (List Nat) := []
  cores : Tbl Core := []
  /-- The external intake. -/
  intake : List Post := []
  watch : Watch := {}
  /-- The core post buffer, and posts of cores that it stalls. -/
  posts : List Post := []
  stalled : List Post := []
  /-- Threads a cancel named in the tick `cancelT` while they were IDLE. -/
  cancels : List Nat := []
  cancelT : Nat := 0
  /-- The tick a job's counter last reached zero, by job. -/
  zeroT : Tbl Nat := []
  trace : List Trace := []
  traceLost : Nat := 0
  /-- ILM and DLM, by 65,536 × core + byte (R344). -/
  ilm : List Host.Cell := []
  dlm : List Host.Cell := []
deriving DecidableEq, Repr

/-- An item waiting to be sent as a DATA cell (R370): its addressed devices and its 192-byte payload. -/
structure NdkOut where
  dst : Nat
  payload : List Byte
deriving DecidableEq, Repr

/-- A cell of the retransmit store (R370): sequence number, devices that have not acknowledged it, sends so far, tick of the next
send, and the cell. -/
structure NdkSent where
  seq : Nat
  left : Nat
  sends : Nat
  due : Nat
  cell : List Byte
deriving DecidableEq, Repr

/-- What the device holds for another device of the ring (R370, R371, R375). -/
structure NdkPeer where
  /-- Highest data sequence delivered, while there is one, and the window below it. -/
  high : Option Nat := none
  win : BitVec 64 := 0
  /-- Last control sequence accepted. -/
  ctl : Option Nat := none
  /-- Cells delivered since the last acknowledgement, and the tick at which an acknowledgement is due. -/
  news : Nat := 0
  ackDue : Option Nat := none
  /-- Tick of the last cell from it. -/
  heard : Nat := 0
  /-- SERIAL and stNum of its last STATUS cells; ACTIVE of its last one. -/
  serial : Option Nat := none
  stnum : Tbl Nat := []
  active : Bool := false
deriving DecidableEq, Repr

/-- The Noduko link beyond its registers (R364 to R376). -/
structure Ndk where
  /-- The DATA queue (R370). -/
  txq : List NdkOut := []
  /-- The retransmit store, oldest first. -/
  store : List NdkSent := []
  /-- Last data and control sequence numbers used. -/
  dataSeq : Nat := 0
  ctlSeq : Nat := 0
  peers : Tbl NdkPeer := []
  /-- Tick at which each lane's receiver came up, plus one. -/
  upAt : Tbl Nat := []
  /-- Tick of the last POLL seen (R369). -/
  lastPoll : Nat := 0
  /-- The master's round is out since this tick (R368). -/
  round : Option Nat := none
  /-- The master the last POLL or the own rise named, while there is one (R369). -/
  master : Option Nat := none
  /-- The next STATUS carries templates 32 to 63. -/
  tbase : Bool := false
  /-- Tick of the last TIME cell sent (R372). -/
  timeAt : Nat := 0
  /-- Tick of the image load, and whether R375 has given the first state since. -/
  loadAt : Nat := 0
  decided : Bool := true
  /-- ACTIVE_SINCE, T80. -/
  since : Nat := 0
  /-- TAKE goes out in the next STATUS. -/
  take : Bool := false
deriving DecidableEq, Repr

/-- A sensor's timing beyond its registers (R383 to R391). -/
structure Sensor where
  /-- Reference instant, ns of the counter, and the epoch it was set in. -/
  tref : Nat := 0
  epoch : Nat := 0
  /-- Epoch of the last window: a change makes the next window four times as wide (R384). -/
  winEpoch : Nat := 0
  /-- Superframe before which a wake-up is due (R390). -/
  wakeIn : Option Nat := none
  /-- Superframe whose slot is a recovery slot (R390). -/
  recovery : Option Nat := none
  /-- Superframe of the last slot with a frame that passed order 4 (R386, R389). -/
  heard : Option Nat := none
  /-- Superframe of the last slot that counted as a miss. -/
  missed : Option Nat := none
deriving DecidableEq, Repr

/-- A downlink frame in the transmit queue (R392): sensor, MHR and plaintext payload, and sends so far. -/
structure Downlink where
  sensor : Nat
  data : List Byte
  sends : Nat := 0
deriving DecidableEq, Repr

/-- An acknowledgement due (R387): the tick it starts at, sensor, key and its slot, e, the sequence number if any, the slot's nominal
instant, and whether its frame was accepted. -/
structure RadioAck where
  due : Nat
  sensor : Nat
  key : List Byte
  keyId : Nat
  err : Int
  seq : Option Nat
  tnom : Nat
  accepted : Bool
deriving DecidableEq, Repr

/-- The line-sensor radio beyond its registers (R378 to R395). -/
structure Radio where
  sensors : Tbl Sensor := []
  txq : List Downlink := []
  ack : Option RadioAck := none
  /-- A downlink frame for this sensor starts at this tick (R392). -/
  down : Option (Nat × Nat) := none
  /-- The sensor's acknowledgement of a downlink frame is awaited until this tick. -/
  await : Option (Nat × Nat) := none
  /-- First superframe not yet started, and the last two started. -/
  next : Nat := 0
  started : List Nat := []
  /-- End of the last reception or transmission, ns of the counter. -/
  busy : Nat := 0
  /-- Start and end of the last transmission, ns of the counter (R395). -/
  txFrom : Nat := 0
  txTo : Nat := 0
  /-- UTC hour of RADIO_DUTY_USED (R393). -/
  hour : Int := 0
  /-- Receive queue: head index and entries held (R388). -/
  rxHead : Nat := 0
  rxCount : Nat := 0
  watch : Watch := {}
  /-- Levels of FEM_ANTSEL and FEM_BAND (R395). -/
  antsel : Bool := false
  band : Bool := false
  /-- BKBIND, then each sensor's KBIND, of the last RADIO pattern (R394). -/
  binds : List Nat := []
deriving DecidableEq, Repr

/-- A key-store slot beyond its header words (R399 to R402): its material in plaintext, the root its tag was formed under, whether its
stored record was damaged since, and the result of the last tag verification. `slotRecord` gives the encrypted form of R400. -/
structure KeySlot where
  material : List Byte := []
  sealedBy : Nat := 0
  damaged : Bool := false
  tagOk : Bool := false
deriving DecidableEq, Repr

/-- A life-cycle migration under way (R413): target state, the mailbox whose command it completes, and the tick it started. -/
structure Migration where
  target : Nat
  mbx : Nat
  since : Nat
deriving DecidableEq, Repr

/-- The open window of a verified CLEAR_STATS (R422): the tick it opened, PERIODS, and the writes it still permits. -/
structure StatsWindow where
  since : Nat
  periods : Nat
  firn : Bool
  energy : Bool
deriving DecidableEq, Repr

/-- The key store beyond its registers (R399 to R428). -/
structure Key where
  /-- Slots 1 to 63. -/
  slots : Tbl KeySlot := []
  /-- The four roots; 0 is a zeroed root (R411). -/
  roots : Tbl Nat := []
  /-- The current nonce of each mailbox, with the tick it was issued (R421). -/
  nonces : Tbl (Option (List Byte × Nat)) := []
  migr : Option Migration := none
  /-- First 32 bytes of the digest of the running firmware object (R423). -/
  fwDigest : List Byte := []
  /-- By engine: withdrawn keys that an operation in hand still finishes with (R409), as (slot, material). -/
  late : Tbl (List (Nat × List Byte)) := []
  /-- Tick at which a verified TIME_REARM opened its window, while open (R61, R422). -/
  rearmAt : Option Nat := none
  statsAt : Option StatsWindow := none
  /-- A tamper while the compute die was off waits to be raised at the next POR (R415). -/
  tamperDue : Bool := false
  /-- The reset sequence that runs found a loss of the battery supply, to be raised at its end (R415). -/
  batDue : Bool := false
  /-- Tick of the last verification of every tag, from which the hourly one is due (R402). -/
  sweptAt : Nat := 0
deriving DecidableEq, Repr

/-- A pending fault injection (R435). -/
structure Inject where
  source : Nat
  /-- Two bits inverted (uncorrectable) rather than one. -/
  double : Bool
  left : Nat
deriving DecidableEq, Repr

/-- The fault collector beyond its registers (R430 to R435). -/
structure Flt where
  inject : Option Inject := none
  /-- Level sources whose condition holds, each with the INFO of its onset (R429, R431). -/
  levels : Tbl Nat := []
  /-- What checkers find in storage during the command that runs: by source, and for source 0 by 96 + 8 × seam source + way (the model's own
  field, set only within a command). -/
  found : Tbl MemErr := []
deriving DecidableEq, Repr

/-- Operating states (R442). HOLD also stands for the battery-domain-only condition after a supply fall (R445). -/
inductive Power | run | park | hold
deriving DecidableEq, Repr

/-- Resets, power states and supply (R438 to R447). -/
structure Pwr where
  state : Power := .run
  /-- The move in progress. -/
  moving : Option Power := none
  /-- A request held during VERIFY or a migration (R442). -/
  held : Option Power := none
  /-- The reset sequence in progress (R438, R439). -/
  seq : Option ResetKind := none
  /-- Ticks counted by the watchdog since its period last restarted (R440). -/
  wdtTicks : Nat := 0
  /-- Junction temperature stood above PWR_TEMP_WARN when last measured (R447). -/
  hot : Bool := false
  /-- DDR5 channel trained and in service (R439). -/
  ddr0 : Bool := false
  ddr1 : Bool := false
  /-- Installed size of each channel, in units of 256 MiB (R455, R472). -/
  size0 : Nat := 0
  size1 : Nat := 0
  /-- What the parts that run through WDT, SOFT and LINK resets hold (R441), by the register that shows it: port status, mains angle state,
  MOD_LOSS and NOLOAD. -/
  thru : Tbl Nat := []
  /-- The supply monitor's SUPWARN (R446). -/
  supLow : Bool := false
deriving DecidableEq, Repr

/-- The JTAG instructions (R470). -/
inductive JtagIr | bypass | idcode | samplePreload | extest | clamp | highz
deriving DecidableEq, Repr

/-- A host completion ring beyond its registers (R457): the configuration applied at its enable, entries written since its pending bit
was last cleared, and the tick of the first such entry. -/
structure HostRing where
  base : Nat := 0
  log2n : Nat := 0
  wb : Nat := 0
  since : Nat := 0
  firstAt : Nat := 0
deriving DecidableEq, Repr

/-- A register write that takes effect at the return to RUN (R453). -/
structure ParkedWrite where
  who : Party
  addr : Nat
  value : Word
deriving DecidableEq, Repr

/-- The host interface beyond its registers (R452 to R470). -/
structure Hq where
  linkUp : Bool := false
  bme : Bool := false
  d3hot : Bool := false
  msixEn : Bool := false
  /-- Pending-bit array of the 68 vectors (R456). -/
  pba : BitVec 68 := 0
  ring0 : HostRing := {}
  ring1 : HostRing := {}
  /-- Device queue of seam tokens, oldest first (R460). -/
  seamQ : List (List Byte) := []
  seamWatch : Watch := {}
  almWatch : Watch := {}
  uartRx : List Byte := []
  uartTx : List Byte := []
  /-- A firmware flash command is in progress (R467). -/
  qspiBusy : Bool := false
  /-- The flash command in hand: HQ_QSPI_CTRL as its GO wrote it (R467). -/
  qspiCtrl : Nat := 0
  /-- The index an I2C write set (R468). -/
  i2cIndex : Nat := 0
  /-- JTAG instruction in force, and the boundary register EXTEST and CLAMP drive from (R470). -/
  jtagIr : JtagIr := .idcode
  boundary : List Bool := []
  /-- Cores halted by the debug module (R470). -/
  halted : List Nat := []
  /-- Writes to clock-gated blocks made in PARK, oldest first (R453). -/
  parked : List ParkedWrite := []
deriving DecidableEq, Repr

/-- The state of the device. -/
structure State where
  /-- The register file: the value of each register by its BAR0 offset; an unlisted register holds its reset value. -/
  regs : Tbl RegVal := []
  /-- Holding registers of R7, by register and party. -/
  hold : Tbl Nat := []
  /-- Held LO writes of R7, by register and party. -/
  heldLo : Tbl (Option Nat) := []
  img : Img := {}
  fldl : Fldl := {}
  time : Time := {}
  flt : Flt := {}
  pwr : Pwr := {}
  eth : Eth := {}
  hq : Hq := {}
  key : Key := {}
  dec : Dec := {}
  seam : SeamSt := {}
  fab : Fab := {}
  /-- Estimator instances. -/
  se : Tbl SeInst := []
  /-- Floe and threshold engine instances. -/
  floe : Tbl FloeInst := []
  thr : Tbl ThrInst := []
  /-- Oscillation engine instances. -/
  osc : Tbl OscInst := []
  alm : Alm := {}
  disp : Disp := {}
  stn : Stn := {}
  aux : Aux := {}
  cap : Cap := {}
  firn : Firn := {}
  ndk : Ndk := {}
  radio : Radio := {}
  /-- DDR5, one linear address space (R455). -/
  ddr : List Host.Cell := []
  /-- Shared SRAM, by core address minus 0x1000_0000 (R344). -/
  sram : List Host.Cell := []
  /-- Outputs of the last command (the model's own field). -/
  out : List Output := []
  /-- Counter of free values drawn (the model's own field). -/
  draws : Nat := 0
  /-- The commands waiting, first in, first out. -/
  pending : List Instr := []
deriving DecidableEq, Repr

/-- The device right after a POR is recognised (R438, R439, R441): its reset sequence runs, every register stands at its reset value,
nothing is stored in any memory, and no command waits. -/
def State.reset : State := { pwr := { seq := some .por } }

end Sys2Proof.Machine
end

