-- ==== Sys2Proof/Machine/Ops.lean ====
section
/-! DEFINITION. The shared operations: the register file, events and interrupts (R436, R437, R456), faults (R430 to R435), the
counter's time, features (R44), image patterns (R30, R37), memories and free values. -/
namespace Sys2Proof.Machine
open Sys2Proof

/-! ## The register file -/

/-- The offered feature set on stepping A1, by word (R43). -/
def featOffer : List Nat := [0x03FF1FFF, 0x0F3F001F, 0x03010707, 0, 0, 0, 0, 0]

/-- Reset values other than zero (the Reset column of the register tables). -/
def regReset (off : Nat) : RegVal :=
  if off < 0x20 then BitVec.ofNat 80 (featOffer.getD (off / 4) 0)
  else if off = Reg.FEAT_ID then 0xA19160
  else if off = Reg.FEAT_FLDL_VER then 0x100
  else if off = Reg.TIME_INC then 0x400000000
  else if off = Reg.TIME_SLEW_INC then 0x400000000
  else if off = Reg.TIME_INC_RUN then 0x400000000
  else if off = Reg.TIME_SVO_ERR then 0xFFFFFFFF
  else if off = Reg.TIME_EST_ERR then 0xFFFFFFFF
  else if off = Reg.TIME_QUAL then 0xF
  else if off = Reg.TIME_HOLD_DRIFT then 100
  else if off = Reg.TIME_ERR_LIMIT then 1000
  else if 0x400210 ≤ off && off < 0x4002C0 && off % 32 = 16 then 0x10000
  else if off = Reg.DISP_CORE_RUN then 1
  else if off = Reg.DISP_XQ_STATUS then 0x80
  else if off = Reg.NDK_TIME_ERR then 0xFFFFFFFF
  else if off = Reg.PWR_RESET_CAUSE then 1
  else if off = Reg.PWR_SUPMON_CFG then 0x02EE0352
  else if off = Reg.PWR_TEMP_WARN then (if Config.gradeE then 400 else 360)
  else if off = Reg.PWR_TEMP_CRIT then (if Config.gradeE then 440 else 400)
  else if off = Reg.HQ_SEAM_CFG then 1000
  else if off = Reg.HQ_UART_CFG then 136
  else if 0x1A08000 ≤ off && off < 0x1A08440 && off % 16 = 12 then 1
  else if off = Reg.KEY_SLOT_HDR 0 0 then 0x1E609
  else if Reg.KEY_UID 0 ≤ off && off ≤ Reg.KEY_UID 3 then
    BitVec.ofNat 80 (Config.uid.toNat / 2 ^ (8 * (off - Reg.KEY_UID 0)) % 2 ^ 32)
  else 0

/-- The value of the register at `off`. -/
def State.reg (s : State) (off : Nat) : RegVal := Tbl.get s.regs off (regReset off)

/-- The register at `off` as a number. -/
def State.rn (s : State) (off : Nat) : Nat := (s.reg off).toNat

/-- The register at `off` given a value. -/
def State.setReg (s : State) (off v : Nat) : State :=
  { s with regs := Tbl.set s.regs off (BitVec.ofNat 80 v) (regReset off) }

/-- The registers from `lo` below `hi` given their reset values. -/
def State.clearRegs (s : State) (lo hi : Nat) : State := { s with regs := s.regs.filter fun (e : Nat × RegVal) => e.1 < lo || hi ≤ e.1 }

/-- A field of a register. -/
def State.rf (s : State) (off lo len : Nat) : Nat := fld (s.rn off) lo len

/-- A field of a register given a value. -/
def State.setF (s : State) (off lo len x : Nat) : State := s.setReg off (putFld (s.rn off) lo len x)

/-- One bit of a register. -/
def State.bit (s : State) (off i : Nat) : Bool := s.rf off i 1 = 1

/-- A 48-bit counter raised by `n`, modulo 2^48 (R49). -/
def State.countBy (s : State) (off n : Nat) : State := s.setReg off ((s.rn off + n) % 2 ^ 48)

/-- A 48-bit counter raised by 1. -/
def State.count (s : State) (off : Nat) : State := s.countBy off 1

/-- Words of a register array written from index 0, stride 4. -/
def State.setWords (s : State) (off : Nat) (ws : List Nat) : State :=
  match ws with
  | [] => s
  | w :: t => (s.setReg off (w % 2 ^ 32)).setWords (off + 4) t

/-- What a part that runs through WDT, SOFT and LINK resets holds (R441), named by the register that shows it. -/
def State.thru (s : State) (off : Nat) : Nat := Tbl.get s.pwr.thru off 0

/-- One bit of it. -/
def State.thruBit (s : State) (off i : Nat) : Bool := fld (s.thru off) i 1 = 1

/-- It changes, and its register shows it. -/
def State.setThru (s : State) (off v : Nat) : State :=
  ({ s with pwr := { s.pwr with thru := Tbl.set s.pwr.thru off v 0 } }).setReg off v

/-- A field of it changes. -/
def State.setThruF (s : State) (off lo len x : Nat) : State := s.setThru off (putFld (s.thru off) lo len x)

/-- Words of a register array. -/
def State.words (s : State) (off n : Nat) : List Nat :=
  match n with
  | 0 => []
  | k + 1 => s.rn off :: s.words (off + 4) k

/-! ## Outputs and free values -/

/-- The state before a command, with the last command's outputs gone. -/
def State.quiet (s : State) : State := { s with out := [] }

/-- One more output. -/
def State.emit (s : State) (o : Output) : State := { s with out := s.out ++ [o] }

/-- The next free value, `w` bits wide. -/
def State.draw (s : State) (w : Nat) : BitVec w := Config.free w s.draws

/-- The state after a free value was drawn. -/
def State.drawn (s : State) : State := { s with draws := s.draws + 1 }

/-! ## Time (R52, R5) -/

/-- A T80 value from seconds and nanoseconds. -/
def t80 (sec ns : Nat) : Nat := 2 ^ 32 * (sec % 2 ^ 48) + ns % 2 ^ 32

/-- A T80 value from nanoseconds since the epoch. -/
def t80OfNs (n : Nat) : Nat := t80 (n / 1000000000) (n % 1000000000)

/-- Nanoseconds since the epoch of a T80 value. -/
def nsOfT80 (v : Nat) : Nat := 1000000000 * (v / 2 ^ 32) + v % 2 ^ 32

/-- The counter in whole nanoseconds since the PTP epoch. -/
def State.nowNs (s : State) : Nat := 1000000000 * s.time.sec.toNat + s.time.ns.toNat

/-- The counter as T80. -/
def State.nowT80 (s : State) : Nat := t80 s.time.sec.toNat s.time.ns.toNat

/-- TIME_STATE.EPOCH. -/
def State.epoch (s : State) : Nat := s.rf Reg.TIME_STATE 10 2

/-- The UTC offset in seconds, signed (R55). -/
def State.utcOfs (s : State) : Int := sInt 16 (s.rf Reg.TIME_UTCOFS 0 16)

/-- UTC nanoseconds (R55): the counter less the offset. -/
def State.utcNs (s : State) : Int := (s.nowNs : Int) - 1000000000 * s.utcOfs

/-! ## Features (R43, R44) -/

/-- Feature `n` is accepted. -/
def State.feat (s : State) (n : Nat) : Bool := s.bit (Reg.FEAT_ACC (n / 32)) (n % 32)

/-! ## Events and their delivery (R436, R437, R456) -/

/-- Event `n` raised: its pending bit sets. -/
def State.raise (s : State) (n : Nat) : State := s.setF (Reg.FLT_EVT_PEND (n / 32)) (n % 32) 1 1

/-- Event `n` pending. -/
def State.evPending (s : State) (n : Nat) : Bool := s.bit (Reg.FLT_EVT_PEND (n / 32)) (n % 32)

/-- Some event below `n` is pending with a route that passes `p`. -/
def State.anyEvent (s : State) (p : Nat → Bool) : Nat → Bool
  | 0 => false
  | k + 1 => (s.evPending k && p (s.rn (Reg.FLT_EVT_ROUTE k))) || s.anyEvent p k

/-- MEIP of core `k` (R437). -/
def State.meip (s : State) (k : Nat) : Bool := s.anyEvent (fun r => fld r 1 1 = 1 && fld r 2 3 = k) 128

/-- MSI-X is in use (R437): feature 89 accepted and MSI-X Enable set. -/
def State.msixInUse (s : State) : Bool := s.feat 89 && s.hq.msixEn

/-- The condition of vector `v`: routed events (R437) below 64, the direct conditions of R456 above. -/
def State.vector (s : State) (v : Nat) : Bool :=
  if v < 64 then s.anyEvent (fun r => fld r 0 1 = 1 && fld r 8 6 = v) 128
  else if v = 64 then s.bit Reg.FLDL_STATUS 1 && s.bit Reg.FLDL_CFG 8
  else if v = 65 then s.bit Reg.HQ_RING_PEND 0 && s.bit Reg.HQ_IRQ_EN 0
  else if v = 66 then s.bit Reg.HQ_RING_PEND 1 && s.bit Reg.HQ_IRQ_EN 1
  else decide (s.rf Reg.HQ_ATTN 0 3 ≠ 0) && s.bit Reg.HQ_IRQ_EN 2

/-- INT_N is driven low (R437, R456): MSI-X is not in use and a host-routed event or a direct condition holds. -/
def State.intLow (s : State) : Bool :=
  !s.msixInUse && (s.anyEvent (fun r => fld r 0 1 = 1) 128 || s.vector 64 || s.vector 65 || s.vector 66 || s.vector 67)

/-- FAULT_N is driven low (R434): a sticky bit is set, or the device is held in POR or PIN reset. -/
def State.faultLow (s : State) : Bool :=
  s.rn (Reg.FLT_STICKY 0) ≠ 0 || s.rn (Reg.FLT_STICKY 1) ≠ 0 || s.rn (Reg.FLT_STICKY 2) ≠ 0 ||
    s.pwr.seq = some .por || s.pwr.seq = some .pin

/-- Host DMA runs (R454): link up, Bus Master Enable set, not in D3hot. -/
def State.dmaOn (s : State) : Bool := s.hq.linkUp && s.hq.bme && !s.hq.d3hot

/-- The message of vector `v`, from its table entry. -/
def State.msixMsg (s : State) (v : Nat) : Output :=
  .msix v (s.rn (Reg.HQ_MSIX_TABLE (4 * v)) + 2 ^ 32 * s.rn (Reg.HQ_MSIX_TABLE (4 * v + 1))) (s.rn (Reg.HQ_MSIX_TABLE (4 * v + 2)))

/-- Vector `v` may be sent now: MSI-X in use, the entry not masked, DMA running. -/
def State.msixOpen (s : State) (v : Nat) : Bool :=
  s.msixInUse && !s.bit (Reg.HQ_MSIX_TABLE (4 * v + 3)) 0 && s.dmaOn

/-- What the vectors below `n` do between `s0` and `s1`: messages sent, and the pending-bit array after them. A vector whose
condition rises is sent, or held pending where it may not be sent; a held vector is sent when it may be and its condition still
holds, and is forgotten when its condition has gone. -/
def vectorsStep (s0 s1 : State) : Nat → List Output × BitVec 68
  | 0 => ([], s1.hq.pba)
  | v + 1 =>
    let (os, pba) := vectorsStep s0 s1 v
    let due := s1.msixInUse && s1.vector v && (!(s0.msixInUse && s0.vector v) || pba.getLsbD v)
    if due && s1.msixOpen v then (os ++ [s1.msixMsg v], pba &&& ~~~(1#68 <<< v))
    else if due then (os, pba ||| (1#68 <<< v))
    else (os, pba &&& ~~~(1#68 <<< v))

/-- The interrupt messages that follow from a command: `s0` before it, `s1` after it (R437, R454, R456). -/
def settle (s0 s1 : State) : State :=
  { s1 with out := s1.out ++ (vectorsStep s0 s1 68).1, hq := { s1.hq with pba := (vectorsStep s0 s1 68).2 } }

/-- A command whose effect is `f`: it always completes. -/
def done (f : State → State) (s : State) : Host.Outcome State Fault Refusal := .next (settle s (f s.quiet))

/-- The compute die works: powered and out of reset (R439, R442). -/
def State.alive (s : State) : Bool := s.pwr.state ≠ .hold && s.pwr.seq = none

/-- What runs through WDT, SOFT and LINK resets works: the time domain, the mixed-signal die, pin drivers and links (R441). -/
def State.ticking (s : State) : Bool := s.pwr.state ≠ .hold && s.pwr.seq ≠ some .por && s.pwr.seq ≠ some .pin

/-- A command with effect `f` on a part that works only while the compute die does. -/
def live (f : State → State) (s : State) : Host.Outcome State Fault Refusal := done (fun s => if s.alive then f s else s) s

/-- A command with effect `f` on a part that runs through WDT, SOFT and LINK resets. -/
def running (f : State → State) (s : State) : Host.Outcome State Fault Refusal := done (fun s => if s.ticking then f s else s) s

/-! ## Faults (R430 to R435) -/

/-- Source `n` has a checker (R429, R435). -/
def hasChecker (n : Nat) : Bool :=
  n ≤ 4 || n = 16 || n = 17 || n = 20 || n = 21 || (24 ≤ n && n ≤ 27) || n = 32 || n = 33 || (44 ≤ n && n ≤ 49)

/-- Source `n` is a parity source (R429). -/
def isParity (n : Nat) : Bool := n = 20 || n = 26 || n = 27

/-- Source `n` is a level source (R429). -/
def isLevel (n : Nat) : Bool := n = 5 || n = 28 || (34 ≤ n && n ≤ 42)

/-- Source `n` is defined (R429). -/
def isSource (n : Nat) : Bool :=
  n ≤ 5 || (16 ≤ n && n ≤ 21) || (24 ≤ n && n ≤ 28) || (32 ≤ n && n ≤ 42) || (44 ≤ n && n ≤ 49)

/-- Source `n`'s sticky bit. -/
def State.sticky (s : State) (n : Nat) : Bool := s.bit (Reg.FLT_STICKY (n / 32)) (n % 32)

/-- The record of source `n` written (R430). Where the collector's record memory fails (`noRec`), it reads with VALID = 0 and NOREC = 1,
and what else that memory holds is open (R432). -/
def State.writeRec (s : State) (n info : Nat) (inj noRec : Bool) : State :=
  if noRec then
    let s := (s.setReg (Reg.FLT_REC_T n) (s.draw 80).toNat).drawn
    (s.setReg (Reg.FLT_REC_INFO n) (2 ^ 28 + (s.draw 24).toNat)).drawn
  else
    let s := s.setReg (Reg.FLT_REC_T n) s.nowT80
    s.setReg (Reg.FLT_REC_INFO n) (2 ^ 31 + (info % 2 ^ 24 + (if inj then 2 ^ 29 else 0)))

/-- The first detection of source `n` (R430), all but the source's counter. -/
def State.firstFault (s : State) (n info : Nat) (inj noRec : Bool) : State :=
  let s := s.setF (Reg.FLT_STICKY (n / 32)) (n % 32) 1 1
  let s := s.writeRec n info inj noRec
  let s := if s.bit Reg.FLT_FIRST 31 then s else s.setReg Reg.FLT_FIRST (2 ^ 31 + n)
  s.raise 120

/-- A detection of source `n` (R430, R431), whose record the collector's memory may fail to take (R432). -/
def State.detectRec (s : State) (n info : Nat) (inj noRec : Bool) : State :=
  let s := s.count (Reg.FLT_SRC_CNT n)
  if s.sticky n then
    let s := s.setF (Reg.FLT_REC_INFO n) 30 1 1
    if inj then s.setF (Reg.FLT_REC_INFO n) 29 1 1 else s
  else s.firstFault n info inj noRec

/-- A detection of source `n` whose record is written (R430, R431). -/
def State.detect (s : State) (n info : Nat) (inj : Bool) : State := s.detectRec n info inj false

/-- What the check itself finds, without what befalls its handling. -/
def errFound : MemErr → MemErr
  | .ok => .ok
  | .ce | .ceAgain => .ce
  | .ue | .ueAgain | .ueNoRec => .ue

/-- An uncorrectable error is met while the handling runs (R432). -/
def errAgain (e : MemErr) : Bool := e = .ceAgain || e = .ueAgain

/-- What source `n`'s checker reports where storage gives `err`, and whether an injection altered the check (R435). -/
def State.injected (s : State) (n : Nat) (err : MemErr) : MemErr × Bool :=
  match s.flt.inject with
  | some i =>
    if i.source = n then
      ((match errFound err with
        | .ue => .ue
        | _ => if i.double || isParity n then .ue else if errFound err = .ce then .ue else .ce), true)
    else (errFound err, false)
  | none => (errFound err, false)

/-- The injection after one check by source `n`'s checker (R435). -/
def State.injectionUsed (s : State) (n : Nat) : State :=
  match s.flt.inject with
  | some i =>
    if i.source = n then
      if i.left ≤ 1 then
        (({ s with flt := { s.flt with inject := none } }).setF Reg.FLT_INJ_STATUS 8 8 0).raise 127
      else ({ s with flt := { s.flt with inject := some { i with left := i.left - 1 } } }).setF Reg.FLT_INJ_STATUS 8 8 (i.left - 1)
    else s
  | none => s

/-- One check by source `n`'s checker that finds `err`: the error it reports, after a pending injection, and the state with a fault
detected where it is uncorrectable. An error met while the handling runs is one more detection of the same source (R432). -/
def State.check (s : State) (n info : Nat) (err : MemErr) : MemErr × State :=
  let r := s.injected n err
  let t := if r.1 = .ue then s.detectRec n info r.2 (err = .ueNoRec) else s
  (r.1, (if errAgain err then t.detect n info false else t).injectionUsed n)

/-- A check by source `n`'s checker of the storage the running command reads, with what the command says it finds (R429). -/
def State.checkFound (s : State) (n info : Nat) : MemErr × State := s.check n info (Tbl.get s.flt.found n .ok)

/-- A command run with what checkers find during it. -/
def withErrs (errs : Tbl MemErr) (f : State → State) (s : State) : State :=
  let t := f { s with flt := { s.flt with found := errs } }
  { t with flt := { t.flt with found := [] } }

/-- Traffic crosses the die-to-die bridge, into the compute die (`into` 0) or the mixed-signal die (1), and the receiving die's check of its
flit finds `err` (R12, R429). -/
def State.crossing (s : State) (into : Nat) (err : MemErr) : State := (s.check 4 into err).2

/-! ## Image patterns (R30, R36, R37) -/

/-- 32-bit word `i` of a pattern body. -/
def word (b : List Byte) (i : Nat) : Nat := leNat ((b.drop (4 * i)).take 4)

/-- A field of word `i` of a pattern body. -/
def wf (b : List Byte) (i lo len : Nat) : Nat := fld (word b i) lo len

/-- Two words of a body as a 64-bit number. -/
def word2 (b : List Byte) (i : Nat) : Nat := leNat ((b.drop (4 * i)).take 8)

/-- The body of pattern TYPE `t` in the active bank. -/
def State.pat (s : State) (t : Nat) : List Byte := if s.img.inForce then Tbl.get s.img.bodies t [] else []

/-- A partial image is pending (R38). -/
def State.pend (s : State) : Bool := s.bit Reg.FEAT_IMG_STATE 16

/-- The activation instant A, in ns of the counter (R36). -/
def State.actNs (s : State) : Nat := nsOfT80 (s.rn Reg.FEAT_IMG_ACT)

/-- The body of pattern TYPE `t` that decides an instant at `t0` ns (R37): that of the pending image from A on. -/
def State.patAt (s : State) (t t0 : Nat) : List Byte :=
  if s.pend && s.actNs ≤ t0 && s.bit Reg.FEAT_IMG_PEND t then Tbl.get s.img.idle t [] else s.pat t

/-- FEAT_IMG_STATE.STATE. -/
def State.imgState (s : State) : Nat := s.rf Reg.FEAT_IMG_STATE 0 3

/-- Measurement ingest stops for a full image that passed its checks, an UNLOAD, or the entry to PARK or HOLD (R32, R444, R445): the engines finish the
instants they hold and take no further ones. -/
def State.stopping (s : State) : Bool :=
  s.img.unload || s.pwr.moving = some .park || s.pwr.moving = some .hold || (s.img.load.map Load.passed).getD false

/-- The measurement path works: an image is in force and the device is in RUN, out of reset. -/
def State.measuring (s : State) : Bool := s.img.inForce && s.pwr.state = .run && s.pwr.seq = none

/-- `f` applied for each of `n, …, n + k - 1`. -/
def State.forRange (s : State) (f : Nat → State → State) (n k : Nat) : State :=
  match k with
  | 0 => s
  | j + 1 => State.forRange (f n s) f (n + 1) j

/-- `f` applied for each element of a list. -/
def State.forEach {α : Type} (s : State) (f : α → State → State) : List α → State
  | [] => s
  | a :: t => State.forEach (f a s) f t

end Sys2Proof.Machine
end

