-- ==== Sys2Proof/Machine/AlarmEntry.lean ====
section
/-! DEFINITION. The 64-byte alarm entry (R277). -/
namespace Sys2Proof.Machine
open Sys2Proof

/-- Words 0 to 13 of an alarm entry. -/
def AlarmEntry.words (e : AlarmEntry) : List Nat :=
  let t := t80OfNs e.t0
  let f := uNat 40 e.modeF
  let z := uNat 40 e.zeta
  let a := uNat 40 e.aref
  [e.kind % 8 + e.inst % 4 * 2 ^ 3 + e.act % 4 * 2 ^ 5 + (if e.reset then 2 ^ 7 else 0) + e.cls % 256 * 2 ^ 8 + 2 ^ 16 * (e.pass % 2) +
    2 ^ 31 + (2 ^ 17 * (e.cond % 4) + 2 ^ 19 * (e.cause % 8)),
    t % 2 ^ 32, t / 2 ^ 32 % 2 ^ 32, t / 2 ^ 64, e.valA % 2 ^ 18, e.valB % 2 ^ 18, e.active % 2 ^ 18, e.first % 2 ^ 18,
    f % 2 ^ 32, f / 2 ^ 32, z % 2 ^ 32, z / 2 ^ 32, a % 2 ^ 32, a / 2 ^ 32]

/-- 32-bit words as little-endian bytes. -/
def wordBytes (l : List Nat) : List Byte := l.flatMap (leBytes 4)

/-- An alarm entry read from 64 bytes that a panel of a role sent. -/
def AlarmEntry.parse (role : Nat) (b : List Byte) : AlarmEntry :=
  let h := word b 0
  { role := role, kind := fld h 0 3, inst := fld h 3 2, act := fld h 5 2, reset := fld h 7 1 = 1, cls := fld h 8 8, pass := fld h 16 1
    cond := fld h 17 2, cause := fld h 19 3, t0 := nsOfT80 (word b 1 + 2 ^ 32 * word2 b 2)
    valA := fld (word b 4) 0 18, valB := fld (word b 5) 0 18, active := fld (word b 6) 0 18, first := fld (word b 7) 0 18
    modeF := sInt 40 (word2 b 8), zeta := sInt 40 (word2 b 10), aref := sInt 40 (word2 b 12) }

end Sys2Proof.Machine
end

