-- ==== Sys2Proof/Machine/RegRow.lean ====
section
/-! DEFINITION. Looking up the register map: the row of an address, and the registers a disturbance returns to their reset values (R10). -/
namespace Sys2Proof.Machine
open Sys2Proof

/-- Whether a distance from a row's first instance lies in its array, strides falling, and the word of the value it then names. -/
def wordIn (words : Nat) : List (Nat × Nat) → Nat → Option Nat
  | [], d => if d % 4 = 0 && d < 4 * words then some (d / 4) else none
  | (n, stride) :: t, d => if d / stride < n then wordIn words t (d % stride) else none

/-- The word of `r`'s value that address `a` names. -/
def rowWord (r : RegRow) (a : Nat) : Option Nat := if a < r.base then none else wordIn r.words r.dims (a - r.base)

/-- The first row of a list that serves address `a`, with the word named. -/
def findRow : List RegRow → Nat → Option (RegRow × Nat)
  | [], _ => none
  | r :: t, a =>
    match rowWord r a with
    | some w => some (r, w)
    | none => findRow t a

/-- The row of the register at `a`, and the word of its value that `a` names. -/
def rowOf (a : Nat) : Option (RegRow × Nat) := findRow regRows a

/-- The surviving code of the register at `a`. -/
def survOf (a : Nat) : Surv :=
  match rowOf a with
  | some (r, _) => r.surv
  | none => .n

/-- Every register whose surviving code passes `p` returned to its reset value. -/
def State.resetRegs (s : State) (p : Surv → Bool) : State := { s with regs := s.regs.filter fun e => !p (survOf e.1) }

end Sys2Proof.Machine
end

