-- ==== Sys2Proof/Machine/Gate.lean ====
section
/-! DEFINITION. Which register accesses the silent rule passes (R44, R51), panel roles, and writes that wait while PARK gates a block's
clock (R453). -/
namespace Sys2Proof.Machine
open Sys2Proof

/-! ## Panel roles (R14, R192) -/

/-- Word `i` of panel record `p` of the FABRIC pattern (R192). -/
def pnlWord (b : List Byte) (p i : Nat) : Nat := word b (16 + 32 * p + i)

/-- ROLE of panel `p`. -/
def State.role (s : State) (p : Nat) : Nat := fld (pnlWord (s.pat 1) p 0) 0 3

/-- Panel `p` is its instance's lead. -/
def State.isLead (s : State) (p : Nat) : Bool := fld (pnlWord (s.pat 1) p 0) 3 1 = 1

/-- INST of panel `p`. -/
def State.pnlInst (s : State) (p : Nat) : Nat := fld (pnlWord (s.pat 1) p 0) 4 2

/-- The panels of the instance `p` belongs to. -/
def State.instancePanels (s : State) (p : Nat) : List Nat :=
  (List.range 16).filter fun q => s.role q = s.role p && s.pnlInst q = s.pnlInst p

/-- The lead panel of instance `e` of a role. -/
def State.leadOf (s : State) (role e : Nat) : Option Nat :=
  (List.range 16).find? fun p => s.role p = role && s.pnlInst p = e && s.isLead p

/-! ## The silent rule (R44, R51) -/

/-- Registers of features: first offset, the offset past the last, and the features of which one serves them (R43). -/
def regFeatures : List (Nat × Nat × List Nat) := [
  (0x1000B0, 0x1000B8, [34]), (0x100100, 0x100110, [34]), (0x1000B8, 0x1000C0, [33]), (0x1000C0, 0x1000C8, [32]),
  (0x1000D0, 0x1000D8, [32]), (0x100180, 0x100190, [32]), (0x1000C8, 0x1000D0, [49]), (0x100200, 0x100210, [49]),
  (0x108000, 0x108810, [36]), (0x200000, 0x290000, [0]),
  (0x20000C, 0x200014, [10]), (0x21000C, 0x210014, [10]), (0x22000C, 0x220014, [10]), (0x23000C, 0x230014, [10]),
  (0x2001B8, 0x2001C8, [10]), (0x2101B8, 0x2101C8, [10]), (0x2201B8, 0x2201C8, [10]), (0x2301B8, 0x2301C8, [10]), (0x240100, 0x240140, [9]), (0x2401C0, 0x2403D8, [3]), (0x250000, 0x290000, [3]),
  (0x300000, 0x3A0000, [1, 4]), (0x300170, 0x300180, [12]), (0x400000, 0x440000, [0]), (0x400160, 0x400168, [25]),
  (0x400300, 0x400308, [25]), (0x400178, 0x400188, [59]), (0x400380, 0x400398, [59]), (0x800000, 0x920000, [0]),
  (0x400170, 0x400178, [24]), (0x400600, 0x400608, [24]), (0x400680, 0x400700, [24]), (0xC00000, 0xC40000, [16]),
  (0xC00024, 0xC0002C, [18]), (0xC10024, 0xC1002C, [18]), (0xC20024, 0xC2002C, [18]), (0xC30024, 0xC3002C, [18]),
  (0xC00030, 0xC0003C, [18]), (0xC10030, 0xC1003C, [18]), (0xC20030, 0xC2003C, [18]), (0xC30030, 0xC3003C, [18]), (0xC80000, 0xCD0000, [19]), (0xD00000, 0xD80000, [20]), (0xD80000, 0xDE0000, [22]),
  (0xE00000, 0xE00C00, [0]), (0xE00138, 0xE00148, [7]), (0xE00800, 0xE00C00, [7]), (0x1000000, 0x1005000, [48]),
  (0x100001C, 0x1000038, [52]), (0x1000138, 0x1000158, [52]), (0x1002000, 0x1002480, [52]), (0x1100000, 0x1100400, [53]),
  (0x1200000, 0x1300000, [56]), (0x1200020, 0x1200038, [57]), (0x1200130, 0x1200140, [57]), (0x1300000, 0x1300080, [58]),
  (0x1300100, 0x1300200, [58]), (0x1310000, 0x1310C00, [58]), (0x1400020, 0x1400030, [88]), (0x1400178, 0x1400188, [88]),
  (0x1500000, 0x1500200, [64]), (0x1500008, 0x1500010, [65]), (0x1500168, 0x1500178, [65]), (0x1600000, 0x1603000, [72, 73]),
  (0x1600148, 0x1600150, [74]), (0x1700148, 0x1700150, [80]), (0x1A00014, 0x1A00214, [0]), (0x1A08000, 0x1A08440, [89]),
  (0x1A09000, 0x1A09010, [89])]

/-- The features that serve the register at `a` are accepted (R44). -/
def State.featOpen (s : State) (a : Nat) : Bool := regFeatures.all fun r => a < r.1 || r.2.1 ≤ a || r.2.2.any s.feat

/-- A register that needs an image (R51, R378): engine, group, source and radio registers. -/
def needsImage (a : Nat) : Bool :=
  (0x390000 ≤ a && a < 0x3A0000) || (0x410000 ≤ a && a < 0x440000) || (0xC00000 ≤ a && a < 0xDE0000) || (0x1600000 ≤ a && a < 0x1603000)

/-- The role and instance of an estimator, floe or oscillation register (R224, R247, R274). -/
def engineOf (a : Nat) : Option (Nat × Nat) :=
  if 0xC00000 ≤ a && a < 0xC40000 then some (1, (a - 0xC00000) / 0x10000)
  else if 0xC80000 ≤ a && a < 0xC84000 then some (2, (a - 0xC80000) / 0x1000)
  else if 0xC90000 ≤ a && a < 0xCD0000 then some (2, (a - 0xC90000) / 0x10000)
  else if 0xD00000 ≤ a && a < 0xD04000 then some (3, (a - 0xD00000) / 0x1000)
  else none

/-- A key-store mailbox register is the other party's (R424). -/
def foreignMbx (who : Party) (a : Nat) : Bool :=
  let m1 := (0x1701010 ≤ a && a < 0x1701020) || (0x1704000 ≤ a && a < 0x1706000)
  let m0 := (0x1701000 ≤ a && a < 0x1701010) || (0x1702000 ≤ a && a < 0x1704000)
  match who with
  | .host => m1
  | .core _ => m0

/-- A band or sensor register lies beyond BAND_CNT (R275) or SENS_CNT (R397). -/
def State.beyondCnt (s : State) (a : Nat) : Bool :=
  (0xD40000 ≤ a && a < 0xD80000 && decide (wf (s.pat 9) 2 0 13 ≤ (a - 0xD40000) / 64)) ||
    (0x1601000 ≤ a && a < 0x1603000 && decide (wf (s.pat 19) 0 16 9 ≤ (a - 0x1601000) / 32))

/-- The register at `a` answers party `who`: the silent rule does not cover it. -/
def State.regOpen (s : State) (who : Party) (a : Nat) : Bool :=
  (rowOf a).isSome && s.featOpen a && !(needsImage a && (s.imgState = 0 || s.imgState = 3)) && !foreignMbx who a &&
    ((engineOf a).all fun x => (s.leadOf x.1 x.2).isSome) && !s.beyondCnt a &&
    !(0x900000 ≤ a && a < 0x920000 && !(s.img.winOf.any fun e => e.2 = (a - 0x900000) / 32 + 1))

/-! ## Writes while a block's clock is gated (R453) -/

/-- PARK gates the clock of the block at `a` (R442, R443): seam engine, fabric, engines, cores and dispatcher, but for the external
intake's DISP_POST. -/
def parkGated (a : Nat) : Bool :=
  (0x400000 ≤ a && a < 0x440000) || (0x800000 ≤ a && a < 0xDE0000) || (0x1400000 ≤ a && a < 0x1403400 && a ≠ Reg.DISP_POST)

/-- A register of a block of the mixed-signal die (R11): an access to it crosses the bridge. -/
def bridged (a : Nat) : Bool := (0x1000000 ≤ a && a < 0x1200000) || (0x1600000 ≤ a && a < 0x1700000)

/-- A register access at `a` crosses the bridge where its block lies on the mixed-signal die (R12). -/
def State.accessCrossing (s : State) (a : Nat) : State := if bridged a then s.crossing 1 .ok else s

/-- A 32-bit write of `w` at `a` by `who`, with effect `f`: none where the silent rule covers it, at the return to RUN where PARK gates the
block. -/
def written (who : Party) (a : Nat) (w : Word) (f : State → State) (s : State) : State :=
  if !s.regOpen who a then s
  else if s.pwr.state = .park && parkGated a then { s with hq := { s.hq with parked := s.hq.parked ++ [{ who := who, addr := a, value := w }] } }
  else f (s.accessCrossing a)

end Sys2Proof.Machine
end

