-- ==== Sys2Proof/Machine/Fault.lean ====
section
/-! DEFINITION. Faults, fault injection and event clearing (R429 to R437). -/
namespace Sys2Proof.Machine
open Sys2Proof

/-! Life-cycle states, KEY_STATUS.LCSTATE (R411). -/
abbrev lcManufacture : Nat := 0
abbrev lcProvisioned : Nat := 1
abbrev lcDeployed : Nat := 2
abbrev lcReturned : Nat := 3
abbrev lcRetired : Nat := 4

/-- The life-cycle state. -/
def State.lc (s : State) : Nat := s.rf Reg.KEY_STATUS 0 3

/-- The condition of level source `n` holds. -/
def State.levelHolds (s : State) (n : Nat) : Bool := s.flt.levels.any fun e => e.1 = n

/-- The condition of level source `n` begins (R430, R431): it counts once at each onset. -/
def State.levelOnset (s : State) (n info : Nat) (noRec : Bool) : State :=
  if isLevel n && !s.levelHolds n then
    ({ s with flt := { s.flt with levels := Tbl.place (Tbl.del s.flt.levels n) n info } }).detectRec n info false noRec
  else s

/-- The condition of level source `n` ends (R431): a later recurrence is a new onset. -/
def State.levelEnd (s : State) (n : Nat) : State :=
  { s with flt := { s.flt with levels := Tbl.del s.flt.levels n } }

/-- LEVEL_FAULT_ONSET. -/
def execLevelFaultOnset (src : Fin 96) (info : BitVec 24) (noRec : Bool) (s : State) : Host.Outcome State Fault Refusal :=
  done (fun s => s.levelOnset src.val info.toNat noRec) s

/-- LEVEL_CONDITION_END. -/
def execLevelConditionEnd (src : Fin 96) (s : State) : Host.Outcome State Fault Refusal := done (fun s => s.levelEnd src.val) s

/-- A write of 1 to the sticky bit of source `n` (R433). -/
def State.clearFault (s : State) (n : Nat) : State :=
  if s.sticky n then
    let s := s.setF (Reg.FLT_STICKY (n / 32)) (n % 32) 1 0
    let s := s.setF (Reg.FLT_REC_INFO n) 31 1 0
    if s.levelHolds n then s.firstFault n (Tbl.get s.flt.levels n 0) false false else s
  else s

/-- A write of FLT_STICKY[k]. -/
def faultClear (k : Fin 3) (w : Word) (s : State) : State :=
  s.forRange (fun i s => if w.getLsbD i then s.clearFault (32 * k.val + i) else s) 0 32

/-- FAULT_CLEAR. -/
def execFaultClear (_who : Party) (k : Fin 3) (w : Word) (s : State) : Host.Outcome State Fault Refusal := live (faultClear k w) s

/-- A write of FLT_INJ (R435). -/
def faultInject (w : Word) (s : State) : State :=
  let v := w.toNat
  let src := fld v 0 7
  let count := fld v 16 8
  if fld v 31 1 = 0 || s.lc = lcRetired then s
  else if count = 0 then
    ({ s with flt := { s.flt with inject := none } }).setReg Reg.FLT_INJ_STATUS src
  else if hasChecker src then
    ({ s with flt := { s.flt with inject := some { source := src, double := fld v 8 1 = 1, left := count } } }).setReg
      Reg.FLT_INJ_STATUS (src + count * 2 ^ 8)
  else s.setF Reg.FLT_INJ_STATUS 16 1 1

/-- FAULT_INJECT. -/
def execFaultInject (_who : Party) (w : Word) (s : State) : Host.Outcome State Fault Refusal := live (faultInject w) s

/-- A write of FLT_EVT_PEND[k] (R436). -/
def eventClear (k : Fin 4) (w : Word) (s : State) : State :=
  s.setReg (Reg.FLT_EVT_PEND k.val) ((BitVec.ofNat 32 (s.rn (Reg.FLT_EVT_PEND k.val)) &&& ~~~w).toNat)

/-- EVENT_CLEAR. -/
def execEventClear (_who : Party) (k : Fin 4) (w : Word) (s : State) : Host.Outcome State Fault Refusal := live (eventClear k w) s

end Sys2Proof.Machine
end

