-- ==== Sys2Proof/Machine/Key.lean ====
section
/-! DEFINITION. The key store (R399 to R428): slots, roots, tags, bindings, delivery to engines, withdrawal, mailboxes and the commands
other than the privileged ones. -/
namespace Sys2Proof.Machine
open Sys2Proof

/-! ## Slots, roots and tags (R399 to R402, R411) -/

/-! RESULT codes (R426). -/
abbrev krOk : Nat := 0
abbrev krSlotUnusable : Nat := 1
abbrev krAuth : Nat := 2
abbrev krDigest : Nat := 3
abbrev krNonce : Nat := 4
abbrev krUid : Nat := 5
abbrev krRevokedDuring : Nat := 6
abbrev krParam : Nat := 7
abbrev krTransition : Nat := 8
abbrev krBusy : Nat := 9
abbrev krUnsupported : Nat := 10

/-! Slot state codes (R401). -/
abbrev slotEmpty : Nat := 0
abbrev slotUsable : Nat := 1
abbrev slotRevoked : Nat := 2
abbrev slotTagFail : Nat := 3
abbrev slotLcLock : Nat := 4

/-- Slot `k`'s material and tag. -/
def State.slot (s : State) (k : Nat) : KeySlot := Tbl.get s.key.slots k {}

/-- Slot `k`'s material and tag set. -/
def State.setSlot (s : State) (k : Nat) (x : KeySlot) : State :=
  { s with key := { s.key with slots := Tbl.set s.key.slots k x {} } }

/-- A field of header word 0 of slot `k` (R399). -/
def State.hdr (s : State) (k lo len : Nat) : Nat := s.rf (Reg.KEY_SLOT_HDR k 0) lo len

/-- The selected root: that of the life-cycle state; zero in RETIRED (R411). -/
def State.root (s : State) : Nat := if s.lc < 4 then Tbl.get s.key.roots s.lc 0 else 0

/-- Root `r` set, and its bit of KEY_ROOT_STATE. -/
def State.setRoot (s : State) (r v : Nat) : State :=
  ({ s with key := { s.key with roots := Tbl.set s.key.roots r v 0 } }).setF Reg.KEY_ROOT_STATE r 1 (if v = 0 then 0 else 1)

/-- Root `r` filled from the random number generator (R411). -/
def State.fillRoot (s : State) (r : Nat) : State := (s.setRoot r (s.draw 256).toNat).drawn

/-- The state of slot `k` (R401): with no root selected, or the selected root zero, every slot but slot 0 is TAGFAIL (R411). -/
def State.slotState (s : State) (k : Nat) : Nat :=
  if k = 0 then slotUsable
  else if s.root = 0 then slotTagFail
  else if s.hdr k 0 1 = 0 then slotEmpty
  else if !(s.slot k).tagOk then slotTagFail
  else if s.hdr k 24 1 = 1 then slotRevoked
  else if s.hdr k (13 + s.lc) 1 = 1 then slotUsable
  else slotLcLock

/-- The material of slot `k` in plaintext. -/
def State.material (s : State) (k : Nat) : List Byte := if k = 0 then Config.vendorDigest else (s.slot k).material

/-- The record of slot `k` as the battery SRAM holds it (R399, R400): header, MATERIAL encrypted under K_enc, TAG under K_tag. -/
def State.slotRecord (s : State) (k : Nat) : List Byte :=
  let root := leBytes 32 (s.slot k).sealedBy
  let kEnc := Config.kmac256 root (ascii "ENC") (ascii "VL9160 ROOT") 32
  let kTag := Config.kmac256 root (ascii "TAG") (ascii "VL9160 ROOT") 32
  let words := leBytes 4 (s.rn (Reg.KEY_SLOT_HDR k 0)) ++ leBytes 4 (s.rn (Reg.KEY_SLOT_HDR k 1)) ++
    leBytes 4 (s.rn (Reg.KEY_SLOT_HDR k 2)) ++ leBytes 4 0
  let counter := leBytes 4 k ++ leBytes 4 (s.rn (Reg.KEY_SLOT_HDR k 2)) ++ leBytes 8 0
  let front := words ++ Config.aesCtr kEnc counter (padTo 64 (s.slot k).material)
  front ++ Config.kmac256 kTag (BitVec.ofNat 8 k :: front) (ascii "VL9160 SLOT") 32 ++ leBytes 16 0

/-- KEY_SLOT_STATE shows every slot's state (R401). -/
def State.showSlots (s : State) : State :=
  s.forRange (fun w t => t.setReg (Reg.KEY_SLOT_STATE w)
    ((List.range 8).foldl (fun a n => a + s.slotState (8 * w + n) * 2 ^ (4 * n)) 0)) 0 8

/-! ## Withdrawal and delivery (R405, R409) -/

/-! Engines that hold keys, as `inHand` operands and `Key.late` number them (R409). -/
abbrev engSv : Nat := 0
abbrev engGoose : Nat := 1
abbrev engNdkTx : Nat := 2
abbrev engNdkRx : Nat := 3
abbrev engRadio : Nat := 4
abbrev engPtp : Nat := 5
abbrev engCmd : Nat := 6

/-- Keys that have stopped being usable between `s` and `t` are withdrawn (R409): an engine of `inHand` had an operation in hand, which it
finishes with the key it holds. -/
def State.withdraw (s t : State) (inHand : Nat) : State :=
  let gone := ((List.range 63).map (· + 1)).filter fun k => s.slotState k = slotUsable && t.slotState k ≠ slotUsable
  let keys := gone.map fun k => (k, s.material k)
  t.forRange (fun e t =>
    if fld inHand e 1 = 1 then
      { t with key := { t.key with late := Tbl.set t.key.late e (Tbl.get t.key.late e [] ++ keys) [] } }
    else t) 0 7

/-- Engine `e` takes the key of slot `k` for use bit `u` (R405): its material and whether it was withdrawn while the operation was in hand
(R409), which counts KEY_LATEUSE; nothing where the slot is not usable for it. The slot memory is checked by source 46. -/
def State.takeKey (s : State) (e k u : Nat) : Option (List Byte × Bool) × State :=
  let late := Tbl.get s.key.late e []
  let s := { s with key := { s.key with late := Tbl.set s.key.late e [] [] } }
  let (err, s) := s.checkFound 46 k
  if err = .ue then (none, s)
  else if s.slotState k = slotUsable && s.hdr k (4 + u) 1 = 1 then (some (s.material k, false), s)
  else
    match late.find? (fun x => x.1 = k) with
    | some x => (some (x.2, true), (s.count Reg.KEY_LATEUSE_CNT).raise 119)
    | none => (none, s)

/-- The slot a binding names: CUR, or NEXT, which is 0xFF for none (R404). -/
def State.bindSlot (s : State) (b : Nat) (next : Bool) : Nat := s.rf (Reg.KEY_BIND b) (if next then 8 else 0) 8

/-- The key of binding `b` for engine `e` and use `u`. -/
def State.takeBound (s : State) (e b u : Nat) (next : Bool) : Option (List Byte × Bool) × State :=
  if s.bindSlot b next = 255 then (none, s) else s.takeKey e (s.bindSlot b next) u

/-- BIND_CNT of the image in force. -/
def State.bindCnt (s : State) : Nat := wf (s.pat 0x14) 0 0 9

/-- The bindings of a newly loaded image (R404). -/
def State.applyKeyUse (s : State) : State :=
  s.forRange (fun b s => s.setReg (Reg.KEY_BIND b) (if b < s.bindCnt then word (s.pat 0x14) (4 + b) % 2 ^ 19 else 0)) 0 256

/-- The first binding of a use among `b, …` (R404). -/
def State.firstBind (s : State) (u b : Nat) : Nat → Option Nat
  | 0 => none
  | n + 1 => if s.rf (Reg.KEY_BIND b) 16 3 = u then some b else s.firstBind u (b + 1) n

/-! ## Verifying and writing slots (R400, R402, R406, R408) -/

/-- The tag of slot `k` verifies under the selected root. -/
def State.tagVerifies (s : State) (k : Nat) : Bool :=
  s.root ≠ 0 && (s.slot k).sealedBy = s.root && !(s.slot k).damaged

/-- The tag of slot `k` verified (R402): a slot found TAGFAIL counts and raises KEY_TAGFAIL. -/
def State.verifyTag (s : State) (k : Nat) : State :=
  if s.hdr k 0 1 = 0 then s
  else
    let s := s.setSlot k { s.slot k with tagOk := s.tagVerifies k }
    if s.slotState k = slotTagFail then (s.count Reg.KEY_TAGFAIL_CNT).raise 114 else s

/-- Every tag verified; the next hour counts from here. -/
def State.verifyTags (s : State) : State :=
  let t := (s.forRange (fun k s => s.verifyTag k) 1 63).showSlots
  { t with key := { t.key with sweptAt := t.time.ticks } }

/-- Slot `k` tagged anew under the selected root. -/
def State.retag (s : State) (k : Nat) : State :=
  s.setSlot k { s.slot k with sealedBy := s.root, damaged := false, tagOk := s.root ≠ 0 }

/-- Slot `k` descends from slot `p`, within `fuel` steps of PARENT. -/
def State.descends (s : State) (p k : Nat) : Nat → Bool
  | 0 => false
  | n + 1 => s.hdr k 0 1 = 1 && s.hdr k 23 1 = 1 && (s.hdr k 17 6 = p || s.descends p (s.hdr k 17 6) n)

/-- Slot `k` revoked (R408). -/
def State.revokeOne (k : Nat) (s : State) : State :=
  ((s.setF (Reg.KEY_SLOT_HDR k 0) 24 1 1).retag k).count Reg.KEY_REVOKE_CNT

/-- The given slots revoked in one step, with one KEY_REVOKED. -/
def State.revokeAll (s : State) (ks : List Nat) : State :=
  if ks.isEmpty then s else (s.forEach State.revokeOne ks).raise 113

/-- The descendants of slot `p`. -/
def State.descendants (s : State) (p : Nat) : List Nat :=
  ((List.range 63).map (· + 1)).filter fun k => k ≠ p && s.descends p k 64

/-- Bytes of material of a KIND (R399). -/
def kindLen (kind : Nat) : Nat := if kind = 0 then 16 else if kind = 4 then 64 else 32

/-- Kinds a use bit accepts, counted from PTP (R403). -/
def useKinds (u : Nat) : List Nat :=
  match u with
  | 0 => [2]
  | 1 => [2, 0, 1]
  | 2 => [1]
  | 3 => [0]
  | 4 => [3]
  | 5 => [4]
  | 6 => [4]
  | 7 => [1]
  | _ => [1, 3]

/-- KIND, USE and LCMASK of a header word 0 lie within R399 and R403. -/
def hdrOk (w : Nat) : Bool :=
  let kind := fld w 1 3
  let use := fld w 4 9
  kind ≤ 4 && fld w 13 4 ≠ 0 && ((List.range 9).all fun u => fld use u 1 = 0 || (useKinds u).contains kind) &&
    (fld use 8 1 = 0 || use = 256)

/-- Slot `k` written (R406): descendants revoked first, a zeroed root of the state filled, VALID set, REVOKED clear, GEN raised; the tag is
verified after the write. `w` gives KIND, USE, LCMASK, PARENT, HASPARENT and DEPTH. -/
def State.writeSlot (s : State) (k w keyid : Nat) (material : List Byte) : State :=
  let s := s.revokeAll (s.descendants k)
  let s := if s.root = 0 then s.fillRoot s.lc else s
  let s := s.setReg (Reg.KEY_SLOT_HDR k 0) (putFld (putFld (w % 2 ^ 28) 0 1 1) 24 1 0)
  let s := s.setReg (Reg.KEY_SLOT_HDR k 1) keyid
  let s := s.setReg (Reg.KEY_SLOT_HDR k 2) ((s.rn (Reg.KEY_SLOT_HDR k 2) + 1) % 2 ^ 32)
  let s := s.setSlot k { material := material.take (kindLen (fld w 1 3)) }
  (s.retag k).verifyTag k

/-! ## Mailboxes (R424 to R426) -/

/-- Word `i` of mailbox `m`'s buffer. -/
def State.mbx (s : State) (m i : Nat) : Nat := s.rn (Reg.KEY_MBX_BUF m i)

/-- Bytes of mailbox `m`'s buffer from a byte offset that is a multiple of 4. -/
def State.mbxBytes (s : State) (m off n : Nat) : List Byte :=
  ((s.words (Reg.KEY_MBX_BUF m (off / 4)) ((n + 3) / 4)).flatMap (leBytes 4)).take n

/-- Bytes as 32-bit words. -/
def wordsOf (bs : List Byte) : Nat → List Nat
  | 0 => []
  | n + 1 => leNat (bs.take 4) :: wordsOf (bs.drop 4) n

/-- Bytes placed in mailbox `m`'s buffer. -/
def State.mbxPut (s : State) (m off : Nat) (bs : List Byte) : State :=
  s.setWords (Reg.KEY_MBX_BUF m (off / 4)) (wordsOf bs ((bs.length + 3) / 4))

/-- A command of mailbox `m` ends with a result (R424, R426). -/
def State.keyEnd (s : State) (m r : Nat) : State :=
  let s := (s.setReg (Reg.KEY_MBX_STATUS m) (r * 256)).count Reg.KEY_CMD_CNT
  (if r = krOk then s else s.count Reg.KEY_CMD_ERR_CNT).raise 112

/-- A party may use mailbox `m`: 0 answers the host, 1 the cores (R424). -/
def mbxParty (m : Nat) (who : Party) : Bool :=
  match who with
  | .host => m = 0
  | .core _ => m = 1

/-- A GO write of a command (R424): ignored where the mailbox, the life-cycle state or `ok` (R406) does not allow it or the mailbox is
busy; BUSY while a migration runs (R413); otherwise `f` runs, the keys it withdrew are withdrawn, and the command ends. -/
def State.keyGo (s : State) (m : Nat) (who : Party) (mbxs lcs : List Nat) (ok : Bool) (inHand : Nat) (f : State → Nat × State) : State :=
  if mbxParty m who && mbxs.contains m && lcs.contains s.lc && ok && !s.bit (Reg.KEY_MBX_STATUS m) 0 then
    if s.key.migr.isSome then s.keyEnd m krBusy
    else
      let r := f s
      ((s.withdraw r.2 inHand).showSlots).keyEnd m r.1
  else s

/-- R406's silent rule on a write of slot `k` with header word `w`. -/
def State.writeAllowed (s : State) (k w : Nat) : Bool :=
  k ≠ 0 && s.lc ≠ lcRetired && !((s.lc = lcDeployed || s.lc = lcReturned) && (fld w 9 2 ≠ 0))

/-- STATUS. -/
def keyStatus (m : Nat) (who : Party) (s : State) : State :=
  if mbxParty m who && !s.bit (Reg.KEY_MBX_STATUS m) 0 then
    ((s.mbxPut m 0 (leBytes 16 Config.uid.toNat)).mbxPut m 16 (leBytes 4 (s.rn Reg.KEY_STATUS))).keyEnd m krOk
  else s

/-- STATUS. -/
def execStatus (mbx : Fin 2) (who : Party) (s : State) : Host.Outcome State Fault Refusal := live (keyStatus mbx.val who) s

/-- A plain slot write of header words at bytes 4 to 15: PARENT, HASPARENT and DEPTH are those of a key not derived (R399). -/
def State.writePlain (s : State) (m : Nat) (material : List Byte) : State :=
  s.writeSlot (s.mbx m 0) (s.mbx m 1 % 2 ^ 17) (s.mbx m 2) material

/-- GENERATE (R425): random material of the KIND. -/
def keyGenerate (m : Nat) (who : Party) (inHand : Nat) (s : State) : State :=
  s.keyGo m who [1] [0, 1, 2] (s.writeAllowed (s.mbx m 0) (s.mbx m 1)) inHand fun s =>
    if 63 < s.mbx m 0 || !hdrOk (s.mbx m 1) then (krParam, s)
    else (krOk, s.drawn.writePlain m (leBytes 64 (s.draw 512).toNat))

/-- GENERATE. -/
def execGenerate (mbx : Fin 2) (who : Party) (inHand : BitVec 7) (s : State) : Host.Outcome State Fault Refusal :=
  live (keyGenerate mbx.val who inHand.toNat) s

/-- IMPORT_PLAIN (R425, R406): in MANUFACTURE and PROVISIONED only. -/
def keyImportPlain (m : Nat) (who : Party) (inHand : Nat) (s : State) : State :=
  s.keyGo m who [0, 1] [0, 1] (s.writeAllowed (s.mbx m 0) (s.mbx m 1)) inHand fun s =>
    if 63 < s.mbx m 0 || !hdrOk (s.mbx m 1) then (krParam, s)
    else (krOk, s.writePlain m (s.mbxBytes m 16 64))

/-- IMPORT_PLAIN. -/
def execImportPlain (mbx : Fin 2) (who : Party) (inHand : BitVec 7) (s : State) : Host.Outcome State Fault Refusal :=
  live (keyImportPlain mbx.val who inHand.toNat) s

/-- IMPORT_WRAPPED (R425): AES-256-GCM unwrap under an UNWRAP slot, the header words authenticated. -/
def keyImportWrapped (m : Nat) (who : Party) (inHand : Nat) (s : State) : State :=
  s.keyGo m who [0, 1] [0, 1, 2] (s.writeAllowed (s.mbx m 0) (s.mbx m 1)) inHand fun s =>
    let u := s.mbx m 4
    if 63 < s.mbx m 0 || !hdrOk (s.mbx m 1) || 63 < u then (krParam, s)
    else if s.slotState u ≠ slotUsable || s.hdr u 11 1 = 0 then (krSlotUnusable, s)
    else
      match Config.aesGcmOpen (s.material u) (s.mbxBytes m 20 12) (s.mbxBytes m 4 12) (s.mbxBytes m 32 64) (s.mbxBytes m 96 16) with
      | none => (krAuth, s)
      | some plain => (krOk, s.writePlain m plain)

/-- IMPORT_WRAPPED. -/
def execImportWrapped (mbx : Fin 2) (who : Party) (inHand : BitVec 7) (s : State) : Host.Outcome State Fault Refusal :=
  live (keyImportWrapped mbx.val who inHand.toNat) s

/-- The parameters of DERIVE of child `c` from parent `p` with header word `w` are sound (R407). -/
def State.deriveOk (s : State) (c p w : Nat) : Bool :=
  let use := fld w 4 9
  c ≤ 63 && p ≤ 63 && c ≠ p && s.hdr p 12 1 = 1 && s.hdr p 25 3 < 4 && hdrOk w && (fld use 5 3 = 0) &&
    fld w 13 4 &&& s.hdr p 13 4 = fld w 13 4

/-- DERIVE (R407). -/
def keyDerive (m : Nat) (who : Party) (inHand : Nat) (s : State) : State :=
  s.keyGo m who [1] [0, 1, 2] (s.writeAllowed (s.mbx m 0) (s.mbx m 2)) inHand fun s =>
    let c := s.mbx m 0
    let p := s.mbx m 1
    let w := s.mbx m 2
    if p ≤ 63 && s.slotState p ≠ slotUsable then (krSlotUnusable, s)
    else if !s.deriveOk c p w then (krParam, s)
    else
      let kind := fld w 1 3
      let len := if kind = 0 then 16 else if kind = 4 then 64 else 32
      let mat := Config.kmac256 (s.material p) (s.mbxBytes m 32 32) (ascii "VL9160 DERIVE") len
      let w := putFld (putFld (putFld (w % 2 ^ 17) 17 6 p) 23 1 1) 25 3 (s.hdr p 25 3 + 1)
      (krOk, s.writeSlot c w (s.mbx m 3) mat)

/-- DERIVE. -/
def execDerive (mbx : Fin 2) (who : Party) (inHand : BitVec 7) (s : State) : Host.Outcome State Fault Refusal :=
  live (keyDerive mbx.val who inHand.toNat) s

/-- REVOKE (R408). -/
def keyRevoke (m : Nat) (who : Party) (inHand : Nat) (s : State) : State :=
  s.keyGo m who [0, 1] [0, 1, 2, 3] true inHand fun s =>
    let k := s.mbx m 0
    if k = 0 || 63 < k then (krParam, s)
    else (krOk, (s.revokeAll ((k :: s.descendants k).filter fun k => s.hdr k 0 1 = 1)))

/-- REVOKE. -/
def execRevoke (mbx : Fin 2) (who : Party) (inHand : BitVec 7) (s : State) : Host.Outcome State Fault Refusal :=
  live (keyRevoke mbx.val who inHand.toNat) s

/-- BIND_SET (R425, R404). -/
def keyBindSet (m : Nat) (who : Party) (s : State) : State :=
  s.keyGo m who [1] [0, 1, 2, 3] true 0 fun s =>
    let b := s.mbx m 0
    let cur := s.mbx m 1
    let next := s.mbx m 2
    if s.bindCnt ≤ b || cur = 0 || 63 < cur || next = 0 || (63 < next && next ≠ 255) || cur = next then (krParam, s)
    else (krOk, (s.setF (Reg.KEY_BIND b) 0 8 cur).setF (Reg.KEY_BIND b) 8 8 next)

/-- BIND_SET. -/
def execBindSet (mbx : Fin 2) (who : Party) (s : State) : Host.Outcome State Fault Refusal := live (keyBindSet mbx.val who) s

/-- BIND_ROLL (R425): NEXT moves to CUR. -/
def keyBindRoll (m : Nat) (who : Party) (s : State) : State :=
  s.keyGo m who [1] [0, 1, 2, 3] true 0 fun s =>
    let b := s.mbx m 0
    if s.bindCnt ≤ b || s.bindSlot b true = 255 then (krParam, s)
    else (krOk, (s.setF (Reg.KEY_BIND b) 0 8 (s.bindSlot b true)).setF (Reg.KEY_BIND b) 8 8 255)

/-- BIND_ROLL. -/
def execBindRoll (mbx : Fin 2) (who : Party) (s : State) : Host.Outcome State Fault Refusal := live (keyBindRoll mbx.val who) s

/-! ## Verification (R417) -/

/-- R417 with slot `k` for use bit `u`: the public key's digest against the slot, then the signature over the digest of the signed bytes.
Counted in KEY_VERIFY_CNT and KEY_VERIFY_FAIL_CNT. -/
def State.verifySig (s : State) (k u : Nat) (pk digest sig : List Byte) : Nat × State :=
  let s := s.count Reg.KEY_VERIFY_CNT
  let r :=
    if s.slotState k ≠ slotUsable || s.hdr k (4 + u) 1 = 0 then krSlotUnusable
    else if Config.sha3_512 pk ≠ s.material k then krDigest
    else if Config.mldsa87 pk digest sig then krOk
    else krAuth
  (r, if r = krOk then s else s.count Reg.KEY_VERIFY_FAIL_CNT)

/-- `n` bytes at a core address in shared SRAM or DDR5; none elsewhere (R344, R425). -/
def State.coreBytes (s : State) (a n : Nat) : Option (List Byte) :=
  if 0x10000000 ≤ a && a + n ≤ 0x10400000 then some (Memory.read s.sram (a - 0x10000000) n)
  else if 0x1000000000 ≤ a then some (Memory.read s.ddr (a - 0x1000000000) n)
  else none

/-- VERIFY (R417, R425). -/
def keyVerify (m : Nat) (who : Party) (s : State) : State :=
  s.keyGo m who [1] [0, 1, 2, 3, 4] true 0 fun s =>
    let k := s.mbx m 0
    match s.coreBytes (s.mbx m 1) 2592, s.coreBytes (s.mbx m 2) (s.mbx m 3), s.coreBytes (s.mbx m 4) 4627 with
    | some pk, some data, some sig =>
      if 63 < k then (krParam, s)
      else if (Tbl.get s.key.late engCmd []).any (fun x => x.1 = k) then
        (krRevokedDuring, (s.takeKey engCmd k 5).2)
      else s.verifySig k 5 pk (Config.sha3_512 data) sig
    | _, _, _ => (krParam, s)

/-- VERIFY. -/
def execVerify (mbx : Fin 2) (who : Party) (s : State) : Host.Outcome State Fault Refusal := live (keyVerify mbx.val who) s

/-! ## Attestation (R423) -/

/-- The state block of R423. -/
def State.attestBlock (s : State) : List Byte :=
  leBytes 16 Config.uid.toNat ++ leBytes 4 (s.rn Reg.FEAT_ID) ++
    leBytes 4 (s.lc + s.rn Reg.KEY_ROOT_STATE % 16 * 256 + 65536 * (s.rn Reg.KEY_TAMP_CNT % 65536)) ++
    leBytes 4 (s.rn Reg.KEY_FW_VERSION) ++ leBytes 4 (s.rn Reg.KEY_FW_FLOOR) ++
    leBytes 4 (s.rn Reg.FEAT_IMG_VERSION) ++ leBytes 4 (s.rn Reg.FEAT_IMG_FLOOR) ++ leBytes 8 (s.rn Reg.FEAT_IMG_SERIAL) ++
    (s.words (Reg.FEAT_ACC 0) 8).flatMap (leBytes 4) ++ leBytes 12 s.nowT80 ++ leBytes 4 (s.rn Reg.TIME_STATE) ++
    padTo 32 (s.key.fwDigest.take 32)

/-- ATTEST (R423). -/
def keyAttest (m : Nat) (who : Party) (s : State) : State :=
  s.keyGo m who [0, 1] [0, 1, 2, 3] true 0 fun s =>
    let k := s.mbx m 0 % 256
    let challenge := s.mbxBytes m 4 32
    if !s.feat 80 then (krUnsupported, s)
    else if 63 < k then (krParam, s)
    else
      match s.takeKey engCmd k 4 with
      | (none, s) => (krSlotUnusable, s)
      | (some (_, true), s) => (krRevokedDuring, s)
      | (some (key, false), s) =>
        let block := s.attestBlock
        let resp := Config.kmac256 key (challenge ++ block) (ascii "VL9160 ATTEST") 32
        (krOk, ((s.mbxPut m 0 block).mbxPut m 128 resp).count Reg.KEY_ATTEST_CNT)

/-- ATTEST. -/
def execAttest (mbx : Fin 2) (who : Party) (s : State) : Host.Outcome State Fault Refusal := live (keyAttest mbx.val who) s

/-! ## Nonces and windows (R421, R422) -/

/-- Mailbox `m`'s nonce set. -/
def State.setNonce (s : State) (m : Nat) (v : Option (List Byte × Nat)) : State :=
  { s with key := { s.key with nonces := Tbl.set s.key.nonces m v none } }

/-- PRIV_NONCE (R421): 32 random bytes become the mailbox's nonce. -/
def keyPrivNonce (m : Nat) (who : Party) (s : State) : State :=
  s.keyGo m who [0, 1] [0, 1, 2, 3, 4] true 0 fun s =>
    let n := leBytes 32 (s.draw 256).toNat
    (krOk, ((s.drawn.mbxPut m 0 n).setNonce m (some (n, s.time.ticks))))

/-- PRIV_NONCE. -/
def execPrivNonce (mbx : Fin 2) (who : Party) (s : State) : Host.Outcome State Fault Refusal := live (keyPrivNonce mbx.val who) s

/-- A nonce lapses 60 s after its issue. -/
def nonceLapse (m : Nat) (s : State) : State :=
  match Tbl.get s.key.nonces m none with
  | some (_, t) => if 15000000000 + t ≤ s.time.ticks then s.setNonce m none else s
  | none => s

/-- NONCE_LAPSE. -/
def execNonceLapse (mbx : Fin 2) (s : State) : Host.Outcome State Fault Refusal := running (nonceLapse mbx.val) s

/-- An authorisation window closes 1 s after verification (R422). -/
def authWindowExpiry (stats : Bool) (s : State) : State :=
  if stats then
    match s.key.statsAt with
    | some w => if 250000000 + w.since ≤ s.time.ticks then { s with key := { s.key with statsAt := none } } else s
    | none => s
  else
    match s.key.rearmAt with
    | some t => if 250000000 + t ≤ s.time.ticks then { s with key := { s.key with rearmAt := none } } else s
    | none => s

/-- AUTH_WINDOW_EXPIRY. -/
def execAuthWindowExpiry (stats : Bool) (s : State) : Host.Outcome State Fault Refusal := running (authWindowExpiry stats) s

/-! ## The background sweep and life-cycle migration (R402, R413) -/

/-- The hourly verification of every tag (R402), once an hour has passed since the last; `damaged` names slots whose stored record no longer
verifies. -/
def tagVerifySweep (damaged inHand : Nat) (s : State) : State :=
  if s.time.ticks < 900000000000 + s.key.sweptAt then s
  else
  let t := s.forRange (fun k s => if fld damaged k 1 = 1 then s.setSlot k { s.slot k with damaged := true } else s) 1 63
  s.withdraw t.verifyTags inHand

/-- TAG_VERIFY_SWEEP. -/
def execTagVerifySweep (damaged : BitVec 64) (inHand : BitVec 7) (s : State) : Host.Outcome State Fault Refusal :=
  live (tagVerifySweep damaged.toNat inHand.toNat) s

/-- Steps 2 to 4 of R413 done: the new state's fuses blown, slots re-tagged where R412 says so, old roots zeroed. -/
def State.migrate (s : State) (target : Nat) : State :=
  let s := s.setF Reg.KEY_STATUS 0 3 target
  let s :=
    if target = lcProvisioned || target = lcDeployed then
      (s.forRange (fun k s => if s.hdr k 0 1 = 1 && (s.slot k).tagOk then s.retag k else s) 1 63).setRoot (target - 1) 0
    else if target = lcReturned then (s.setRoot 1 0).setRoot 2 0
    else (((s.setRoot 0 0).setRoot 1 0).setRoot 2 0).setRoot 3 0
  ({ s with key := { s.key with migr := none } }).setF Reg.KEY_STATUS 3 1 0

/-- A migration ends: KEY_LIFECYCLE is raised and the LIFECYCLE command completes (R413 step 4). -/
def migrationComplete (inHand : Nat) (s : State) : State :=
  match s.key.migr with
  | none => s
  | some g =>
    let t := s.migrate g.target
    let t := if g.target = lcReturned || g.target = lcRetired then
        t.forRange (fun k s => s.setSlot k { s.slot k with tagOk := s.tagVerifies k }) 1 63 else t
    let t := ((s.withdraw t inHand).showSlots).raise 115
    if t.bit (Reg.KEY_MBX_STATUS g.mbx) 0 then t.keyEnd g.mbx krOk else t

end Sys2Proof.Machine
end

