-- ==== Sys2Proof/Machine/Time.lean ====
section
/-! DEFINITION. The time bases and the clock discipline (R52 to R75, R500): the tick, the servo interface, PPS, the transmit timestamp
FIFO and the mains angle. -/
namespace Sys2Proof.Machine
open Sys2Proof

/-! Discipline states (R83, TIME_STATE.STATE) and causes. -/
abbrev stUnset : Nat := 0
abbrev stArmed : Nat := 1
abbrev stLocked : Nat := 2
abbrev stHoldover : Nat := 3
abbrev stRefused : Nat := 4

/-- TIME_STATE.STATE. -/
def State.disc (s : State) : Nat := s.rf Reg.TIME_STATE 0 3

/-- The tick at which LOCKED is left noted (R137). -/
def State.noteLeft (s : State) (st : Nat) : State :=
  if s.disc = stLocked && st ≠ stLocked then { s with time := { s.time with leftLock := some s.time.ticks } } else s

/-- The discipline state and cause set (R64). -/
def State.setDisc (s : State) (st cause : Nat) : State :=
  ((s.noteLeft st).setF Reg.TIME_STATE 0 3 st).setF Reg.TIME_STATE 4 3 cause

/-- The bounds of R53. -/
def incMin : Nat := 0x03FF7CED91
def incMax : Nat := 0x040083126F

/-- A committed increment held within the bounds of R53. -/
def clampInc (v : Nat) : Nat := max incMin (min incMax v)

/-- A slew runs and has ticks left. -/
def State.slewing (s : State) : Bool := s.time.slewInc.isSome && s.rn Reg.TIME_SLEW_TICKS ≠ 0

/-- The increment in force (R53). -/
def State.incRun (s : State) : Nat :=
  if s.slewing then (s.time.slewInc.getD 0).toNat else s.rn Reg.TIME_INC

/-- TIME_INC_RUN shows the increment in force. -/
def State.showInc (s : State) : State := s.setReg Reg.TIME_INC_RUN s.incRun

/-- The counter in units of 2^-32 ns. -/
def Time.fine (t : Time) : Nat := 2 ^ 32 * (1000000000 * t.sec.toNat + t.ns.toNat) + t.frac.toNat

/-- The counter set from units of 2^-32 ns; seconds wrap at 48 bits. -/
def Time.ofFine (t : Time) (v : Nat) : Time :=
  { t with
    sec := BitVec.ofNat 48 (v / 2 ^ 32 / 1000000000)
    ns := BitVec.ofNat 32 (v / 2 ^ 32 % 1000000000)
    frac := BitVec.ofNat 32 v }

/-- TIME_EST_ERR by state (R62). -/
def State.estErr (s : State) : Nat :=
  if s.disc = stUnset then 0xFFFFFFFF
  else if s.disc = stLocked then s.rn Reg.TIME_SVO_ERR
  else min 0xFFFFFFFF (s.time.errAtAccept + s.time.sinceAccept * 4 * s.rn Reg.TIME_HOLD_DRIFT / 1000000000)

/-- The smallest k in `k0, …, 11` with `err` ≤ 10^(k-1) ns (R63). -/
def qualCode (err : Nat) : Nat → Nat → Nat
  | _, 0 => 11
  | k, n + 1 => if err ≤ 10 ^ (k - 1) then k else qualCode err (k + 1) n

/-- TIME_QUAL from the state and the estimate (R63). -/
def State.qualOf (s : State) (err : Nat) : Nat :=
  if s.disc = stLocked then 0
  else if s.disc = stUnset || err = 0xFFFFFFFF then 0xF
  else qualCode err 1 10

/-- TIME_EST_ERR and TIME_QUAL as the hardware publishes them (R62, R63). -/
def State.publish (s : State) : State :=
  let e := s.estErr
  let s := (s.setReg Reg.TIME_EST_ERR e).setReg Reg.TIME_QUAL (s.qualOf e)
  { s with time := { s.time with errAbove := s.time.errAbove && decide (s.rn Reg.TIME_ERR_LIMIT < e) } }

/-! ## The tick -/

/-- The counter advanced by the increment in force: add in 32.32 fixed point, then carry one second (R52). -/
def Time.advance (t : Time) (inc : Nat) : Time :=
  let v := 2 ^ 32 * t.ns.toNat + t.frac.toNat + inc
  let ns : Nat := v / 2 ^ 32
  let sec := if 1000000000 ≤ ns then t.sec + 1 else t.sec
  { t with
    sec := sec
    ns := BitVec.ofNat 32 (if 1000000000 ≤ ns then ((ns : Int) - 1000000000).toNat else ns)
    frac := BitVec.ofNat 32 v }

/-- PWR_WDT_STATE shows the milliseconds left of the watchdog's period (R440). -/
def State.showWdt (s : State) : State :=
  if s.bit Reg.PWR_WDT_CFG 31 then s.setF Reg.PWR_WDT_STATE 16 16 (s.rf Reg.PWR_WDT_CFG 0 16 - s.pwr.wdtTicks / 250000) else s

/-- One tick of the 250 MHz time domain (R52, R62, R63, R73, R440): the counter and the mains angle advance, a running slew counts
down, the published error estimate is renewed, and the watchdog counts outside PARK. In HOLD nothing runs. -/
def timeTick (s : State) : State :=
  if s.pwr.state = Power.hold then s
  else
    let inc := s.incRun
    let s := if s.slewing then s.setReg Reg.TIME_SLEW_TICKS (s.rn Reg.TIME_SLEW_TICKS - 1) else s
    let t := s.time.advance inc
    let s := { s with
      time := { t with
        mang := if s.thru Reg.TIME_MANG_STATE = 0 then t.mang else t.mang + t.mangInc.zeroExtend 96
        sinceAccept := t.sinceAccept + 1
        ticks := t.ticks + 1 }
      pwr := { s.pwr with
        wdtTicks := if s.bit Reg.PWR_WDT_CFG 31 && decide (s.pwr.state = Power.run) then s.pwr.wdtTicks + 1 else s.pwr.wdtTicks } }
    let s := if s.pwr.wdtTicks % 250000 = 0 then s.showWdt else s
    s.showInc.publish

/-! ## Steps and the lock states (R56 to R65) -/

/-- The sample in force becomes the last accepted one (R62, R64). -/
def State.accept (s : State) : State :=
  { s with time := { s.time with sinceAccept := 0, errAtAccept := s.rn Reg.TIME_SVO_ERR } }

/-- The running slew ends (R58). -/
def State.endSlew (s : State) : State :=
  (({ s with time := { s.time with slewInc := none } }).setReg Reg.TIME_SLEW_TICKS 0).showInc

/-- The counter stepped by `-ofs` on a tick that has added the increment in force (R58): the slew is cancelled, EPOCH advances and the step
is recorded. -/
def State.stepClock (s : State) (ofs : Int) : State :=
  let m : Int := ((2 ^ 48 * 1000000000 * 2 ^ 32 : Nat) : Int)
  let v := ((s.time.fine : Int) - 2 ^ 32 * ofs) % m
  let s := { s with time := s.time.ofFine v.toNat }
  let s := { s with time := { s.time with stepAt := some s.nowNs, stepTick := some s.time.ticks } }
  let s := s.endSlew
  let s := s.setF Reg.TIME_STATE 10 2 (s.epoch + 1)
  let s := s.setReg Reg.TIME_LAST_STEP (uNat 64 (-ofs))
  (s.count Reg.TIME_STEP_CNT).raise 0

/-- A sample that passed R57 judged by the table of R64. -/
def State.judge (s : State) (ofs : Int) (step : Bool) : State :=
  let st := s.disc
  if st = stUnset || st = stArmed then
    if step then ((((s.stepClock ofs).accept).setDisc stLocked 0).raise 1).publish else s
  else if st = stLocked || st = stHoldover then
    if ofs.natAbs ≤ s.rn Reg.TIME_JUMP_THR then
      let a := s.accept
      let a := if st = stHoldover && s.rf Reg.TIME_STATE 4 3 = 2 then (a.count Reg.TIME_MCHG_CNT).raise 5 else a
      let a := if st = stHoldover then a.raise 1 else a
      (a.setDisc stLocked 0).publish
    else
      ((((s.endSlew.count Reg.TIME_REFUSE_CNT).setDisc stRefused 0)).raise 3).publish
  else s

/-- A posted sample taken on a tick (R57): a sample from another source only counts. -/
def State.takeSample (s : State) (x : Sample) : State :=
  if x.ty = 3 || s.rn Reg.TIME_SRC ≠ x.id + 2 ^ 16 * x.ty then s.count Reg.TIME_STALE_CNT
  else (s.setReg Reg.TIME_LAST_OFS x.ofs).judge (sInt 64 x.ofs) x.step

/-- A write of TIME_SVO_POST (R56, R500): the sample waits for the next tick; before any image has been loaded it has no effect. -/
def servoSamplePost (w : Word) (s : State) : State :=
  if !s.time.everLoaded then s
  else
    let x : Sample := { id := fld w.toNat 0 16, ty := fld w.toNat 16 2, step := w.getLsbD 31, ofs := s.rn Reg.TIME_SVO_OFS }
    { s with time := { s.time with samples := s.time.samples ++ [x] } }

/-- SERVO_SAMPLE_POST. -/
def execServoSamplePost (who : Party) (w : Word) (s : State) : Host.Outcome State Fault Refusal :=
  live (written who Reg.TIME_SVO_POST w (servoSamplePost w)) s

/-- The commit of a base increment (R7, R53, R58, R59). -/
def timeIncWrite (who : Party) (hi : Word) (s : State) : State :=
  if s.disc = stRefused then s.count Reg.TIME_RATE_REJ_CNT
  else
    let key := Reg.TIME_INC * 16 + who.num
    let lo := (Tbl.get s.heldLo key none).getD (s.rn Reg.TIME_INC % 2 ^ 32)
    let v := 2 ^ 32 * (hi.toNat % 2 ^ 8) + lo
    let s := { s with heldLo := Tbl.set s.heldLo key none none }
    let s := if clampInc v = v then s else s.setF Reg.TIME_STATE 9 1 1
    (s.setReg Reg.TIME_INC (clampInc v)).showInc

/-- TIME_INC_WRITE. -/
def execTimeIncWrite (who : Party) (hi : Word) (s : State) : Host.Outcome State Fault Refusal :=
  live (written who (Reg.TIME_INC + 4) hi (timeIncWrite who hi)) s

/-- A write of TIME_SLEW_TICKS starts, restarts or ends a slew (R58, R59). -/
def timeSlewTicksWrite (w : Word) (s : State) : State :=
  if s.disc = stRefused then s.count Reg.TIME_RATE_REJ_CNT
  else if w = 0 then s.endSlew
  else
    (({ s with time := { s.time with slewInc := some (BitVec.ofNat 40 (s.rn Reg.TIME_SLEW_INC)) } }).setReg Reg.TIME_SLEW_TICKS
      w.toNat).showInc

/-- TIME_SLEW_TICKS_WRITE. -/
def execTimeSlewTicksWrite (who : Party) (w : Word) (s : State) : Host.Outcome State Fault Refusal :=
  live (written who Reg.TIME_SLEW_TICKS w (timeSlewTicksWrite w)) s

/-- The running slew's tick count has expired (R58). -/
def slewEnd (s : State) : State :=
  if s.time.slewInc.isSome && s.rn Reg.TIME_SLEW_TICKS = 0 then s.endSlew else s

/-- SLEW_END. -/
def execSlewEnd (s : State) : Host.Outcome State Fault Refusal := running slewEnd s

/-- What a TIME_SRC written with a different value does to the lock state, on the tick after the write (R64, R65): a re-arm of the same
tick has been taken before it, and the tick's samples are judged after it. -/
def State.srcTick (s : State) : State :=
  if s.time.srcNew then
    let t := { s with time := { s.time with srcNew := false } }
    if s.disc = stLocked then ((t.setDisc stHoldover 2).raise 2).publish
    else if s.disc = stHoldover then t.setDisc stHoldover 2
    else t
  else s

/-- A write of TIME_SRC (R64): the source is recorded, and the next tick takes a different value as a source change. -/
def timeSrcWrite (w : Word) (s : State) : State :=
  let v := w.toNat % 2 ^ 18
  let t := s.setReg Reg.TIME_SRC v
  { t with time := { t.time with srcNew := t.time.srcNew || decide (s.rn Reg.TIME_SRC ≠ v) } }

/-- TIME_SRC_WRITE. -/
def execTimeSrcWrite (who : Party) (w : Word) (s : State) : Host.Outcome State Fault Refusal :=
  live (written who Reg.TIME_SRC w (timeSrcWrite w)) s

/-- A write of TIME_CTRL.REARM (R61): within an authorised window, once per verified command. -/
def rearm (w : Word) (s : State) : State :=
  if w.getLsbD 0 && s.key.rearmAt.any (fun t => s.time.ticks < 250000000 + t) && (s.disc = stLocked || s.disc = stHoldover || s.disc = stRefused) then
    (((({ s with key := { s.key with rearmAt := none } }).setDisc stArmed 0)).raise 4).publish
  else s

/-- REARM. -/
def execRearm (who : Party) (w : Word) (s : State) : Host.Outcome State Fault Refusal :=
  live (written who Reg.TIME_CTRL w (rearm w)) s

/-- The hold timer expires in LOCKED (R64, R500). -/
def holdTimeout (s : State) : State :=
  if s.disc = stLocked && s.time.everLoaded && 250000 * s.rn Reg.TIME_HOLD_TMO ≤ s.time.sinceAccept then
    ((s.setDisc stHoldover 1).raise 2).publish
  else s

/-- HOLD_TIMEOUT. -/
def execHoldTimeout (s : State) : Host.Outcome State Fault Refusal := running holdTimeout s

/-- The published estimate has risen above TIME_ERR_LIMIT (R62). -/
def errLimit (s : State) : State :=
  if s.rn Reg.TIME_ERR_LIMIT < s.rn Reg.TIME_EST_ERR && !s.time.errAbove then
    ({ s with time := { s.time with errAbove := true } }).raise 6
  else s

/-- ERR_LIMIT. -/
def execErrLimit (s : State) : Host.Outcome State Fault Refusal := running errLimit s

/-- The UTC day number (R55). -/
def State.utcDay (s : State) : Nat := (s.utcNs / (86400 * 1000000000)).toNat

/-- A write of TIME_UTCOFS (R55): both leap bits together set neither. -/
def utcofsWrite (w : Word) (s : State) : State :=
  let both := w.getLsbD 16 && w.getLsbD 17
  let v := if both then w.toNat % 2 ^ 16 else w.toNat % 2 ^ 18
  let s := s.setReg Reg.TIME_UTCOFS v
  { s with time := { s.time with leapDay := s.utcDay + 1 } }

/-- UTCOFS_WRITE. -/
def execUtcofsWrite (who : Party) (w : Word) (s : State) : Host.Outcome State Fault Refusal :=
  live (written who Reg.TIME_UTCOFS w (utcofsWrite w)) s

/-- The first UTC midnight after a leap bit was set (R55). -/
def leapApplied (s : State) : State :=
  if (s.bit Reg.TIME_UTCOFS 16 || s.bit Reg.TIME_UTCOFS 17) && decide (s.time.leapDay ≤ s.utcDay) then
    let d : Int := if s.bit Reg.TIME_UTCOFS 16 then 1 else -1
    let s := { s with time := { s.time with leapAt := some s.time.ticks, leapDel := !s.bit Reg.TIME_UTCOFS 16 } }
    (s.setReg Reg.TIME_UTCOFS (uNat 16 (s.utcOfs + d))).raise 15
  else s

/-- LEAP_APPLIED. -/
def execLeapApplied (s : State) : Host.Outcome State Fault Refusal := running leapApplied s

/-! ## PPS_IN (R70) -/

/-- An edge of PPS_IN, `half` half-nanoseconds after the current counter value. -/
def ppsEdge (rising : Bool) (half : Fin 8) (s : State) : State :=
  let selected := rising = !(wf (s.pat 3) 0 4 1 = 1)
  let recent := match s.time.ppsAt with
    | some t => decide (s.time.ticks < 125000000 + t)
    | none => false
  if s.feat 34 && s.img.inForce && selected && !recent then
    let sixteenths : Int := ((s.nowNs * 16 + half.val * 8 : Nat) : Int) - sInt 32 (s.rn Reg.TIME_PPS_DLY)
    let s := s.setReg Reg.TIME_PPS_LAST (t80OfNs (roundDiv sixteenths 16).toNat)
    let s := s.setF Reg.TIME_STATE 8 1 1
    { s with time := { s.time with ppsAt := some s.time.ticks, ppsMissed := false } }
  else s

/-- PPS_EDGE. -/
def execPpsEdge (rising : Bool) (half : Fin 8) (s : State) : Host.Outcome State Fault Refusal := running (ppsEdge rising half) s

/-- No edge within 1,100 ms of the previous one. -/
def ppsMissing (s : State) : State :=
  match s.time.ppsAt with
  | some t =>
    if !s.time.ppsMissed && 275000000 + t ≤ s.time.ticks then
      let s := (s.count Reg.TIME_PPS_MISS_CNT).setF Reg.TIME_STATE 8 1 0
      ({ s with time := { s.time with ppsMissed := true } }).raise 7
    else s
  | none => s

/-- PPS_MISSING. -/
def execPpsMissing (s : State) : Host.Outcome State Fault Refusal := running ppsMissing s

/-! ## Latched reads (R83) -/

/-- A read of TIME_NOW_NS latches seconds, fraction and mains angle of the same tick for the reading party. -/
def timeNowRead (who : Party) (s : State) : State :=
  let l : NowLatch := { sec := s.time.sec, frac := s.time.frac, mang := s.time.mang.extractLsb' 32 64 }
  ({ s with time := { s.time with now := Tbl.set s.time.now who.num l {} } }).emit (.read (s.time.ns.zeroExtend 64))

/-- TIME_NOW_READ. -/
def execTimeNowRead (who : Party) (s : State) : Host.Outcome State Fault Refusal := live (timeNowRead who) s

/-- TIME_TXTS_INFO of an entry; the blank item is all zero (R69). -/
def txtsInfo : Option TxTs → Nat
  | none => 0
  | some e => 2 ^ 31 + (e.seqId % 2 ^ 16 + 2 ^ 16 * (e.msgType % 16) + 2 ^ 20 * (e.port % 4) + 2 ^ 22 * (e.epoch % 4))

/-- A read of TIME_TXTS_INFO latches the head entry. -/
def txtsInfoRead (who : Party) (s : State) : State :=
  let h := s.time.txts.head?
  ({ s with time := { s.time with txtsLatch := Tbl.set s.time.txtsLatch who.num h none } }).emit (.read (BitVec.ofNat 64 (txtsInfo h)))

/-- TXTS_INFO_READ. -/
def execTxtsInfoRead (who : Party) (s : State) : Host.Outcome State Fault Refusal := live (txtsInfoRead who) s

/-- A read of TIME_TXTS_SEC_HI returns the latched entry's seconds [47:32] and removes the head entry. DESIGN CHOICE (log 37): the head at
the read goes, whichever entry the party latched. -/
def txtsPop (who : Party) (s : State) : State :=
  let v := match Tbl.get s.time.txtsLatch who.num none with
    | some e => e.time / 2 ^ 64 % 2 ^ 16
    | none => 0
  let w : Watch := if s.time.txts = [] then s.time.txtsWatch else { since := s.time.ticks }
  ({ s with time := { s.time with txts := s.time.txts.tail, txtsWatch := w } }).emit (.read (BitVec.ofNat 64 v))

/-- TXTS_POP. -/
def execTxtsPop (who : Party) (s : State) : Host.Outcome State Fault Refusal := live (txtsPop who) s

/-- A transmitted PTP event message leaves its entry (R69): a full FIFO overwrites its oldest and raises TXTS_STALE. DESIGN CHOICE (log
104): every entry raises TXTS_READY, not only the one that ends the FIFO's being empty. -/
def State.txtsPush (s : State) (e : TxTs) : State :=
  let s := if s.time.txts = [] then { s with time := { s.time with txtsWatch := { since := s.time.ticks } } } else s
  if s.time.txts.length < 64 then ({ s with time := { s.time with txts := s.time.txts ++ [e] } }).raise 9
  else ((({ s with time := { s.time with txts := s.time.txts.tail ++ [e] } }).count Reg.TIME_TXTS_LOST_CNT).raise 10).raise 9

/-! ## The mains angle (R73 to R75) -/

/-- The per-tick increment at a frequency of `f` Hz, in units of 2^-64 turn. -/
def mangNominal (f : Nat) : Nat := 2 ^ 64 * f / 250000000

/-- The nominal frequency of the mains angle, Hz (R82). -/
def State.mangHz (s : State) : Nat := if s.rf Reg.TIME_MANG_CFG 3 1 = 1 then 60 else 50

/-- An update that the tracker can give (R74): the frequency lies within 5 Hz of nominal, and the increment pulls the phase in by at most
1/256 turn per cycle of it. Frequencies are in units of 2^-28 Hz. -/
def State.mangInRange (s : State) (inc : BitVec 64) (freq : Fix40) : Bool :=
  let f := freq.toInt
  let hz : Int := ((2 ^ 28 * s.mangHz : Nat) : Int) + f
  let x : Int := 250000000 * (inc.toNat : Int)
  decide (-(5 * 2 ^ 28) ≤ f) && decide (f ≤ 5 * 2 ^ 28) && decide ((x - 2 ^ 36 * hz).natAbs * 256 ≤ (2 ^ 36 * hz).natAbs + 256 * 250000000)

/-- A tracker increment crosses the bridge (R73, R74). -/
def mangUpdate (inc : BitVec 64) (freq : Fix40) (s : State) : State :=
  let st := s.thru Reg.TIME_MANG_STATE
  if (st = 1 || st = 2) && s.mangInRange inc freq then
    ({ s with time := { s.time with mangInc := inc } }).setReg Reg.TIME_MANG_FREQ freq.toNat
  else s

/-- MANG_UPDATE: the increment crosses the bridge. -/
def execMangUpdate (inc : BitVec 64) (freq : Fix40) (err : MemErr) (s : State) : Host.Outcome State Fault Refusal :=
  running (fun s => mangUpdate inc freq (s.crossing 0 err)) s

/-- ACQUIRE to LOCKED (R75). -/
def mangLock (s : State) : State :=
  if s.thru Reg.TIME_MANG_STATE = 1 then (s.setThru Reg.TIME_MANG_STATE 2).raise 11 else s

/-- MANG_LOCK. -/
def execMangLock (s : State) : Host.Outcome State Fault Refusal := running mangLock s

/-- LOCKED to FREERUN (R75). -/
def mangUnlock (s : State) : State :=
  if s.thru Reg.TIME_MANG_STATE = 2 then ((s.setThru Reg.TIME_MANG_STATE 3).count Reg.TIME_MANG_UNLOCK_CNT).raise 12 else s

/-- MANG_UNLOCK. -/
def execMangUnlock (s : State) : Host.Outcome State Fault Refusal := running mangUnlock s

/-- FREERUN to ACQUIRE (R75). -/
def mangReacquire (s : State) : State := if s.thru Reg.TIME_MANG_STATE = 3 then s.setThru Reg.TIME_MANG_STATE 1 else s

/-- MANG_REACQUIRE. -/
def execMangReacquire (s : State) : Host.Outcome State Fault Refusal := running mangReacquire s

/-- The mains angle off: the counter reads zero (R75). -/
def State.mangOff (s : State) : State :=
  ({ s with time := { s.time with mang := 0, mangInc := 0 } }).setThru Reg.TIME_MANG_STATE 0

/-- The mains angle as the TIME pattern of an image leaves it (R75): from OFF, ACQUIRE from zero at nominal frequency where feature 49 is
accepted; OFF without that feature or without an image. DESIGN CHOICE (log 104): a full image loaded while the angle runs leaves the angle,
its increment and its state as they are, since the table has no row for it and the angle never steps (R73). -/
def State.mangStart (s : State) : State :=
  if !(s.img.inForce && s.feat 49) then s.mangOff
  else if s.thru Reg.TIME_MANG_STATE = 0 then
    ({ s with time := { s.time with mang := 0, mangInc := BitVec.ofNat 64 (mangNominal s.mangHz) } }).setThru Reg.TIME_MANG_STATE 1
  else s

/-! ## Tacks (R76 to R82) -/

/-- Tack `k`'s run-time side. -/
def State.tack (s : State) (k : Nat) : Tack := Tbl.get s.time.tacks k {}

/-- Tack `k`'s run-time side set, and PENDING and FREE shown in word 7. -/
def State.setTack (s : State) (k : Nat) (t : Tack) : State :=
  ({ s with time := { s.time with tacks := Tbl.set s.time.tacks k t {} } }).setReg (Reg.TACK_ENTRY k 7)
    ((if t.live then 1 else 0) + (if t.free then 2 else 0))

/-- START of an entry on its base counter: nanoseconds, or 2^-32 turns (R81). -/
def tackStart (ws : List Nat) : Nat :=
  if fld (ws.getD 0 0) 1 1 = 1 then ws.getD 2 0 + 2 ^ 32 * ws.getD 3 0
  else 1000000000 * (ws.getD 3 0 + 2 ^ 32 * (ws.getD 4 0 % 2 ^ 16)) + ws.getD 2 0

/-- PERIOD of an entry (R81). -/
def tackPeriod (ws : List Nat) : Nat := ws.getD 5 0 + 2 ^ 32 * (ws.getD 6 0 % 2 ^ 16)

/-- The period is below its minimum (R81). -/
def tackShort (ws : List Nat) : Bool :=
  fld (ws.getD 0 0) 2 1 = 1 &&
    (if fld (ws.getD 0 0) 1 1 = 1 then decide (tackPeriod ws < 0x04000000) else decide (tackPeriod ws < 1000))

/-- An entry of seven words committed to tack `k` (R76, R81). -/
def State.commitTack (s : State) (k : Nat) (ws : List Nat) : State :=
  let w0 := if tackShort ws then putFld (ws.getD 0 0) 0 1 0 else ws.getD 0 0
  let ws := w0 :: ws.drop 1
  let s := s.setWords (Reg.TACK_ENTRY k 0) ws
  s.setTack k { staged := ws, due := tackStart ws, fired := 0, live := fld w0 0 1 = 1, free := false, since := s.time.ticks }

/-- A TPO pulse of `width` ticks started on a pin: pulses are OR-ed, to the latest end (R79, R80). -/
def State.tpoPulse (s : State) (pin width : Nat) (pol : Bool) : State :=
  let stop := max (s.time.ticks + width) (Tbl.get s.time.tpo pin (0, false)).1
  { s with time := { s.time with tpo := Tbl.set s.time.tpo pin (stop, pol) (0, false) } }

/-- The pulse on a TPO pin has run its width (R80): the pin returns to its inactive level. -/
def tpoPulseEnd (pin : Fin 8) (s : State) : State :=
  let x := Tbl.get s.time.tpo pin.val (0, false)
  if x.1 ≤ s.time.ticks then { s with time := { s.time with tpo := Tbl.set s.time.tpo pin.val (0, x.2) (0, false) } } else s

/-- POL of a TPO pin: that of the lowest-numbered enabled tack that pulses it, or of its last pulse where none is enabled (R80, R81;
DESIGN CHOICE, log 104: the rule speaks of one POL a pin). -/
def State.tpoPol (s : State) (pin : Nat) : Bool :=
  let drives := fun k => s.rf (Reg.TACK_ENTRY k 0) 0 1 = 1 && s.rf (Reg.TACK_ENTRY k 0) 4 3 = 1 && s.rf (Reg.TACK_ENTRY k 1) 0 3 = pin
  match (List.range 64).find? drives with
  | some k => s.rf (Reg.TACK_ENTRY k 1) 3 1 = 1
  | none => (Tbl.get s.time.tpo pin (0, false)).2

/-- The level of a TPO pin (R80): active, which is high for POL = 0, while a pulse runs, and inactive otherwise. -/
def State.tpoLevel (s : State) (pin : Nat) : Bool :=
  let x := Tbl.get s.time.tpo pin (0, false)
  if decide (s.time.ticks < x.1) then !x.2 else s.tpoPol pin

/-- TPO_PULSE_END. -/
def execTpoPulseEnd (pin : Fin 8) (s : State) : Host.Outcome State Fault Refusal := running (tpoPulseEnd pin) s

/-- The mains angle M64. -/
def State.m64 (s : State) : Nat := s.time.mang.toNat / 2 ^ 32

/-- How far the base counter of tack `k` stands past its due value; `none` while it has not reached it (R77, R499), in the tick of the
entry's commit and, on the UTC counter, in that of a step (R78). -/
def State.tackPast (s : State) (k : Nat) : Option Nat :=
  let due := (s.tack k).due
  if s.time.ticks ≤ (s.tack k).since then none
  else if s.rf (Reg.TACK_ENTRY k 0) 1 1 = 1 then
    let d := (2 ^ 64 + s.m64 - due % 2 ^ 64) % 2 ^ 64
    if s.thru Reg.TIME_MANG_STATE ≠ 0 && decide (d < 2 ^ 63) then some d else none
  else if due ≤ s.nowNs && s.time.stepTick ≠ some s.time.ticks then some (s.nowNs - due) else none

/-- The schedule of tack `k` after a firing `past` beyond its due value (R77, R78). -/
def State.tackNext (s : State) (k past : Nat) : State :=
  let t := s.tack k
  let mains := s.rf (Reg.TACK_ENTRY k 0) 1 1 = 1
  let t := { t with free := mains && decide (s.thru Reg.TIME_MANG_STATE ≠ 2), fired := t.fired + 1 }
  let count := s.rf (Reg.TACK_ENTRY k 0) 16 16
  let per := tackPeriod (s.words (Reg.TACK_ENTRY k 0) 7)
  if s.rf (Reg.TACK_ENTRY k 0) 2 1 = 1 then
    let skipped := past / per
    let t := { t with due := t.due + per * (skipped + 1), live := count = 0 || decide (t.fired < count) }
    let s := s.setTack k t
    if skipped = 0 then s else (s.countBy Reg.TACK_SKIP_CNT skipped).raise 14
  else (s.setTack k { t with live := false }).setF (Reg.TACK_ENTRY k 0) 0 1 0

/-- EVT of tack `k`: its TACK_FIRED bit and event (R79). -/
def State.tackEvent (s : State) (k : Nat) : State :=
  if s.rf (Reg.TACK_ENTRY k 0) 3 1 = 1 then
    (s.setF (if k < 32 then Reg.TACK_FIRED_LO else Reg.TACK_FIRED_HI) (k % 32) 1 1).raise 13
  else s

/-- The TIME pattern applied at a full image load (R82, R75): discipline limits, mains reference and tack table. With no image in force the
discipline limits stay those of the last image (R500). -/
def State.applyTime (s : State) : State :=
  let b := s.pat 3
  let s := if s.img.inForce then
      let s := (s.setReg Reg.TIME_JUMP_THR (word b 1)).setReg Reg.TIME_HOLD_TMO (wf b 2 0 16)
      { s with time := { s.time with everLoaded := true } }
    else s
  let s := s.setReg Reg.TIME_MANG_CFG (word b 3)
  let s := s.forRange (fun k s =>
    s.commitTack k (if k < wf b 4 0 7 && s.feat 36 then (List.range 7).map (fun i => word b (8 + 8 * k + i)) else
      [0, 0, 0, 0, 0, 0, 0])) 0 64
  s.mangStart

end Sys2Proof.Machine
end

