-- ==== Sys2Proof/Machine/Eth.lean ====
section
/-! DEFINITION. Ethernet ports: parsing and classification (R87 to R102), PRP (R92 to R96), the class queues (R103, R104), the TCP receive
path (R105 to R107), host rings (R108 to R112), transmission (R88, R95, R113). -/
namespace Sys2Proof.Machine
open Sys2Proof

/-! ## Octets -/

/-- Octet `i` of a frame. -/
def oct (f : List Byte) (i : Nat) : Nat := (f.getD i 0).toNat

/-- Big-endian 16-bit value at `i`. -/
def be16 (f : List Byte) (i : Nat) : Nat := oct f i * 256 + oct f (i + 1)

/-- Big-endian 32-bit value at `i`. -/
def be32 (f : List Byte) (i : Nat) : Nat := 65536 * be16 f i + be16 f (i + 2)

/-- `n` octets from `i`. -/
def slice (f : List Byte) (i n : Nat) : List Byte := (f.drop i).take n

/-- Sum of the 16-bit words of a list of octets, the last one padded with zero. -/
def sum16 : List Byte → Nat
  | [] => 0
  | [a] => a.toNat * 256
  | a :: b :: t => a.toNat * 256 + b.toNat + sum16 t

/-- The ones' complement sum folded to 16 bits. -/
def fold16 (n : Nat) : Nat :=
  let a := n % 65536 + n / 65536
  let b := a % 65536 + a / 65536
  b % 65536 + b / 65536

/-- One octet into the IEEE 802.3 CRC-32, bit-reversed form. -/
def crcByte (c : BitVec 32) (b : Byte) : BitVec 32 :=
  let step := fun (x : BitVec 32) => if x.getLsbD 0 then (x >>> 1) ^^^ 0xEDB88320#32 else x >>> 1
  step (step (step (step (step (step (step (step (c ^^^ b.zeroExtend 32))))))))

/-- The IEEE 802.3 FCS value of octets, bit 0 first transmitted (R94). -/
def crc32 (bs : List Byte) : BitVec 32 := ~~~(bs.foldl crcByte 0xFFFFFFFF#32)

/-! ## Parsing (R87, R101, R102) -/

/-- What the parser finds in a frame. -/
structure Parsed where
  etype : Nat := 0
  /-- Octets up to the end of the EtherType. -/
  etEnd : Nat := 14
  tagged : Bool := false
  vid : Nat := 0
  pcp : Nat := 0
  ip : Bool := false
  v6 : Bool := false
  /-- Protocol or final next header, where there is one. -/
  proto : Option Nat := none
  frag : Bool := false
  ipErr : Bool := false
  l4Err : Bool := false
  /-- A TCP segment's checksum fails (R105). -/
  tcpErr : Bool := false
  saddr : Nat := 0
  daddr : Nat := 0
  /-- Ports of a UDP or TCP header that lies within the octets received; the source port where only it does. -/
  ports : Option (Nat × Nat) := none
  sport : Option Nat := none
  l4off : Nat := 0
  /-- End of the IP packet within the frame. -/
  stop : Nat := 0
deriving DecidableEq, Repr

/-- IPv6 extension headers walked (R101): at most four of types 0, 43 and 60 within the first 256 octets; the final next header, whether
a fragment header was met, and the offset after the headers. -/
def walk6 (f : List Byte) (nh off : Nat) : Nat → Option Nat × Bool × Nat
  | 0 =>
    if nh = 44 then (none, true, off)
    else if nh = 0 || nh = 43 || nh = 60 || nh = 50 || nh = 51 || nh = 135 || nh = 139 || nh = 140 then (none, false, off)
    else (some nh, false, off)
  | n + 1 =>
    if nh = 0 || nh = 43 || nh = 60 then
      if off + 8 ≤ 256 then walk6 f (oct f off) (off + 8 * (oct f (off + 1) + 1)) n else (none, false, off)
    else if nh = 44 then (none, true, off)
    else if nh = 50 || nh = 51 || nh = 135 || nh = 139 || nh = 140 then (none, false, off)
    else (some nh, false, off)

/-- The pseudo-header and datagram checksum of UDP or TCP: the folded sum is 0xFFFF when it agrees. -/
def l4Sum (p : Parsed) (f : List Byte) (len : Nat) : Nat :=
  let addr := if p.v6 then beBytes 16 p.saddr ++ beBytes 16 p.daddr else beBytes 4 p.saddr ++ beBytes 4 p.daddr
  fold16 (sum16 addr + len + p.proto.getD 0 + sum16 (slice f p.l4off len))

/-- The transport header: ports, and the UDP and TCP checks of R102 and R105. `f` is the frame without its FCS. -/
def parseL4 (p : Parsed) (f : List Byte) : Parsed :=
  match p.proto with
  | none => p
  | some pr =>
    if p.frag || !(pr = 6 || pr = 17) then p
    else
      let p := if p.l4off + 2 ≤ f.length then { p with sport := some (be16 f p.l4off) } else p
      let p := if p.l4off + 4 ≤ f.length then { p with ports := some (be16 f p.l4off, be16 f (p.l4off + 2)) } else p
      let avail := p.stop - p.l4off
      if pr = 17 then
        let ulen := be16 f (p.l4off + 4)
        let sum := be16 f (p.l4off + 6)
        let badLen := decide (ulen ≠ avail) || decide (ulen < 8)
        let badSum := if sum = 0 then p.v6 else decide (l4Sum p f ulen ≠ 0xFFFF)
        { p with l4Err := badLen || badSum }
      else { p with tcpErr := decide (l4Sum p f avail ≠ 0xFFFF) }

/-- An IP packet at offset `o` (R101). `f` is the frame without its FCS. -/
def parseIp (p : Parsed) (f : List Byte) (o : Nat) : Parsed :=
  if p.etype = 0x0800 then
    let ihl := oct f o % 16
    let tot := be16 f (o + 2)
    let bad := decide (oct f o / 16 ≠ 4) || decide (ihl < 5) || decide (f.length < o + 4 * ihl) || decide (tot < 4 * ihl) ||
      decide (f.length < o + tot) || decide (fold16 (sum16 (slice f o (4 * ihl))) ≠ 0xFFFF)
    let fo := be16 f (o + 6)
    parseL4 { p with
      ip := true, v6 := false, ipErr := bad, proto := if o + 10 ≤ f.length then some (oct f (o + 9)) else none
      frag := decide (fo % 0x4000 ≠ 0)
      saddr := be32 f (o + 12), daddr := be32 f (o + 16), l4off := o + 4 * ihl, stop := o + tot } f
  else if p.etype = 0x86DD then
    let plen := be16 f (o + 4)
    let w := walk6 f (oct f (o + 6)) (o + 40) 4
    parseL4 { p with
      ip := true, v6 := true, proto := w.1, frag := w.2.1
      saddr := beNat (slice f (o + 8) 16), daddr := beNat (slice f (o + 24) 16), l4off := w.2.2, stop := o + 40 + plen } f
  else p

/-- A frame parsed: at most one 802.1Q tag is parsed beyond; another tag shape leaves the outer TPID as the EtherType (R87). -/
def parse (f : List Byte) : Parsed :=
  let t := be16 f 12
  if t = 0x8100 then
    let inner := be16 f 16
    if inner = 0x8100 || inner = 0x88A8 then { etype := t }
    else
      let tci := be16 f 14
      parseIp { etype := inner, etEnd := 18, tagged := true, vid := tci % 4096, pcp := tci / 8192 } f 18
  else parseIp { etype := t } f 14

/-! ## The PORTS pattern (R98 to R100) -/

/-- Port `p` is enabled and its image in force. -/
def State.portEn (s : State) (p : Nat) : Bool := wf (s.pat 2) 0 p 1 = 1

/-- FRAME_MAX. -/
def State.frameMax (s : State) : Nat := wf (s.pat 2) 1 0 14

/-- ERR_DELIV. -/
def State.errDeliv (s : State) : Bool := wf (s.pat 2) 0 17 1 = 1

/-- Port `p` belongs to a PRP pair (R92), with feature 9 accepted. -/
def State.prpOn (s : State) (p : Nat) : Bool := s.feat 9 && wf (s.pat 2) 0 (10 + p / 2) 1 = 1

/-- Word `i` of rule record `r`. -/
def State.ruleWord (s : State) (r i : Nat) : Nat := word (s.pat 2) (32 + 8 * r + i)

/-- Address record `a` as (V6, address) (R100). -/
def State.addrRec (s : State) (a : Nat) : Bool × Nat :=
  let base := 32 + 8 * wf (s.pat 2) 3 16 8 + 8 * a
  let v6 := wf (s.pat 2) base 0 1 = 1
  let n := if v6 then 16 else 4
  (v6, beNat (slice (s.pat 2) (4 * (base + 1)) n))

/-- MAC address of port `p`, octets in transmission order. -/
def State.portMac (s : State) (p : Nat) : List Byte := leBytes 4 (word (s.pat 2) (8 + 2 * p)) ++ leBytes 2 (word (s.pat 2) (9 + 2 * p))

/-- One enabled field of a rule agrees; a field that is not enabled always does. -/
def ruleField (en : Bool) (agrees : Bool) : Bool := !en || agrees

/-- Rule `r` matches a frame received on port `p` (R89, R97, R99): every enabled field agrees and lies within the octets received, and the
features it needs are accepted. -/
def State.ruleMatch (s : State) (r p : Nat) (f : List Byte) (q : Parsed) : Bool :=
  let w0 := s.ruleWord r 0
  let w1 := s.ruleWord r 1
  let w2 := s.ruleWord r 2
  let en := fun i => fld w0 i 1 = 1
  let cls := fld w0 4 2
  let tgt := fld w0 6 3
  fld w0 p 1 = 1 &&
    !(q.etype = 0x86DD && !s.feat 8) &&
    !(cls = 0 && ((tgt = 0 && !s.feat 1) || (tgt = 1 && !s.feat 3) || (tgt = 2 && !s.feat 4))) &&
    ruleField (en 9) (q.etEnd ≤ f.length && q.etype = fld w1 0 16) &&
    ruleField (en 10) (q.tagged && 16 ≤ f.length && q.vid = fld w1 16 12) &&
    ruleField (en 11) (q.ip && q.v6 = (fld w1 28 1 = 1)) &&
    ruleField (en 12) (q.ip && q.proto = some (fld w2 0 8)) &&
    ruleField (en 13) (q.ip && q.etEnd + (if q.v6 then 40 else 20) ≤ f.length && s.addrRec (fld w2 8 5) = (q.v6, q.daddr)) &&
    ruleField (en 14) (match q.ports with
      | some (_, d) => fld (s.ruleWord r 3) 0 16 ≤ d && d ≤ fld (s.ruleWord r 3) 16 16
      | none => false) &&
    ruleField (en 15) (match q.sport with
      | some c => fld (s.ruleWord r 4) 0 16 ≤ c && c ≤ fld (s.ruleWord r 4) 16 16
      | none => false) &&
    ruleField (en 16) (6 ≤ f.length && leNat (f.take 6) = s.ruleWord r 5 + 2 ^ 32 * fld (s.ruleWord r 6) 0 16)

/-- The first matching rule among `r, …, r + n - 1`. -/
def State.firstRule (s : State) (p : Nat) (f : List Byte) (q : Parsed) (r : Nat) : Nat → Option Nat
  | 0 => none
  | n + 1 => if s.ruleMatch r p f q then some r else s.firstRule p f q (r + 1) n

/-- The class of a frame (R97). -/
inductive RxClass
  | macControl | time | measurement (target rule : Nat) | host (ring rule : Nat) | drop | unmatched
deriving DecidableEq, Repr

/-- Classification (R87, R97). -/
def State.classify (s : State) (p : Nat) (f : List Byte) (q : Parsed) : RxClass :=
  if q.etEnd ≤ f.length && q.etype = 0x8808 then .macControl
  else if q.etEnd ≤ f.length && q.etype = 0x88F7 && s.feat 32 && wf (s.pat 3) 0 (8 + p) 1 = 1 then .time
  else
    match s.firstRule p f q 0 (wf (s.pat 2) 3 16 8) with
    | some r =>
      let w0 := s.ruleWord r 0
      if fld w0 4 2 = 0 then .measurement (fld w0 6 3) r
      else if fld w0 4 2 = 1 then .host (fld w0 6 3) r
      else .drop
    | none => .unmatched

/-! ## Timestamps (R71, R72) -/

/-- Fixed RX and TX corrections of port `p`, in 1/400 ns (R72). -/
def State.fixedCorr (s : State) (p : Nat) : Nat × Nat :=
  if wf (s.pat 2) 0 (12 + p) 1 = 1 then (0, 0)
  else if 2 ≤ p then (92800, 73600)
  else
    match wf (s.pat 2) 0 (4 + 2 * p) 2 with
    | 0 => (35840, 28160)
    | 1 => (20992, 15360)
    | _ => (104448, 89600)

/-- Corrected receive timestamp as T80: the capture less the fixed and board corrections, rounded to the nanosecond (R72). -/
def State.rxStamp (s : State) (p : Nat) (skew : Int) : Nat :=
  let cap : Int := ((s.nowNs * 400 + s.time.frac.toNat * 400 / 2 ^ 32 : Nat) : Int) + skew * 25
  let v := cap - (s.fixedCorr p).1 - sInt 32 (s.rn (Reg.TIME_RXCORR p)) * 25
  t80OfNs (roundDiv v 400).toNat

/-- Corrected transmit timestamp as T80 (R72). -/
def State.txStamp (s : State) (p : Nat) : Nat :=
  let cap : Int := ((s.nowNs * 400 + s.time.frac.toNat * 400 / 2 ^ 32 : Nat) : Int)
  let v := cap + (s.fixedCorr p).2 + sInt 32 (s.rn (Reg.TIME_TXCORR p)) * 25
  t80OfNs (roundDiv v 400).toNat

/-! ## PRP (R92 to R96) -/

/-- The redundancy control trailer of a frame (without FCS): sequence number and LAN identifier, where the frame carries one (R92). -/
def rct (f : List Byte) (tagged : Bool) : Option (Nat × Nat) :=
  let n := f.length
  let size := be16 f (n - 4) % 4096
  if 20 ≤ n && be16 f (n - 2) = 0x88FB && size + 14 + (if tagged then 4 else 0) = n then
    some (be16 f (n - 6), be16 f (n - 4) / 4096)
  else none

/-- The set of a source address (R94). -/
def prpSet (mac : List Byte) : Nat := (crc32 mac).toNat % 4096

/-- Node-table way `w` of a set. -/
def State.node (s : State) (pair set w : Nat) : PrpNode := Tbl.get s.eth.nodes (16384 * pair + set * 4 + w) {}

/-- Node-table way `w` of a set given a value. -/
def State.setNode (s : State) (pair set w : Nat) (n : PrpNode) : State :=
  { s with eth := { s.eth with nodes := Tbl.set s.eth.nodes (16384 * pair + set * 4 + w) n {} } }

/-- PRP_FORGET in ticks. -/
def State.prpForget (s : State) : Nat := 250000 * wf (s.pat 2) 1 16 16

/-- An entry is older than PRP_FORGET. -/
def State.nodeOld (s : State) (n : PrpNode) : Bool := decide (n.last + s.prpForget < s.time.ticks)

/-- The first way below `k` that passes `p`. -/
def firstWay (p : Nat → Bool) : Nat → Option Nat
  | 0 => none
  | k + 1 => match firstWay p k with
    | some w => some w
    | none => if p k then some k else none

/-- The least recently judged way of a set (R94). -/
def State.oldestWay (s : State) (pair set : Nat) : Nat :=
  (List.range 4).foldl (fun b w => if (s.node pair set w).last < (s.node pair set b).last then w else b) 0

/-- The way a new node takes, and whether it evicts a live entry (R94). -/
def State.newWay (s : State) (pair set : Nat) : Nat × Bool :=
  match firstWay (fun w => !(s.node pair set w).used) 4 with
  | some w => (w, false)
  | none =>
    match firstWay (fun w => s.nodeOld (s.node pair set w)) 4 with
    | some w => (w, false)
    | none => (s.oldestWay pair set, true)

/-- The judgement of R93 on a frame with sequence `seq` from `mac`: whether it is delivered, and the state after it. -/
def State.prpJudge (s : State) (pair : Nat) (mac : List Byte) (seq : Nat) : Bool × State :=
  let set := prpSet mac
  let m := leNat mac
  match firstWay (fun w => (s.node pair set w).used && (s.node pair set w).mac = m) 4 with
  | none =>
    let (w, evict) := s.newWay pair set
    let s := if evict then s.count (Reg.ETH_PRP_EVICT_CNT pair) else s
    (true, s.setNode pair set w { used := true, mac := m, high := seq, win := 1, last := s.time.ticks })
  | some w =>
    let e := s.node pair set w
    if s.nodeOld e then (true, s.setNode pair set w { e with high := seq, win := 1, last := s.time.ticks })
    else
      let e := { e with last := s.time.ticks }
      let d := sInt 16 (65536 + seq - e.high)
      if 0 < d then
        let win : BitVec 64 := if d < 64 then (e.win.shiftLeft d.toNat) ||| 1#64 else 1#64
        (true, s.setNode pair set w { e with win := win, high := seq })
      else if -64 < d then
        if e.win.getLsbD (-d).toNat then (false, (s.setNode pair set w e).count (Reg.ETH_PRP_DUP_CNT pair))
        else (true, s.setNode pair set w { e with win := e.win ||| (1#64).shiftLeft (-d).toNat })
      else (true, (s.setNode pair set w e).count (Reg.ETH_PRP_OOW_CNT pair))

/-- A valid frame on a port of a pair that carries an RCT, of whatever class, ends the port's silence (R96). -/
def State.rctSeen (s : State) (p : Nat) (f : List Byte) (q : Parsed) : State :=
  if s.prpOn p && (rct f q.tagged).isSome then
    ({ s with eth := { s.eth with lastRct := Tbl.set s.eth.lastRct p s.time.ticks 0 } }).setF (Reg.ETH_PRP_STATUS (p / 2)) (p % 2) 1 0
  else s

/-- Duplicate discard of a valid frame on port `p` (R93): delivered or not, whether it carried no RCT, and the state. A received
supervision frame does not change the node table (R95). -/
def State.prpStep (s : State) (p : Nat) (f : List Byte) (q : Parsed) : Bool × Bool × State :=
  if s.prpOn p then
    match rct f q.tagged with
    | none => (true, true, s.count (Reg.ETH_RX_PRP_NO_RCT p))
    | some (seq, lan) =>
      let s := if lan = 10 + p % 2 then s else (s.count (Reg.ETH_RX_PRP_WRONG_LAN p)).raise 19
      if q.etype = 0x88FB then (true, false, s)
      else
        let s := (s.checkFound 3 (8 * prpSet (slice f 6 6))).2
        let (ok, s) := s.prpJudge (p / 2) (slice f 6 6) seq
        (ok, false, s)
  else (true, false, s)

/-! ## Transmission (R95, R113) -/

/-- A frame queued on one port: during low-power idle it starts no earlier than TW µs after the queueing (R88). -/
def State.enqueueTx (s : State) (p queue : Nat) (f : List Byte) : State :=
  let ready := if s.thruBit (Reg.ETH_PORT_STATUS p) 1 then s.time.ticks + s.rf (Reg.ETH_LPI_CTRL p) 16 10 * 250 else 0
  let t : TxFrame := { queue := queue, octets := f, ready := ready }
  { s with eth := { s.eth with txq := Tbl.set s.eth.txq p (Tbl.get s.eth.txq p [] ++ [t]) [] } }

/-- A frame with an RCT appended: padded to 60 octets less the trailer, sequence, LAN and LSDUsize (R92, R95). -/
def withRct (f : List Byte) (seq lan : Nat) : List Byte :=
  let f := f ++ List.replicate (54 - f.length) 0
  let size := f.length + 6 - 14 - (if be16 f 12 = 0x8100 then 4 else 0)
  f ++ beBytes 2 seq ++ beBytes 2 (lan * 4096 + size % 4096) ++ [0x88, 0xFB]

/-- A frame sent by way of port `p`: on a PRP pair it goes out on both ports with an RCT, except a PTP message (R95). -/
def State.ethSend (s : State) (p queue : Nat) (f : List Byte) : State :=
  if s.prpOn p && decide ((parse f).etype ≠ 0x88F7) then
    let a := p / 2 * 2
    let seq := Tbl.get s.eth.prpSeq (p / 2) 0
    let s := (s.enqueueTx a queue (withRct f seq 10)).enqueueTx (a + 1) queue (withRct f seq 11)
    { s with eth := { s.eth with prpSeq := Tbl.set s.eth.prpSeq (p / 2) ((seq + 1) % 65536) 0 } }
  else s.enqueueTx p queue f

/-- The frame of highest priority that may start at tick `now`, oldest first, and the rest (R88, R113). -/
def pickTx (now : Nat) (l : List TxFrame) : Option (TxFrame × List TxFrame) :=
  match firstWay (fun q => l.any fun t => t.queue = q && t.ready ≤ now) 5 with
  | none => none
  | some q =>
    match l.find? (fun t => t.queue = q && t.ready ≤ now) with
    | some t => some (t, l.erase t)
    | none => none

/-- The key of the PTP authentication binding, the first binding of use PTP (R68, R404, R405). -/
def State.ptpKey (s : State) : Option (List Byte × Bool) × State :=
  match s.firstBind 0 0 s.bindCnt with
  | some b => s.takeBound engPtp b 0 false
  | none => (none, s)

/-- The authentication check of R68 on a received PTP message: a failing ICV, or no TLV where the pattern requires one, fails it. -/
def State.ptpPass (s : State) (f : List Byte) : Bool × State :=
  let auth := wf (s.pat 3) 0 3 1 = 1
  match s.ptpKey with
  | (some (k, _), s) => (match Config.ptpAuth k f with
    | some ok => ok
    | none => !auth, s)
  | (none, s) => (!auth, s)

/-- A PTP message as it leaves (R68): with its authentication TLV where the pattern requires them and the key is delivered. -/
def State.ptpSealed (s : State) (f : List Byte) : List Byte × State :=
  if (parse f).etype = 0x88F7 && wf (s.pat 3) 0 3 1 = 1 then
    match s.ptpKey with
    | (some (k, _), s) => (Config.ptpAuthSeal k f, s)
    | (none, s) => (f, s)
  else (f, s)

/-- What firmware and the host have queued since the port's last start (R95, R113; log 105: the spec gives no interface for it): each frame
with its queue, PTP, firmware or host. -/
def State.queueGiven (s : State) (p : Nat) (given : List (TxSource × List Byte)) : State :=
  s.forEach (fun g s => s.ethSend p (match g.1 with
    | .ptp => 1
    | .firmware => 3
    | .host => 4) g.2) given

/-- A PTP event message: its offset in the frame, behind at most one tag (R69, R87). -/
def ptpEvent (f : List Byte) : Option Nat :=
  let q := parse f
  if q.etype = 0x88F7 && oct f q.etEnd % 16 < 4 then some q.etEnd else none

/-- A port starts its next frame (R88, R95, R113, R69): waking first from low-power idle. -/
def frameTransmit (port : Fin 4) (given : List (TxSource × List Byte)) (s : State) : State :=
  let p := port.val
  if s.thruBit (Reg.ETH_PORT_STATUS p) 0 && s.pwr.state ≠ Power.hold then
    let s := s.queueGiven p given
    match pickTx s.time.ticks (Tbl.get s.eth.txq p []) with
    | none => s
    | some (t, rest) =>
      let s := s.setThruF (Reg.ETH_PORT_STATUS p) 1 1 0
      let (octets, s) := s.ptpSealed t.octets
      let t := { t with octets := octets }
      let s := { s with eth := { s.eth with
        txq := Tbl.set s.eth.txq p rest []
        idleSince := Tbl.set s.eth.idleSince p s.time.ticks 0 } }
      let s := (s.count (Reg.ETH_TX_FRAMES p)).countBy (Reg.ETH_TX_OCTETS p) (max 64 (t.octets.length + 4))
      let s := match ptpEvent t.octets with
        | some o => s.txtsPush { port := p, msgType := oct t.octets o % 16, seqId := be16 t.octets (o + 30), epoch := s.epoch, time := s.txStamp p }
        | none => s
      s.emit (.frame p t.octets)
  else s

/-- FRAME_TRANSMIT. -/
def execFrameTransmit (port : Fin 4) (given : List (TxSource × List Byte)) (s : State) : Host.Outcome State Fault Refusal :=
  live (frameTransmit port given) s

/-- PRP_LIFECHK in ticks. -/
def State.lifechk (s : State) : Nat := 250000 * wf (s.pat 2) 2 0 16

/-- A PRP supervision frame on both ports of a pair (R95). Its body follows IEC 62439-3. -/
def prpSupervision (pair : Fin 2) (s : State) : State :=
  let q := pair.val
  if s.prpOn (2 * q) && decide (Tbl.get s.eth.supAt q 0 + s.lifechk ≤ s.time.ticks) then
    let n := Tbl.get s.eth.supSeq q 0
    let mac := s.portMac (2 * q)
    let f := [0x01, 0x15, 0x4E, 0x00, 0x01, 0x00] ++ mac ++ [0x88, 0xFB] ++ beBytes 2 1 ++ beBytes 2 n ++ [20, 6] ++ mac ++ [0, 0]
    let s := s.ethSend (2 * q) 3 f
    { s with eth := { s.eth with
      supSeq := Tbl.set s.eth.supSeq q ((n + 1) % 65536) 0
      supAt := Tbl.set s.eth.supAt q s.time.ticks 0 } }
  else s

/-- PRP_SUPERVISION. -/
def execPrpSupervision (pair : Fin 2) (s : State) : Host.Outcome State Fault Refusal := live (prpSupervision pair) s

/-- A port of a pair becomes silent (R96). -/
def prpLanFail (port : Fin 4) (s : State) : State :=
  let p := port.val
  let partner := if p % 2 = 0 then p + 1 else p - 1
  let limit := 2 * s.lifechk
  if s.prpOn p && !s.bit (Reg.ETH_PRP_STATUS (p / 2)) (p % 2) && decide (Tbl.get s.eth.lastRct p 0 + limit ≤ s.time.ticks) &&
      decide (s.time.ticks < Tbl.get s.eth.lastRct partner 0 + limit) then
    (s.setF (Reg.ETH_PRP_STATUS (p / 2)) (p % 2) 1 1).raise 18
  else s

/-- PRP_LAN_FAIL. -/
def execPrpLanFail (port : Fin 4) (s : State) : Host.Outcome State Fault Refusal := running (prpLanFail port) s

/-! ## The class queues (R103, R104, R110) -/

/-- Octets held in the measurement queue. -/
def mqBytes (l : List MqFrame) : Nat := l.foldl (fun n f => n + f.payload.length) 0

/-- Oldest frames overwritten until one more of `n` octets fits (R103). -/
def State.mqRoom (s : State) (n : Nat) : List MqFrame → State
  | [] => { s with eth := { s.eth with mq := [] } }
  | f :: t =>
    if t.length + 1 < 8192 && mqBytes (f :: t) + n ≤ 4194304 then { s with eth := { s.eth with mq := f :: t } }
    else ((s.count Reg.ETH_MQ_LOST_CNT).raise 20).mqRoom n t

/-- ETH_MQ_DEPTH shows the queue (R115). -/
def State.showMq (s : State) : State := s.setReg Reg.ETH_MQ_DEPTH s.eth.mq.length

/-- A frame enters the measurement queue (R103). -/
def State.mqPush (s : State) (f : MqFrame) : State :=
  let s := if s.eth.mq = [] then { s with eth := { s.eth with mqWatch := { since := s.time.ticks, raised := false } } } else s
  let s := s.mqRoom f.payload.length s.eth.mq
  ({ s with eth := { s.eth with mq := s.eth.mq ++ [f] } }).showMq

/-- A shared-SRAM address as an index into the SRAM: the 4 MiB at core address 0x1000_0000. -/
def sramIx (a : Nat) : Nat := a % 4194304

/-- Bytes written to shared SRAM. -/
def State.sramWrite (s : State) (a : Nat) (bs : List Byte) : State := { s with sram := Memory.write s.sram (sramIx a) bs }

/-- Bytes written to DDR5. -/
def State.ddrWrite (s : State) (a : Nat) (bs : List Byte) : State := { s with ddr := Memory.write s.ddr a bs }

/-- Address of time-queue entry `i`. -/
def State.tqAddr (s : State) (i : Nat) : Nat := s.rn Reg.ETH_TQ_BASE + 576 * (i % 256)

/-- ETH_TQ_HEAD shows the oldest entry of the time queue, the blank item when it is empty (R104). -/
def State.showTq (s : State) : State := s.setReg Reg.ETH_TQ_HEAD (if s.eth.tqCount = 0 then 0 else 2 ^ 31 + s.eth.tqHead)

/-- A frame enters the time queue (R104). `f` is without FCS, at most 512 octets. -/
def State.tqPush (s : State) (p : Nat) (f : List Byte) (rxts : Nat) : State :=
  let s := if s.eth.tqCount = 0 then
      ({ s with eth := { s.eth with tqWatch := { since := s.time.ticks, raised := false } } }).raise 22
    else s
  let s := if s.eth.tqCount < 256 then s
    else (({ s with eth := { s.eth with tqHead := (s.eth.tqHead + 1) % 256, tqCount := 255 } }).count Reg.ETH_TQ_LOST_CNT).raise 20
  let i := s.eth.tqHead + s.eth.tqCount
  let w0 := 2 ^ 31 + (f.length % 1024 + p * 2 ^ 12 + 2 ^ 14 * s.epoch)
  let body := leBytes 4 w0 ++ leBytes 4 (rxts % 2 ^ 32) ++ leBytes 8 (rxts / 2 ^ 32) ++ List.replicate 48 0 ++ f ++
    List.replicate (512 - f.length) 0
  let s := s.sramWrite (s.tqAddr i) body
  ({ s with eth := { s.eth with tqCount := s.eth.tqCount + 1 } }).showTq.count (Reg.ETH_RX_TIME p)

/-- A write of ETH_TQ_POP releases the head entry (R104). DESIGN CHOICE (log 105): the released entry's VALID bit in shared SRAM clears. -/
def tqPop (w : Word) (s : State) : State :=
  if w.getLsbD 0 && s.eth.tqCount ≠ 0 then
    let a := s.tqAddr s.eth.tqHead
    let s := s.sramWrite (a + 3) [Memory.byte s.sram (sramIx (a + 3)) &&& 0x7F]
    let t := { s.eth with tqHead := (s.eth.tqHead + 1) % 256, tqCount := s.eth.tqCount - 1,
                          tqWatch := { since := s.time.ticks, raised := false } }
    ({ s with eth := t }).showTq
  else s

/-- TQ_POP. -/
def execTqPop (who : Party) (w : Word) (s : State) : Host.Outcome State Fault Refusal :=
  live (written who Reg.ETH_TQ_POP w (tqPop w)) s

/-- A host-class frame staged, or dropped where its port's 256 KiB are full (R110). -/
def State.stage (s : State) (h : HostFrame) : State :=
  let used := (s.eth.staged.filter (fun x => x.port = h.port)).foldl (fun n x => n + x.octets.length) 0
  if used + h.octets.length ≤ 262144 then { s with eth := { s.eth with staged := s.eth.staged ++ [h] } }
  else (s.count (Reg.ETH_RX_HOST_OVR h.port)).count (Reg.ETH_RX_DROP h.port)

/-! ## The TCP receive path (R105 to R107) -/

/-- Word `i` of connection `n`. -/
def State.conn (s : State) (n i : Nat) : Nat := s.rn (Reg.ETH_TCP_CONN n i)

/-- The hardware side of connection `n`. -/
def State.tcpHw (s : State) (n : Nat) : TcpHw := Tbl.get s.eth.tcp n {}

/-- The hardware side of connection `n` set. -/
def State.setTcpHw (s : State) (n : Nat) (t : TcpHw) : State := { s with eth := { s.eth with tcp := Tbl.set s.eth.tcp n t {} } }

/-- Remote address of connection `n` as a big-endian number. -/
def State.connRaddr (s : State) (n : Nat) : Nat :=
  let bs := leBytes 4 (s.conn n 2) ++ leBytes 4 (s.conn n 3) ++ leBytes 4 (s.conn n 4) ++ leBytes 4 (s.conn n 5)
  if fld (s.conn n 0) 2 1 = 1 then beNat bs else beNat (bs.take 4)

/-- Connection `n` matches a segment (R105). -/
def State.connMatch (s : State) (n : Nat) (q : Parsed) : Bool :=
  let w0 := s.conn n 0
  fld w0 0 1 = 1 && (fld w0 2 1 = 1) = q.v6 && s.addrRec (fld w0 8 5) = (q.v6, q.daddr) && s.connRaddr n = q.saddr &&
    q.ports = some (fld (s.conn n 1) 16 16, fld (s.conn n 1) 0 16)

/-- The first connection among `n, …, n + k - 1` that matches. -/
def State.findConn (s : State) (q : Parsed) (n : Nat) : Nat → Option Nat
  | 0 => none
  | k + 1 => if s.connMatch n q then some n else s.findConn q (n + 1) k

/-- The TCP options hold only NOP, EOL and Timestamps; the TSval met, if any. -/
def tcpOpts : List Byte → Nat → Option (Option Nat)
  | _, 0 => some none
  | [], _ => some none
  | o :: t, n + 1 =>
    if o = 0 then some none
    else if o = 1 then tcpOpts t n
    else if o = 8 && oct t 0 = 10 then
      match tcpOpts (t.drop 9) n with
      | some _ => some (some (be32 t 1))
      | none => none
    else none

/-- A pure acknowledgement of connection `n` (R106): ack RCV_NXT, sequence SND_NXT, window WND, and Timestamps where TS is set. The
header fields the rule does not give (time to live) are free values. DESIGN CHOICE (log 105): it goes by the firmware queue of R113, which
places no acknowledgement. -/
def State.tcpAck (s : State) (n : Nat) : State :=
  let w0 := s.conn n 0
  let p := fld w0 4 2
  let (v6, laddr) := s.addrRec (fld w0 8 5)
  let ms := s.nowNs / 1000000 % 2 ^ 32
  let opt := if fld w0 3 1 = 1 then [1, 1, 8, 10] ++ beBytes 4 ms ++ beBytes 4 (s.conn n 9) else ([] : List Byte)
  let hlen := 20 + opt.length
  let tcp0 := beBytes 2 (fld (s.conn n 1) 0 16) ++ beBytes 2 (fld (s.conn n 1) 16 16) ++ beBytes 4 (s.conn n 7) ++
    beBytes 4 (s.conn n 6) ++ [BitVec.ofNat 8 (hlen / 4 * 16), 0x10] ++ beBytes 2 (s.conn n 8)
  let al := if v6 then 16 else 4
  let sum := sum16 (beBytes al laddr ++ beBytes al (s.connRaddr n)) + 6 + hlen + sum16 (tcp0 ++ [0, 0, 0, 0] ++ opt)
  let tcp := tcp0 ++ beBytes 2 (65535 - fold16 sum) ++ [0, 0] ++ opt
  let ttl := s.draw 8
  let ip := if v6 then [0x60, 0, 0, 0] ++ beBytes 2 hlen ++ [6, ttl] ++ beBytes 16 laddr ++ beBytes 16 (s.connRaddr n)
    else
      let h0 : List Byte := [0x45, 0] ++ beBytes 2 (20 + hlen) ++ [0, 0, 0, 0, ttl, 6]
      let a := beBytes 4 laddr ++ beBytes 4 (s.connRaddr n)
      h0 ++ beBytes 2 (65535 - fold16 (sum16 (h0 ++ a))) ++ a
  let f := (s.tcpHw n).rmac ++ s.portMac p ++ (if v6 then [0x86, 0xDD] else [0x08, 0x00]) ++ ip ++ tcp
  let s := s.drawn.setTcpHw n { s.tcpHw n with unacked := 0 }
  s.ethSend p 3 f

/-- ACK_US after the first unacknowledged segment (R106). -/
def tcpAckTimer (conn : Fin 4096) (s : State) : State :=
  let n := conn.val
  if fld (s.conn n 0) 0 2 = 1 && (s.tcpHw n).unacked ≠ 0 &&
      decide ((s.tcpHw n).firstAt + wf (s.pat 2) 7 16 16 * 250 ≤ s.time.ticks) then s.tcpAck n
  else s

/-- TCP_ACK_TIMER. -/
def execTcpAckTimer (conn : Fin 4096) (s : State) : Host.Outcome State Fault Refusal := live (tcpAckTimer conn) s

/-- Chunks of the shared pool that the unframed octets of every connection other than `n` occupy (R107). -/
def State.poolUsed (s : State) (n : Nat) : Nat :=
  s.eth.tcp.foldl (fun c e => if e.1 = n then c else c + (e.2.stream.length + 255) / 256) 0

/-- C37.118 frames taken off the front of a byte stream: frames found, octets left, and whether the stream is sound (R107). DESIGN CHOICE
(log 105): a FRAMESIZE below 4, shorter than its own field, is unsound as one above 2,048 is. -/
def frameStream (st : List Byte) : Nat → List (List Byte) × List Byte × Bool
  | 0 => ([], st, true)
  | k + 1 =>
    match st with
    | [] => ([], [], true)
    | b :: _ =>
      if b ≠ 0xAA then ([], st, false)
      else if st.length < 4 then ([], st, true)
      else
        let size := be16 st 2
        if 2048 < size || size < 4 then ([], st, false)
        else if st.length < size then ([], st, true)
        else
          let (fs, rest, ok) := frameStream (st.drop size) k
          (st.take size :: fs, rest, ok)

/-- ETH_TCP_SW_MAP shows whether connection `n` is in use in SW mode (R115). -/
def State.showSw (s : State) (n : Nat) : State :=
  s.setF (Reg.ETH_TCP_SW_MAP (n / 32)) (n % 32) 1 (if fld (s.conn n 0) 0 2 = 3 then 1 else 0)

/-- Connection `n` switched to SW mode (R105, R107). -/
def State.toSw (s : State) (n : Nat) : State :=
  ((s.setF (Reg.ETH_TCP_CONN n 0) 1 1 1).showSw n).count Reg.ETH_TCP_SW_SEG |>.raise 26

/-- A segment handled by the table of R105; `h` is the frame as the core path would deliver it. DESIGN CHOICE (log 105): stream octets not
yet framed go to the core path as a host-class frame of their own, before the segment and with its flags and timestamp (R107); where the
table's last row switches the connection, its unframed octets and its unacknowledged count stay, and stand before the stream again once
MODE returns to 0. -/
def State.tcpSegment (s : State) (f : List Byte) (q : Parsed) (h : HostFrame) (rxts : Nat) : State :=
  match s.findConn q 0 4096 with
  | none => s.stage h
  | some n =>
    let s := (s.checkFound 3 (1 + 2 * n)).2
    if fld (s.conn n 0) 1 1 = 1 then s.stage h
    else
      let o := q.l4off
      let hlen := oct f (o + 12) / 16 * 4
      let flags := oct f (o + 13)
      let seq := be32 f (o + 4)
      let payload := (f.take q.stop).drop (o + hlen)
      let plen := payload.length
      let nxt := s.conn n 6
      let opts := tcpOpts (slice f (o + 20) (hlen - 20)) 40
      if seq = nxt && plen ≠ 0 && (flags = 0x10 || flags = 0x18) && opts.isSome then
        let hw := s.tcpHw n
        let (fs, rest, ok) := frameStream (hw.stream ++ payload) (hw.stream.length + plen + 1)
        let fits := decide (s.poolUsed n + (rest.length + 255) / 256 ≤ 4096)
        if ok && fits then
          let s := s.setReg (Reg.ETH_TCP_CONN n 6) ((nxt + plen) % 2 ^ 32)
          let s := match opts with
            | some (some ts) => s.setReg (Reg.ETH_TCP_CONN n 9) ts
            | _ => s
          let s := s.count Reg.ETH_TCP_HW_SEG
          let s := s.forEach (fun fr s => (s.mqPush {
            payload := fr, target := 1, port := h.port, v6 := q.v6, saddr := q.saddr, daddr := q.daddr,
            sport := (q.ports.getD (0, 0)).1, dport := (q.ports.getD (0, 0)).2, conn := n, rxts := rxts,
            epoch := s.epoch, host := { h with octets := fr, flen := fr.length } }).count (Reg.ETH_RX_MEAS h.port)) fs
          let s := s.setTcpHw n {
            stream := rest, unacked := hw.unacked + 1,
            firstAt := (if hw.unacked = 0 then s.time.ticks else hw.firstAt), rmac := slice f 6 6 }
          if wf (s.pat 2) 7 4 4 ≤ (s.tcpHw n).unacked then s.tcpAck n else s
        else
          let left := hw.stream
          let s := (s.toSw n).setTcpHw n { hw with stream := [] }
          let s := if left = [] then s else s.stage { h with octets := left, flen := left.length }
          s.stage h
      else if plen ≠ 0 && decide ((2 ^ 33 + nxt - (seq + plen)) % 2 ^ 32 < 2 ^ 31) then
        (((s.count Reg.ETH_TCP_OLD_SEG).count (Reg.ETH_RX_DROP h.port)).setTcpHw n { s.tcpHw n with rmac := slice f 6 6 }).tcpAck n
      else if seq = nxt && plen = 0 && flags = 0x10 then s.stage h
      else (s.toSw n).stage h

/-! ## Reception (R89 to R91) -/

/-- The size and error conditions of a frame, in the order of R91: FRAGMENT, RUNT, OVERSIZE, PHY_ERR, FCS_ERR. -/
structure RxCond where
  fragment : Bool
  runt : Bool
  oversize : Bool
  phy : Bool
  fcs : Bool
deriving DecidableEq, Repr

/-- Conditions of a received frame (R90). -/
def State.rxCond (s : State) (rx : RxFrame) : RxCond :=
  let n := rx.octets.length
  { fragment := decide (n < 18), runt := decide (18 ≤ n) && decide (n < 64), oversize := decide (s.frameMax < n),
    phy := rx.phyErr, fcs := rx.fcsErr }

/-- A frame has none of the conditions. -/
def RxCond.clean (c : RxCond) : Bool := !(c.fragment || c.runt || c.oversize || c.phy || c.fcs)

/-- The one counter a frame adds to (R91), with event 17 for FCS and PHY errors (R116). -/
def State.countRx (s : State) (p len : Nat) (c : RxCond) : State :=
  if c.fragment then s.count (Reg.ETH_RX_FRAGMENT p)
  else if c.runt then s.count (Reg.ETH_RX_RUNT p)
  else if c.oversize then s.count (Reg.ETH_RX_OVERSIZE p)
  else if c.phy then (s.count (Reg.ETH_RX_PHY_ERR p)).raise 17
  else if c.fcs then (s.count (Reg.ETH_RX_FCS_ERR p)).raise 17
  else (s.count (Reg.ETH_RX_FRAMES p)).countBy (Reg.ETH_RX_OCTETS p) len

/-- A frame dropped. -/
def State.dropRx (s : State) (p : Nat) : State := s.count (Reg.ETH_RX_DROP p)

/-- Error flags of a delivered frame (R91, R109), as bits of word 2. -/
def rxFlags (c : RxCond) (ipErr l4Err unmatched noRct : Bool) : Nat :=
  let b := fun (x : Bool) (i : Nat) => if x then 2 ^ i else 0
  b c.runt 20 + b c.oversize 21 + b c.fcs 22 + b c.phy 23 + b ipErr 24 + b l4Err 25 + b unmatched 26 + b noRct 27

/-- Steps 5 to 7 of R89 for a host-class frame. -/
def State.rxHost (s : State) (p : Nat) (rx : RxFrame) (f : List Byte) (q : Parsed) (c : RxCond) (ring rule : Nat)
    (unmatched : Bool) : State :=
  if c.fragment || (!c.clean && !s.errDeliv) then s.dropRx p
  else
    let (ok, noRct, s) := if c.clean then s.prpStep p f q else (true, false, s)
    if !ok then s.dropRx p
    else
      let s := if q.ipErr then (s.count (Reg.ETH_RX_IP_ERR p)).raise 17 else s
      let s := if q.l4Err then (s.count (Reg.ETH_RX_L4_ERR p)).raise 17 else s
      if (q.ipErr || q.l4Err) && !s.errDeliv then s.dropRx p
      else
        s.stage { octets := (if c.oversize then rx.octets.take s.frameMax else f), ring := ring, port := p,
                  flags := rxFlags c q.ipErr q.l4Err unmatched noRct, epoch := s.epoch, rule := rule, vid := q.vid,
                  tagged := q.tagged, pcp := q.pcp, rxts := s.rxStamp p rx.skew, flen := min 65535 rx.octets.length }

/-- Steps 5 to 7 of R89 for a measurement-class frame; in PARK, and while ingest stops, it is dropped (R32, R443, R444). -/
def State.rxMeas (s : State) (p : Nat) (rx : RxFrame) (f : List Byte) (q : Parsed) (c : RxCond) (target rule : Nat) : State :=
  if !c.clean || s.pwr.state ≠ Power.run || s.stopping then s.dropRx p
  else
    let (ok, noRct, s) := s.prpStep p f q
    if !ok then s.dropRx p
    else if q.frag then (s.count (Reg.ETH_RX_IP_FRAG p)).dropRx p
    else if q.ipErr then ((s.count (Reg.ETH_RX_IP_ERR p)).raise 17).dropRx p
    else if q.l4Err || (target = 1 && q.tcpErr) then ((s.count (Reg.ETH_RX_L4_ERR p)).raise 17).dropRx p
    else
      let ts := s.rxStamp p rx.skew
      if target = 1 then
        s.tcpSegment f q {
          octets := f, ring := wf (s.pat 2) 7 0 3, port := p, flags := rxFlags c false false false noRct,
          epoch := s.epoch, rule := rule, vid := q.vid, tagged := q.tagged, pcp := q.pcp, rxts := ts,
          flen := min 65535 rx.octets.length } ts
      else
        (s.mqPush {
          payload := (f.take q.stop).drop (q.l4off + 8), target := target, port := p, v6 := q.v6, saddr := q.saddr,
          daddr := q.daddr, sport := (q.ports.getD (0, 0)).1, dport := (q.ports.getD (0, 0)).2, conn := 0, rxts := ts,
          epoch := s.epoch, host := {
            octets := f, ring := 0, port := p, flags := rxFlags c false false false noRct, epoch := s.epoch, rule := rule,
            vid := q.vid, tagged := q.tagged, pcp := q.pcp, rxts := ts, flen := min 65535 rx.octets.length } }).count (Reg.ETH_RX_MEAS p)

/-- Steps 4 and 7 of R89 for a time-class frame (R90, R104), with the authentication check of R68. -/
def State.rxTime (s : State) (p : Nat) (rx : RxFrame) (f : List Byte) (c : RxCond) : State :=
  if !c.clean then s.dropRx p
  else if 512 < rx.octets.length then (s.count (Reg.ETH_RX_TIME_LONG p)).dropRx p
  else
    match s.ptpPass f with
    | (true, s) => s.tqPush p f (s.rxStamp p rx.skew)
    | (false, s) => ((s.count Reg.TIME_AUTH_FAIL_CNT).raise 8).dropRx p

/-- The address filter (R89 step 2): the port's unicast address and every group address pass. -/
def State.addrOk (s : State) (p : Nat) (f : List Byte) : Bool :=
  f.length < 6 || oct f 0 % 2 = 1 || f.take 6 = s.portMac p

/-- A port receives frames: image in force, port enabled and trained, out of reset and not in HOLD (R86, R441). -/
def State.rxOpen (s : State) (p : Nat) : Bool :=
  s.img.inForce && s.portEn p && s.thruBit (Reg.ETH_PORT_STATUS p) 0 && s.pwr.seq = none && s.pwr.state ≠ Power.hold

/-- A frame received on a port (R89). -/
def frameReceive (port : Fin 4) (rx : RxFrame) (s : State) : State :=
  let p := port.val
  if !s.rxOpen p then s
  else if !s.addrOk p rx.octets then (s.count (Reg.ETH_RX_ADDR_FILT p)).dropRx p
  else
    let f := rx.octets.take (rx.octets.length - 4)
    let q := parse f
    let c := s.rxCond rx
    let cls := s.classify p f q
    let s := s.countRx p rx.octets.length c
    let s := if c.clean && !(cls = .time && 512 < rx.octets.length) then s.rctSeen p f q else s
    match cls with
    | .macControl => (if c.clean then s.count (Reg.ETH_RX_PAUSE p) else s).dropRx p
    | .time => s.rxTime p rx f c
    | .measurement t r => s.rxMeas p rx f q c t r
    | .host ring r => s.rxHost p rx f q c ring r false
    | .drop => s.dropRx p
    | .unmatched =>
      let s := s.count (Reg.ETH_RX_UNMATCHED p)
      if wf (s.pat 2) 0 16 1 = 1 then s.rxHost p rx f q c 0 0 true else s.dropRx p

/-- FRAME_RECEIVE; `errs` is what the checkers of the memories it reads find. -/
def execFrameReceive (port : Fin 4) (rx : RxFrame) (errs : Tbl MemErr) (s : State) : Host.Outcome State Fault Refusal :=
  live (withErrs errs (frameReceive port rx)) s

/-! ## Host receive rings (R108 to R112) -/

/-- Ring `r` beyond its registers. -/
def State.hrx (s : State) (r : Nat) : HrxRing := Tbl.get s.eth.rings r {}

/-- Ring `r` beyond its registers, set. -/
def State.setHrx (s : State) (r : Nat) (h : HrxRing) : State := { s with eth := { s.eth with rings := Tbl.set s.eth.rings r h {} } }

/-- A write of ETH_HRX_CFG[r] (R108): BASE and CFG take effect, and HEAD and TAIL return to 0, as EN rises. -/
def hrxRingEnable (ring : Fin 8) (w : Word) (s : State) : State :=
  let r := ring.val
  let was := s.bit (Reg.ETH_HRX_CFG r) 17
  let v := w.toNat &&& 0x37F1F
  let s := s.setReg (Reg.ETH_HRX_CFG r) v
  if fld v 17 1 = 1 && !was then
    let s := (s.setReg (Reg.ETH_HRX_HEAD r) 0).setReg (Reg.ETH_HRX_TAIL r) 0
    s.setHrx r { base := s.rn (Reg.ETH_HRX_BASE_LO r) + 2 ^ 32 * s.rn (Reg.ETH_HRX_BASE_HI r), log2n := fld v 0 5,
                 bufsz := fld v 8 7 * 256, firmware := fld v 16 1 = 1 }
  else s

/-- HRX_RING_ENABLE. -/
def execHrxRingEnable (who : Party) (ring : Fin 8) (w : Word) (s : State) : Host.Outcome State Fault Refusal :=
  live (written who (Reg.ETH_HRX_CFG ring.val) w (hrxRingEnable ring w)) s

/-- A write of ETH_HRX_TAIL[r] (R108). -/
def hrxTailWrite (ring : Fin 8) (w : Word) (s : State) : State := s.setReg (Reg.ETH_HRX_TAIL ring.val) (w.toNat % 2 ^ 16)

/-- HRX_TAIL_WRITE. -/
def execHrxTailWrite (who : Party) (ring : Fin 8) (w : Word) (s : State) : Host.Outcome State Fault Refusal :=
  live (written who (Reg.ETH_HRX_TAIL ring.val) w (hrxTailWrite ring w)) s

/-- Bytes written where a ring lies: DDR5 for a firmware-owned ring, host memory by DMA otherwise. -/
def State.ringWrite (s : State) (fw : Bool) (a : Nat) (bs : List Byte) : State :=
  if fw then s.ddrWrite a bs else s.emit (.dma a bs)

/-- Words 2 to 7 of a descriptor (R109), with DONE as given. -/
def descWords (h : HostFrame) (len : Nat) (sop eop trunc dn : Bool) : List Byte :=
  let b := fun (x : Bool) (i : Nat) => if x then 2 ^ i else 0
  let w2 := len % 65536 + b sop 16 + b eop 17 + b dn 18 + b trunc 19 + h.flags + 2 ^ 28 * (h.port % 4) + 2 ^ 30 * (h.epoch % 4)
  let w3 := h.rule % 128 + h.vid % 4096 * 2 ^ 8 + b h.tagged 20 + 2 ^ 21 * (h.pcp % 8)
  leBytes 4 w2 ++ leBytes 4 w3 ++ leBytes 12 (if sop then h.rxts else 0) ++ leBytes 4 (if eop then h.flen else 0)

/-- Buffers a frame of `rem` octets takes from `k` on while descriptors remain: the octets written into each (R110). -/
def fillBufs (bufsz : Nat) (rem avail : Nat) : Nat → List Nat × Nat
  | 0 => ([], rem)
  | n + 1 =>
    if rem = 0 || avail = 0 then ([], rem)
    else
      let m := min rem bufsz
      let (l, r) := fillBufs bufsz (rem - m) (avail - 1) n
      (m :: l, r)

/-- The buffers of a frame written: each takes the next octets (R110). -/
def State.writeBufs (s : State) (fw : Bool) (bytes : List Byte) : List Nat → List Nat → State
  | m :: ms, a :: as => ((s.ringWrite fw a (bytes.take m))).writeBufs fw (bytes.drop m) ms as
  | _, _ => s

/-- Completed frames of a ring towards its interrupt (R112). -/
def State.hrxDone (s : State) (r : Nat) : State :=
  let h := s.hrx r
  let s := s.setHrx r { h with since := h.since + 1, firstAt := if h.since = 0 then s.time.ticks else h.firstAt }
  let count := s.rf (Reg.ETH_HRX_IRQ r) 0 16
  if count ≠ 0 && decide (count ≤ h.since + 1) && !s.bit Reg.ETH_HRX_PEND r then (s.setF Reg.ETH_HRX_PEND r 1 1).raise 24 else s

/-- The `k` descriptors of a frame completed (R111): words 2 to 7 with DONE = 0, then DONE from the last back to the first, then HEAD. -/
def State.completeFrame (s : State) (r : Nat) (h : HostFrame) (lens : List Nat) (trunc : Bool) : State :=
  let ring := s.hrx r
  let n := 2 ^ ring.log2n
  let head := s.rn (Reg.ETH_HRX_HEAD r)
  let k := lens.length
  let at_ := fun i => ring.base + 32 * ((head + i) % n) + 8
  let desc := fun i dn => descWords h (lens.getD i 0) (i = 0) (i + 1 = k) (trunc && i + 1 = k) dn
  let s := s.forEach (fun i s => s.ringWrite ring.firmware (at_ i) (desc i false)) (List.range k)
  let s := s.forEach (fun i s => s.ringWrite ring.firmware (at_ i) ((desc i true).take 4)) (List.range k).reverse
  let s := s.setReg (Reg.ETH_HRX_HEAD r) ((head + k) % n)
  (s.count (Reg.ETH_RX_HOST h.port)).hrxDone r

/-- BUF_ADDR of the descriptors from HEAD on: read in DDR5 for a firmware-owned ring, as they stand in host memory otherwise. -/
def State.bufAddrs (s : State) (r : Nat) (bufs : List (BitVec 64)) (k : Nat) : List Nat :=
  let ring := s.hrx r
  if ring.firmware then
    (List.range k).map fun i => leNat (Memory.read s.ddr (ring.base + 32 * ((s.rn (Reg.ETH_HRX_HEAD r) + i) % 2 ^ ring.log2n)) 8)
  else bufs.map BitVec.toNat

/-- A staged frame of ring `r` written (R110). -/
def State.writeStaged (s : State) (r : Nat) (bufs : List (BitVec 64)) (h : HostFrame) : State :=
  let ring := s.hrx r
  let n := 2 ^ ring.log2n
  let head := s.rn (Reg.ETH_HRX_HEAD r)
  let avail := (s.rn (Reg.ETH_HRX_TAIL r) + n - head) % n
  let stopped := if ring.firmware then s.pwr.state ≠ Power.run else !s.dmaOn
  if !s.bit (Reg.ETH_HRX_CFG r) 17 || stopped then (s.count (Reg.ETH_HRX_NOBUF_CNT r)).dropRx h.port
  else if avail = 0 then ((s.count (Reg.ETH_HRX_NOBUF_CNT r)).dropRx h.port).raise 25
  else
    let (lens, rem) := fillBufs ring.bufsz h.octets.length avail (h.octets.length + 1)
    let s1 := s.writeBufs ring.firmware h.octets lens (s.bufAddrs r bufs lens.length)
    if rem = 0 then s1.completeFrame r h lens false
    else
      let s2 := if s1.errDeliv then s1.completeFrame r h lens true else s1.dropRx h.port
      (s2.count (Reg.ETH_HRX_TRUNC_CNT r)).raise 25

/-- The oldest staged frame of a ring is written (R110). -/
def hostRingWrite (ring : Fin 8) (bufs : List (BitVec 64)) (s : State) : State :=
  match s.eth.staged.find? (fun h => h.ring = ring.val) with
  | none => s
  | some h => ({ s with eth := { s.eth with staged := s.eth.staged.erase h } }).writeStaged ring.val bufs h

/-- HOST_RING_WRITE. -/
def execHostRingWrite (ring : Fin 8) (bufs : List (BitVec 64)) (s : State) : Host.Outcome State Fault Refusal :=
  live (hostRingWrite ring bufs) s

/-- TIME µs after the first completed frame (R112). -/
def hrxIrqTimer (ring : Fin 8) (s : State) : State :=
  let r := ring.val
  let h := s.hrx r
  let irq := s.rn (Reg.ETH_HRX_IRQ r)
  if h.since ≠ 0 && fld irq 0 16 ≠ 0 && decide (h.firstAt + fld irq 16 16 * 250 ≤ s.time.ticks) && !s.bit Reg.ETH_HRX_PEND r then
    (s.setF Reg.ETH_HRX_PEND r 1 1).raise 24
  else s

/-- A clear of ETH_HRX_PEND: the frames of each ring cleared count anew (R112). -/
def hrxPendClear (w : Word) (s : State) : State :=
  s.forRange (fun r s => if w.getLsbD r then (s.setF Reg.ETH_HRX_PEND r 1 0).setHrx r { s.hrx r with since := 0 } else s) 0 8

/-- HRX_IRQ_TIMER. -/
def execHrxIrqTimer (ring : Fin 8) (s : State) : Host.Outcome State Fault Refusal := live (hrxIrqTimer ring) s

/-! ## Links and low-power idle (R85, R86, R88) -/

/-- SPEED and FEC of port `p` (R85, R114): 1 1000BASE-X, 2 10GBASE-R, 3 25GBASE-R. -/
def State.portSpeed (s : State) (p : Nat) : Nat × Nat :=
  if 2 ≤ p then (1, 0)
  else match wf (s.pat 2) 0 (4 + 2 * p) 2 with
    | 0 => (2, 0)
    | 1 => (3, 0)
    | _ => (3, 1)

/-- An enabled port trains (R86). -/
def linkUp (port : Fin 4) (s : State) : State :=
  let p := port.val
  if s.img.inForce && s.portEn p && s.pwr.state ≠ Power.hold && !s.thruBit (Reg.ETH_PORT_STATUS p) 0 then
    let (sp, fec) := s.portSpeed p
    let an := if 2 ≤ p then wf (s.pat 2) 0 (6 + p) 1 else 0
    let s := { s with eth := { s.eth with idleSince := Tbl.set s.eth.idleSince p s.time.ticks 0 } }
    (s.setThru (Reg.ETH_PORT_STATUS p) (1 + sp * 2 ^ 3 + fec * 2 ^ 5 + an * 2 ^ 6)).raise 16
  else s

/-- LINK_UP. -/
def execLinkUp (port : Fin 4) (s : State) : Host.Outcome State Fault Refusal := running (linkUp port) s

/-- A port brought down: its status clears, and event 16 where its link was up. -/
def State.portDown (s : State) (p : Nat) : State :=
  if s.thruBit (Reg.ETH_PORT_STATUS p) 0 then (s.setThru (Reg.ETH_PORT_STATUS p) 0).raise 16 else s.setThru (Reg.ETH_PORT_STATUS p) 0

/-- A trained link is lost (R86). -/
def linkDown (port : Fin 4) (s : State) : State :=
  let p := port.val
  if s.thruBit (Reg.ETH_PORT_STATUS p) 0 then
    let s := s.portDown p
    if s.img.inForce then s.count (Reg.ETH_LINK_CNT p) else s
  else s

/-- LINK_DOWN. -/
def execLinkDown (port : Fin 4) (s : State) : Host.Outcome State Fault Refusal := running (linkDown port) s

/-- Port `p` may use low-power idle (R85, R88). -/
def State.lpiOk (s : State) (p : Nat) : Bool :=
  s.feat 10 && wf (s.pat 2) 0 (20 + p) 1 = 1 && (s.portSpeed p).1 ≠ 3 && s.thruBit (Reg.ETH_PORT_STATUS p) 0

/-- An idle transmitter enters low-power idle (R88). -/
def lpiTxEnter (port : Fin 4) (s : State) : State :=
  let p := port.val
  if s.lpiOk p && s.bit (Reg.ETH_LPI_CTRL p) 0 && !s.thruBit (Reg.ETH_PORT_STATUS p) 1 && Tbl.get s.eth.txq p [] = [] &&
      decide (Tbl.get s.eth.idleSince p 0 + s.rn (Reg.ETH_LPI_IDLE p) * 250 ≤ s.time.ticks) then
    (s.setThruF (Reg.ETH_PORT_STATUS p) 1 1 1).count (Reg.ETH_LPI_TX_CNT p)
  else s

/-- LPI_TX_ENTER. -/
def execLpiTxEnter (port : Fin 4) (s : State) : Host.Outcome State Fault Refusal := running (lpiTxEnter port) s

/-- The link partner enters or leaves low-power idle (R88). -/
def lpiRx (port : Fin 4) (enter : Bool) (s : State) : State :=
  let p := port.val
  if s.lpiOk p then
    let was := s.thruBit (Reg.ETH_PORT_STATUS p) 2
    let s := s.setThruF (Reg.ETH_PORT_STATUS p) 2 1 (if enter then 1 else 0)
    if enter && !was then s.count (Reg.ETH_LPI_RX_CNT p) else s
  else s

/-- LPI_RX. -/
def execLpiRx (port : Fin 4) (enter : Bool) (s : State) : Host.Outcome State Fault Refusal := running (lpiRx port enter) s

/-- The PORTS pattern applied (R86, R94, R98): every port is brought down to retrain, and the node tables clear. -/
def State.applyPorts (s : State) : State :=
  let b := s.pat 2
  let s := (s.setReg Reg.ETH_CFG (word b 0)).setReg Reg.ETH_LIMITS (wf b 1 0 14)
  let s := s.setReg Reg.TIME_TSPOINT (wf b 0 12 4)
  let s := { s with eth := { s.eth with nodes := [], supAt := [], lastRct := [(0, s.time.ticks), (1, s.time.ticks),
    (2, s.time.ticks), (3, s.time.ticks)].filter (fun e => !decide (e.2 = 0)) } }
  s.forEach (fun p s =>
    let tw := wf b (4 + p / 2) (16 * (p % 2)) 10
    let s := ((s.portDown p).setReg (Reg.ETH_MAC_LO p) (word b (8 + 2 * p))).setReg (Reg.ETH_MAC_HI p) (wf b (9 + 2 * p) 0 16)
    (s.setReg (Reg.ETH_LPI_CTRL p) (2 ^ 16 * tw)).setReg (Reg.ETH_LPI_IDLE p) (wf b 6 0 16)) [0, 1, 2, 3]

end Sys2Proof.Machine
end

