-- ==== Sys2Proof/Machine/Fifo.lean ====
section
/-! DEFINITION. Cross-clock FIFOs (R166): occupancy, stale-tail watches, and the crossings of R167. -/
namespace Sys2Proof.Machine
open Sys2Proof

/-- A list as a FIFO of `cap` items after `x` is appended; whether the oldest was lost. -/
def fifoPush {α : Type} (cap : Nat) (l : List α) (x : α) : List α × Bool :=
  if l.length < cap then (l ++ [x], false) else (l.tail ++ [x], true)

/-- The watch of a FIFO after a write: a write into an empty FIFO restarts the timer (R166). -/
def State.watchWrite (s : State) (wasEmpty : Bool) (w : Watch) : Watch :=
  if wasEmpty then { since := s.time.ticks, raised := false } else w

/-- The watch of a FIFO after a read of an item, which re-arms the timer. -/
def State.watchRead (s : State) : Watch := { since := s.time.ticks, raised := false }

/-- A non-empty FIFO has gone unread for `us` µs, and its stale event is not yet raised. -/
def State.staleDue (s : State) (w : Watch) (us : Nat) : Bool := !w.raised && decide (w.since + us * 250 ≤ s.time.ticks)

/-! ## The crossings of the seam engine (R167) -/

/-- Watch `i` of the seam engine's FIFOs. -/
def State.xWatch (s : State) (i : Nat) : Watch := Tbl.get s.seam.watch i {}

/-- Watch `i` set. -/
def State.setXWatch (s : State) (i : Nat) (w : Watch) : State :=
  { s with seam := { s.seam with watch := Tbl.set s.seam.watch i w {} } }

/-- SEAM_FIFO_STATUS of crossing `f` shows depth `d`. -/
def State.showFifo (s : State) (f d : Nat) : State :=
  s.setReg (Reg.SEAM_FIFO_STATUS f) (d % 65536 + (if d = 0 then 65536 else 0))

/-- Crossing `f` loses an item (R166, R167). -/
def State.xLost (s : State) (f : Nat) (lost : Bool) : State :=
  if lost then (s.count (Reg.SEAM_FIFO_LOST_CNT f)).raise (if f = 5 then 38 else 40) else s

/-- An item enters crossing 0, or crossing 1 where `bridge` holds. -/
def State.pushItem (s : State) (bridge : Bool) (it : Item) : State :=
  let f := if bridge then 1 else 0
  let l := if bridge then s.seam.bridge else s.seam.ingress
  let r := fifoPush (if bridge then 256 else 4096) l it
  let s := s.setXWatch f (s.watchWrite l.isEmpty (s.xWatch f))
  let s := if bridge then { s with seam := { s.seam with bridge := r.1 } } else { s with seam := { s.seam with ingress := r.1 } }
  (s.xLost f r.2).showFifo f r.1.length

/-- The next item of the crossings, the bridge first (R148), and the state without it. -/
def State.popItem (s : State) : Option Item × State :=
  match s.seam.bridge, s.seam.ingress with
  | it :: t, _ => (some it, (({ s with seam := { s.seam with bridge := t } }).setXWatch 1 s.watchRead).showFifo 1 t.length)
  | [], it :: t => (some it, (({ s with seam := { s.seam with ingress := t } }).setXWatch 0 s.watchRead).showFifo 0 t.length)
  | [], [] => (none, s)

/-- The deepest panel FIFO of crossing 2. -/
def State.tokenDepth (s : State) : Nat := s.seam.tokens.foldl (fun d e => max d e.2.length) 0

/-- A token enters panel `p`'s FIFO of crossing 2. -/
def State.pushToken (s : State) (p : Nat) (t : Token) : State :=
  let l := Tbl.get s.seam.tokens p []
  let r := fifoPush 64 l t
  let s := s.setXWatch (16 + p) (s.watchWrite l.isEmpty (s.xWatch (16 + p)))
  let s := { s with seam := { s.seam with tokens := Tbl.set s.seam.tokens p r.1 [] } }
  (s.xLost 2 r.2).showFifo 2 s.tokenDepth

/-- The next token of panel `p`. -/
def State.popToken (s : State) (p : Nat) : Option Token × State :=
  match Tbl.get s.seam.tokens p [] with
  | t :: rest =>
    let s := { s with seam := { s.seam with tokens := Tbl.set s.seam.tokens p rest [] } }
    (some t, (s.setXWatch (16 + p) s.watchRead).showFifo 2 s.tokenDepth)
  | [] => (none, s)

/-- An alarm entry enters crossing 3. -/
def State.pushAlarm (s : State) (e : AlarmEntry) : State :=
  let r := fifoPush 256 s.seam.alarms e
  let s := s.setXWatch 3 (s.watchWrite s.seam.alarms.isEmpty (s.xWatch 3))
  (({ s with seam := { s.seam with alarms := r.1 } }).xLost 3 r.2).showFifo 3 r.1.length

/-- The next entry of crossing 3. -/
def State.popAlarm (s : State) : Option AlarmEntry × State :=
  match s.seam.alarms with
  | e :: t => (some e, (({ s with seam := { s.seam with alarms := t } }).setXWatch 3 s.watchRead).showFifo 3 t.length)
  | [] => (none, s)

/-- A completion enters crossing 4. -/
def State.pushNote (s : State) (e : Note) : State :=
  let r := fifoPush 1024 s.seam.notes e
  let s := s.setXWatch 4 (s.watchWrite s.seam.notes.isEmpty (s.xWatch 4))
  (({ s with seam := { s.seam with notes := r.1 } }).xLost 4 r.2).showFifo 4 r.1.length

/-- The next completion of crossing 4. -/
def State.popNote (s : State) : Option Note × State :=
  match s.seam.notes with
  | e :: t => (some e, (({ s with seam := { s.seam with notes := t } }).setXWatch 4 s.watchRead).showFifo 4 t.length)
  | [] => (none, s)

end Sys2Proof.Machine
end

