-- ==== Sys2Proof/Machine/Dec.lean ====
section
/-! DEFINITION. Frame decoding (R117 to R133): the check order, conversion, R-SV streams, commands to sources and reinjection. -/
namespace Sys2Proof.Machine
open Sys2Proof

/-! ## The SOURCES pattern (R118 to R121) -/

/-- Word `i` of stream record `n`. -/
def strWord (b : List Byte) (n i : Nat) : Nat := word b (16 + 8 * n + i)

/-- Word `i` of source record `k`. -/
def srcWord (b : List Byte) (k i : Nat) : Nat := word b (16 + 8 * wf b 0 0 15 + 64 * k + i)

/-- Word `i` of command template `t`. -/
def tmplWord (b : List Byte) (t i : Nat) : Nat := word b (16 + 8 * wf b 0 0 15 + 64 * wf b 1 0 15 + 16 * t + i)

/-- The stream, of `n, …`, whose sources include `k` (R119). -/
def streamOfSrc (b : List Byte) (k n : Nat) : Nat → Option Nat
  | 0 => none
  | m + 1 =>
    let first := fld (strWord b n 1) 16 14
    if first ≤ k && k < first + fld (strWord b n 0) 8 8 then some n else streamOfSrc b k (n + 1) m

/-- Source `k` has the same descriptor in both SOURCES bodies: its stream's record and its own (R39). -/
def sameDescriptor (a b : List Byte) (k : Nat) : Bool :=
  let stream := fun (x : List Byte) => match streamOfSrc x k 0 (wf x 0 0 15) with
    | some n => (List.range 8).map (strWord x n)
    | none => []
  decide (stream a = stream b) && (List.range 64).all fun i => srcWord a k i = srcWord b k i

/-- The first stream of `n, …` that has protocol `proto`, identity `id` and, on TCP, connection `conn` (R122 order 4). -/
def findStream (b : List Byte) (proto id conn n : Nat) : Nat → Option Nat
  | 0 => none
  | k + 1 =>
    let w0 := strWord b n 0
    if fld w0 0 2 = proto && fld w0 16 16 = id && (proto ≠ 1 || fld (strWord b n 3) 16 12 = conn) then some n
    else findStream b proto id conn (n + 1) k

/-! ## Conversion (R124, R125) -/

/-- CRC-CCITT of C37.118 (polynomial 0x1021, initial value all ones). -/
def crcCcitt (bs : List Byte) : BitVec 16 :=
  bs.foldl (fun c b =>
    (List.range 8).foldl (fun x _ => if x.getLsbD 15 then (x <<< 1) ^^^ 0x1021#16 else x <<< 1)
      (c ^^^ (b.zeroExtend 16).shiftLeft 8)) 0xFFFF#16

/-- A raw field: an integer, or a float32 as significand and exponent of two; nothing for the absent tag. -/
abbrev Raw := Option (Int × Int)

/-- A signed 16-bit raw field at `i`; 0x8000 is the absent tag. -/
def raw16 (f : List Byte) (i : Nat) : Raw := if be16 f i = 0x8000 then none else some (sInt 16 (be16 f i), 0)

/-- A signed 16-bit raw field where R125 lists no absent tag. -/
def rawI16 (f : List Byte) (i : Nat) : Raw := some (sInt 16 (be16 f i), 0)

/-- An unsigned 16-bit raw field. -/
def rawU16 (f : List Byte) (i : Nat) : Raw := some (be16 f i, 0)

/-- A float32 raw field; NaN and infinity are absent. -/
def rawF32 (f : List Byte) (i : Nat) : Raw := f32 (be32 f i)

/-- A converted value with whether it saturated (R125). -/
structure Conv where
  v : Int
  sat : Bool
deriving DecidableEq, Repr

/-- Saturation of a converted count. -/
def convSat (c : Int) : Conv := { v := sat39 c, sat := over39 c }

/-- The scaling rule: x × M × 2^-E, rounded half to even. -/
def scale (x : Int × Int) (m e : Nat) : Conv := convSat (rheExp (x.1 * m) (x.2 - e))

/-- FREQ: a deviation in mHz, or Hz less the nominal frequency, to F40. -/
def convFreq (float : Bool) (fnom : Nat) (x : Int × Int) : Conv :=
  if float then
    convSat (if 0 ≤ x.2 then 2 ^ 28 * (x.1 * (2 ^ x.2.toNat : Nat) - fnom)
      else rhe (2 ^ 28 * (x.1 - fnom * (2 ^ (-x.2).toNat : Nat))) (2 ^ (-x.2).toNat))
  else convSat (rhe (2 ^ 28 * x.1) 1000)

/-- DFREQ: 0.01 Hz/s, or Hz/s, to F40. -/
def convRocof (float : Bool) (x : Int × Int) : Conv :=
  if float then convSat (rheExp x.1 (x.2 + 28)) else convSat (rhe (2 ^ 28 * x.1) 100)

/-- 2^40 / (2π × 10^4) with 23 fraction bits, rounded half to even (R125). -/
def angleK : Nat := 146794525164100

/-- 2^40 / (2π) × 2^256. -/
def radK : Nat := 20262771555603661688306319674820739012499097856641167087271000695165254863727085997493904

/-- A raw angle as A40: 10^-4 rad, float32 rad, or float32 degrees for R-SV. -/
def convAngle (float degrees : Bool) (x : Int × Int) : Nat :=
  if !float then uNat 40 (rhe (x.1 * angleK) (2 ^ 23))
  else if degrees then
    uNat 40 (if 0 ≤ x.2 + 40 then rhe (x.1 * (2 ^ (x.2 + 40).toNat : Nat)) 360 else rhe x.1 (360 * 2 ^ (-(x.2 + 40)).toNat))
  else uNat 40 (rheExp (x.1 * radK) (x.2 - 256))

/-- A converted lane: its value, INVALID, and the number of saturated parts. -/
structure Lane (α : Type) where
  val : α
  invalid : Bool
  sats : Nat

/-- A phasor of two converted parts, rotated where `a` is an angle. -/
def rotLane (p : Phasor) (sats : Nat) (a : Option Nat) : Lane Phasor :=
  match a with
  | none => { val := p, invalid := false, sats := sats }
  | some a =>
    let r := rotRaw p a
    let re := convSat r.re
    let im := convSat r.im
    { val := { re := re.v, im := im.v }, invalid := false, sats := sats + (if re.sat then 1 else 0) + (if im.sat then 1 else 0) }

/-- Phasor lane `k` of source record `k0` from two raw parts (R125): rectangular, or polar with `degrees` for R-SV. -/
def convPhasor (polar float degrees : Bool) (a b : Raw) (m e aofs : Nat) : Lane Phasor :=
  match a, b with
  | some x, some y =>
    let c := scale x m e
    if polar then
      rotLane { re := c.v, im := 0 } (if c.sat then 1 else 0) (some ((convAngle float degrees y + aofs * 256) % 2 ^ 40))
    else
      let d := scale y m e
      rotLane { re := c.v, im := d.v } ((if c.sat then 1 else 0) + (if d.sat then 1 else 0))
        (if aofs = 0 then none else some (aofs * 256 % 2 ^ 40))
  | _, _ => { val := { re := 0, im := 0 }, invalid := true, sats := 0 }

/-- A scalar lane. -/
def convScalar (f : Int × Int → Conv) (x : Raw) : Lane Int :=
  match x with
  | some v => { val := (f v).v, invalid := false, sats := if (f v).sat then 1 else 0 }
  | none => { val := 0, invalid := true, sats := 0 }

/-- BAD of a quality word (R124) under source word 0 `w`. -/
def qualBad (w q : Nat) : Bool :=
  let derr := fld q 0 2
  derr = 1 || derr = 3 || (derr = 2 && fld w 5 1 = 0) || (fld q 2 1 = 1 && fld w 6 1 = 1) || fld q 3 1 = 1 ||
    (fld q 7 3 ≠ 0 && fld w 7 3 < fld q 7 3) || fld w 10 2 < fld q 10 2 || fld q 25 1 = 1

/-- A quality word completed with SAT, BAD and TEST (R129). -/
def qualWord (w q : Nat) (sat test : Bool) : Nat :=
  let q := q + bitAt sat 20 + bitAt test 22
  q + bitAt (qualBad w q) 21

/-- Octets of one C37.118 block of source word 0 and 1 (R119). -/
def blockLen (w0 w1 : Nat) : Nat :=
  2 + fld w1 0 8 * (if fld w0 1 1 = 1 then 8 else 4) + (if fld w0 3 1 = 1 then 8 else 4) +
    fld w1 8 8 * (if fld w0 2 1 = 1 then 4 else 2) + 2 * fld w1 16 8

/-- What conversion makes of a source: its payload and the saturated parts it counts. -/
structure Decoded where
  payload : Payload
  sats : Nat

/-- A payload gathered from its lanes (R128), with `inv` giving further INVALID bits and `q` the quality word without SAT and BAD. -/
def gather (w q inv : Nat) (test : Bool) (ph : List (Lane Phasor)) (fr ro : Lane Int) (an : List (Lane Int)) (dg : List Nat) : Decoded :=
  let sats := (ph.map (·.sats)).foldl (· + ·) 0 + fr.sats + ro.sats + (an.map (·.sats)).foldl (· + ·) 0
  let bits := fun (l : List Bool) => (l.foldr (fun x n => (if x then 1 else 0) + 2 * n) 0 : Nat)
  let invalid := bits (ph.map (·.invalid)) + bitAt fr.invalid 16 + bitAt ro.invalid 17 + 2 ^ 18 * bits (an.map (·.invalid))
  { payload := {
      ph := ph.map (·.val), freq := fr.val, rocof := ro.val, an := an.map (·.val), dg := dg
      qual := qualWord w q (sats ≠ 0) test, invalid := invalid ||| inv }
    sats := sats }

/-- A C37.118 block at offset `o` converted by source record `k` (R124, R125, R128, R129). -/
def convBlock (b f : List Byte) (k o tq : Nat) (reinj : Bool) : Decoded :=
  let w0 := srcWord b k 0
  let w1 := srcWord b k 1
  let polar := fld w0 0 1 = 1
  let phf := fld w0 1 1 = 1
  let anf := fld w0 2 1 = 1
  let frf := fld w0 3 1 = 1
  let stat := be16 f o
  let phLen := if phf then 8 else 4
  let frO := o + 2 + fld w1 0 8 * phLen
  let frLen := if frf then 4 else 2
  let anO := frO + 2 * frLen
  let anLen := if anf then 4 else 2
  let dgO := anO + fld w1 8 8 * anLen
  let ph := (List.range (min 16 (fld w1 24 5))).map fun i =>
    let x := srcWord b k (4 + 3 * i)
    let p := o + 2 + fld x 0 8 * phLen
    let ra := if phf then rawF32 f p else if polar then rawU16 f p else raw16 f p
    let rb := if phf then rawF32 f (p + 4) else raw16 f (p + 2)
    convPhasor polar phf false ra rb (srcWord b k (5 + 3 * i)) (fld x 8 6) (srcWord b k (6 + 3 * i))
  let fr := convScalar (convFreq frf (if fld w0 4 1 = 1 then 50 else 60)) (if frf then rawF32 f frO else rawI16 f frO)
  let ro := convScalar (convRocof frf) (if frf then rawF32 f (frO + 4) else rawI16 f (frO + 2))
  let an := (List.range (min 6 (fld w1 29 3))).map fun j =>
    let x := srcWord b k (52 + 2 * j)
    let p := anO + fld x 0 8 * anLen
    convScalar (fun v => scale v (srcWord b k (53 + 2 * j)) (fld x 8 6)) (if anf then rawF32 f p else rawI16 f p)
  let dg := (List.range (min 4 (fld w1 16 8))).map fun j => be16 f (dgO + 2 * fld (srcWord b k 2) (8 * j) 8)
  let q := fld stat 14 2 + fld stat 13 1 * 4 + fld stat 12 1 * 8 + fld stat 11 1 * 16 + fld stat 10 1 * 32 + fld stat 9 1 * 64 +
    fld stat 6 3 * 128 + fld stat 4 2 * 1024 + fld stat 0 4 * 4096 + 65536 * (tq % 16) + bitAt reinj 23
  gather w0 q 0 (fld stat 14 2 = 2) ph fr ro an dg

/-! ## Time (R123) -/

/-- The key of a frame time: seconds of the counter and instant index, or nothing off the grid. -/
def frameKey (soc frac base rate tol : Nat) (ofs : Int) : Option (Nat × Nat) :=
  let n := (2 * frac * rate + base) / (2 * base)
  let e := ((frac * rate : Nat) - (n * base : Nat) : Int).natAbs
  if base ≤ frac || tol * rate * base < 1000000 * e then none
  else
    let sec : Int := (if n = rate then soc + 1 else soc : Nat)
    some (((sec + ofs) % 2 ^ 48).toNat, if n = rate then 0 else n)

/-! ## R-SV frames (R130, R131) -/

/-- One BER element of definite length: tag, content, and what follows. -/
def berTake (l : List Byte) : Option (Nat × List Byte × List Byte) :=
  match l with
  | t :: n :: r =>
    if n.toNat < 128 then
      if n.toNat ≤ r.length then some (t.toNat, r.take n.toNat, r.drop n.toNat) else none
    else
      let k := n.toNat - 128
      let len := beNat (r.take k)
      if 1 ≤ k && k ≤ 4 && k + len ≤ r.length then some (t.toNat, (r.drop k).take len, r.drop (k + len)) else none
  | _ => none

/-- The BER elements of a list of octets, at most `fuel` of them; nothing where it is not well formed. -/
def berList (l : List Byte) : Nat → Option (List (Nat × List Byte))
  | 0 => if l = [] then some [] else none
  | n + 1 =>
    if l = [] then some []
    else
      match berTake l with
      | some (t, c, r) => (berList r n).map ((t, c) :: ·)
      | none => none

/-- The content of the first element with a tag. -/
def berFind (l : List (Nat × List Byte)) (t : Nat) : Option (List Byte) := (l.find? fun e => e.1 = t).map (·.2)

/-- The parts of an R-SV session (IEC 61850-90-5): SPDU number, encryption and signature algorithm codes, key identifier, APPID, APDU,
the octets the tag covers, initialisation vector and tag; `shape` says that it is laid out as R130 has it. -/
structure Session where
  shape : Bool
  spdu : Nat
  enc : Nat
  alg : Nat
  keyid : Nat
  iv : List Byte
  ptype : Nat
  appid : Nat
  apdu : List Byte
  covered : List Byte
  tag : Option (List Byte)
deriving DecidableEq, Repr

/-- An R-SV session read from a UDP payload; nothing where it ends before its APPID, so that it names no stream. A tag lies after the user
data, whose length its own field gives. -/
def parseSession (f : List Byte) : Option Session :=
  let ivLen := oct f 28
  let u := 29 + ivLen
  let p := u + 4
  let apLen := be16 f (p + 4)
  let stop := p + be32 f u
  if f.length < p + 4 then none
  else
    let rest := f.drop stop
    let tag := match rest with
      | 0x85 :: n :: t => if t.length = n.toNat then some t else none
      | _ => none
    some {
      shape := oct f 2 = 0xA2 && oct f 4 = 0x80 && be32 f u = 6 + apLen && stop ≤ f.length && (rest = [] || tag.isSome)
      spdu := be32 f 10, enc := oct f 22, alg := oct f 23, keyid := be32 f 24, iv := slice f 29 ivLen, ptype := oct f p
      appid := be16 f (p + 2), apdu := slice f (p + 6) apLen, covered := (f.take stop).drop 2, tag := tag }

/-- One ASDU: svID, smpCnt and seqData. -/
structure Asdu where
  svid : List Byte
  smp : Nat
  data : List Byte
deriving DecidableEq, Repr

/-- The ASDUs of a savPdu whose noASDU agrees with their number. -/
def parseAsdus (apdu : List Byte) : Option (List Asdu) :=
  match berTake apdu with
  | some (0x60, c, []) =>
    match berList c 16 with
    | none => none
    | some els =>
      match berFind els 0x80, berFind els 0xA2 with
      | some no, some seq =>
        match berList seq 8 with
        | none => none
        | some as =>
          if as.length ≠ beNat no then none
          else
            as.foldr (fun a acc =>
              match acc, (if a.1 = 0x30 then berList a.2 16 else none) with
              | some l, some e =>
                (match berFind e 0x80, berFind e 0x82, berFind e 0x87 with
                | some sv, some sm, some d => some ({ svid := sv, smp := beNat sm, data := d } :: l)
                | _, _, _ => none)
              | _, _ => none) (some [])
      | _, _ => none
  | _ => none

/-- Octets of seqData for a source (R130). -/
def seqLen (w1 : Nat) : Nat := 8 + 12 * fld w1 0 8 + 16 + 8 * fld w1 8 8

/-- An item Quality that makes its lane INVALID: validity invalid or questionable. -/
def qInvalid (q : Nat) : Bool := fld q 0 2 = 1 || fld q 0 2 = 3

/-- The smallest time-quality code k with 10^(k−10) s ≥ 2^−n s; 0xF for accuracy 31 (R129). -/
def rsvTq (n : Nat) : Nat :=
  if n = 31 then 0xF else ((List.range 11).find? fun k => 1 ≤ k && 10 ^ 10 ≤ 10 ^ k * 2 ^ n).getD 11

/-- The dataset of an ASDU converted by source record `k` (R125, R129, R130). -/
def convAsdu (b d : List Byte) (k : Nat) (revoked : Bool) : Decoded :=
  let w0 := srcWord b k 0
  let w1 := srcWord b k 1
  let phn := fld w1 0 8
  let ann := fld w1 8 8
  let frO := 8 + 12 * phn
  let anO := frO + 16
  let quals := (List.range phn).map (fun i => be32 d (8 + 12 * i + 8)) ++ [be32 d (frO + 4), be32 d (frO + 12)] ++
    (List.range ann).map (fun j => be32 d (anO + 8 * j + 4))
  let test := quals.any fun q => fld q 11 1 = 1
  let invalidItem := quals.any fun q => fld q 0 2 = 1
  let src := quals.any fun q => fld q 10 1 = 1
  let nph := min 16 (fld w1 24 5)
  let nan := min 6 (fld w1 29 3)
  let ph := (List.range nph).map fun i =>
    let x := srcWord b k (4 + 3 * i)
    let p := 8 + 12 * fld x 0 8
    let c := convPhasor true true true (rawF32 d p) (rawF32 d (p + 4)) (srcWord b k (5 + 3 * i)) (fld x 8 6) (srcWord b k (6 + 3 * i))
    { c with invalid := c.invalid || qInvalid (be32 d (p + 8)) }
  let fr := convScalar (convFreq true (if fld w0 4 1 = 1 then 50 else 60)) (rawF32 d frO)
  let fr := { fr with invalid := fr.invalid || qInvalid (be32 d (frO + 4)) }
  let ro := convScalar (convRocof true) (rawF32 d (frO + 8))
  let ro := { ro with invalid := ro.invalid || qInvalid (be32 d (frO + 12)) }
  let an := (List.range nan).map fun j =>
    let x := srcWord b k (52 + 2 * j)
    let p := anO + 8 * fld x 0 8
    let c := convScalar (fun v => scale v (srcWord b k (53 + 2 * j)) (fld x 8 6)) (rawF32 d p)
    { c with invalid := c.invalid || qInvalid (be32 d (p + 4)) }
  let tqual := oct d 7
  let derr := if invalidItem then 1 else if test then 2 else 0
  let q := derr + bitAt (fld tqual 5 1 = 1 || fld tqual 6 1 = 1) 2 + bitAt src 6 + 65536 * rsvTq (fld tqual 0 5) + bitAt true 24 +
    bitAt revoked 25
  gather w0 q 0 test ph fr ro an []

/-! ## Hand-over (R122) -/

/-- A frame of stream `n` dropped at order 6. -/
def State.decShape (s : State) (n : Nat) : State := ((s.count Reg.DEC_SHAPE_CNT).count (Reg.DEC_STREAM_SHAPE n)).raise 27

/-- A frame dropped at order 5 of stream `n`, counted in `c`. -/
def State.decSec (s : State) (n c : Nat) : State := ((s.count c).count (Reg.DEC_STREAM_DROPS n)).raise 28

/-- SILENT of stream `n` set to `x`. -/
def State.setSilent (s : State) (n : Nat) (x : Bool) : State :=
  (s.setF (Reg.DEC_STREAM_FLAGS n) 0 1 (if x then 1 else 0)).setF (Reg.DEC_SILENT_MAP (n / 32)) (n % 32) 1 (if x then 1 else 0)

/-- A frame of stream `n` passes order 7 (R122, R127). -/
def State.decPass (s : State) (n : Nat) : State :=
  let s := (s.count Reg.DEC_FRAMES_CNT).count (Reg.DEC_STREAM_FRAMES n)
  let s := { s with dec := { s.dec with lastPass := Tbl.set s.dec.lastPass n (s.time.ticks + 1) 0 } }
  s.setSilent n false

/-- Source `k`, converted, handed to the seam engine (R122). -/
def State.handOver (s : State) (k rate arr epoch : Nat) (key : Nat × Nat) (d : Decoded) : State :=
  let s := (s.count Reg.DEC_BLOCKS_CNT).countBy Reg.DEC_SAT_CNT d.sats
  let s := s.setReg (Reg.DEC_SRC_Q k) d.payload.qual
  s.pushItem false { src := k, sec := key.1, n := key.2, rate := rate, arr := arr, epoch := epoch, payload := d.payload }

/-- Blocks of a C37.118 data frame from offset `o`, for sources `k, …` of stream `n` (R122 order 8). -/
def State.decBlocks (s : State) (b f : List Byte) (n k o tq rate arr epoch : Nat) (key : Nat × Nat) (reinj : Bool) : Nat → State
  | 0 => s
  | m + 1 =>
    let s := s.handOver k rate arr epoch key (convBlock b f k o tq reinj)
    let s := if fld (be16 f o) 10 1 = 1 then
        ((s.setF (Reg.DEC_STREAM_FLAGS n) 1 1 1).setF (Reg.DEC_CFGCHG_MAP (n / 32)) (n % 32) 1 1).raise 29
      else s
    s.decBlocks b f n (k + 1) (o + blockLen (srcWord b k 0) (srcWord b k 1)) tq rate arr epoch key reinj m

/-- What the check order needs of a frame besides its octets: protocol, addresses, arrival, and whether it was reinjected. -/
structure FrameCtx where
  proto : Nat
  v6 : Bool
  saddr : Nat
  conn : Nat
  arr : Nat
  epoch : Nat
  reinj : Bool
  host : Option HostFrame
deriving DecidableEq, Repr

/-- Order 4 against one SOURCES body (R122). -/
def State.lookup (s : State) (b : List Byte) (c : FrameCtx) (id : Nat) : Option Nat :=
  match findStream b c.proto id c.conn 0 (wf b 0 0 15) with
  | some n =>
    if fld (strWord b n 0) 2 1 = 1 && s.addrRec (fld (strWord b n 4) 0 5) ≠ (c.v6, c.saddr) then none else some n
  | none => none

/-- A frame of time (soc, frac), read with the RATE of stream `n` of body `b`, is for an instant before A (R123). -/
def State.beforeA (s : State) (c : FrameCtx) (b : List Byte) (n soc frac : Nat) : Bool :=
  let base := if c.proto = 2 then 2 ^ 24 else fld (strWord b n 2) 0 24
  let r := fld (strWord b n 2) 24 8
  match frameKey soc frac base r 1000000 s.utcOfs with
  | some key => decide (1000000000 * key.1 + 1000000000 * key.2 / r < s.actNs)
  | none => false

/-- The SOURCES body and stream that decode a frame of identity `id` and time (soc, frac) (R37, R501): of a stream that a pending image keeps,
the old record for an instant before A and the new one from A on; a stream in only one of the bodies is decoded by that one. -/
def State.bankFor (s : State) (c : FrameCtx) (id soc frac : Nat) : Option (List Byte × Nat) :=
  let ob := s.pat 4
  let nb := Tbl.get s.img.idle 4 []
  let new := if s.pend && s.bit Reg.FEAT_IMG_PEND 4 then s.lookup nb c id else none
  match s.lookup ob c id, new with
  | some n, some m => if s.beforeA c ob n soc frac then some (ob, n) else some (nb, m)
  | some n, none => some (ob, n)
  | none, some m => some (nb, m)
  | none, none => none

/-- A non-data frame (R126). DESIGN CHOICE (log 107): a reinjected one, which no receive rule has matched, has 0 for its port, flags, RULE and
VLAN. -/
def State.nonData (s : State) (c : FrameCtx) (ftype : Nat) (f : List Byte) : State :=
  if ftype = 6 || ftype = 7 || (ftype = 5 && !s.feat 2) then s.count Reg.DEC_NONDATA_DROP_CNT
  else
    let ring := wf (s.pat 4) 3 0 3
    let h : HostFrame := c.host.getD {
      octets := f, ring := ring, port := 0, flags := 0, epoch := c.epoch, rule := 0, vid := 0, tagged := false, pcp := 0
      rxts := c.arr, flen := f.length }
    (s.stage { h with ring := ring }).count Reg.DEC_NONDATA_CNT

/-- A C37.118 frame through the check order (R122). -/
def State.decC37 (s : State) (c : FrameCtx) (f : List Byte) : State :=
  if f.length < 18 || oct f 0 ≠ 0xAA || be16 f 2 ≠ f.length then s.count Reg.DEC_SHAPE_CNT
  else if be16 f (f.length - 2) ≠ (crcCcitt (f.take (f.length - 2))).toNat then s.count Reg.DEC_CHK_ERR_CNT
  else if fld (oct f 1) 4 3 ≠ 0 then s.nonData c (fld (oct f 1) 4 3) f
  else
    let soc := be32 f 6
    let frac := be32 f 10 % 2 ^ 24
    match s.bankFor c (be16 f 4) soc frac with
    | none => (s.count Reg.DEC_UNKNOWN_CNT).raise 30
    | some (b, n) =>
      if fld (strWord b n 1) 0 16 ≠ f.length then s.decShape n
      else
        let rate := fld (strWord b n 2) 24 8
        match frameKey soc frac (fld (strWord b n 2) 0 24) rate (fld (strWord b n 3) 0 10) s.utcOfs with
        | none => ((s.count Reg.DEC_OFFGRID_CNT).count (Reg.DEC_STREAM_DROPS n)).raise 27
        | some key =>
          (s.decPass n).decBlocks b f n (fld (strWord b n 1) 16 14) 14 (oct f 10) rate c.arr c.epoch key c.reinj
            (fld (strWord b n 0) 8 8)

/-- Signature algorithm code of IEC 61850-90-5 for AUTH (R119). -/
def authCode (a : Nat) : Nat := if a = 1 then 2 else if a = 2 then 3 else if a = 3 then 5 else 0

/-- The tag of an R-SV session under a key. -/
def rsvTag (auth : Nat) (key : List Byte) (x : Session) : List Byte :=
  if auth = 3 then Config.gmac key x.iv x.covered
  else (Config.hmacSha256 key x.covered).take (if auth = 1 then 16 else 32)

/-- The security checks of R131 on a frame of stream `n`; whether it passed, whether its key was revoked meanwhile, and the state. -/
def State.rsvSecure (s : State) (b : List Byte) (n : Nat) (x : Session) : Bool × Bool × State :=
  let auth := fld (strWord b n 4) 16 2
  let kb := fld (strWord b n 4) 8 8
  if x.enc ≠ 0 then (false, false, s.decSec n Reg.DEC_ENC_CNT)
  else if x.alg ≠ authCode auth then (false, false, s.decSec n Reg.DEC_AUTH_FAIL_CNT)
  else
    let (ok, late, next, s) : Bool × Bool × Bool × State :=
      if auth = 0 then (true, false, false, s)
      else
        let isCur := s.rn (Reg.KEY_SLOT_HDR (s.bindSlot kb false) 1) = x.keyid
        let isNext := !isCur && s.bindSlot kb true ≠ 255 && s.rn (Reg.KEY_SLOT_HDR (s.bindSlot kb true) 1) = x.keyid
        if !isCur && !isNext then (false, false, false, s)
        else
          match s.takeBound engSv kb 1 isNext with
          | (some (k, late), s) => (x.tag = some (rsvTag auth k x), late, isNext, s)
          | (none, s) => (false, false, false, s)
    if !ok then (false, false, s.decSec n Reg.DEC_AUTH_FAIL_CNT)
    else
      let d := (2 ^ 32 + x.spdu - s.rn (Reg.DEC_STREAM_SPDU n)) % 2 ^ 32
      if Tbl.get s.dec.spduSet n false && (d = 0 || 2 ^ 31 ≤ d) then (false, false, s.decSec n Reg.DEC_REPLAY_CNT)
      else
        let s := s.setReg (Reg.DEC_STREAM_SPDU n) x.spdu
        let s := { s with dec := { s.dec with spduSet := Tbl.set s.dec.spduSet n true false } }
        let s := if next then s.setF (Reg.DEC_STREAM_FLAGS n) 2 1 1 else s
        (true, late, if late then s.count Reg.DEC_KEYREV_CNT else s)

/-- The ASDUs of a frame agree with the source records `k, …` (R130). -/
def asdusOk (b : List Byte) (k n : Nat) : List Asdu → Bool
  | [] => true
  | a :: t =>
    a.data.length = seqLen (srcWord b k 1) && (crc32 a.svid).toNat = srcWord b k 3 && a.smp = n && asdusOk b (k + 1) n t

/-- ASDUs handed over for sources `k, …`. -/
def State.handAsdus (s : State) (b : List Byte) (k rate arr epoch : Nat) (key : Nat × Nat) (late : Bool) : List Asdu → State
  | [] => s
  | a :: t => (s.handOver k rate arr epoch key (convAsdu b a.data k late)).handAsdus b (k + 1) rate arr epoch key late t

/-- An R-SV frame through the check order (R122, R130, R131). -/
def State.decRsv (s : State) (c : FrameCtx) (f : List Byte) : State :=
  match parseSession f with
  | none => (s.count Reg.DEC_UNKNOWN_CNT).raise 30
  | some x =>
    let asdus := parseAsdus x.apdu
    let d := match asdus with
      | some (a :: _) => a.data
      | _ => []
    let soc := be32 d 0
    let frac := be32 d 4 / 256
    match s.bankFor c x.appid soc frac with
    | none => (s.count Reg.DEC_UNKNOWN_CNT).raise 30
    | some (b, n) =>
      match s.rsvSecure b n x with
      | (false, _, s) => s
      | (true, late, s) =>
        let auth := fld (strWord b n 4) 16 2
        let rate := fld (strWord b n 2) 24 8
        let k := fld (strWord b n 1) 16 14
        let near := (2 ^ 24 + 2 * frac * rate) / 2 ^ 25
        match asdus with
        | some as =>
          if !x.shape || x.ptype ≠ 0x82 || (auth = 0 && x.tag.isSome) || as.length ≠ fld (strWord b n 0) 8 8 ||
              !asdusOk b k (if near = rate then 0 else near) as then s.decShape n
          else
            match frameKey soc frac (2 ^ 24) rate (fld (strWord b n 3) 0 10) s.utcOfs with
            | none => ((s.count Reg.DEC_OFFGRID_CNT).count (Reg.DEC_STREAM_DROPS n)).raise 27
            | some key => (s.decPass n).handAsdus b k rate c.arr c.epoch key late as
        | none => s.decShape n

/-- A frame through the check order. -/
def State.decode (s : State) (c : FrameCtx) (f : List Byte) : State := if c.proto = 2 then s.decRsv c f else s.decC37 c f


/-! ## Reinjection (R133) -/

/-- The frame firmware names in DEC_REINJ enters the decoders. -/
def State.startReinj (s : State) (epoch : Nat) : State :=
  let len := s.rf Reg.DEC_REINJ_LEN 0 12
  let r : Reinj := {
    octets := Memory.read s.sram (sramIx (s.rn Reg.DEC_REINJ_ADDR)) len, conn := s.rf Reg.DEC_REINJ_LEN 16 12
    ts := s.rn Reg.DEC_REINJ_TS, epoch := epoch }
  ({ s with dec := { s.dec with reinj := some r, heldGo := none } }).setReg Reg.DEC_REINJ_STATUS 1

/-- A write of DEC_REINJ_GO: held while BUSY is 1. -/
def reinjGo (w : Word) (s : State) : State :=
  if !w.getLsbD 31 || !s.img.inForce then s
  else if s.dec.reinj.isSome then { s with dec := { s.dec with heldGo := some (w.toNat % 4) } }
  else s.startReinj (w.toNat % 4)

/-- REINJ_GO. -/
def execReinjGo (who : Party) (w : Word) (s : State) : Host.Outcome State Fault Refusal :=
  live (written who Reg.DEC_REINJ_GO w (reinjGo w)) s

/-- The reinjected frame has left order 8: BUSY clears, and a held GO takes effect. -/
def State.endReinj (s : State) : State :=
  let s := ({ s with dec := { s.dec with reinj := none } }).setReg Reg.DEC_REINJ_STATUS 0
  match s.dec.heldGo with
  | some e => s.startReinj e
  | none => s

/-- One frame decoded (R122): the reinjected one, or the head of the measurement queue. `err` is what the check of the stream and source
tables finds (source 1). -/
def decodeFrame (reinj : Bool) (err : MemErr) (s : State) : State :=
  if !s.img.inForce then s
  else if reinj then
    match s.dec.reinj with
    | none => s
    | some r =>
      let s := (s.check 1 0 err).2
      (s.decode {
        proto := 1, v6 := (s.addrRec (fld (s.conn r.conn 0) 8 5)).1, saddr := s.connRaddr r.conn, conn := r.conn, arr := r.ts
        epoch := r.epoch, reinj := true, host := none } r.octets).endReinj
  else
    match s.eth.mq with
    | [] => s
    | m :: rest =>
      let s := { s with eth := { s.eth with mq := rest, mqWatch := s.watchRead } }
      let s := ((s.checkFound 2 0).2.check 1 0 err).2
      (s.decode {
        proto := m.target, v6 := m.v6, saddr := m.saddr, conn := m.conn, arr := m.rxts, epoch := m.epoch, reinj := false
        host := some m.host } m.payload).showMq

/-- DECODE_FRAME; `err` is what the checker of the stream and source tables finds, `errs` those of the other memories it reads. -/
def execDecodeFrame (reinj : Bool) (err : MemErr) (errs : Tbl MemErr) (s : State) : Host.Outcome State Fault Refusal :=
  live (withErrs errs (decodeFrame reinj err)) s

/-! ## Commands to sources (R127, R132) -/

/-- A UDP datagram in an Ethernet frame (without FCS). -/
def udpFrame (dmac smac : List Byte) (tag : Option Nat) (v6 : Bool) (src dst sport dport : Nat) (ttl : Byte) (data : List Byte) : List Byte :=
  let n := 8 + data.length
  let al := if v6 then 16 else 4
  let u0 := beBytes 2 sport ++ beBytes 2 dport ++ beBytes 2 n
  let sum := 65535 - fold16 (sum16 (beBytes al src ++ beBytes al dst) + 17 + n + sum16 (u0 ++ [0, 0] ++ data))
  let udp := u0 ++ beBytes 2 (if sum = 0 then 0xFFFF else sum) ++ data
  let ip := if v6 then [0x60, 0, 0, 0] ++ beBytes 2 n ++ [17, ttl] ++ beBytes 16 src ++ beBytes 16 dst
    else
      let h0 : List Byte := [0x45, 0] ++ beBytes 2 (20 + n) ++ [0, 0, 0, 0, ttl, 17]
      let a := beBytes 4 src ++ beBytes 4 dst
      h0 ++ beBytes 2 (65535 - fold16 (sum16 (h0 ++ a))) ++ a
  let vlan := match tag with
    | some t => [0x81, 0x00] ++ beBytes 2 t
    | none => []
  dmac ++ smac ++ vlan ++ (if v6 then [0x86, 0xDD] else [0x08, 0x00]) ++ ip ++ udp

/-- A frame sent on the ports of a mask; on a PRP pair with both ports named it goes out once, by R95. -/
def State.sendPorts (s : State) (ports queue : Nat) (f : List Byte → List Byte) : State :=
  s.forRange (fun p s =>
    if fld ports p 1 = 1 && !(s.prpOn p && p % 2 = 1 && fld ports (p - 1) 1 = 1) then s.ethSend p queue (f (s.portMac p)) else s) 0 4

/-- A C37.118 command frame (R132): SOC and FRACSEC from the counter, to TIME_BASE. -/
def State.cmdFrame (s : State) (id base cmd : Nat) : List Byte :=
  let u := s.utcNs
  let soc := (u / 1000000000).toNat % 2 ^ 32
  let frac := (u % 1000000000).toNat * base / 1000000000
  let f := [0xAA, 0x42, 0, 18] ++ beBytes 2 id ++ beBytes 4 soc ++ beBytes 4 (frac % 2 ^ 24 + 2 ^ 24 * (s.rn Reg.TIME_QUAL % 16)) ++
    beBytes 2 cmd
  f ++ beBytes 2 (crcCcitt f).toNat

/-- A command frame for stream `n` sent in UDP by its template. -/
def State.cmdUdp (s : State) (b : List Byte) (n cmd : Nat) : State :=
  let t := fld (strWord b n 5) 0 11
  let w0 := tmplWord b t 0
  let w1 := tmplWord b t 1
  let f := s.cmdFrame (fld (strWord b n 0) 16 16) (fld (strWord b n 2) 0 24) cmd
  let da := s.addrRec (fld w0 24 5)
  let sa := s.addrRec (fld (tmplWord b t 4) 0 5)
  let dmac := leBytes 4 (tmplWord b t 2) ++ leBytes 2 (tmplWord b t 3)
  let tag := if fld w0 16 1 = 1 then some (fld w0 4 12 + fld w0 17 3 * 2 ^ 13) else none
  let ttl := s.draw 8
  s.drawn.sendPorts (fld w0 0 4) 3 fun smac => udpFrame dmac smac tag da.1 sa.2 da.2 (fld w1 0 16) (fld w1 16 16) ttl f

/-- A write of DEC_CMD (R132). -/
def decCmd (w : Word) (s : State) : State :=
  if !s.img.inForce then s
  else if 16 ≤ s.dec.cmds.length then s.count Reg.DEC_CMD_LOST_CNT
  else
    let s := { s with dec := { s.dec with cmds := s.dec.cmds ++ [(w.toNat % 2 ^ 14, w.toNat / 2 ^ 16)] } }
    s.setF Reg.DEC_CMD_STATUS 0 5 s.dec.cmds.length

/-- DEC_CMD. -/
def execDecCmd (who : Party) (w : Word) (s : State) : Host.Outcome State Fault Refusal :=
  live (written who Reg.DEC_CMD w (decCmd w)) s

/-- The SOURCES body in force now: a pending one from its activation instant on (R37, R127). -/
def State.srcNow (s : State) : List Byte := s.patAt 4 s.nowNs

/-- The head of the command FIFO is sent (R132): no sooner than 1 µs after the last. DESIGN CHOICE (log 107): an entry that names a stream
at or above STREAM_CNT is taken, sends nothing and leaves LAST_RESULT. -/
def decCmdSend (s : State) : State :=
  match s.dec.cmds with
  | [] => s
  | (n, cmd) :: rest =>
    if (s.dec.cmdAt.map fun t => decide (s.time.ticks < t + 250)).getD false then s
    else
      let s := { s with dec := { s.dec with cmds := rest, cmdAt := some s.time.ticks } }
      let s := s.setF Reg.DEC_CMD_STATUS 0 5 rest.length
      let b := s.srcNow
      let proto := fld (strWord b n 0) 0 2
      if wf b 0 0 15 ≤ n then s
      else if proto = 2 || proto = 3 then s.setF Reg.DEC_CMD_STATUS 8 2 3
      else if proto = 1 then
        let f := s.cmdFrame (fld (strWord b n 0) 16 16) (fld (strWord b n 2) 0 24) cmd
        (s.setWords (Reg.DEC_CMD_BUF 0) (wordsOf (padTo 20 f) 5)).setF Reg.DEC_CMD_STATUS 8 2 2
      else if fld (strWord b n 5) 0 11 = 0x7FF then s.setF Reg.DEC_CMD_STATUS 8 2 1
      else (s.cmdUdp b n cmd).setF Reg.DEC_CMD_STATUS 8 2 0

/-- DEC_CMD_SEND. -/
def execDecCmdSend (s : State) : Host.Outcome State Fault Refusal := live decCmdSend s

/-- RESEND_S in ticks. -/
def State.resendTicks (s : State) : Nat := 250000000 * wf (s.srcNow) 3 8 8

/-- Stream `n` has a template and PROTO 0, so it can be commanded. -/
def hasTmpl (b : List Byte) (n : Nat) : Bool := fld (strWord b n 0) 0 2 = 0 && fld (strWord b n 5) 0 11 ≠ 0x7FF

/-- Command 0x0002 sent to stream `n`, and the time of it noted. -/
def State.turnOn (s : State) (n : Nat) : State :=
  if hasTmpl (s.srcNow) n then
    let s := { s with dec := { s.dec with lastResend := Tbl.set s.dec.lastResend n (s.time.ticks + 1) 0 } }
    s.cmdUdp (s.srcNow) n 2
  else s

/-- A stream has passed no frame for RESEND_S s (R127). -/
def streamSilent (n : Nat) (s : State) : State :=
  let since := max s.dec.base (Tbl.get s.dec.lastPass n 0 - 1)
  if s.img.inForce && n < wf (s.srcNow) 0 0 15 && fld (strWord (s.srcNow) n 0) 0 2 ≠ 3 && s.resendTicks ≠ 0 &&
      !s.bit (Reg.DEC_STREAM_FLAGS n) 0 && since + s.resendTicks ≤ s.time.ticks then
    ((s.setSilent n true).raise 31).turnOn n
  else s

/-- STREAM_SILENT. -/
def execStreamSilent (stream : Fin 16384) (s : State) : Host.Outcome State Fault Refusal := live (streamSilent stream.val) s

/-- The repeat of command 0x0002 to a silent stream (R127). -/
def commandResend (n : Nat) (s : State) : State :=
  if s.img.inForce && n < wf (s.srcNow) 0 0 15 && s.bit (Reg.DEC_STREAM_FLAGS n) 0 && s.resendTicks ≠ 0 &&
      Tbl.get s.dec.lastResend n 0 + s.resendTicks ≤ s.time.ticks + 1 then s.turnOn n
  else s

/-- COMMAND_RESEND. -/
def execCommandResend (stream : Fin 16384) (s : State) : Host.Outcome State Fault Refusal := live (commandResend stream.val) s

/-- STARTUP commands at image load and at an activation that replaces SOURCES (R127). -/
def State.startup (s : State) : State :=
  s.forRange (fun n s => if fld (strWord (s.srcNow) n 0) 3 1 = 1 then s.turnOn n else s) 0 (wf (s.srcNow) 0 0 15)

/-- The flags of every stream cleared, and the maps that gather them (R139). -/
def State.clearStreams (s : State) (n : Nat) : State :=
  let s := s.forRange (fun k s => s.setReg (Reg.DEC_STREAM_FLAGS k) 0) 0 n
  (s.clearRegs (Reg.DEC_CFGCHG_MAP 0) (Reg.DEC_CFGCHG_MAP 512)).clearRegs (Reg.DEC_SILENT_MAP 0) (Reg.DEC_SILENT_MAP 512)

/-- The SOURCES pattern put into force (R127, R131): `full` at an image load, which starts every stream afresh; an activation keeps the times
of resends, as a silent stream stays silent. -/
def State.applySources (s : State) (full : Bool) : State :=
  let b := s.srcNow
  let s := if full then s.clearStreams (max (s.rf Reg.DEC_COUNTS 0 15) (wf b 0 0 15)) else s
  let s := s.setReg Reg.DEC_CFG (wf b 3 0 3 + wf b 3 8 8 * 256)
  let s := s.setReg Reg.DEC_COUNTS (wf b 0 0 15 + 65536 * wf b 1 0 15)
  let s := { s with dec := { s.dec with
    base := s.time.ticks, lastPass := [], lastResend := if full then [] else s.dec.lastResend, spduSet := [] } }
  s.startup

end Sys2Proof.Machine
end

