-- ==== Sys2Proof/Machine/Slots.lean ====
section
/-! DEFINITION. The slot store of the seam engine (R141 to R147, R160): windows, the GROUPS pattern, groups at run time, slots and token
words. -/
namespace Sys2Proof.Machine
open Sys2Proof

/-! ## Windows (R40 to R42) -/

/-- The committed value of window `n`. -/
def State.winVal (s : State) (n : Nat) : Nat := s.rn (Reg.FAB_PWIN_VAL n) % 2 ^ 40

/-- The value in force of the window on a target, if the image declares one: while an engine instant is decided, the value committed when
the engine started it (R42, R204, R229, R242, R257). -/
def State.window (s : State) (target : Nat) : Option Nat :=
  match Tbl.get s.img.winOf target 0 with
  | 0 => none
  | n + 1 => some (match s.img.held with
    | some m => Tbl.get m target (s.winVal n)
    | none => s.winVal n)

/-- Every declared window's committed value, by TARGET. -/
def State.winSnap (s : State) : Tbl Nat := s.img.winOf.map fun (e : Nat × Nat) => (e.1, s.winVal (e.2 - 1))

/-- The engine takes the value of the window on a target: PEND clears (R42). -/
def State.windowTaken (s : State) (target : Nat) : State :=
  match Tbl.get s.img.winOf target 0 with
  | 0 => s
  | n + 1 => s.setReg (Reg.FAB_PWIN_PEND n) 0

/-! ## The GROUPS pattern (R142 to R144) -/

/-- Word `i` of group record `g`. -/
def grpWord (b : List Byte) (g i : Nat) : Nat := word b (16 + 16 * g + i)

/-- GRP_CNT. -/
def grpCnt (b : List Byte) : Nat := wf b 0 0 9

/-- Member record `k`. -/
def memRec (b : List Byte) (k : Nat) : Nat := word b (16 + 16 * grpCnt b + k)

/-- The members of group `g`, as member records in order. -/
def members (b : List Byte) (g : Nat) : List Nat :=
  (List.range (fld (grpWord b g 1) 16 15)).map fun i => memRec b (fld (grpWord b g 1) 0 14 + i)

/-- The sources of group `g`. -/
def memSources (b : List Byte) (g : Nat) : List Nat := (members b g).map fun m => fld m 0 14

/-- The group of a source among `g, …`. -/
def groupOf (b : List Byte) (src g : Nat) : Nat → Option Nat
  | 0 => none
  | n + 1 => if (memSources b g).contains src then some g else groupOf b src (g + 1) n

/-- The group of a source in a GROUPS body (R141). -/
def groupOfSrc (b : List Byte) (src : Nat) : Option Nat := groupOf b src 0 (grpCnt b)

/-- RATE of group `g`. -/
def grpRate (b : List Byte) (g : Nat) : Nat := fld (grpWord b g 0) 0 8

/-- T0 of instant `i` at rate `r`, in ns of the counter (R141). -/
def instT0 (r i : Nat) : Nat := 1000000000 * (i / r) + 1000000000 * (i % r) / r

/-- The latest instant of rate `r` whose T0 is at or before `ns`. -/
def latestInst (r ns : Nat) : Nat := ns / 1000000000 * r + ((ns % 1000000000 + 1) * r - 1) / 1000000000

/-- DL_FIXED, MARGIN, DL_MIN, DL_MAX, QUORUM and QUANT of a group record (R143). -/
def imageParams (b : List Byte) (g : Nat) : List Nat :=
  [grpWord b g 3, grpWord b g 7, grpWord b g 4, grpWord b g 5, fld (grpWord b g 2) 0 15, fld (grpWord b g 8) 0 10]

/-- The parameters of group `g` from windows where declared, else from its record (R144): clamps that would cross leave the earlier pair. -/
def State.windowParams (s : State) (b : List Byte) (g : Nat) (old : List Nat) : List Nat :=
  let img := imageParams b g
  let vals := (List.range 6).map fun p => ((s.window (0x4000 + 16 * g + p)).map (· % 2 ^ 32)).getD (img.getD p 0)
  if vals.getD 3 0 < vals.getD 2 0 then (vals.set 2 (old.getD 2 (img.getD 2 0))).set 3 (old.getD 3 (img.getD 3 0)) else vals

/-- The parameters the next opening of group `g` takes; the windows' PEND clears (R42). -/
def State.takeParams (s : State) (b : List Byte) (g : Nat) (old : List Nat) : List Nat × State :=
  (s.windowParams b g old, s.forRange (fun p s => s.windowTaken (0x4000 + 16 * g + p)) 0 6)

/-! ## Groups at run time -/

/-- Group `g`'s run-time state, of the groups a pending image begins where `nx` holds. -/
def State.group (s : State) (nx : Bool) (g : Nat) : Option Group := Tbl.get (if nx then s.seam.next else s.seam.groups) g none

/-- Group `g`'s run-time state set. -/
def State.setGroup (s : State) (nx : Bool) (g : Nat) (x : Option Group) : State :=
  if nx then { s with seam := { s.seam with next := Tbl.set s.seam.next g x none } }
  else { s with seam := { s.seam with groups := Tbl.set s.seam.groups g x none } }

/-- The group state that places instants before the last release (R501): one kept for them, or a group that goes on. -/
def State.pastGroup (s : State) (g : Nat) : Option Group :=
  match Tbl.get s.seam.past g none with
  | some x => some x
  | none => s.group false g

/-- That group state set. -/
def State.setPast (s : State) (g : Nat) (x : Group) : State :=
  if (Tbl.get s.seam.past g none).isSome then { s with seam := { s.seam with past := Tbl.set s.seam.past g (some x) none } }
  else s.setGroup false g (some x)

/-- Group `g` as it runs at `t0`. -/
def State.groupAt (s : State) (g t0 : Nat) : Option Group :=
  if s.pend && s.actNs ≤ t0 then
    match s.group true g with
    | some x => some x
    | none => s.group false g
  else s.group false g

/-- A pending image's GROUPS decides instants at `t0`. -/
def State.newGroups (s : State) (t0 : Nat) : Bool := s.pend && s.actNs ≤ t0 && s.bit Reg.FEAT_IMG_PEND 5

/-- The parameters of group `g`, at run time `x`, for an instant at `t0` (R144, R501). -/
def State.paramsFor (s : State) (x : Option Group) (b : List Byte) (g t0 : Nat) : List Nat :=
  match x with
  | none => s.windowParams b g []
  | some y =>
    if y.params = [] then s.windowParams b g []
    else if t0 < y.turn then y.before
    else if s.newGroups t0 && y.turn < s.actNs then s.windowParams b g y.params
    else y.params

/-- The seams that own ways of a group and are open, in ascending instant order. -/
def Group.openSeams (x : Group) : List Seam :=
  (x.ways.filterMap fun e => match e.2 with
    | some m => if m.closed || m.gone then none else some m
    | none => none).mergeSort fun a b => a.inst ≤ b.inst

/-- The ways of a group with every open seam discarded. -/
def Group.dropped (x : Group) : Tbl (Option Seam) := x.ways.map fun e => (e.1, e.2.map fun m => if m.closed then m else { m with gone := true })

/-- The seam of instant `i`, while it owns its way. -/
def Group.seamOf (x : Group) (i : Nat) : Option Seam :=
  match Tbl.get x.ways (i % 8) none with
  | some m => if m.inst = i then some m else none
  | none => none

/-- A seam placed in its way. -/
def Group.put (x : Group) (m : Seam) : Group := { x with ways := Tbl.set x.ways (m.inst % 8) (some m) none }

/-- SEAM_GRP_STATE of group `g` shows its open and ready seams. -/
def State.showGroup (s : State) (g : Nat) : State :=
  let l := (match s.group false g with
    | some x => x.openSeams
    | none => []) ++ (match s.group true g with
    | some x => x.openSeams
    | none => [])
  s.setReg (Reg.SEAM_GRP_STATE g) (l.length % 16 + (l.filter fun m => m.ready.isSome).length % 16 * 16)

/-! ## The seam store (R145 to R147) -/

/-- Slot of a source and way. -/
def State.slotAt (s : State) (src w : Nat) : Slot := Tbl.get s.seam.store (8 * src + w) {}

/-- Slot of a source and way set. -/
def State.setSlotAt (s : State) (src w : Nat) (x : Slot) : State :=
  { s with seam := { s.seam with store := Tbl.set s.seam.store (8 * src + w) x {} } }

/-- Two's complement bytes of a 40-bit lane. -/
def lane40 (v : Int) : List Byte := leBytes 5 (uNat 40 v)

/-- The 224 bytes of a payload (R128). -/
def Payload.bytes (p : Payload) : List Byte :=
  (List.range 16).flatMap (fun k => lane40 (p.ph.getD k ⟨0, 0⟩).re ++ lane40 (p.ph.getD k ⟨0, 0⟩).im) ++ lane40 p.freq ++ lane40 p.rocof ++
    (List.range 6).flatMap (fun j => lane40 (p.an.getD j 0)) ++ (List.range 4).flatMap (fun j => leBytes 2 (p.dg.getD j 0)) ++
    leBytes 4 p.qual ++ leBytes 4 p.invalid ++ leBytes 8 0

/-- The seam of a bank that holds way `w` for a source: the bank's body, its groups, and the instants it decides. -/
def seamIn (b : List Byte) (grp : Nat → Option Group) (mine : Nat → Bool) (src w : Nat) : Option Seam :=
  match groupOfSrc b src with
  | some g => (match grp g with
    | some x => (Tbl.get x.ways w none).filter fun m => mine m.t0
    | none => none)
  | none => none

/-- The seam that owns way `w` of a source (R146): of the latest bank that has opened one there. -/
def State.ownerSeam (s : State) (src w : Nat) : Option Seam :=
  match if s.pend then seamIn (s.patAt 5 s.actNs) (fun g => s.groupAt g s.actNs) (fun t => s.actNs ≤ t) src w else none with
  | some m => some m
  | none =>
    match seamIn (s.pat 5) (s.group false) (fun t => s.img.oldUntil ≤ t && !s.newGroups t) src w with
    | some m => some m
    | none => seamIn s.img.oldGroups s.pastGroup (fun t => t < s.img.oldUntil) src w

/-- The flags of a slot that its seam's maps give (R146): present and mended. -/
def State.slotFlags (s : State) (src w : Nat) : Bool × Bool :=
  match s.ownerSeam src w with
  | some m => (m.present.contains src, m.mended.contains src)
  | none => (false, false)

/-- Checks of the slots of sources in way `w` (R147), as the running command gives them: the sources whose slot cannot be read. -/
def State.checkSlots (s : State) (w : Nat) : List Nat → List Nat × State
  | [] => ([], s)
  | k :: t =>
    let (e, s) := s.check 0 (k + 2 ^ 14 * w) (Tbl.get s.flt.found (96 + 8 * k + w) .ok)
    let (bad, s) := s.checkSlots w t
    (if e = .ue then k :: bad else bad, s)

/-- Header word 0 of a slot with its flags merged. -/
def Slot.word0 (x : Slot) (present mended : Bool) : Nat :=
  bitAt (!present) 0 + bitAt x.bad 1 + bitAt x.dup 2 + bitAt x.reinj 3 + x.epoch % 4 * 16 + bitAt mended 6 + 65536 * (x.group % 256)

/-- The 256 bytes of a slot as read (R145, R146). -/
def Slot.bytes (x : Slot) (present mended : Bool) : List Byte :=
  leBytes 4 (x.word0 present mended) ++ leBytes 4 x.source ++ leBytes 4 x.arr ++ leBytes 8 (x.arr / 2 ^ 32 % 2 ^ 48) ++ leBytes 4 x.lat ++
    leBytes 4 x.sec ++ leBytes 4 (x.sec / 2 ^ 32 % 2 ^ 16 + 2 ^ 16 * x.n) ++ x.payload.bytes

/-! ## Tokens (R160) -/

/-- The eight words of a token. -/
def Token.words (t : Token) : List Nat :=
  [2 ^ 15 + (t.group % 256 + t.cause * 2 ^ 8 + t.bank * 2 ^ 11 + t.epoch * 2 ^ 12 + bitAt t.short 14) + 2 ^ 16 * t.gap,
   t.present + 2 ^ 16 * t.nbad, t.seq % 2 ^ 32, t.seq / 2 ^ 32 + 2 ^ 16 * t.n + 2 ^ 24 * t.way, t.sec % 2 ^ 32, t.sec / 2 ^ 32, t.ofs, t.dl]

/-- Panel `p` consumes group `g`. -/
def State.consumes (s : State) (p g : Nat) : Bool :=
  fld (pnlWord (s.pat 1) p 0) 0 3 ≠ 0 && fld (pnlWord (s.pat 1) p (1 + g / 32)) (g % 32) 1 = 1

end Sys2Proof.Machine
end

