-- ==== Sys2Proof/Machine/Firn.lean ====
section
/-! DEFINITION. The firn recorder (R335 to R339): watched quantities, their update queue, periods, records, poison and the clear. -/
namespace Sys2Proof.Machine
open Sys2Proof

/-! ## The RECORD pattern (R325) -/

/-- Plans, triggers, items and watched quantities of a RECORD body. -/
def planCnt (b : List Byte) : Nat := wf b 0 0 5
def trigCnt (b : List Byte) : Nat := wf b 0 8 7
def itemCnt (b : List Byte) : Nat := wf b 0 16 11
def watchCnt (b : List Byte) : Nat := wf b 1 0 11

/-- Word `i` of plan, trigger, item and watch record `k`. -/
def planWord (b : List Byte) (k i : Nat) : Nat := word b (16 + 8 * k + i)
def trigWord (b : List Byte) (k i : Nat) : Nat := word b (16 + 8 * planCnt b + 4 * k + i)
def itemWord (b : List Byte) (k : Nat) : Nat := word b (16 + 8 * planCnt b + 4 * trigCnt b + 2 * k)
def watchWord (b : List Byte) (k i : Nat) : Nat := word b (16 + 8 * planCnt b + 4 * trigCnt b + 2 * itemCnt b + 4 * k + i)

/-- KIND, INDEX and LANE of watch record `k`. -/
def watchKey (b : List Byte) (k : Nat) : Nat × Nat × Nat :=
  let w := watchWord b k 0
  (fld w 0 3, fld w 3 14, fld w 17 5)

/-- The bin a value lands in (R335). -/
def watchBin (b : List Byte) (k : Nat) (v : Int) : Nat :=
  let lo := sInt 40 (watchWord b k 1 + 2 ^ 32 * fld (watchWord b k 2) 0 8)
  if v < lo then 0 else min 63 (1 + (v - lo).toNat / 2 ^ fld (watchWord b k 3) 0 6)

/-- The RECORD body in force now: a pending one from its activation instant on (R39). -/
def State.recBody (s : State) : List Byte := s.patAt 16 s.nowNs

/-- An instant before A that is still undecided once a pending RECORD pattern has taken over: no state is carried to it (R39). -/
def State.recStale (s : State) (ns : Nat) : Bool :=
  s.pend && s.bit Reg.FEAT_IMG_PEND 16 && s.actNs ≤ s.nowNs && decide (ns < s.actNs)

/-! ## Updates (R335) -/

/-- Most values the update queue holds. -/
def firnDepth : Nat := 4096

/-- An update enters the queue, under R166. -/
def State.firnPush (s : State) (u : FirnUpd) : State :=
  let r := fifoPush firnDepth s.firn.queue u
  let w := s.watchWrite s.firn.queue.isEmpty s.firn.watch
  let s := { s with firn := { s.firn with queue := r.1, watch := w } }
  if r.2 then (s.count Reg.FIRN_LOST_CNT).raise 77 else s

/-- Each quantity of KIND `kind` takes the value that `f` gives for its INDEX and LANE: nothing where it does not update, a skip, or a value;
`t` is the sample time (T80). -/
def State.firnAll (s : State) (kind t : Nat) (f : Nat → Nat → Option (Option Int)) : State :=
  let b := s.recBody
  if s.recStale (nsOfT80 t) then s
  else s.forRange (fun k s =>
    let w := watchKey b k
    if w.1 = kind then
      match f w.2.1 w.2.2 with
      | none => s
      | some none => s.count Reg.FIRN_SKIP_CNT
      | some (some v) => s.firnPush { qty := k, v := v, t := t }
    else s) 0 (watchCnt b)

/-- A count of nanoseconds as a 40-bit signed value (R335). -/
def ns40 (n : Nat) : Int := (min n (2 ^ 39 - 1) : Nat)

/-- A quantity of KIND `kind` and INDEX `index` takes a time in ns. -/
def State.firnNs (s : State) (kind index t ns : Nat) : State :=
  s.firnAll kind t fun i _ => if kind = 3 || kind = 5 || i = index then some (some (ns40 ns)) else none

/-- Lane `l` of a payload (R128), a phasor as its magnitude. -/
def laneValue (y : Payload) (l : Nat) : Int :=
  if l < 16 then mag40 (y.ph.getD l ⟨0, 0⟩) else if l = 16 then y.freq else if l = 17 then y.rocof else y.an.getD (l - 18) 0

/-- A seam token updates the quantities of its group's members, and those of its CLOSE_OFS (KIND 0 and 2). -/
def State.firnClose (s : State) (t : Token) : State :=
  let ks := memSources (s.patAt 5 t.t0) t.group
  let b := s.recBody
  let read := (((List.range (watchCnt b)).map (watchKey b)).filter fun w => w.1 = 0 && ks.contains w.2.1).map fun w => w.2.1
  let (bad, s) := if s.recStale t.t0 then ([], s) else s.checkSlots t.way read.eraseDups
  let s := s.firnAll 0 (t80OfNs t.t0) fun i l =>
    if !ks.contains i then none
    else
      let x := s.slotAt i t.way
      if !(s.slotFlags i t.way).1 || bad.contains i || x.bad || fld x.payload.invalid l 1 = 1 then some none else some (some (laneValue x.payload l))
  s.firnNs 2 t.group (t80OfNs t.t0) t.ofs

/-- TIME_EST_ERR taken at a UTC second of the counter (KIND 5). -/
def State.firnSecond (s : State) : State :=
  s.firnAll 5 s.nowT80 fun _ _ => if s.rf Reg.TIME_STATE 0 3 = 0 then some none else some (some (ns40 (s.rn Reg.TIME_EST_ERR)))

/-! ## Records (R337) -/

/-- The record of a quantity, a period and a half. -/
def State.firnRec (s : State) (q p h : Nat) : FirnRec := Tbl.get s.firn.recs (6 * q + 2 * p + h) {}

/-- That record set. -/
def State.setFirnRec (s : State) (q p h : Nat) (r : FirnRec) : State :=
  { s with firn := { s.firn with recs := Tbl.set s.firn.recs (6 * q + 2 * p + h) r {} } }

/-- Number of the half of period `p` that is current. -/
def State.firnCur (s : State) (p : Nat) : Nat := s.rf Reg.FIRN_CUR p 1

/-- A value recorded (R337). -/
def FirnRec.add (r : FirnRec) (bin : Nat) (v : Int) (t : Nat) : FirnRec :=
  let lower := decide (v < r.min) || r.count = 0
  let upper := decide (r.max < v) || r.count = 0
  { r with
    gen := (r.gen + 2) % 2 ^ 32
    bins := Tbl.set r.bins bin (Nat.min (2 ^ 32 - 1) (Tbl.get r.bins bin 0 + 1)) 0
    count := (r.count + 1) % 2 ^ 48
    sum := sInt 96 (uNat 96 (r.sum + v))
    min := if lower then v else r.min
    minT := if lower then t else r.minT
    max := if upper then v else r.max
    maxT := if upper then t else r.maxT }

/-- The words of a record as FIRN_REC shows them. -/
def FirnRec.words (r : FirnRec) : List Nat :=
  let t80w := fun (v : Nat) => [v % 2 ^ 32, v / 2 ^ 32 % 2 ^ 32, v / 2 ^ 64]
  let w2 := fun (v : Nat) => [v % 2 ^ 32, v / 2 ^ 32]
  let m := uNat 96 r.sum
  [r.gen] ++ t80w r.pstart ++ w2 r.count ++ [m % 2 ^ 32, m / 2 ^ 32 % 2 ^ 32, m / 2 ^ 64] ++ w2 (uNat 40 r.min) ++ t80w r.minT ++
    w2 (uNat 40 r.max) ++ t80w r.maxT ++ [0] ++ (List.range 64).map fun k => Tbl.get r.bins k 0

/-! ## Poison (R339) -/

/-- Poison entry `k` names the record of a quantity, a period and a half, and is LIVE. -/
def State.poisonIs (s : State) (k q p h : Nat) : Bool :=
  let w := s.rn (Reg.FIRN_POISON k)
  fld w 31 1 = 1 && fld w 13 1 = 1 && fld w 0 10 = q && fld w 10 2 = p && fld w 12 1 = h

/-- A record is poisoned and LIVE. -/
def State.firnBad (s : State) (q p h : Nat) : Bool :=
  s.firn.vol.contains (6 * q + 2 * p + h) || (List.range 16).any fun k => s.poisonIs k q p h

/-- The poison entry to take: the first with VALID = 0, else the first with LIVE = 0. -/
def State.poisonFree (s : State) : Option Nat :=
  match (List.range 16).find? fun k => !s.bit (Reg.FIRN_POISON k) 31 with
  | some k => some k
  | none => (List.range 16).find? fun k => !s.bit (Reg.FIRN_POISON k) 13

/-- A record poisoned by an uncorrectable error. -/
def State.firnPoison (s : State) (q p h : Nat) : State :=
  let s := (s.count Reg.FIRN_UE_CNT).raise 78
  match s.poisonFree with
  | some k =>
    (s.setReg (Reg.FIRN_POISON k) (2 ^ 31 + (q + p * 2 ^ 10 + h * 2 ^ 12 + 2 ^ 13))).setReg (Reg.FIRN_POISON_T k)
      ((s.utcNs / 1000000000).toNat % 2 ^ 32)
  | none => { s with firn := { s.firn with vol := s.firn.vol ++ [6 * q + 2 * p + h] } }.count Reg.FIRN_POISON_OVF_CNT

/-- A read of a record checked: whether the record may be used, and the state. -/
def State.firnRead (s : State) (q p h : Nat) (err : MemErr) : Bool × State :=
  let (e, s) := s.check 45 (q + p * 2 ^ 10 + h * 2 ^ 12) err
  match e with
  | .ue => (false, s.firnPoison q p h)
  | .ce => (true, s.count Reg.FIRN_CE_CNT)
  | _ => (true, s)

/-- An update applied to period `p`. -/
def State.firnApply (s : State) (b : List Byte) (u : FirnUpd) (p : Nat) (err : MemErr) : State :=
  let h := s.firnCur p
  if s.firnBad u.qty p h then s.count Reg.FIRN_POISON_DROP_CNT
  else
    match s.firnRead u.qty p h err with
    | (false, s) => s.count Reg.FIRN_POISON_DROP_CNT
    | (true, s) =>
      let ps := s.rn (Reg.FIRN_PSTART p)
      let r := s.firnRec u.qty p h
      let r : FirnRec := if r.pstart = ps then r else { gen := r.gen, pstart := ps }
      s.setFirnRec u.qty p h (r.add (watchBin b u.qty u.v) u.v u.t)

/-- The next update applied, in each of the three periods. -/
def firnUpdate (errs : List MemErr) (s : State) : State :=
  match s.firn.queue with
  | [] => s
  | u :: rest =>
    let b := s.recBody
    let s := { s with firn := { s.firn with queue := rest, watch := s.watchRead } }
    (s.forRange (fun p s => s.firnApply b u p (errs.getD p .ok)) 0 3).count Reg.FIRN_UPD_CNT

/-- FIRN_UPDATE. -/
def execFirnUpdate (err : List MemErr) (s : State) : Host.Outcome State Fault Refusal := live (firnUpdate err) s

/-- A record read by the scrub. -/
def firnScrub (q p h : Nat) (err : MemErr) (s : State) : State :=
  if s.firnBad q p h then s else (s.firnRead q p h err).2

/-- FIRN_SCRUB. -/
def execFirnScrub (qty : Fin 1024) (period : Fin 3) (half : Fin 2) (err : MemErr) (s : State) : Host.Outcome State Fault Refusal :=
  live (firnScrub qty.val period.val half.val err) s

/-! ## Periods (R336) -/

/-- Length of a period in seconds. -/
def periodLen (p : Nat) : Nat := if p = 0 then 60 else if p = 1 then 600 else 86400

/-- The counter has reached a boundary of period `p`. -/
def firnPeriod (p : Nat) (s : State) : State :=
  let len := periodLen p
  let now := (s.utcNs / 1000000000).toNat
  let b := now / len * len
  let old := Tbl.get s.firn.bound p 0
  if !s.feat 58 || b ≤ old then s
  else
    let s := { s with firn := { s.firn with bound := Tbl.set s.firn.bound p b 0 } }
    let s := s.setF Reg.FIRN_CUR p 1 (1 - s.firnCur p)
    let s := s.setReg (Reg.FIRN_PSTART p) (t80 ((b : Int) + s.utcOfs).toNat 0)
    (s.countBy Reg.FIRN_PERIOD_SKIP_CNT ((b - old) / len - 1)).raise 76

/-- FIRN_PERIOD. -/
def execFirnPeriod (period : Fin 3) (s : State) : Host.Outcome State Fault Refusal := live (firnPeriod period.val) s

/-! ## The clear (R338) -/

/-- Both halves of period `p` of every quantity reset. -/
def State.clearPeriod (s : State) (n p : Nat) : State :=
  let now := s.nowT80
  s.forRange (fun q s => s.forRange (fun h s =>
    s.setFirnRec q p h { gen := ((s.firnRec q p h).gen + 2) % 2 ^ 32, pstart := if h = s.firnCur p then now else 0 }) 0 2) 0 n

/-- The poison entries of the periods in `ps` at a clear: LIVE ones are made not LIVE, others are removed; how many were made not LIVE. -/
def State.clearPoison (s : State) (ps k : Nat) : Nat → Nat × State
  | 0 => (0, s)
  | n + 1 =>
    let w := s.rn (Reg.FIRN_POISON k)
    if fld w 31 1 = 1 && fld ps (fld w 10 2) 1 = 1 then
      if fld w 13 1 = 1 then
        let r := (s.setReg (Reg.FIRN_POISON k) (putFld w 13 1 0)).clearPoison ps (k + 1) n
        (r.1 + 1, r.2)
      else ((s.setReg (Reg.FIRN_POISON k) 0).setReg (Reg.FIRN_POISON_T k) 0).clearPoison ps (k + 1) n
    else s.clearPoison ps (k + 1) n

/-- A write of FIRN_CLR inside its authorisation. -/
def firnClr (w : Word) (s : State) : State :=
  let ps := fld w.toNat 0 3
  match s.key.statsAt with
  | none => s
  | some a =>
    if !w.getLsbD 31 || !s.feat 58 || !a.firn || ps &&& a.periods ≠ ps || 250000000 + a.since ≤ s.time.ticks then s
    else
      let s := { s with key := { s.key with statsAt := if a.energy then some { a with firn := false } else none } }
      let s := s.forRange (fun p s => if fld ps p 1 = 1 then s.clearPeriod (watchCnt (s.recBody)) p else s) 0 3
      let (n, s) := s.clearPoison ps 0 16
      let seq := (s.firn.clrSeq + 1) % 2 ^ 32
      let s := { s with firn := { s.firn with clrSeq := seq, vol := s.firn.vol.filter fun r => fld ps (r / 2 % 3) 1 = 0 } }
      let k := s.rn Reg.FIRN_CLRLOG_HEAD
      let s := (s.setReg (Reg.FIRN_CLRLOG k) s.nowT80).setReg (Reg.FIRN_CLRLOG_INFO k) (ps + n * 8 + seq % 2 ^ 24 * 256)
      ((s.setReg Reg.FIRN_CLRLOG_HEAD ((k + 1) % 8)).count Reg.FIRN_CLR_CNT).raise 79

/-- FIRN_CLR. -/
def execFirnClr (who : Party) (w : Word) (s : State) : Host.Outcome State Fault Refusal :=
  live (written who Reg.FIRN_CLR w (firnClr w)) s

/-! ## Image and reset (R337, R339) -/

/-- The region rewritten: every record zero, every poison entry not LIVE. -/
def State.wipeFirn (s : State) : State :=
  let s := { s with firn := { s.firn with recs := [], vol := [], queue := [], watch := {} } }
  s.forRange (fun k s => s.setF (Reg.FIRN_POISON k) 13 1 0) 0 16

/-- The firn recorder's part of a full image applied. -/
def State.applyFirn (s : State) : State := s.wipeFirn.setReg Reg.FIRN_CFG (watchCnt (s.recBody))

end Sys2Proof.Machine
end

