-- ==== Sys2Proof/Machine/Cap.lean ====
section
/-! DEFINITION. The capture engine (R325 to R334): plans, rows, triggers, records and the spill ring. -/
namespace Sys2Proof.Machine
open Sys2Proof

/-- Plan states (R340). -/
abbrev capIdle : Nat := 0
abbrev capArmed : Nat := 1
abbrev capPost : Nat := 2
abbrev capWait : Nat := 3
abbrev capStopped : Nat := 4

/-- A sample of a signal as the capture engine takes it: value, and INVALID, SAT and HIGH as bits 0 to 2. -/
structure CapSample where
  v : Int
  flags : Nat
deriving DecidableEq, Repr

/-! ## Plans -/

/-- Plan `n`. -/
def State.plan (s : State) (n : Nat) : CapPlan := Tbl.get s.cap.plans n {}

/-- Plan `n` set, and its registers shown. -/
def State.setPlan (s : State) (n : Nat) (x : CapPlan) : State :=
  ({ s with cap := { s.cap with plans := Tbl.set s.cap.plans n x {} } }).setReg (Reg.CAP_PLAN_FILL n) (min x.fill (2 ^ 24 - 1))

/-- STATE of plan `n`. -/
def State.planState (s : State) (n : Nat) : Nat := s.rf (Reg.CAP_PLAN_STATE n) 0 3

/-- Parts of plan records (R326). -/
def planEn (b : List Byte) (n : Nat) : Bool := fld (planWord b n 0) 0 1 = 1
def planSeam (b : List Byte) (n : Nat) : Bool := fld (planWord b n 0) 1 1 = 1
def planRing (b : List Byte) (n : Nat) : Bool := fld (planWord b n 0) 2 1 = 1
def planSpill (b : List Byte) (n : Nat) : Bool := fld (planWord b n 0) 3 1 = 1
def planReduce (b : List Byte) (n : Nat) : Nat := fld (planWord b n 1) 0 9
def planSegs (b : List Byte) (n : Nat) : Nat := fld (planWord b n 3) 16 13
def planSlots (b : List Byte) (n : Nat) : Nat := fld (planWord b n 3) 0 13 / planSegs b n
def planPre (b : List Byte) (n : Nat) : Nat := fld (planWord b n 4) 0 24
def planPost (b : List Byte) (n : Nat) : Nat := fld (planWord b n 5) 0 24

/-- Rows that a slot of plan `n` holds. -/
def planDepth (b : List Byte) (n : Nat) : Nat := planPre b n + planPost b n

/-- First segment of slot `k` of plan `n`. -/
def slotSeg (b : List Byte) (n k : Nat) : Nat := fld (planWord b n 2) 0 12 + k * planSegs b n

/-- Signals of a POW plan, ascending. -/
def planSigs (b : List Byte) (n : Nat) : List Nat := (List.range 16).filter fun z => fld (planWord b n 0) (16 + z) 1 = 1

/-- Items of a SEAM plan: source and lane. -/
def planItems (b : List Byte) (n : Nat) : List (Nat × Nat) :=
  (List.range (fld (planWord b n 6) 0 7)).map fun i =>
    let w := itemWord b (fld (planWord b n 6) 8 10 + i)
    (fld w 0 14, fld w 14 5)

/-- Elements of a row of plan `n`. -/
def planElems (b : List Byte) (n : Nat) : Nat :=
  if planSeam b n then 1 + ((planItems b n).map fun i => if i.2 < 16 then 2 else 1).foldl (· + ·) 0
  else (planSigs b n).length * (if planReduce b n ≤ 1 then 1 else 2)

/-- Plan `n` in state `st`, its current slot shown. -/
def State.setPlanState (s : State) (b : List Byte) (n st : Nat) : State :=
  s.setReg (Reg.CAP_PLAN_STATE n) (st + 2 ^ 16 * slotSeg b n (s.plan n).slot)

/-- CAP_SPILL_STATE shows the records that await spill. -/
def State.showSpill (s : State) : State :=
  let n := s.cap.spill.length
  let stopped := s.bit Reg.CAP_SPILL_STATE 0
  s.setReg Reg.CAP_SPILL_STATE (bitAt stopped 0 + bitAt (n ≠ 0 && !stopped) 1 + min n 255 * 256)

/-- Plan `n` begins a record in its current slot: an old record there that awaits no spill is overwritten. -/
def State.beginRecord (s : State) (b : List Byte) (n : Nat) : State :=
  let x := s.plan n
  let old := Tbl.get x.used x.slot 0 = 1 && !planSpill b n
  let s := s.setPlan n { slot := x.slot, used := Tbl.set x.used x.slot 0 0, seen := s.time.stepAt }
  let s := if old then (s.count Reg.CAP_OVERWRITE_CNT).raise 75 else s
  s.setPlanState b n capArmed

/-- Plan `n` takes its next slot in order (R331): ARMED in it, or WAIT_SLOT while it awaits spill. -/
def State.nextSlot (s : State) (b : List Byte) (n : Nat) : State :=
  let x := s.plan n
  let k := if x.slot + 1 < planSlots b n then x.slot + 1 else 0
  let s := if k = 0 then s.count Reg.CAP_SEG_WRAP_CNT else s
  let s := s.setPlan n { slot := k, used := x.used }
  if Tbl.get x.used k 0 = 2 then s.setPlanState b n capWait else s.beginRecord b n

/-! ## Rows (R326 to R328) -/

/-- A sample gathered: it counts unless it is INVALID, ABSENT or BAD. -/
def CapStat.add (x : CapStat) (v : Int) (flags : Nat) : CapStat :=
  let x := { x with flags := x.flags ||| flags }
  if fld flags 0 1 = 1 || fld flags 3 1 = 1 || fld flags 4 1 = 1 then { x with ninv := x.ninv + 1 }
  else
    { x with
      n := x.n + 1
      min := if x.n = 0 || v < x.min then v else x.min
      max := if x.n = 0 || x.max < v then v else x.max
      sum := x.sum + v
      sq := x.sq + v * v
      nsat := x.nsat + fld flags 1 1 }

/-- Two gatherings as one. -/
def CapStat.join (x y : CapStat) : CapStat :=
  if x.n = 0 then { y with nsat := x.nsat + y.nsat, ninv := x.ninv + y.ninv, flags := x.flags ||| y.flags }
  else if y.n = 0 then { x with nsat := x.nsat + y.nsat, ninv := x.ninv + y.ninv, flags := x.flags ||| y.flags }
  else
    { n := x.n + y.n, min := if y.min < x.min then y.min else x.min, max := if x.max < y.max then y.max else x.max
      sum := x.sum + y.sum, sq := x.sq + y.sq, nsat := x.nsat + y.nsat, ninv := x.ninv + y.ninv, flags := x.flags ||| y.flags }

/-- An element (R327). -/
def capElem (v : Int) (flags : Nat) : Nat := uNat 40 v + 2 ^ 40 * (flags % 64)

/-- The elements of a reduced row (R328). -/
def CapStat.elems (x : CapStat) : List Nat :=
  if x.n = 0 then [capElem 0 (x.flags ||| 1), capElem 0 (x.flags ||| 1)] else [capElem x.min x.flags, capElem x.max x.flags]

/-- Capture memory written from byte `a`. -/
def State.capWrite (s : State) (a : Nat) (bs : List Byte) : State := { s with cap := { s.cap with mem := Memory.write s.cap.mem a bs } }

/-- First byte of the current slot of plan `n`. -/
def State.slotAddr (s : State) (b : List Byte) (n : Nat) : Nat := slotSeg b n (s.plan n).slot * 2048

/-- The last row of a record whose trigger row is `t`. -/
def capLast (b : List Byte) (n t newest : Nat) : Nat := max (t + planPost b n - 1) newest

/-- A row stored by plan `n`: it takes the place of the oldest where the slot is full, and may be the trigger row. -/
def State.storeRow (s : State) (b : List Byte) (n : Nat) (r : CapRow) : State :=
  let x := s.plan n
  let full := planDepth b n ≤ x.rows.length
  let k := x.fill
  let rows := (if full then x.rows.tail else x.rows) ++ [r]
  let left := if full then (match x.rows.head? with
    | some o => some o.t
    | none => x.left) else x.left
  let hit := s.planState n = capPost && x.trow.isNone && decide (x.trigT ≤ r.t)
  let s := s.setPlan n { x with
    rows := rows, left := left, fill := k + 1
    trow := if hit then some k else x.trow
    last := if hit then capLast b n k k else x.last }
  s.capWrite (s.slotAddr b n + 64 + k % planDepth b n * (8 * r.elems.length)) (r.elems.flatMap (leBytes 8))

/-- The record of plan `n` holds its last row. -/
def State.capComplete (s : State) (n : Nat) : Bool :=
  s.planState n = capPost && (s.plan n).trow.isSome && decide ((s.plan n).last < (s.plan n).fill)

/-! ## Records (R332) -/

/-- An entry of the measurement block. -/
def CapStat.entry (x : CapStat) : List Byte :=
  let b := if x.n = 0 then List.replicate 20 0
    else leBytes 5 (uNat 40 x.min) ++ leBytes 5 (uNat 40 x.max) ++ leBytes 5 (uNat 40 (rhe x.sum x.n)) ++
      leBytes 5 (uNat 40 (sqrtFix 0 30 (rhe x.sq (2 ^ 30 * x.n))).1)
  b ++ leBytes 2 (Nat.min x.nsat 65535) ++ leBytes 2 (Nat.min x.ninv 65535)

/-- The gatherings of a record's rows joined, entry by entry. -/
def joinStats : List CapRow → List CapStat
  | [] => []
  | [r] => r.stats
  | r :: t => List.zipWith CapStat.join r.stats (joinStats t)

/-- A 64-byte record header; `w0` holds the flags and numbers of word 0 above KIND. -/
def capHeader (w0 len rows trow elems red firstT trigT w11 seq : Nat) : List Byte :=
  padTo 64 (leBytes 4 w0 ++ leBytes 4 len ++ leBytes 4 rows ++ leBytes 4 trow ++ leBytes 4 (elems % 256 + red * 256) ++ leBytes 12 firstT ++
    leBytes 12 trigT ++ leBytes 4 w11 ++ leBytes 8 (seq % 2 ^ 48))

/-- A record completed (R331, R332): header and measurements written, then the plan goes on. -/
def State.finishRecord (s : State) (b : List Byte) (n : Nat) (err : MemErr) (errAt : Nat) : State :=
  let (e, s) := s.check 44 (n + errAt % 2 ^ 16 * 16) err
  let s := if e = .ce then s.count Reg.CAP_CE_CNT else if e = .ue then s.count Reg.CAP_UE_CNT else s
  let x := s.plan n
  let els := x.rows.flatMap CapRow.elems
  let els := if e = .ue then els.modify errAt fun v => v ||| 2 ^ 45 else els
  let elems := planElems b n
  let first := x.fill - x.rows.length
  let trow := x.trow.getD 0
  let meas := (joinStats x.rows).flatMap CapStat.entry
  let len := 64 + 8 * els.length + meas.length
  let r0 := x.rows.headD ⟨0, 0, false, [], []⟩
  let seq := s.cap.seq
  let w0 := n + bitAt (planSeam b n) 4 + 2 ^ 5 + bitAt (trow < planPre b n) 6 + bitAt x.late 7 + bitAt (e = .ue) 8 + x.trig * 2 ^ 11 +
    2 ^ 17 * x.retrig
  let h := capHeader w0 len x.rows.length (trow - first) elems (planReduce b n) (t80OfNs r0.t) (t80OfNs x.trigT)
    (r0.epoch + bitAt (x.rows.tail.any CapRow.step) 2) seq
  let addr := s.slotAddr b n
  let s := s.capWrite addr (h ++ els.flatMap (leBytes 8) ++ meas)
  let w : CapSpill := { plan := n, slot := x.slot, addr := addr, len := len, seq := seq }
  let s := { s with cap := { s.cap with
    seq := (seq + 1) % 2 ^ 48, spill := if planSpill b n then s.cap.spill ++ [w] else s.cap.spill } }
  let s := s.setPlan n { x with used := Tbl.set x.used x.slot (if planSpill b n then 2 else 1) 0 }
  let s := ((s.count Reg.CAP_REC_CNT).count (Reg.CAP_PLAN_REC_CNT n)).setReg (Reg.CAP_PLAN_LAST n) (2 ^ 31 + slotSeg b n x.slot)
  let s := (s.raise 72).showSpill
  if !planRing b n || (planSpill b n && s.bit Reg.CAP_SPILL_STATE 0) then s.setPlanState b n capStopped else s.nextSlot b n

/-- A record of plan `n` that holds its last row is completed. -/
def capDone (n : Nat) (err : MemErr) (errAt : Nat) (s : State) : State :=
  if s.capComplete n then s.finishRecord (s.recBody) n err errAt else s

/-- CAP_DONE. -/
def execCapDone (plan : Fin 16) (err : MemErr) (errAt : Nat) (s : State) : Host.Outcome State Fault Refusal :=
  live (capDone plan.val err errAt) s

/-- Plan `n` takes rows. -/
def State.capRuns (s : State) (n : Nat) : Bool := s.planState n = capArmed || s.planState n = capPost

/-- A step or re-phase has happened since plan `n`'s last row. -/
def State.capStep (s : State) (n : Nat) : Bool := s.bit Reg.STN_STATUS 1 || (s.plan n).seen ≠ s.time.stepAt

/-- The sixteen signals' samples enter the row of POW plan `n`. -/
def State.capSample (s : State) (b : List Byte) (n : Nat) (smp : List CapSample) (t : Nat) : State :=
  let s := capDone n .ok 0 s
  if !s.capRuns n || planSeam b n then s
  else
    let x := s.plan n
    let sel := (planSigs b n).map fun z => smp.getD z ⟨0, 1⟩
    let none0 : CapRow := { t := t, epoch := s.epoch, step := false, elems := [], stats := sel.map fun _ => ({} : CapStat) }
    let old := x.part.getD (none0, 0)
    let stats := List.zipWith (fun (a : CapStat) (v : CapSample) => a.add v.v v.flags) old.1.stats sel
    let r : CapRow := { old.1 with stats := stats, step := old.1.step || s.capStep n }
    let k := old.2 + 1
    if k < planReduce b n then s.setPlan n { x with part := some (r, k), seen := s.time.stepAt }
    else
      let els := if planReduce b n ≤ 1 then sel.map fun v => capElem v.v v.flags else stats.flatMap CapStat.elems
      (s.setPlan n { x with part := none, seen := s.time.stepAt }).storeRow b n { r with elems := els }

/-- The elements of an item of a seam: values and flags, two for a phasor; `bad` are the sources whose slot cannot be read. -/
def State.itemElems (s : State) (way : Nat) (bad : List Nat) (it : Nat × Nat) : List CapSample :=
  let y := s.slotAt it.1 way
  let f := fld y.payload.invalid it.2 1 + 2 * fld y.payload.qual 20 1 + bitAt (!(s.slotFlags it.1 way).1 || bad.contains it.1) 3 + bitAt y.bad 4
  if it.2 < 16 then [⟨(y.payload.ph.getD it.2 ⟨0, 0⟩).re, f⟩, ⟨(y.payload.ph.getD it.2 ⟨0, 0⟩).im, f⟩]
  else [⟨laneValue y.payload it.2, f⟩]

/-- The row of a seam for SEAM plan `n`, its slots read at the token. -/
def State.seamRow (s : State) (b : List Byte) (n : Nat) (t : Token) (bad : List Nat) : CapRow :=
  let es := (planItems b n).flatMap (s.itemElems t.way bad)
  { t := t.t0, epoch := t.epoch, step := s.capStep n
    elems := (t.seq % 2 ^ 48 + 2 ^ 48 * t.cause + bitAt t.short 51) :: es.map fun e => capElem e.v e.flags
    stats := es.map fun e => ({} : CapStat).add e.v e.flags }

/-- The oldest waiting row of SEAM plan `n` written. -/
def capSeamRow (n : Nat) (s : State) : State :=
  let s := capDone n .ok 0 s
  match (s.plan n).waiting with
  | [] => s
  | r :: rest => (s.setPlan n { s.plan n with waiting := rest }).storeRow (s.recBody) n r

/-- CAP_SEAM_ROW. -/
def execCapSeamRow (plan : Fin 16) (s : State) : Host.Outcome State Fault Refusal := live (capSeamRow plan.val) s

/-- A seam token reaches the SEAM plans of its group. -/
def State.capClose (s : State) (t : Token) : State :=
  let b := s.recBody
  s.forRange (fun n s =>
    if planSeam b n && !s.recStale t.t0 && fld (planWord b n 0) 4 8 = t.group && s.capRuns n then
      let (bad, s) := s.checkSlots t.way ((planItems b n).map Prod.fst).eraseDups
      s.setPlan n { s.plan n with waiting := (s.plan n).waiting ++ [s.seamRow b n t bad], seen := s.time.stepAt }
    else s) 0 (planCnt b)

/-! ## Triggers (R329, R330) -/

/-- Parts of trigger records. -/
def trigEn (b : List Byte) (k : Nat) : Bool := fld (trigWord b k 0) 0 1 = 1
def trigKind (b : List Byte) (k : Nat) : Nat := fld (trigWord b k 0) 1 2
def trigNeedArm (b : List Byte) (k : Nat) : Bool := fld (trigWord b k 0) 3 1 = 1

/-- The register that shows whether trigger `k` is armed. -/
def trigReg (k : Nat) : Nat := if k < 32 then Reg.CAP_TRIG_ARMED_LO else Reg.CAP_TRIG_ARMED_HI

/-- Trigger `k` is armed. -/
def State.trigArmed (s : State) (k : Nat) : Bool := s.bit (trigReg k) (k % 32)

/-- Trigger `k` of a plan fires, with its trigger instant. -/
def State.capFire (s : State) (k t : Nat) : State :=
  let b := s.recBody
  let n := fld (trigWord b k 0) 4 4
  let s := if trigNeedArm b k then s.setF (trigReg k) (k % 32) 1 0 else s
  let x := s.plan n
  if s.planState n = capArmed then
    let base := x.fill - x.rows.length
    let newest := x.fill - 1
    let late := match x.left with
      | some l => decide (t ≤ l)
      | none => false
    let hit := if late then some base else (x.rows.findIdx? fun r => decide (t ≤ r.t)).map (base + ·)
    let s := s.setPlan n { x with
      trig := k, trigT := t, retrig := 0, late := late, trow := hit
      last := match hit with
        | some i => capLast b n i newest
        | none => 0 }
    (s.setPlanState b n capPost).count Reg.CAP_TRIG_CNT
  else if s.planState n = capPost then
    (s.setPlan n { x with retrig := min (x.retrig + 1) 16383 }).count Reg.CAP_RETRIG_CNT
  else (s.count Reg.CAP_TRIG_MISS_CNT).raise 73

/-- Trigger `k` armed by a tack or a write; an IMMEDIATE one fires at once. -/
def State.capArm (s : State) (k : Nat) : State :=
  let b := s.recBody
  if trigCnt b ≤ k || !trigEn b k || s.trigArmed k then s
  else
    let s := s.setF (trigReg k) (k % 32) 1 1
    let s := { s with cap := { s.cap with prev := Tbl.set s.cap.prev k none none, due := Tbl.set s.cap.due k none none } }
    if trigKind b k = 0 then s.capFire k s.nowNs else s

/-- CAP_TRIG_ARM written. -/
def capTrigArm (w : Word) (s : State) : State := if w.getLsbD 31 then s.capArm (fld w.toNat 0 6) else s

/-- CAP_TRIG_ARM. -/
def execCapTrigArm (who : Party) (w : Word) (s : State) : Host.Outcome State Fault Refusal :=
  live (written who Reg.CAP_TRIG_ARM w (capTrigArm w)) s

/-- CAP_TRIG_FIRE written: any trigger that is armed fires. -/
def capTrigFire (w : Word) (s : State) : State :=
  let k := fld w.toNat 0 6
  let b := s.recBody
  if w.getLsbD 31 && k < trigCnt b && trigEn b k && s.trigArmed k then s.capFire k s.nowNs else s

/-- CAP_TRIG_FIRE. -/
def execCapTrigFire (who : Party) (w : Word) (s : State) : Host.Outcome State Fault Refusal :=
  live (written who Reg.CAP_TRIG_FIRE w (capTrigFire w)) s

/-- The condition of LEVEL trigger `k` on a value. -/
def levelCond (b : List Byte) (k : Nat) (v : Int) : Bool :=
  let l := sInt 40 (trigWord b k 1 + 2 ^ 32 * fld (trigWord b k 2) 0 8)
  let d := fld (trigWord b k 0) 12 2
  if d = 0 then l < v else if d = 1 then v < l else l < v.natAbs

/-- The LEVEL triggers judge the samples taken at input instant `t`: a crossing becomes due. -/
def State.capLevels (s : State) (b : List Byte) (smp : List CapSample) (t : Nat) : State :=
  s.forRange (fun k s =>
    let x := smp.getD (fld (trigWord b k 0) 8 4) ⟨0, 1⟩
    if trigEn b k && trigKind b k = 1 && s.trigArmed k && fld x.flags 0 1 = 0 then
      let c := levelCond b k x.v
      let rise := c && Tbl.get s.cap.prev k none ≠ some true
      { s with cap := { s.cap with
        prev := Tbl.set s.cap.prev k (some c) none
        due := if rise then Tbl.set s.cap.due k (some t) none else s.cap.due } }
    else s) 0 (trigCnt b)

/-- Trigger `k` fires where a crossing of its level is due. -/
def State.fireLevel (s : State) (k : Nat) : State :=
  match Tbl.get s.cap.due k none with
  | none => s
  | some t =>
    let s := { s with cap := { s.cap with due := Tbl.set s.cap.due k none none } }
    if s.trigArmed k then s.capFire k t else s

/-- Every LEVEL trigger whose crossing is due fires, in ascending number (R331). -/
def State.fireLevels (s : State) : State := s.forRange (fun k s => s.fireLevel k) 0 64

/-- LEVEL trigger `k` fires, and with it every one whose crossing the same sample made due. -/
def levelTrigger (k : Nat) (s : State) : State := if (Tbl.get s.cap.due k none).isSome then s.fireLevels else s

/-- LEVEL_TRIGGER. -/
def execLevelTrigger (trig : Fin 64) (s : State) : Host.Outcome State Fault Refusal := live (levelTrigger trig.val) s

/-- A merge for `t0` moves class `c` from IDLE to ON: its ALARM triggers fire. -/
def State.capAlarm (s : State) (c t0 : Nat) : State :=
  let b := s.recBody
  s.forRange (fun k s =>
    if trigEn b k && trigKind b k = 2 && fld (trigWord b k 0) 16 8 = c && s.trigArmed k then s.capFire k t0 else s) 0 (trigCnt b)

/-- A sample of the station inputs delivered: triggers, then rows (R331). What an earlier sample made due fires first. -/
def State.capTake (s : State) (smp : List CapSample) (t : Nat) : State :=
  let b := s.recBody
  (s.fireLevels.capLevels b smp t).forRange (fun n s => s.capSample b n smp t) 0 (planCnt b)

/-! ## STOP and REARM (R331) -/

/-- CAP_PLAN_CTRL.STOP. -/
def capStop (w : Word) (s : State) : State :=
  let n := fld w.toNat 0 4
  let b := s.recBody
  if w.getLsbD 9 && n < planCnt b && (s.capRuns n || s.planState n = capWait) then
    let x := s.plan n
    (s.setPlan n { slot := x.slot, used := x.used }).setPlanState b n capStopped
  else s

/-- CAP_STOP. -/
def execCapStop (who : Party) (w : Word) (s : State) : Host.Outcome State Fault Refusal :=
  live (written who Reg.CAP_PLAN_CTRL w (capStop w)) s

/-- CAP_PLAN_CTRL.REARM. -/
def capRearm (w : Word) (s : State) : State :=
  let n := fld w.toNat 0 4
  let b := s.recBody
  if w.getLsbD 8 && n < planCnt b && s.planState n = capStopped then s.nextSlot b n else s

/-- CAP_REARM. -/
def execCapRearm (who : Party) (w : Word) (s : State) : Host.Outcome State Fault Refusal :=
  live (written who Reg.CAP_PLAN_CTRL w (capRearm w)) s

/-! ## Spill (R334) -/

/-- The spill pointers and the ring. -/
def State.spillW (s : State) : Nat := s.rn Reg.CAP_SPILL_WPTR_LO + 2 ^ 32 * s.rn Reg.CAP_SPILL_WPTR_HI
def State.spillR (s : State) : Nat := s.rn Reg.CAP_SPILL_RPTR_LO + 2 ^ 32 * s.rn Reg.CAP_SPILL_RPTR_HI
def State.setSpillW (s : State) (v : Nat) : State :=
  (s.setReg Reg.CAP_SPILL_WPTR_LO (v % 2 ^ 32)).setReg Reg.CAP_SPILL_WPTR_HI (v / 2 ^ 32)
def spillBase (b : List Byte) : Nat := word2 b 2
def spillSize (b : List Byte) : Nat := 1048576 * wf b 4 0 17

/-- Bytes a record takes in the ring, with the rest of the ring where it would pass its end. -/
def State.spillNeed (s : State) (b : List Byte) (len : Nat) : Nat :=
  if s.spillW + len ≤ spillSize b then len else spillSize b - s.spillW + len

/-- A record fits the free space. -/
def State.spillFits (s : State) (b : List Byte) (len : Nat) : Bool :=
  let size := spillSize b
  let used := if size = 0 then 0 else (s.spillW + size - s.spillR % size) % size
  s.spillNeed b len + used + 64 ≤ size

/-- A slot of plan `n` freed: a plan that waits for it is armed in it. -/
def State.freeSlot (s : State) (b : List Byte) (n k : Nat) : State :=
  let x := s.plan n
  let s := s.setPlan n { x with used := Tbl.set x.used k 0 0 }
  if s.planState n = capWait && x.slot = k then s.beginRecord b n else s

/-- The oldest completed record copied to the spill ring, or the spill stopped with a MARK. -/
def capSpillCopy (s : State) : State :=
  let b := s.recBody
  match s.cap.spill with
  | [] => s
  | r :: rest =>
    if s.bit Reg.CAP_SPILL_STATE 0 || s.pwr.state ≠ Power.run then s
    else if s.spillFits b r.len then
      let size := spillSize b
      let s := if s.spillW + r.len ≤ size then s
        else
          let w := s.spillW
          let s := if w + 64 ≤ size then
              s.ddrWrite (spillBase b + w) (capHeader (2 ^ 5 + 2 ^ 10) (size - w) 0 0 0 0 0 0 (65536 * s.rn Reg.CAP_SPILL_LAP) 0)
            else s
          (s.setSpillW 0).setReg Reg.CAP_SPILL_LAP ((s.rn Reg.CAP_SPILL_LAP + 1) % 65536)
      let bytes := Memory.read s.cap.mem r.addr r.len
      let lap := leBytes 2 (s.rn Reg.CAP_SPILL_LAP)
      let a := spillBase b + s.spillW
      let s := (s.ddrWrite (a + 64) (bytes.drop 64)).ddrWrite a (bytes.take 46 ++ lap ++ (bytes.drop 48).take 16)
      let s := { s.setSpillW (s.spillW + r.len) with cap := { s.cap with spill := rest } }
      ((s.count Reg.CAP_SPILL_CNT).freeSlot b r.plan r.slot).showSpill
    else
      let h := capHeader (r.plan + 2 ^ 5 + 2 ^ 9) 64 0 0 0 0 0 0 (65536 * s.rn Reg.CAP_SPILL_LAP) r.seq
      let size := spillSize b
      let w := s.spillW
      let s := (s.ddrWrite (spillBase b + w) (h.take (size - w))).ddrWrite (spillBase b) (h.drop (size - w))
      let s := ((s.setF Reg.CAP_SPILL_STATE 0 1 1).count Reg.CAP_SPILL_STOP_CNT).raise 74
      let s := s.forRange (fun n s =>
        if planSpill b n && s.planState n = capWait then s.setPlanState b n capStopped else s) 0 (planCnt b)
      s.showSpill

/-- CAP_SPILL_COPY. -/
def execCapSpillCopy (s : State) : Host.Outcome State Fault Refusal := live capSpillCopy s

/-- A write of CAP_SPILL_RPTR_HI: it commits both halves, and the spill resumes where the record not copied now fits. -/
def capSpillRptrWrite (who : Party) (hi : Word) (s : State) : State :=
  let key := Reg.CAP_SPILL_RPTR_LO * 16 + who.num
  let lo := (Tbl.get s.heldLo key none).getD (s.rn Reg.CAP_SPILL_RPTR_LO)
  let s := { s with heldLo := Tbl.set s.heldLo key none none }
  if !s.feat 57 then s
  else
    let s := (s.setReg Reg.CAP_SPILL_RPTR_LO lo).setReg Reg.CAP_SPILL_RPTR_HI hi.toNat
    match s.cap.spill with
    | r :: _ => if s.spillFits (s.recBody) r.len then (s.setF Reg.CAP_SPILL_STATE 0 1 0).showSpill else s
    | [] => (s.setF Reg.CAP_SPILL_STATE 0 1 0).showSpill

/-- CAP_SPILL_RPTR_WRITE. -/
def execCapSpillRptrWrite (who : Party) (hi : Word) (s : State) : Host.Outcome State Fault Refusal :=
  live (written who Reg.CAP_SPILL_RPTR_HI hi (capSpillRptrWrite who hi)) s

/-! ## Image and resets (R331) -/

/-- Every plan IDLE, then ARMED in its first slot where it is enabled; records in progress and awaiting spill abandoned. -/
def State.restartCap (s : State) : State :=
  let b := s.recBody
  let s := { s with cap := { s.cap with plans := [], prev := [], due := [], spill := [] } }
  let s := s.forRange (fun k s => s.setF (trigReg k) (k % 32) 1 (if k < trigCnt b && !trigNeedArm b k then 1 else 0)) 0 64
  let s := s.setReg Reg.CAP_SPILL_STATE 0
  s.forRange (fun n s =>
    let s := s.setPlan n {}
    if n < planCnt b && planEn b n then s.beginRecord b n else s.setReg (Reg.CAP_PLAN_STATE n) capIdle) 0 16

/-- The capture engine's part of a full image applied. -/
def State.applyCap (s : State) : State :=
  let b := s.recBody
  (s.setReg Reg.CAP_CFG (planCnt b + trigCnt b * 256)).restartCap

end Sys2Proof.Machine
end

