-- ==== Sys2Proof/Machine/NdkQ.lean ====
section
/-! DEFINITION. The Noduko link's NODUKO pattern (R365), the DATA queue that the seam engine fills (R370), and the standby state that
holds back a mirrored device's outputs (R375). -/
namespace Sys2Proof.Machine
open Sys2Proof

/-- The NODUKO body in force. -/
def State.ndkBody (s : State) : List Byte := s.pat 18

/-- The link works: feature 64 and a NODUKO pattern. -/
def State.ndkOn (s : State) : Bool := s.img.inForce && s.feat 64 && s.ndkBody ≠ []

/-- DEVNUM, MROLE and PEER. -/
def State.devNum (s : State) : Nat := wf s.ndkBody 0 0 3
def State.mrole (s : State) : Nat := wf s.ndkBody 0 11 2
def State.ndkPeerNum (s : State) : Nat := wf s.ndkBody 0 13 3

/-- NDK_MIRROR.ACTIVE. -/
def State.mirrorActive (s : State) : Bool := s.bit Reg.NDK_MIRROR 0

/-- A mirrored device in STANDBY drives no outputs (R375). -/
def State.standby (s : State) : Bool := s.ndkOn && s.mrole ≠ 0 && !s.mirrorActive

/-- The devices that source `k` is forwarded to. -/
def ndkDst (b : List Byte) (k : Nat) : Nat :=
  ((List.range (wf b 4 16 11)).filter fun r =>
    wf b (8 + 2 * r) 0 14 ≤ k && k < wf b (8 + 2 * r) 0 14 + wf b (8 + 2 * r) 14 15).foldl
      (fun (m : BitVec 8) r => m ||| BitVec.ofNat 8 (wf b (9 + 2 * r) 0 8)) 0 |>.toNat

/-- A compact member entry (R163). -/
def Slot.compact (x : Slot) (present : Bool) : List Byte :=
  leBytes 4 (x.word0 present false % 64 + 65536 * x.source) ++ leBytes 4 x.lat ++
    (List.range 8).flatMap (fun k => lane40 (x.payload.ph.getD k ⟨0, 0⟩).re ++ lane40 (x.payload.ph.getD k ⟨0, 0⟩).im) ++
    lane40 x.payload.freq ++ lane40 x.payload.rocof ++ (List.range 4).flatMap (fun j => lane40 (x.payload.an.getD j 0)) ++
    leBytes 2 (x.payload.dg.getD 0 0) ++ leBytes 4 x.payload.qual ++ leBytes 4 x.payload.invalid

/-- The payload of a DATA cell (R366). -/
def Slot.cellPayload (x : Slot) : List Byte :=
  padTo 64 (leBytes 4 x.source ++ leBytes 12 x.arr ++ leBytes 4 x.epoch ++ leBytes 4 x.sec ++
    leBytes 4 (x.sec / 2 ^ 32 % 2 ^ 16 + 2 ^ 16 * x.n)) ++ x.compact true

/-- The item in slot `x`, just admitted, is queued where its source is forwarded (R370). -/
def State.ndkForward (s : State) (x : Slot) : State :=
  let d := ndkDst s.ndkBody x.source
  if s.ndkOn && d ≠ 0 then
    let r := fifoPush 4096 s.ndk.txq { dst := d, payload := x.cellPayload }
    let s := { s with ndk := { s.ndk with txq := r.1 } }
    if r.2 then s.count Reg.NDK_TXQ_LOST_CNT else s
  else s

end Sys2Proof.Machine
end

