-- ==== Sys2Proof/Machine/Seam.lean ====
section
/-! DEFINITION. The seam engine (R141 to R169, R501): groups, the slot store, admission, openings, release, closes, learners, mend
records and the history ring. -/
namespace Sys2Proof.Machine
open Sys2Proof

/-- A token placed in the seam host queue where the host asks for its group (R460). -/
def State.seamToHost (s : State) (t : Token) : State :=
  if s.bit (Reg.HQ_SEAM_MASK (t.group / 32)) (t.group % 32) then
    let r := fifoPush 1024 s.hq.seamQ (t.words.flatMap (leBytes 4))
    let s := if s.hq.seamQ = [] then { s with hq := { s.hq with seamWatch := { since := s.time.ticks } } } else s
    let s := { s with hq := { s.hq with seamQ := r.1 } }
    if r.2 then (s.count Reg.HQ_SEAM_LOST_CNT).setF Reg.HQ_ATTN 1 1 1 else s
  else s

/-- A token emitted (R160, R163, R165, R460). -/
def State.emitToken (s : State) (b : List Byte) (t : Token) : State :=
  let s := s.setWords (Reg.SEAM_GRP_TOKEN t.group 0) t.words
  let s := s.forRange (fun p s => if s.consumes p t.group then s.pushToken p t else s) 0 16
  let s := (s.pushNote (.seam t.group)).seamToHost t
  let s := (s.firnClose t).capClose t
  let w0 := grpWord b t.group 0
  let s := if fld w0 11 1 = 1 && wf b 0 9 1 = 1 then
      (if s.seam.hist.length < 64 then { s with seam := { s.seam with hist := s.seam.hist ++ [(t, memSources b t.group)] } }
      else (s.count Reg.SEAM_HIST_LOST_CNT).raise 44)
    else s
  if fld w0 12 1 = 1 && !s.bit (Reg.SEAM_CLOSE_PEND (t.group / 32)) (t.group % 32) then
    (s.setF (Reg.SEAM_CLOSE_PEND (t.group / 32)) (t.group % 32) 1 1).raise 47
  else s

/-- Causes of a close (R152, R150). -/
abbrev causeComplete : Nat := 0
abbrev causeQuorum : Nat := 1
abbrev causeDeadline : Nat := 2
abbrev causeForced : Nat := 3

/-- The counter of a close cause. -/
def causeCnt (c : Nat) : Nat :=
  if c = 0 then Reg.SEAM_COMPLETE_CNT else if c = 1 then Reg.SEAM_QUORUM_CNT else if c = 2 then Reg.SEAM_DEADLINE_CNT
  else Reg.SEAM_OVERRUN_CNT

/-- An open seam of group `g` closed with a cause (R154). -/
def State.closeSeam (s : State) (nx : Bool) (g : Nat) (m : Seam) (cause : Nat) : State :=
  match s.group nx g with
  | none => s
  | some x =>
    let b := s.patAt 5 m.t0
    let nbad := (m.present.filter fun k => (s.slotAt k (m.inst % 8)).bad).length
    let memCnt := fld (grpWord b g 1) 16 15
    let short := decide (m.present.length < m.quorum)
    let s := (s.countBy Reg.SEAM_ABSENT_CNT (memCnt - m.present.length)).countBy Reg.SEAM_BAD_CNT nbad
    let s := (s.count Reg.SEAM_CLOSED_CNT).count (causeCnt cause)
    let s := if cause = causeDeadline then s.count (Reg.SEAM_GRP_DEADLINE_CNT g) else s
    let s := if cause = causeForced then (s.count (Reg.SEAM_GRP_OVERRUN_CNT g)).raise 32 else s
    let s := if short then (s.count Reg.SEAM_SHORT_CNT).raise 46 else s
    let tok : Token := {
      group := g, cause := cause, bank := (s.img.parity + (if s.pend && s.actNs ≤ m.t0 then 1 else 0)) % 2, epoch := m.epoch
      short := short, gap := min 65535 x.gap, present := m.present.length, nbad := nbad, seq := x.seq, n := m.inst % m.rate
      way := m.inst % 8, sec := m.inst / m.rate, ofs := min 0xFFFFFFFF (s.nowNs - m.t0), dl := m.dl, t0 := m.t0, at_ := s.time.ticks }
    let s := s.setGroup nx g (some { (x.put { m with closed := true }) with
      lo := max x.lo (m.inst + 1), seq := (x.seq + 1) % 2 ^ 48, gap := 0 })
    let s := if nx then s else (match s.group true g with
      | some y => s.setGroup true g (some { y with seq := (x.seq + 1) % 2 ^ 48 })
      | none => s)
    (s.emitToken b tok).showGroup g

/-! ## The deadline in force (R156) -/

/-- The smallest bin up to which the bins sum to `need`. -/
def quantBin (need : Nat) (acc k : Nat) : List Nat → Nat
  | [] => 31
  | x :: t => if need ≤ acc + x then k else quantBin need (acc + x) (k + 1) t

/-- A source's contribution, its bin, and whether it is trained (R156). -/
def contribution (b : List Byte) (g : Nat) (ps : List Nat) (l : Learner) : Nat × Nat × Bool :=
  let shift := fld (grpWord b g 8) 12 4 + (if fld (grpWord b g 8) 12 4 < 10 then 16 else 0)
  if l.total < fld (grpWord b g 8) 20 8 then (grpWord b g 6, 0, false)
  else
    let need := (ps.getD 5 0 * l.total + 1023) / 1024
    let k := quantBin need 0 0 l.bins
    (if k = 31 then ps.getD 3 0 else min 0xFFFFFFFF (grpWord b g 9 + k * 2 ^ shift + ps.getD 1 0), k, true)

/-- Source `k`'s group or descriptor changes with the pending partial image (R39). -/
def State.changedSrc (s : State) (k : Nat) : Bool :=
  s.pend && (decide (groupOfSrc (s.pat 5) k ≠ groupOfSrc (s.patAt 5 s.actNs) k) || !sameDescriptor (s.pat 4) (s.patAt 4 s.actNs) k)

/-- Source `k` learns afresh at `t0`, before A has been reached. -/
def State.learnsAnew (s : State) (k t0 : Nat) : Bool := s.pend && !s.img.activated && decide (s.actNs ≤ t0) && s.changedSrc k

/-- Contribution of source `k` to a deadline for an instant at `t0`: of its new learner where it learns afresh. -/
def State.srcQ (s : State) (b : List Byte) (g t0 : Nat) (ps : List Nat) (k : Nat) : Nat :=
  if s.learnsAnew k t0 then (contribution b g ps (Tbl.get s.seam.fresh k {})).1 else s.rn (Reg.SEAM_SRC_Q k)

/-- Group deadline for an instant at `t0` and the source that gives it (R156): the maximum over members with NODL 0, clamped. -/
def State.groupDl (s : State) (b : List Byte) (g t0 : Nat) (ps : List Nat) : Nat × Nat :=
  let ms := ((members b g).filter fun r => fld r 15 1 = 0).map fun r => fld r 0 14
  let best := ms.foldl (fun (a : Option (Nat × Nat)) k =>
    let q := s.srcQ b g t0 ps k
    match a with
    | none => some (q, k)
    | some (p, j) => if p < q || (p = q && k < j) then some (q, k) else some (p, j)) none
  match best with
  | some (q, k) => (max (ps.getD 2 0) (min (ps.getD 3 0) q), k)
  | none => (max (ps.getD 2 0) (min (ps.getD 3 0) 0), 0)

/-- The deadline in force of an adaptive group formed anew (R156): SEAM_DL_CLAMP on reaching DL_MAX from below, or where `first` holds. -/
def State.formDl (s : State) (b : List Byte) (g t0 : Nat) (ps : List Nat) (first : Bool) : State :=
  if fld (grpWord b g 0) 8 1 = 1 then
    let d := s.groupDl b g t0 ps
    let was := s.rn (Reg.SEAM_GRP_DL g)
    let s := (s.setReg (Reg.SEAM_GRP_DL g) d.1).setReg (Reg.SEAM_GRP_DLSRC g) d.2
    if d.1 = ps.getD 3 0 && (first || was < ps.getD 3 0) then s.raise 42 else s
  else s.setReg (Reg.SEAM_GRP_DL g) (ps.getD 0 0)

/-! ## Openings (R150, R151, R162) -/

/-- Instant `i` of group `g` opened: maps clear, deadline, quorum and epoch latched. -/
def State.openOne (s : State) (nx : Bool) (g i rate : Nat) : State :=
  match s.group nx g with
  | none => s
  | some x =>
    let t0 := instT0 rate i
    let b := s.patAt 5 t0
    let x := if s.newGroups t0 && x.turn < s.actNs then { x with turn := s.actNs, before := x.params } else x
    let (ps, s) := s.takeParams b g x.params
    let s := s.formDl b g t0 ps false
    let m : Seam := { inst := i, rate := rate, t0 := t0, epoch := s.epoch, dl := s.rn (Reg.SEAM_GRP_DL g), quorum := ps.getD 4 0 }
    s.setGroup nx g (some { (x.put m) with hi := i, fresh := false, params := ps })

/-- Seams of group `g` force-closed while `p` holds of them, in ascending order, at most `n`. -/
def State.forceClose (s : State) (nx : Bool) (g : Nat) (p : State → Seam → Bool) : Nat → State
  | 0 => s
  | n + 1 =>
    match (s.group nx g).map Group.openSeams with
    | some (m :: _) => if p s m then (s.closeSeam nx g m causeForced).forceClose nx g p n else s
    | _ => s

/-- The instants of group `g` up to `j` opened (R150), with `more` instants to follow them in a new numbering, which the window of 8 seams
counts too (R162). -/
def State.openUpTo (s : State) (nx : Bool) (g j rate more : Nat) : State :=
  match s.group nx g with
  | none => s
  | some x =>
    if j ≤ x.hi && more = 0 then s
    else
      let top := j + more
      let skip := min (j - x.hi) (top - 8 - x.hi)
      let s := if skip = 0 || x.fresh then s
        else ((s.setGroup nx g (some { x with gap := x.gap + skip })).countBy Reg.SEAM_SKIP_CNT skip).raise 33
      let s := s.forceClose nx g (fun _ m => m.inst + 7 < top) 8
      let first := max (x.hi + 1) (top - 7)
      let s := match s.group nx g with
        | some y => s.setGroup nx g (some { y with
            lo := max y.lo (min (max j x.hi + 1) (top - 7)), hi := max y.hi (min j (first - 1)) })
        | none => s
      (s.forRange (fun i s => s.openOne nx g i rate) first (j + 1 - first)).showGroup g

/-- The rate at which a group's run-time state numbers instants: that of the bank it runs on. -/
def State.runRate (s : State) (nx : Bool) (g : Nat) : Nat := grpRate (if nx then s.patAt 5 s.actNs else s.pat 5) g

/-- Group `g` continues under the pending image without a new numbering. -/
def State.carriesOver (s : State) (g : Nat) : Bool :=
  !s.pend || !s.bit Reg.FEAT_IMG_PEND 5 ||
    (g < grpCnt (Tbl.get s.img.idle 5 []) && grpRate (Tbl.get s.img.idle 5 []) g = grpRate (s.pat 5) g)

/-- The latest instant before A of group `g` in its new numbering. -/
def State.newBase (s : State) (g : Nat) : Nat := latestInst (s.runRate true g) (s.actNs - 1)

/-- The instants before A of a group that a pending image renumbers are opened before instant `j` of the new numbering is (R150, R162). -/
def State.openOld (s : State) (g j : Nat) : State :=
  let r := s.runRate false g
  if r = 0 then s else s.openUpTo false g (latestInst r (s.actNs - 1)) r (j - s.newBase g)

/-- Group `g` begins with no open seam (R151): H is the latest instant with T0 at or before `ns`; `x` gives what it keeps. -/
def State.beginGroup (s : State) (nx : Bool) (g rate ns : Nat) (x : Group) : State :=
  let h := latestInst rate ns
  (s.setGroup nx g (some { x with lo := h + 1, hi := h, gap := 0, fresh := true })).showGroup g

/-- Open seams of every group. -/
def State.allOpen (s : State) : Nat :=
  let f := fun (l : Tbl (Option Group)) => (l.map fun e => (e.2.map fun x => x.openSeams.length).getD 0).foldl (· + ·) 0
  f s.seam.groups + f s.seam.next

/-- Every group begins anew at the counter's value, discarding its open seams; sequence numbers stay (R151). -/
def State.beginAll (s : State) : State :=
  let redo := fun (nx : Bool) (l : Tbl (Option Group)) (s : State) => s.forEach (fun e s => match e.2 with
    | some x => s.beginGroup nx e.1 (s.runRate nx e.1) (if nx then max s.nowNs (s.actNs - 1) else s.nowNs) { x with ways := x.dropped }
    | none => s) l
  redo true s.seam.next (redo false s.seam.groups s)

/-! ## Readiness (R152) -/

/-- The cause for which a seam is ready, by the first two conditions of R152. -/
def readyCause (b : List Byte) (g : Nat) (m : Seam) : Option Nat :=
  let ms := members b g
  if ms.all fun r => m.present.contains (fld r 0 14) then some causeComplete
  else if fld (grpWord b g 0) 9 1 = 1 && m.quorum ≤ m.present.length &&
      ms.all (fun r => fld r 14 1 = 0 || m.present.contains (fld r 0 14)) then some causeQuorum
  else none

/-- Deadlines of group `g` that the counter has reached (R152). -/
def seamDeadline (g : Nat) (s : State) : State :=
  let judge := fun (nx : Bool) (s : State) => match s.group nx g with
    | none => s
    | some x =>
      let due := x.openSeams.filter fun m => m.ready.isNone && m.t0 + m.dl ≤ s.nowNs
      s.setGroup nx g (some (due.foldl (fun y m => y.put { m with ready := some causeDeadline }) x))
  (judge true (judge false s)).showGroup g

/-- A ready seam whose lower seams have closed is closed (R153); those of a new numbering wait for the old ones. -/
def seamClose (g : Nat) (s : State) : State :=
  match (s.group false g).map Group.openSeams, (s.group true g).map Group.openSeams with
  | some (m :: _), _ => (match m.ready with
    | some c => s.closeSeam false g m c
    | none => s)
  | _, some (m :: _) => (match m.ready with
    | some c => s.closeSeam true g m c
    | none => s)
  | _, _ => s

/-- The lowest seam of group `g` closed first where it is ready and the opening of `j` would otherwise force it: readiness is judged before
time-driven openings (R152). -/
def State.closeBefore (s : State) (nx : Bool) (g j : Nat) : State :=
  match (s.group nx g).map Group.openSeams with
  | some (m :: _) => if m.ready.isSome && m.inst + 7 < j then seamClose g s else s
  | _ => s

/-- Time-driven opening of group `g` (R150): suspended in UNSET. -/
def seamOpenTime (g : Nat) (s : State) : State :=
  if s.disc = stUnset || !s.measuring then s
  else
    let s := seamDeadline g s
    let r := s.runRate false g
    let j := if r = 0 then 0 else latestInst r s.nowNs
    let limit := if s.carriesOver g || s.actNs = 0 then j else min j (latestInst r (s.actNs - 1))
    let r2 := s.runRate true g
    let j2 := latestInst r2 s.nowNs
    let new := (s.group true g).isSome && r2 ≠ 0
    let more := if new then j2 - s.newBase g else 0
    let s := if r = 0 then s else (s.closeBefore false g (limit + more)).openUpTo false g limit r more
    if new then (s.closeBefore true g j2).openUpTo true g j2 r2 0 else s

/-! ## Learners (R155 to R157) -/

/-- A learner's bins halved while its total stands at or above the limit. -/
def halve (limit : Nat) (l : Learner) : Nat → Learner
  | 0 => l
  | n + 1 =>
    if limit ≤ l.total then
      let b := l.bins.map (· / 2)
      halve limit { bins := b, total := b.foldl (· + ·) 0 } n
    else l

/-- A sample of latency `lat` taken by a learner (R155). -/
def Learner.sample (l : Learner) (b : List Byte) (g : Nat) (lat : Int) : Learner :=
  let base : Int := (grpWord b g 9 : Nat)
  let shift := fld (grpWord b g 8) 12 4 + (if fld (grpWord b g 8) 12 4 < 10 then 16 else 0)
  let k := if lat < base then 0 else min 31 (1 + ((lat - base) / (2 ^ shift : Nat)).toNat)
  let bins := if l.bins = [] then List.replicate 32 0 else l.bins
  halve (2 ^ fld (grpWord b g 8) 16 4) { bins := bins.set k (bins.getD k 0 + 1), total := l.total + 1 } 32

/-- SEAM_LRN_BIN shows the bins of the selected source. -/
def State.showBins (s : State) : State :=
  let l := Tbl.get s.seam.learners (s.rn Reg.SEAM_LRN_SEL) {}
  s.setWords (Reg.SEAM_LRN_BIN 0) (if l.bins = [] then List.replicate 32 0 else l.bins)

/-- Source `src`'s learner set, and its registers. -/
def State.setLearner (s : State) (b : List Byte) (g src : Nat) (ps : List Nat) (l : Learner) : State :=
  let c := contribution b g ps l
  let s := { s with seam := { s.seam with learners := Tbl.set s.seam.learners src l {} } }
  let s := (s.setReg (Reg.SEAM_SRC_Q src) c.1).setReg (Reg.SEAM_SRC_LRN src) (l.total % 65536 + 65536 * c.2.1 + bitAt c.2.2 21)
  if s.rn Reg.SEAM_LRN_SEL = src then s.showBins else s

/-- Reporting instant of an item, ns of the counter, by the rate the decoder used (R501). -/
def Item.t0 (it : Item) : Nat := 1000000000 * it.sec + 1000000000 * it.n / it.rate

/-- The deadline in force formed anew after a sample of source `src`, for the group it belongs to at `t0` (R156). -/
def State.formAt (s : State) (src t0 : Nat) : State :=
  let b := s.patAt 5 t0
  match groupOfSrc b src with
  | some g => s.formDl b g t0 (s.paramsFor (s.groupAt g t0) b g t0) false
  | none => s

/-- An item judged as a sample (R155) of its source's learner, by the group fields of the bank in force at its instant (R501); `x` is the
group's state there. A source that learns afresh from A takes no item for an instant before A (R39). -/
def State.learn (s : State) (x : Option Group) (b : List Byte) (g : Nat) (it : Item) (t0 : Nat) : State :=
  let stepped := match s.time.stepAt with
    | some t => decide (t0 < t)
    | none => false
  if it.epoch ≠ s.epoch || stepped then (s.count Reg.SEAM_LRN_DISC_CNT).raise 43
  else if s.seam.freshSrc.contains it.src && it.t0 < s.seam.freshAt then s
  else
    let lat := (nsOfT80 it.arr : Int) - t0
    if s.learnsAnew it.src it.t0 then
      { s with seam := { s.seam with fresh := Tbl.set s.seam.fresh it.src ((Tbl.get s.seam.fresh it.src {}).sample b g lat) {} } }
    else
      let l := (Tbl.get s.seam.learners it.src {}).sample b g lat
      (s.setLearner b g it.src (s.paramsFor x b g it.t0) l).formAt it.src (max t0 s.nowNs)

/-- Sources' learners cleared (R157): they are untrained. -/
def State.clearLearners (s : State) (b : List Byte) (g : Nat) (ps : List Nat) (srcs : List Nat) : State :=
  s.forEach (fun k s => s.setLearner b g k ps {}) srcs

/-- A write of SEAM_LRN_RESET (R157). -/
def seamLrnReset (w : Word) (s : State) : State :=
  let g := w.toNat % 256
  let t := s.nowNs
  let b := s.patAt 5 t
  if w.getLsbD 31 && g < grpCnt b then
    let ps := s.paramsFor (s.groupAt g t) b g t
    (s.clearLearners b g ps (memSources b g)).formDl b g t ps true
  else s

/-- SEAM_LRN_RESET. -/
def execSeamLrnReset (who : Party) (w : Word) (s : State) : Host.Outcome State Fault Refusal :=
  live (written who Reg.SEAM_LRN_RESET w (seamLrnReset w)) s

/-! ## Admission (R148, R501) and late data (R158, R159) -/

/-- MEND_BASE. -/
def State.mendBase (s : State) : Nat := word (s.pat 5) 7

/-- SEAM_MEND_HEAD and the status of crossing 5 show the mend queue. -/
def State.showMend (s : State) : State :=
  (s.setReg Reg.SEAM_MEND_HEAD (if s.seam.mendCount = 0 then 0 else 2 ^ 31 + s.seam.mendHead)).showFifo 5 s.seam.mendCount

/-- The 256 bytes of a mend record (R159). -/
def mendBytes (it : Item) (g behind lat : Nat) : List Byte :=
  leBytes 4 (1 + bitAt (fld it.payload.qual 21 1 = 1) 1 + bitAt (fld it.payload.qual 23 1 = 1) 2 + it.epoch % 4 * 8 + 65536 * g) ++
    leBytes 4 (it.src + 65536 * behind) ++ leBytes 12 it.arr ++ leBytes 4 lat ++ leBytes 4 it.sec ++
    leBytes 4 (it.sec / 2 ^ 32 % 2 ^ 16 + 65536 * it.n) ++ it.payload.bytes

/-- LAT: arrival minus T0, 0 if negative, saturating. -/
def latOf (arr t0 : Nat) : Nat := min 0xFFFFFFFF (nsOfT80 arr - t0)

/-- A mend record enters the mend queue (R159, R166). -/
def State.pushMend (s : State) (it : Item) (g behind t0 : Nat) : State :=
  let s := if s.seam.mendCount = 0 then (s.setXWatch 5 (s.watchWrite true (s.xWatch 5))).raise 37 else s
  let s := if s.seam.mendCount < 1024 then s
    else ({ s with seam := { s.seam with mendHead := (s.seam.mendHead + 1) % 1024, mendCount := 1023 } }).xLost 5 true
  let i := (s.seam.mendHead + s.seam.mendCount) % 1024
  let s := s.sramWrite (s.mendBase + 256 * i) (mendBytes it g behind (latOf it.arr t0))
  ({ s with seam := { s.seam with mendCount := s.seam.mendCount + 1 } }).showMend

/-- Instants of a group's new numbering closed and opened since the activation instant, which follow its old ones (R162): of a pending image,
or of the last released one where `past` holds. -/
def State.ahead (s : State) (past : Bool) (g : Nat) : Nat × Nat :=
  let y := if past then (if (Tbl.get s.seam.past g none).isSome then s.group false g else none) else s.group true g
  let h := if past then latestInst (grpRate (s.pat 5) g) (s.img.oldUntil - 1) else s.newBase g
  match y with
  | some y => (y.lo - (h + 1), y.hi - h)
  | none => (0, 0)

/-- A late item (R158) for instant `i` of the group state `x`, which `put` sets; `n` are the instants that have closed and opened beyond its
numbering. -/
def State.lateItem (s : State) (put : Group → State → State) (b : List Byte) (g i : Nat) (n : Nat × Nat) (x : Group) (it : Item) (t0 : Nat) : State :=
  let s := (s.count Reg.SEAM_LATE_CNT).raise 34
  let own := if x.hi + n.2 < i + 8 then x.seamOf i else none
  let dup := match own with
    | some m => m.present.contains it.src || m.mended.contains it.src
    | none => false
  if dup then ((s.setSlotAt it.src (i % 8) { s.slotAt it.src (i % 8) with dup := true }).count Reg.SEAM_DUP_CNT).raise 36
  else if fld (grpWord b g 0) 10 1 = 0 || fld (grpWord b g 10) 16 8 < x.lo + n.1 - i then s
  else
    let s := match own with
      | some m => put (x.put { m with mended := m.mended ++ [it.src] }) s
      | none => s
    (s.pushMend it g (x.lo + n.1 - i) t0).count Reg.SEAM_MEND_CNT

/-- An item written to its slot (R148). -/
def State.writeItem (s : State) (nx : Bool) (b : List Byte) (g i : Nat) (it : Item) (t0 : Nat) : State :=
  match s.group nx g with
  | none => s
  | some x =>
    match x.seamOf i with
    | none => s
    | some m =>
      if m.present.contains it.src then
        ((s.setSlotAt it.src (i % 8) { s.slotAt it.src (i % 8) with dup := true }).count Reg.SEAM_DUP_CNT).raise 36
      else
        let q := it.payload.qual
        let s := s.setSlotAt it.src (i % 8) {
          bad := fld q 21 1 = 1, reinj := fld q 23 1 = 1, epoch := it.epoch, group := g, source := it.src, arr := it.arr
          lat := latOf it.arr t0, sec := it.sec, n := it.n, payload := it.payload }
        let m := { m with present := m.present ++ [it.src] }
        let m := if m.ready.isSome then m else { m with ready := readyCause b g m }
        let s := ((s.setGroup nx g (some (x.put m))).count Reg.SEAM_ITEMS_CNT).showGroup g
        s.ndkForward (s.slotAt it.src (i % 8))

/-- An item that the bank of GROUPS before the last release places (R501), past its early check: every instant of that bank is decided, so it
is late. -/
def State.admitOld (s : State) (b : List Byte) (g i : Nat) (it : Item) (t0 : Nat) : State :=
  match s.pastGroup g with
  | none => (s.count Reg.SEAM_LATE_CNT).raise 34
  | some x => s.lateItem (fun y s => s.setPast g y) b g i (s.ahead true g) x it t0

/-- An item taken by the seam engine (R148, R501). -/
def State.admitItem (s : State) (it : Item) : State :=
  let old := decide (it.t0 < s.img.oldUntil)
  let b := if old then s.img.oldGroups else s.patAt 5 it.t0
  match groupOfSrc b it.src with
  | none => s.count Reg.SEAM_NOGRP_CNT
  | some g =>
    let rate := grpRate b g
    let i := it.sec * rate + it.n
    let t0 := instT0 rate i
    if s.disc = stUnset || s.nowNs + fld (grpWord b g 10) 0 16 * 1000 < t0 then (s.count Reg.SEAM_EARLY_CNT).raise 35
    else
      let nx := s.pend && decide (s.actNs ≤ it.t0) && (s.group true g).isSome
      let s := s.learn (if old then s.pastGroup g else s.group nx g) b g it t0
      if old then s.admitOld b g i it t0
      else match s.group nx g with
        | none => s.count Reg.SEAM_NOGRP_CNT
        | some x =>
          if i < x.lo then
            s.lateItem (fun y s => s.setGroup nx g (some y)) b g i (if nx then (0, 0) else s.ahead false g) x it t0
          else ((if nx then s.openOld g i else s).openUpTo nx g i rate 0).writeItem nx b g i it t0

/-- The next item of the crossings admitted. -/
def seamItemAdmit (s : State) : State :=
  if s.measuring then
    match s.popItem with
    | (some it, s) => s.admitItem it
    | (none, s) => s
  else s

/-- `n` entries of the mend queue from index `i` made the blank item, which is zero (R159). -/
def State.blankMend (s : State) (i : Nat) : Nat → State
  | 0 => s
  | n + 1 => (s.sramWrite (s.mendBase + 256 * (i % 1024)) (List.replicate 256 0)).blankMend (i + 1) n

/-- A write of SEAM_MEND_POP releases the oldest mend record, whose place reads as the blank item (R159). -/
def seamMendPop (w : Word) (s : State) : State :=
  if w.getLsbD 0 && s.seam.mendCount ≠ 0 then
    let s := s.blankMend s.seam.mendHead 1
    (({ s with seam := { s.seam with mendHead := (s.seam.mendHead + 1) % 1024, mendCount := s.seam.mendCount - 1 } }).setXWatch 5
      s.watchRead).showMend
  else s

/-- SEAM_MEND_POP. -/
def execSeamMendPop (who : Party) (w : Word) (s : State) : Host.Outcome State Fault Refusal :=
  live (written who Reg.SEAM_MEND_POP w (seamMendPop w)) s

/-! ## The slot window (R168) -/

/-- A write of SEAM_SLOT_SEL asks for a snapshot. -/
def seamSlotSel (w : Word) (s : State) : State :=
  ({ s with seam := { s.seam with slotSel := some (fld w.toNat 0 14, fld w.toNat 16 3) } }).setReg Reg.SEAM_SLOT_STAT 0

/-- SEAM_SLOT_SEL. -/
def execSeamSlotSel (who : Party) (w : Word) (s : State) : Host.Outcome State Fault Refusal :=
  live (written who Reg.SEAM_SLOT_SEL w (seamSlotSel w)) s

/-- A slot as a reader finds it (R146, R147): an uncorrectable error reads as ABSENT and raises source 0. -/
def State.readSlot (s : State) (src w : Nat) (err : MemErr) : Slot × Bool × Bool × State :=
  let (e, s) := s.check 0 (src + 2 ^ 14 * w) err
  let (p, m) := s.slotFlags src w
  (s.slotAt src w, p && e ≠ .ue, m, s)

/-- The snapshot completes. -/
def slotSnapshotReady (err : MemErr) (s : State) : State :=
  match s.seam.slotSel with
  | none => s
  | some (src, w) =>
    let (x, p, m, s) := s.readSlot src w err
    let s := { s with seam := { s.seam with slotSel := none } }
    (s.setWords (Reg.SEAM_SLOT_DATA 0) (wordsOf (x.bytes p m) 64)).setReg Reg.SEAM_SLOT_STAT 1

/-- SLOT_SNAPSHOT_READY. -/
def execSlotSnapshotReady (err : MemErr) (s : State) : Host.Outcome State Fault Refusal := live (slotSnapshotReady err) s

/-! ## The history ring (R163 to R165) -/

/-- SEAM_HIST_WPTR. -/
def State.histWptr (s : State) : Nat := s.rn Reg.SEAM_HIST_WPTR_LO + 2 ^ 32 * s.rn Reg.SEAM_HIST_WPTR_HI

/-- SEAM_HIST_WPTR set. -/
def State.setHistWptr (s : State) (v : Nat) : State :=
  (s.setReg Reg.SEAM_HIST_WPTR_LO (v % 2 ^ 32)).setReg Reg.SEAM_HIST_WPTR_HI (v / 2 ^ 32)

/-- A 64-byte record header. -/
def histHeader (g : Nat) (full pad : Bool) (lap len : Nat) (token : List Byte) (prev : Nat) : List Byte :=
  padTo 64 (leBytes 4 (g + bitAt full 8 + 2 ^ 9 + bitAt pad 10 + 65536 * lap) ++ leBytes 4 len ++ padTo 32 token ++ leBytes 8 prev)

/-- The writer returns to offset 0, with a PAD header where there is room for one (R164). -/
def State.histWrap (s : State) (base size : Nat) (full : Bool) : State :=
  let w := s.histWptr
  let s := if w + 64 ≤ size then
      s.ddrWrite (base + w) (histHeader 0 full true (s.rn Reg.SEAM_HIST_LAP) (size - w) [] (2 ^ 64 - 1))
    else s
  let s := (s.setHistWptr 0).setReg Reg.SEAM_HIST_LAP ((s.rn Reg.SEAM_HIST_LAP + 1) % 65536)
  (s.count Reg.SEAM_HIST_WRAP_CNT).raise 45

/-- The entries of a record, in member order, each slot read with its own check. -/
def State.histEntries (s : State) (full : Bool) (w : Nat) : List Nat → List MemErr → List Byte × State
  | [], _ => ([], s)
  | k :: t, errs =>
    let (x, p, m, s) := s.readSlot k w (errs.headD .ok)
    let (rest, s) := s.histEntries full w t errs.tail
    ((if full then x.bytes p m else x.compact p) ++ rest, s)

/-- The record of the oldest waiting seam written (R164). -/
def histRecordWrite (errs : List MemErr) (s : State) : State :=
  match s.seam.hist with
  | [] => s
  | (t, ks) :: rest =>
    if s.pwr.state ≠ Power.run then s
    else
      let s := { s with seam := { s.seam with hist := rest } }
      let b := s.patAt 5 t.t0
      let full := wf b 0 10 1 = 1
      let base := word2 b 4
      let size := 1048576 * wf b 6 0 17
      let len := 64 + ks.length * (if full then 256 else 128)
      let s := if size < s.histWptr + len then s.histWrap base size full else s
      let w := s.histWptr
      let (es, s) := s.histEntries full t.way ks errs
      let prev := Tbl.get s.seam.histPrev t.group 0
      let h := histHeader t.group full false (s.rn Reg.SEAM_HIST_LAP) len (t.words.flatMap (leBytes 4))
        (if prev = 0 then 2 ^ 64 - 1 else prev - 1)
      let s := (s.ddrWrite (base + w + 64) es).ddrWrite (base + w) h
      let s := { s with seam := { s.seam with histPrev := Tbl.set s.seam.histPrev t.group (w + 1) 0 } }
      s.setHistWptr (w + len)

/-- HIST_RECORD_WRITE. -/
def execHistRecordWrite (errs : List MemErr) (s : State) : Host.Outcome State Fault Refusal := live (histRecordWrite errs) s

/-! ## The commands of openings, admission and closes -/

/-- SEAM_DEADLINE. -/
def execSeamDeadline (group : Fin 256) (s : State) : Host.Outcome State Fault Refusal := live (seamDeadline group.val) s

/-! ## Image application -/

/-- The registers that hold the GROUPS header (R168). -/
def State.showGroups (s : State) (b : List Byte) : State :=
  let s := s.setReg Reg.SEAM_CFG (wf b 0 0 11)
  ((s.setReg Reg.SEAM_HIST_BASE_LO (word b 4)).setReg Reg.SEAM_HIST_BASE_HI (word b 5)).setReg Reg.SEAM_HIST_SIZE (wf b 6 0 17)

/-- The GROUPS pattern of a full image applied (R151, R154, R157, R168). -/
def State.applyGroups (s : State) : State :=
  let b := s.pat 5
  let s := s.showGroups b
  let s := { s with seam := { s.seam with
    groups := [], next := [], past := [], learners := [], fresh := [], freshSrc := [], ingress := [], bridge := [], tokens := [], alarms := []
    notes := [], hist := [], mendHead := 0, mendCount := 0 } }
  let s := (if b = [] then s else s.blankMend 0 1).showMend
  let s := s.forRange (fun f s => s.showFifo f 0) 0 5
  (s.forRange (fun g s =>
    let ps := s.windowParams b g []
    let s := s.beginGroup false g (grpRate b g) s.nowNs { lo := 0, hi := 0, params := ps }
    (s.clearLearners b g ps (memSources b g)).formDl b g s.nowNs ps true) 0 (grpCnt b)).showBins

/-- A partial image that replaces GROUPS accepted: the groups it adds, or whose rate it changes, begin (R151, R162). -/
def State.acceptGroups (s : State) : State :=
  let nb := Tbl.get s.img.idle 5 []
  s.forRange (fun g s =>
    if grpCnt (s.pat 5) ≤ g || grpRate (s.pat 5) g ≠ grpRate nb g then
      s.beginGroup true g (grpRate nb g) (s.actNs - 1) { lo := 0, hi := 0, turn := s.actNs, seq := match s.group false g with
        | some x => x.seq
        | none => 0 }
    else s) 0 (grpCnt nb)

/-- The sources a replaced SOURCES or GROUPS pattern changes go on with what they have learned of instants from A on (R39, R157), and their
groups' deadlines form anew. -/
def State.activateLearners (s : State) : State :=
  let ob := s.pat 5
  let a := s.actNs
  let nb := s.patAt 5 a
  let changed := fun (g : Nat) => (memSources nb g).filter s.changedSrc
  let new := s.seam.fresh
  let s := s.forRange (fun g s =>
    let ps := s.paramsFor (s.groupAt g a) nb g a
    let recChanged := (List.range 16).any fun i => grpWord ob g i ≠ grpWord nb g i
    (s.forEach (fun k s => s.setLearner nb g k ps (Tbl.get new k {})) (changed g)).formDl nb g a ps recChanged) 0 (grpCnt nb)
  { s with seam := { s.seam with fresh := [], freshSrc := (List.range (grpCnt nb)).flatMap changed, freshAt := a } }

/-- The old GROUPS bank released: groups of the new numbering go on as the groups in force; removed and renumbered ones stay for late items. -/
def State.releaseGroups (s : State) : State :=
  let nb := s.pat 5
  let gone := s.seam.groups.filter fun e => grpCnt nb ≤ e.1 || (s.group true e.1).isSome
  let s := { s with seam := { s.seam with past := gone } }
  let s := s.forEach (fun e s => s.setGroup false e.1 e.2) s.seam.next
  let s := { s with seam := { s.seam with next := [], groups := s.seam.groups.filter fun e => e.1 < grpCnt nb } }
  s.showGroups nb

end Sys2Proof.Machine
end

