-- ==== Sys2Proof/Machine/Fabric.lean ====
section
/-! DEFINITION. The analytic fabric (R170 to R200): panels, assemblers, engine queues, operand loads, tokens, dependence counters, BLOCK
cells, scrub and the tile window. -/
namespace Sys2Proof.Machine
open Sys2Proof

/-! ## Tiles and panels as data -/

/-- Tile `t`. -/
def State.tile (s : State) (t : Nat) : Tile := Tbl.get s.fab.tiles t {}

/-- Tile `t` set. -/
def State.setTile (s : State) (t : Nat) (x : Tile) : State := { s with fab := { s.fab with tiles := Tbl.set s.fab.tiles t x {} } }

/-- Panel `p`. -/
def State.panel (s : State) (p : Nat) : Panel := Tbl.get s.fab.panels p {}

/-- Panel `p` set. -/
def State.putPanel (s : State) (p : Nat) (x : Panel) : State :=
  { s with fab := { s.fab with panels := Tbl.set s.fab.panels p x {} } }

/-- FAB_PNL_STATE and FAB_PANEL_STATUS show panel `p`. -/
def State.showPanel (s : State) (p : Nat) : State :=
  let x := s.panel p
  let busy := x.taken.isSome
  let s := s.setReg (Reg.FAB_PNL_STATE p) (s.role p + bitAt (s.isLead p) 3 + s.pnlInst p * 16 + bitAt busy 6 + x.queue.length % 16 * 128 +
    x.asm.length % 16 * 2048 + 65536 * (x.inst % 256))
  s.setF Reg.FAB_PANEL_STATUS p 1 (if busy then 1 else 0)

/-- Panel `p` set, and shown. -/
def State.setPanel (s : State) (p : Nat) (x : Panel) : State := (s.putPanel p x).showPanel p

/-! ## Tile memories (R171, R198) -/

/-- Bytes of tile `t`'s data SRAM from byte `a`. -/
def State.tileBytes (s : State) (t a n : Nat) : List Byte := Memory.read (s.tile t).sram a n

/-- Bytes stored in tile `t`'s data SRAM. -/
def State.tileStore (s : State) (t a : Nat) (bs : List Byte) : State :=
  s.setTile t { s.tile t with sram := Memory.write (s.tile t).sram a bs }

/-- Lane `k` of tile `t`. -/
def State.lane (s : State) (t k : Nat) : BitVec 40 := BitVec.ofNat 40 (leNat (s.tileBytes t (5 * k) 5))

/-- Lane `k` of tile `t` stored; there are 52,428 lanes. -/
def State.setLane (s : State) (t k : Nat) (v : BitVec 40) : State :=
  if k < 52428 then s.tileStore t (5 * k) (leBytes 5 v.toNat) else s

/-- Lanes stored from `k` up. -/
def State.setLanes (s : State) (t k : Nat) : List (BitVec 40) → State
  | [] => s
  | v :: r => (s.setLane t k v).setLanes t (k + 1) r

/-- A read of word `w` of tile `t`'s memory `mem` (0 data, 1 microcode) checked (R198): counts, FAB_UE_ADDR and the fault. -/
def State.tileCheck (s : State) (t mem w : Nat) (err : MemErr) : MemErr × State :=
  let info := t % 256 + mem * 256 + w % 2 ^ 15 * 512
  let (e, s) := s.check (16 + mem) info err
  match e with
  | .ce => (e, s.count Reg.FAB_CE_CNT)
  | .ue =>
    let s := s.count Reg.FAB_UE_CNT
    (e, if s.bit Reg.FAB_UE_ADDR 31 then s else s.setReg Reg.FAB_UE_ADDR (2 ^ 31 + info))
  | _ => (e, s)

/-- Words of tile `t`'s data SRAM from byte `a` on, `n` bytes, checked as a read takes them (R198): the first finds `err`. Whether any is
uncorrectable, and the state. -/
def State.readCheck (s : State) (t a n : Nat) (err : MemErr) : Bool × State :=
  (List.range ((a + n - 1) / 8 - a / 8)).foldl (fun (r : Bool × State) i =>
    let (e, s) := r.2.tileCheck t 0 (a / 8 + 1 + i) .ok
    (r.1 || e = .ue, s)) (let (e, s) := s.tileCheck t 0 (a / 8) err; (e = .ue, s))

/-- The words that a write of `n` bytes from byte `a` covers only in part are read and checked before it (R198): the first finds `err`. -/
def State.modifyCheck (s : State) (t a n : Nat) (err : MemErr) : State :=
  let s := if a % 8 ≠ 0 || n < 8 then (s.tileCheck t 0 (a / 8) err).2 else s
  if (a + n) % 8 ≠ 0 && (a + n) / 8 ≠ a / 8 then (s.tileCheck t 0 ((a + n) / 8) .ok).2 else s

/-- A background grant at a tile SRAM port (R196). -/
def State.bgGrant (s : State) (t : Nat) : State := s.count (Reg.FAB_PNL_BG_SLOTS (t / 16))

/-- The background grants of an access to `n` bytes from byte `a`: one for each 128-bit access of the port (R171, R196). -/
def State.bgAccess (s : State) (t a n : Nat) : State :=
  s.countBy (Reg.FAB_PNL_BG_SLOTS (t / 16)) ((a + n - 1) / 16 - a / 16 + 1)

/-- A read of FAB_UE_ADDR returns it and clears VALID (R199). -/
def fabUeAddrRead (s : State) : State :=
  (s.emit (.read (BitVec.ofNat 64 (s.rn Reg.FAB_UE_ADDR)))).setF Reg.FAB_UE_ADDR 31 1 0

/-- FAB_UE_ADDR_READ. -/
def execFabUeAddrRead (_who : Party) (s : State) : Host.Outcome State Fault Refusal := live fabUeAddrRead s

/-- Words in a scrub sweep of a tile: data SRAM and microcode store (R197). -/
def scrubWords : Nat := 33792

/-- The sweeps that every assigned tile has completed. -/
def State.minSweeps (s : State) : Nat :=
  let ts := (List.range 256).filter fun t => s.role (t / 16) ≠ 0
  match ts with
  | [] => 0
  | t :: r => r.foldl (fun m u => min m (s.tile u).sweeps) (s.tile t).sweeps

/-- The scrub words of tile `t` that have fallen due by now: one every SCRUB_SWEEP × 10^9 / 33,792 ns, at most 65,535 (R197). -/
def State.scrubDue (s : State) (t : Nat) : State :=
  let x := s.tile t
  let each := 1000000000 * s.rn Reg.FAB_SCRUB_SWEEP
  let v := x.dueRem + (s.time.ticks - x.dueAt.getD s.fab.scrubFrom) * 4 * scrubWords
  s.setTile t { x with due := min 65535 (x.due + v / each), dueRem := v % each, dueAt := some s.time.ticks }

/-- A word of tile `t` scrubbed where one is due (R197, R198): the next of the fixed order. -/
def scrubWord (t : Nat) (err : MemErr) (s : State) : State :=
  let s := s.scrubDue t
  if s.role (t / 16) = 0 || !s.measuring || (s.tile t).due = 0 then s
  else
    let s := s.setTile t { s.tile t with due := (s.tile t).due - 1 }
    let w := (s.tile t).scrub
    let mem := if w < 32768 then 0 else 1
    let node := w - 32768
    let (e, s) := (s.bgGrant t).tileCheck t mem (if mem = 0 then w else node) err
    let s := if e = .ue && mem = 1 then
        (s.setTile t { s.tile t with poison := if (s.tile t).poison.contains node then (s.tile t).poison else (s.tile t).poison ++ [node] }).setF
          (Reg.FAB_UC_POISON (t / 32)) (t % 32) 1 1
      else s
    let before := s.minSweeps
    let x := s.tile t
    let s := s.setTile t (if w + 1 < scrubWords then { x with scrub := w + 1 } else { x with scrub := 0, sweeps := x.sweeps + 1 })
    if before < s.minSweeps then s.count Reg.FAB_SCRUB_PASS_CNT else s

/-- SCRUB_WORD. -/
def execScrubWord (tile : Fin 256) (err : MemErr) (s : State) : Host.Outcome State Fault Refusal := live (scrubWord tile.val err) s

/-- A write of FAB_TWIN_SEL with GO asks for one word (R199). -/
def fabTwinSel (w : Word) (s : State) : State :=
  if w.getLsbD 31 then
    ({ s with fab := { s.fab with twin := some (fld w.toNat 0 8, fld w.toNat 8 15) } }).setReg Reg.FAB_TWIN_STAT 0
  else s

/-- FAB_TWIN_SEL. -/
def execFabTwinSel (who : Party) (w : Word) (s : State) : Host.Outcome State Fault Refusal :=
  live (written who Reg.FAB_TWIN_SEL w (fabTwinSel w)) s

/-- The tile window has its word: corrected data, or zero of a gated tile. -/
def twinReady (err : MemErr) (s : State) : State :=
  match s.fab.twin with
  | none => s
  | some (t, w) =>
    let s := { s with fab := { s.fab with twin := none } }
    if s.role (t / 16) = 0 then
      ((s.setReg Reg.FAB_TWIN_DATA_LO 0).setReg Reg.FAB_TWIN_DATA_HI 0).setReg Reg.FAB_TWIN_STAT 1
    else
      let (e, s) := (s.bgGrant t).tileCheck t 0 w err
      let v := leNat (s.tileBytes t (8 * w) 8)
      ((s.setReg Reg.FAB_TWIN_DATA_LO (v % 2 ^ 32)).setReg Reg.FAB_TWIN_DATA_HI (v / 2 ^ 32)).setReg Reg.FAB_TWIN_STAT
        (1 + bitAt (e = .ce) 1 + bitAt (e = .ue) 2)

/-- TWIN_READY. -/
def execTwinReady (err : MemErr) (s : State) : Host.Outcome State Fault Refusal := live (twinReady err) s

/-! ## The instant assembler (R185 to R187) -/

/-- Group `g` has a reporting instant at `t0`. -/
def State.hasInstant (s : State) (g t0 : Nat) : Bool :=
  let b := s.patAt 5 t0
  let r := grpRate b g
  g < grpCnt b && r ≠ 0 && instT0 r (latestInst r t0) = t0

/-- The contributing groups of panel `p` at `t0` (R185). -/
def State.contributing (s : State) (p t0 : Nat) : List Nat :=
  (List.range 256).filter fun g => s.consumes p g && s.hasInstant g t0

/-- A counter that only the lead panel's assembler adds to (R502). -/
def State.leadCount (s : State) (p off n : Nat) : State := if s.isLead p then s.countBy off n else s

/-- An instant released to panel `p`'s engine queue (R187): a full queue drops its oldest. -/
def State.release (s : State) (p : Nat) (x : Pending) : State :=
  let pn := s.panel p
  let s := if pn.queue.length < 8 then s else s.leadCount p Reg.FAB_QDROP_CNT 1
  let q := if pn.queue.length < 8 then pn.queue else pn.queue.tail
  s.setPanel p { pn with queue := q ++ [x], released := some x.t0, asm := pn.asm.filter fun y => y.t0 ≠ x.t0 }

/-- A pending instant has an entry of every contributing group. -/
def State.assembled (s : State) (p : Nat) (x : Pending) : Bool :=
  (s.contributing p x.t0).all fun g => (x.tokens.any fun t => t.group = g) || x.skipped.contains g

/-- Complete instants released from the front (R186 step 3), at most `n`. -/
def State.releaseReady (s : State) (p : Nat) : Nat → State
  | 0 => s
  | n + 1 =>
    match (s.panel p).asm with
    | x :: _ => if s.assembled p x then (s.release p x).releaseReady p n else s
    | [] => s

/-- The oldest pending instant released with its missing groups resolved skipped (R186 step 4). -/
def State.forceRelease (s : State) (p : Nat) : State :=
  match (s.panel p).asm with
  | x :: _ =>
    let miss := (s.contributing p x.t0).filter fun g => !(x.tokens.any fun t => t.group = g) && !x.skipped.contains g
    (s.leadCount p Reg.FAB_ASM_FORCE_CNT 1).release p { x with skipped := x.skipped ++ miss }
  | [] => s

/-- A pending instant inserted in ascending T0. -/
def insertPending (x : Pending) : List Pending → List Pending
  | [] => [x]
  | y :: t => if x.t0 < y.t0 then x :: y :: t else y :: insertPending x t

/-- A token is stale for panel `p`. -/
def State.tokenStale (s : State) (p t0 : Nat) : Bool :=
  match (s.panel p).released with
  | some r => decide (t0 ≤ r)
  | none => false

/-- A token filed by panel `p`'s assembler (R186). -/
def State.fileToken (s : State) (p : Nat) (t : Token) : State :=
  let known := (s.panel p).asm.any fun x => x.t0 = t.t0
  let s := if !s.tokenStale p t.t0 && !known && 8 ≤ (s.panel p).asm.length then (s.forceRelease p).releaseReady p 8 else s
  if s.tokenStale p t.t0 then s.leadCount p Reg.FAB_ASM_STALE_CNT 1
  else
    let asm := if known then (s.panel p).asm else insertPending { t0 := t.t0 } (s.panel p).asm
    let lacks := fun (x : Pending) => decide (x.t0 < t.t0) && (s.contributing p x.t0).contains t.group &&
      !(x.tokens.any fun u => u.group = t.group) && !x.skipped.contains t.group
    let n := (asm.filter lacks).length
    let asm := asm.map fun x =>
      if x.t0 = t.t0 then { x with tokens := x.tokens ++ [t], close := t.at_ }
      else if lacks x then { x with skipped := x.skipped ++ [t.group] } else x
    let s := s.setPanel p { s.panel p with asm := asm }
    (s.leadCount p Reg.FAB_ASM_SKIP_CNT n).releaseReady p 9

/-- The next token of panel `p`'s crossing taken. -/
def panelTokenReceive (p : Nat) (s : State) : State :=
  if s.measuring then
    match s.popToken p with
    | (some t, s) => s.fileToken p t
    | (none, s) => s
  else s

/-! ## Operand loads (R188, R189) -/

/-- Entry `i` of a FABRIC body's operand lists, as its two words (R189, R191). -/
def oplOf (b : List Byte) (i : Nat) : Nat × Nat :=
  let off := 16 + 32 * 16 + 2 * 256 * 16
  (word b (off + 2 * i), word b (off + 2 * i + 1))

/-- Entry `i` of the operand lists. -/
def State.oplEntry (s : State) (i : Nat) : Nat × Nat := oplOf (s.pat 1) i

/-- The values of the selected lanes of a payload, in ascending bit order (R189). -/
def selLanes (x : Payload) (lanes : Nat) : List (BitVec 40) :=
  (List.range 24).flatMap fun k =>
    if fld lanes k 1 = 0 then []
    else if k < 16 then
      [BitVec.ofInt 40 (x.ph.getD k ⟨0, 0⟩).re, BitVec.ofInt 40 (x.ph.getD k ⟨0, 0⟩).im]
    else if k = 16 then [BitVec.ofInt 40 x.freq]
    else if k = 17 then [BitVec.ofInt 40 x.rocof]
    else [BitVec.ofInt 40 (x.an.getD (k - 18) 0)]

/-- Lanes an entry loads, before the flag lane. -/
def laneCount (lanes : Nat) : Nat :=
  ((List.range 24).map fun k => if fld lanes k 1 = 0 then 0 else if k < 16 then 2 else 1).foldl (· + ·) 0

/-- The flag lane of a source (R189). -/
def flagLane (x : Loaded) (reinj dup : Bool) : BitVec 40 :=
  BitVec.ofNat 40 (x.payload.invalid % 2 ^ 24 + bitAt x.absent 32 + bitAt x.bad 33 + bitAt x.sat 34 + bitAt reinj 35 + bitAt dup 36 +
    bitAt x.short 37 + bitAt x.skip 38 + bitAt x.offrate 39)

/-- One operand-list entry of panel `p` loaded for instant `x`; `er` is what its checks find. -/
def State.loadEntry (s : State) (p : Nat) (x : Pending) (e : Nat × Nat) (er : LoadErrs) : State :=
  let src := fld e.1 0 14
  let tile := 16 * p + fld e.1 14 4
  let d := fld e.1 18 14 * 4 + fld e.2 24 2
  let lanes := fld e.2 0 24
  let flagAt := d + laneCount lanes
  let add := fun (l : Loaded) (s : State) =>
    let pn := s.panel p
    s.putPanel p { pn with loaded := pn.loaded ++ [{ l with lanes := lanes }] }
  let flagOnly := fun (l : Loaded) =>
    add l ((s.modifyCheck tile (5 * flagAt) 5 er.tile).setLane tile flagAt (flagLane l false false))
  match groupOfSrc (s.patAt 5 x.t0) src with
  | none => flagOnly { src := src, absent := true, skip := true }
  | some g =>
    if !s.hasInstant g x.t0 then flagOnly { src := src, offrate := true }
    else
      match x.tokens.find? fun t => t.group = g with
      | none => flagOnly { src := src, absent := true, skip := true }
      | some t =>
        let (y, present, _, s) := s.readSlot src t.way er.slot
        let (le, s) := s.check 21 p er.link
        let l : Loaded := {
          src := src, absent := !present || le = .ue, bad := y.bad, sat := fld y.payload.qual 20 1 = 1, short := t.short
          payload := y.payload }
        let s := s.modifyCheck tile (5 * d) (5 * (laneCount lanes + 1)) er.tile
        add l ((s.setLanes tile d (selLanes y.payload lanes)).setLane tile flagAt (flagLane l y.reinj y.dup))

/-- Entries `i, …` of the operand list loaded, the one that `er` names with its errors. -/
def State.loadEntries (s : State) (p : Nat) (x : Pending) (first i : Nat) (er : LoadErrs) : Nat → State
  | 0 => s
  | n + 1 =>
    (s.loadEntry p x (s.oplEntry (first + i)) (if i = er.at_ then er else {})).loadEntries p x first (i + 1) er n

/-- Bytes of panel `p`'s operand load. -/
def State.loadBytes (s : State) (p : Nat) : Nat :=
  let first := fld (pnlWord (s.pat 1) p 9) 0 18
  ((List.range (fld (pnlWord (s.pat 1) p 10) 0 15)).map fun i =>
    5 * (laneCount (fld (s.oplEntry (first + i)).2 0 24) + 1)).foldl (· + ·) 0

/-- A panel's idle engine takes the oldest instant and its loader runs (R188 step 1). -/
def operandLoad (p : Nat) (er : LoadErrs) (s : State) : State :=
  let pn := s.panel p
  match pn.taken, pn.queue with
  | none, x :: rest =>
    if !s.measuring || s.stopping then s
    else
      let ns := (s.loadBytes p * 10 + 256) / 512
      let since := (s.time.ticks - x.close) * 4
      let s := s.setPanel p { pn with
        taken := some x, queue := rest, loaded := [], loadEnd := since + ns, started := false }
      let s := s.loadEntries p x (fld (pnlWord (s.pat 1) p 9) 0 18) 0 er (fld (pnlWord (s.pat 1) p 10) 0 15)
      s.setReg (Reg.FAB_PNL_LOAD_LAST p) ns
  | _, _ => s

/-- OPERAND_LOAD. -/
def execOperandLoad (panel : Fin 16) (errs : LoadErrs) (s : State) : Host.Outcome State Fault Refusal :=
  live (operandLoad panel.val errs) s

/-! ## Tokens, matching and dependence counters (R176, R177, R181) -/

/-- A token sent to tile `t`: into its crossbar input buffer of 8, or where that is full or others wait for it, it waits at its source
(R177, R180). -/
def State.toTile (s : State) (t : Nat) (k : Tok) : State :=
  let x := s.tile t
  s.setTile t (if x.inbox.length < 8 && x.wait = [] then { x with inbox := x.inbox ++ [k] } else { x with wait := x.wait ++ [k] })

/-- A token put on its way to every tile of panel `p` in a mask. -/
def State.toTiles (s : State) (p mask : Nat) (k : Tok) : State :=
  s.forRange (fun i s => if fld mask i 1 = 1 then s.toTile (16 * p + i) k else s) 0 16

/-- Entry `k` of panel `p`'s counter table: INIT, TMASK and TNODE (R192). -/
def State.cntEntry (s : State) (p k : Nat) : Nat × Nat × Nat :=
  let b := s.pat 1
  let v := leNat (slice b (pnlWord b p 16 + 8 * k) 8)
  (fld v 0 20, fld v 20 16, fld v 36 10)

/-- The tokens' entry in a matching store. -/
def matchOf (l : List Match) (k : Tok) : Option Match := l.find? fun m => m.node = k.node && m.tag = k.tag && m.inst = k.inst

/-- A token filed in an entry (R177). -/
def Match.file (m : Match) (k : Tok) : Match := { m with ports := m.ports.set k.port (some k) }

/-- The next token to enter a tile's matching store: a foreground token passes waiting background tokens. -/
def nextTok (l : List Tok) : Option Tok :=
  match l.find? fun k => !k.bg with
  | some k => some k
  | none => l.head?

/-- How many inputs after the last served one input `i` stands, of the 18 of a panel's crossbar (R180). -/
def inputsAfter (last i : Nat) : Nat := (i + 18 - last - 1) % 18

/-- The waiting token the crossbar serves next: foreground before background, and among equals round-robin from the input after the last
one served; an input's own tokens in order (R180). -/
def nextWaiting (last : Nat) (l : List Tok) : Option Tok :=
  let c := if l.any fun k => !k.bg then l.filter fun k => !k.bg else l
  c.foldl (fun (o : Option Tok) k => match o with
    | some y => if inputsAfter last k.src < inputsAfter last y.src then some k else some y
    | none => some k) none

/-- A token gone from tile `t`'s input buffer: the next waiting one takes its place. -/
def Tile.leave (x : Tile) (k : Tok) : Tile :=
  let y := { x with inbox := x.inbox.erase k }
  match nextWaiting y.lastIn y.wait with
  | some w => { y with inbox := y.inbox ++ [w], wait := y.wait.erase w, lastIn := w.src }
  | none => y

/-- The microcode word of a node of tile `t` (R178, R191). -/
def State.ucode (s : State) (t node : Nat) : Nat :=
  leNat (slice (s.pat 1) (word (s.pat 1) 2 + 8192 * t + 8 * node) 8)

/-- An entry with its token filed, ready once every port below its node's NTOK holds one (R172, R177). -/
def State.filed (s : State) (t : Nat) (m : Match) (k : Tok) : Match :=
  let y := m.file k
  if y.ready = none && (y.ports.take (fld (s.ucode t k.node) 54 2)).all Option.isSome then { y with ready := some (s.tile t).arrivals } else y

/-- A token enters tile `t`'s matching store (R177). -/
def State.matchToken (s : State) (t : Nat) (k : Tok) : State :=
  let x := s.tile t
  match matchOf x.store k with
  | some m =>
    let coll := ((m.ports.getD k.port none).isSome : Bool)
    let y := s.filed t m k
    let s := if coll then s.count Reg.FAB_MATCH_COLL_CNT else s
    s.setTile t { x.leave k with store := x.store.map (fun z => if z = m then y else z), arrivals := x.arrivals + 1 }
  | none =>
    if x.store.length < 512 then
      s.setTile t { x.leave k with
        store := x.store ++ [s.filed t { node := k.node, tag := k.tag, inst := k.inst } k], arrivals := x.arrivals + 1 }
    else if k.stalled then s
    else (s.setTile t { x with inbox := x.inbox.map fun y => if y = k then { k with stalled := true } else y }).count
      Reg.FAB_MATCH_STALL_CNT

/-- A foreground cell of panel `p` discarded by its parity check counts as an orphan at the instant's end (R200). -/
def State.cellLost (s : State) (p : Nat) (bg : Bool) : State :=
  if bg then s else s.putPanel p { s.panel p with lost := (s.panel p).lost + 1 }

/-- The next token of tile `t`'s input buffer goes to its matching store; one that came over the ring has its cell's parity checked first
(R200). An unassigned panel takes none (R14). -/
def tokenArrive (t : Nat) (err : MemErr) (s : State) : State :=
  if s.role (t / 16) = 0 then s
  else
    match nextTok (s.tile t).inbox with
    | none => s
    | some k =>
      if k.src ≠ 16 || k.stalled then s.matchToken t k
      else
        let (e, s) := s.check 20 (t / 16) err
        if e = .ue then (s.setTile t ((s.tile t).leave k)).cellLost (t / 16) k.bg else s.matchToken t k

/-- TOKEN_ARRIVE. -/
def execTokenArrive (tile : Fin 256) (err : MemErr) (s : State) : Host.Outcome State Fault Refusal := live (tokenArrive tile.val err) s

/-- A decrement of counter `k` of panel `p` (R181): below zero it is discarded and counted; a disabled counter discards it uncounted. -/
def State.decrement (s : State) (p k : Nat) : State :=
  if (s.cntEntry p k).1 = 0 then s
  else if s.rn (Reg.FAB_PNL_CNT p k) = 0 then s.count Reg.FAB_CNT_UNDER_CNT
  else
    let v := s.rn (Reg.FAB_PNL_CNT p k) - 1
    let s := s.setReg (Reg.FAB_PNL_CNT p k) v
    if v = 0 then s.putPanel p { s.panel p with zero := (s.panel p).zero ++ [k] } else s

/-- A dependence counter that has reached zero fires and reloads (R181). -/
def depCounterFire (p k : Nat) (s : State) : State :=
  let e := s.cntEntry p k
  if (s.panel p).zero.contains k then
    let s := s.putPanel p { s.panel p with zero := (s.panel p).zero.filter fun j => j ≠ k }
    (s.toTiles p e.2.1 { node := e.2.2, port := 0, tag := 0, inst := (s.panel p).inst, value := BitVec.ofNat 40 k }).setReg
      (Reg.FAB_PNL_CNT p k) e.1
  else s

/-- DEP_COUNTER_FIRE. -/
def execDepCounterFire (panel : Fin 16) (k : Fin 64) (s : State) : Host.Outcome State Fault Refusal :=
  live (depCounterFire panel.val k.val) s

/-- The tokens that no earlier BLOCK cell of the same sender and class holds back, and the cells left (R182, R184); `held` lists the
senders and classes with a BLOCK cell before. -/
def freeTokens (held : List (Nat × Bool)) : List RingCell → List (Nat × Tok) × List RingCell
  | [] => ([], [])
  | .token i t k :: r =>
    let x := freeTokens held r
    if held.contains (i, k.bg) then (x.1, .token i t k :: x.2) else ((t, k) :: x.1, x.2)
  | .block i b :: r =>
    let x := freeTokens ((i, b.bg) :: held) r
    (x.1, .block i b :: x.2)

/-- The token cells of panel `p` whose turn it is pass its ring stop. -/
def State.passTokens (s : State) (p : Nat) : State :=
  let x := freeTokens [] (s.panel p).cells
  (s.putPanel p { s.panel p with cells := x.2 }).forEach (fun (y : Nat × Tok) s => s.toTile (16 * p + y.1) y.2) x.1

/-- A cell put on the ring to panel `p`, unless it is unassigned and takes none (R14). -/
def State.panelCell (s : State) (p : Nat) (c : RingCell) : State :=
  if s.role p = 0 then s else (s.putPanel p { s.panel p with cells := (s.panel p).cells ++ [c] }).passTokens p

/-- The next BLOCK cell among a panel's: a foreground one before a background one (R23, R184), each class in order. -/
def nextBlock (l : List RingCell) : Option (RingCell × Block) :=
  let bs := l.filterMap fun c => match c with
    | .block i b => some (RingCell.block i b, b)
    | .token .. => none
  match bs.find? fun x => !x.2.bg with
  | some x => some x
  | none => bs.head?

/-- A BLOCK cell arrives at panel `p` (R182): its parity is checked, its lanes are written, then its counter is decremented. -/
def ringBlockWrite (p : Nat) (err : MemErr) (s : State) : State :=
  if s.role p = 0 then s
  else
    match nextBlock (s.panel p).cells with
    | none => s
    | some (c, b) =>
      let s := s.putPanel p { s.panel p with cells := (s.panel p).cells.erase c }
      let (e, s) := s.check 20 p err
      let s := if e = .ue then s.cellLost p b.bg
        else
          let s := if b.bg then s.bgAccess (16 * p) (5 * b.lane) 40 else s
          (s.setLanes (16 * p + b.tile) b.lane b.data).decrement p b.cntr
      s.passTokens p

/-- RING_BLOCK_WRITE. -/
def execRingBlockWrite (panel : Fin 16) (err : MemErr) (s : State) : Host.Outcome State Fault Refusal :=
  live (ringBlockWrite panel.val err) s

/-! ## Start and end of an engine instant (R188, R190) -/

/-- The panel's own part of a start (R188 step 2): counters loaded, INST raised, the start node of every started tile triggered. -/
def State.startPanel (s : State) (p : Nat) : State :=
  let pn := s.panel p
  let s := if 4000 < pn.loadEnd then s.count Reg.FAB_LATESTART_CNT else s
  let s := s.forEach (fun k s => depCounterFire p k s) pn.zero
  let s := s.forRange (fun k s => s.setReg (Reg.FAB_PNL_CNT p k) (s.cntEntry p k).1) 0 64
  let inst := (pn.inst + 1) % 256
  let s := s.setPanel p { s.panel p with started := true, inst := inst, doneSent := false, wins := s.winSnap }
  let w := pnlWord (s.pat 1) p 12
  s.toTiles p (fld w 0 16) { node := fld w 16 10, port := 0, tag := 0, inst := inst, value := 0 }

/-- Panel `p` may start: loaded, and 4,000 fabric cycles and its load have passed since C. -/
def State.mayStart (s : State) (p : Nat) : Bool :=
  match (s.panel p).taken with
  | some x => !(s.panel p).started && decide (max 4000 (s.panel p).loadEnd ≤ (s.time.ticks - x.close) * 4)
  | none => false

/-- Entries of engine instant `inst` swept from tile `t` (R177): how many, and the state. -/
def State.sweepTile (s : State) (t inst : Nat) : Nat × State :=
  let x := s.tile t
  let keep := x.store.filter fun m => m.inst ≠ inst
  (x.store.length - keep.length, s.setTile t { x with store := keep })

/-- Entries of engine instant `inst` swept from the tiles of panel `p`, from tile `i` on. -/
def State.sweepFrom (s : State) (p inst i : Nat) : Nat → Nat × State
  | 0 => (0, s)
  | n + 1 =>
    let a := s.sweepTile (16 * p + i) inst
    let b := a.2.sweepFrom p inst (i + 1) n
    (a.1 + b.1, b.2)

/-- Panel `p` ends the instant it runs (R190): orphans swept, the span recorded, the engine idle. -/
def State.endPanel (s : State) (p : Nat) : State :=
  let pn := s.panel p
  match pn.taken with
  | none => s
  | some x =>
    let (orphans, s) := s.sweepFrom p pn.inst 0 16
    let n := orphans + pn.lost
    let s := (s.countBy Reg.FAB_ORPHAN_CNT n).forRange (fun _ s => s.detect 18 p false) 0 n
    let span := min 0xFFFFFFFF ((s.time.ticks - x.close) * 4)
    let s := (s.setReg (Reg.FAB_PNL_SPAN_LAST p) span).count (Reg.FAB_PNL_INST_CNT p)
    let s := if s.rn (Reg.FAB_PNL_SPAN_MAX p) < span then s.setReg (Reg.FAB_PNL_SPAN_MAX p) span else s
    let s := if pnlWord (s.pat 1) p 11 < span then (s.count Reg.FAB_SPAN_OVER_CNT).detect 19 p false else s
    s.setPanel p { s.panel p with taken := none, started := false, doneSent := false, lost := 0 }

/-! ## Image application and resets (R195) -/

/-- The initialisation extents written to tile SRAM, from byte `o` of the body to `stop`. -/
def State.writeExtents (s : State) (b : List Byte) (o stop : Nat) : Nat → State
  | 0 => s
  | n + 1 =>
    if stop ≤ o then s
    else
      let h := leNat (slice b o 8)
      let words := fld h 23 16
      (s.tileStore (fld h 0 8) (8 * fld h 8 15) (slice b (o + 8) (8 * words))).writeExtents b (o + 8 + 8 * words) stop n

/-- Matching stores, assemblers, queues and cells cleared; instants in progress abandoned without DONE, and INST from 0 (R195, R199). -/
def State.clearFabric (s : State) (load : Bool) : State :=
  let s := { s with fab := { s.fab with
    tiles := s.fab.tiles.map fun (e : Nat × Tile) => (e.1, { e.2 with
      store := [], inbox := [], wait := [], poison := if load then [] else e.2.poison
      due := if load then 0 else e.2.due, dueRem := if load then 0 else e.2.dueRem, dueAt := if load then none else e.2.dueAt })
    panels := []
    twin := none
    scrubFrom := if load then s.time.ticks else s.fab.scrubFrom } }
  if load then s.forRange (fun p s => s.showPanel p) 0 16 else s

/-- The FABRIC pattern of a full image applied (R195). -/
def State.applyFabric (s : State) : State :=
  let b := s.pat 1
  let s := s.clearFabric true
  let s := s.writeExtents b (word b 3) (word b 3 + word b 4) (word b 4 / 8)
  let s := s.forRange (fun k s => s.setReg (Reg.FAB_UC_POISON k) 0) 0 8
  let roles := (List.range 16).map s.role
  let pack := fun (l : List Nat) => l.foldr (fun r n => r + 16 * n) 0
  let s := (s.setReg Reg.FAB_ROLE_LO (pack (roles.take 8))).setReg Reg.FAB_ROLE_HI (pack (roles.drop 8))
  let s := s.setReg Reg.FAB_LEAD (((List.range 16).map fun p => bitAt (s.isLead p) p).foldl (· + ·) 0)
  let s := s.setReg Reg.FAB_PANEL_STATUS (((List.range 16).map fun p => bitAt (s.role p ≠ 0) (16 + p)).foldl (· + ·) 0)
  let s := s.setReg Reg.FAB_SCRUB_SWEEP (wf b 1 0 12)
  s.forRange (fun p s =>
    let s := s.setReg (Reg.FAB_PNL_SPAN_COMP p) (pnlWord b p 11)
    let s := s.forRange (fun k s => s.setReg (Reg.FAB_PNL_CNT p k) 0) 0 64
    s.showPanel p) 0 16

end Sys2Proof.Machine
end

