-- ==== Sys2Proof/Machine/Alarm.lean ====
section
/-! DEFINITION. The alarm path (R277 to R290): alarm instants, merges, classes, pins, GOOSE and host alarm records. -/
namespace Sys2Proof.Machine
open Sys2Proof

/-! ## The ALARMS pattern (R278, R279) -/

/-- The ALARMS body that merges use: a partial image's from the first merge with T0 ≥ A, before or after the release (R283). -/
def State.almBody (s : State) : List Byte := if s.alm.onNew && s.pend then s.patAt 11 s.actNs else s.alm.kept.getD (s.pat 11)

/-- CLASS_CNT. -/
def almClassCnt (b : List Byte) : Nat := wf b 0 0 9
/-- TMPL_CNT. -/
def almTmplCnt (b : List Byte) : Nat := wf b 0 16 7
/-- Word `i` of the record of class `c`. -/
def classRec (b : List Byte) (c i : Nat) : Nat := word b (16 + 4 * c + i)
/-- Byte of template `k`. -/
def tmplOfs (b : List Byte) (k : Nat) : Nat := 64 + 16 * almClassCnt b + 512 * k
/-- Word `i` of template `k`. -/
def goTmpl (b : List Byte) (k i : Nat) : Nat := leNat (slice b (tmplOfs b k + 4 * i) 4)

/-! ## Classes (R281 to R283) -/

/-- Class `c`. -/
def State.almClass (s : State) (c : Nat) : AlmClass := Tbl.get s.alm.classes c {}

/-- Class `c` set. -/
def State.setAlmClass (s : State) (c : Nat) (x : AlmClass) : State :=
  { s with alm := { s.alm with classes := Tbl.set s.alm.classes c x {} } }

/-- The count of a class. -/
def AlmClass.count (x : AlmClass) : Nat := x.floe.length + (x.thr.map Prod.snd).foldl (· + ·) 0 + x.osc

/-- STATE of class `c`: 0 IDLE, 1 ON, 2 HOLD, 3 LATCH. -/
def State.clsState (s : State) (c : Nat) : Nat := s.rf (Reg.ALM_CLASS c) 0 2

/-- TimeQuality (R138). -/
def State.timeQuality (s : State) : Nat :=
  let err := s.rn Reg.TIME_EST_ERR
  let acc := ((List.range 25).filter fun n => err * 2 ^ n ≤ 10 ^ 9).length
  (if s.disc = 0 then 0 else 128) + bitAt (s.disc = 0) 6 + bitAt (s.disc ≠ 2) 5 + (if s.disc = 0 || acc = 0 then 31 else acc - 1)

/-- An IEC 61850 UtcTime of the counter now. -/
def State.utcTime (s : State) : List Byte :=
  let u := s.utcNs
  beBytes 4 ((u / 1000000000) % 2 ^ 32).toNat ++ beBytes 3 (2 ^ 24 * (u % 1000000000).toNat / 1000000000) ++ beBytes 1 s.timeQuality

/-- An ASSERT or a RELEASE of class `c`. -/
def State.almChange (s : State) (c : Nat) (asserted : Bool) : State :=
  ((s.count (if asserted then Reg.ALM_ASSERT_CNT else Reg.ALM_RELEASE_CNT)).raise 60).setAlmClass c
    { s.almClass c with changed := s.utcTime }

/-- Class `c`'s hold timer started at MINHOLD. -/
def State.almHold (s : State) (b : List Byte) (c : Nat) : State :=
  s.setAlmClass c { s.almClass c with holdEnd := s.time.ticks + 250000 * fld (classRec b c 1) 0 16 }

/-- The timer of class `c` has run and its count is zero: LATCH, or IDLE with a RELEASE; whether it released. -/
def State.almExpire (s : State) (b : List Byte) (c : Nat) : State × Bool :=
  if fld (classRec b c 0) 8 1 = 1 then (s.setF (Reg.ALM_CLASS c) 0 2 3, false)
  else ((s.setF (Reg.ALM_CLASS c) 0 2 0).almChange c false, true)

/-- Class `c` judged with its count after a merge (R282). -/
def State.almJudge (s : State) (b : List Byte) (c : Nat) : State :=
  -- a timer that expires in this tick is judged after the merge
  let n := (s.almClass c).count
  let s := s.setF (Reg.ALM_CLASS c) 2 18 n
  match s.clsState c with
  | 0 => if 0 < n then ((s.setF (Reg.ALM_CLASS c) 0 2 1).almHold b c).almChange c true else s
  | 1 =>
    if n = 0 then
      if s.time.ticks ≤ (s.almClass c).holdEnd then s.setF (Reg.ALM_CLASS c) 0 2 2 else (s.almExpire b c).1
    else s
  | 2 => if 0 < n then s.setF (Reg.ALM_CLASS c) 0 2 1 else s
  | _ => if 0 < n then (s.setF (Reg.ALM_CLASS c) 0 2 1).almHold b c else s

/-- An entry's change of its class's part-counts (R281). -/
def AlmClass.apply (x : AlmClass) (e : AlarmEntry) : AlmClass :=
  match e.kind with
  | 1 =>
    let k := e.inst * 4 + e.cond
    if e.act = 0 then { x with floe := if x.floe.contains k then x.floe else x.floe ++ [k] }
    else if e.act = 1 then { x with floe := x.floe.erase k }
    else x
  | 2 => { x with thr := Tbl.set x.thr e.inst e.active 0 }
  | _ => if e.act = 0 then { x with osc := x.osc + 1 } else if e.act = 1 then { x with osc := x.osc - 1 } else x

/-! ## Pins (R283) -/

/-- The pins that class states drive low. -/
def State.classPins (s : State) (b : List Byte) : BitVec 8 :=
  (List.range (almClassCnt b)).foldl (fun v c => if s.clsState c = 0 then v else v ||| BitVec.ofNat 8 (fld (classRec b c 0) 0 8)) 0

/-- ALM_PINS from the class states and ALM_PIN_FORCE; high while no image is loaded and in STANDBY (R283, R375). -/
def State.almPins (s : State) : State :=
  s.setReg Reg.ALM_PINS (if s.img.inForce && !s.standby then
    (s.classPins s.almBody ||| BitVec.ofNat 8 (s.rn Reg.ALM_PIN_FORCE)).toNat else 0)

/-! ## GOOSE (R284, R285) -/

/-- A BER length. -/
def berLen (n : Nat) : List Byte :=
  if n < 128 then [BitVec.ofNat 8 n] else if n < 256 then [0x81, BitVec.ofNat 8 n] else 0x82 :: beBytes 2 n

/-- A BER element. -/
def berTlv (tag : Byte) (v : List Byte) : List Byte := tag :: berLen v.length ++ v

/-- The minimal two's complement octets of a number. -/
def berNat (v : Nat) : List Byte :=
  let n := ((List.range 5).find? fun k => v < 2 ^ (8 * k + 7)).getD 4 + 1
  beBytes n v

/-- Member `m` of template `k`, encoded. DESIGN CHOICE (log 108): the UtcTime of a class that has not changed since the load is the load's. -/
def State.gooseMember (s : State) (b : List Byte) (k m : Nat) : List Byte :=
  let w := goTmpl b k (96 + m)
  let c := fld w 8 8
  match fld w 0 2 with
  | 0 => berTlv 0x83 [if s.clsState c = 0 then 0 else 1]
  | 1 =>
    let q := if s.bit (Reg.ALM_CLASS c) 20 then 3 else 0
    berTlv 0x84 [3, BitVec.ofNat 8 (q * 64), BitVec.ofNat 8 (bitAt (fld (goTmpl b k 0) 20 1 = 1) 4)]
  | 2 => berTlv 0x85 (berNat (s.almClass c).count)
  | _ =>
    let t := (s.almClass c).changed
    berTlv 0x91 (padTo 8 (if t = [] then s.alm.loaded else t))

/-- The encoded members of template `k`. -/
def State.gooseVals (s : State) (b : List Byte) (k : Nat) : List Byte :=
  (List.range (fld (goTmpl b k 6) 24 6)).flatMap (s.gooseMember b k)

/-- The goosePdu of template `k` as it stands; `ivl` is the interval to its next message, ms. -/
def State.goosePdu (s : State) (b : List Byte) (k ivl : Nat) : List Byte :=
  let o := tmplOfs b k
  let lens := goTmpl b k 6
  let g := Tbl.get s.alm.goose k {}
  let bool := fun (x : Bool) => [if x then (1 : Byte) else 0]
  let num := fun v => berNat v
  let mem := fld lens 24 6
  berTlv 0x61 (berTlv 0x80 (slice b (o + 64) (fld lens 0 8)) ++ berTlv 0x81 (num (2 * ivl)) ++
    berTlv 0x82 (slice b (o + 192) (fld lens 8 8)) ++ berTlv 0x83 (slice b (o + 320) (fld lens 16 7)) ++ berTlv 0x84 g.t ++
    berTlv 0x85 (num (s.rn (Reg.ALM_GOOSE_STNUM k))) ++ berTlv 0x86 (num (s.rn (Reg.ALM_GOOSE_SQNUM k))) ++
    berTlv 0x87 (bool (fld (goTmpl b k 0) 20 1 = 1)) ++ berTlv 0x88 (num (goTmpl b k 5)) ++ berTlv 0x89 (bool false) ++
    berTlv 0x8A (num mem) ++ berTlv 0xAB g.vals)

/-- The message of template `k` sent on its ports, or counted as unsent for want of its key. -/
def State.gooseSend (s : State) (b : List Byte) (k ivl : Nat) : State :=
  let w0 := goTmpl b k 0
  let auth := fld w0 21 1 = 1
  let pdu := s.goosePdu b k ivl
  let head := beBytes 2 (fld (goTmpl b k 1) 0 16) ++ beBytes 2 (8 + pdu.length) ++ beBytes 2 (if auth then 16 else 0) ++ beBytes 2 0
  let (tag, s) : Option (List Byte) × State :=
    if auth then
      match s.takeBound engGoose (fld (goTmpl b k 1) 16 8) 1 false with
      | (some (key, _), s) => (some ((Config.hmacSha256 key ([0x88, 0xB8] ++ head ++ pdu)).take 16), s)
      | (none, s) => (none, s)
    else (some [], s)
  match tag with
  | none => s.count Reg.ALM_GOOSE_KEY_CNT
  | some t =>
    let dmac := leBytes 4 (goTmpl b k 2) ++ leBytes 2 (goTmpl b k 3)
    let vlan := if fld w0 16 1 = 1 then [0x81, 0x00] ++ beBytes 2 (fld w0 17 3 * 8192 + fld w0 4 12) else []
    (s.count Reg.ALM_GOOSE_CNT).sendPorts (fld w0 0 4) 0 fun smac => dmac ++ smac ++ vlan ++ [0x88, 0xB8] ++ head ++ pdu ++ t

/-- Template `k` at run time set. -/
def State.setGoose (s : State) (k : Nat) (x : GooseRun) : State := { s with alm := { s.alm with goose := Tbl.set s.alm.goose k x {} } }

/-- Template `k` publishes its members' values, with stNum one above `st` and sqNum 0 (R285). -/
def State.goosePublish (s : State) (b : List Byte) (k st : Nat) : State :=
    let v := s.gooseVals b k
    let tmin := fld (goTmpl b k 4) 0 16
    let s := (s.setReg (Reg.ALM_GOOSE_STNUM k) (if st = 0xFFFFFFFF then 1 else st + 1)).setReg (Reg.ALM_GOOSE_SQNUM k) 0
    let s := (s.setReg (Reg.ALM_GOOSE_IVL k) tmin).setGoose k { vals := v, t := s.utcTime, due := s.time.ticks + 250000 * tmin }
    s.gooseSend b k tmin

/-- Template `k` publishes if a member's encoded value has changed; a device in STANDBY sends no GOOSE (R285, R375). -/
def State.gooseCheck (s : State) (b : List Byte) (k : Nat) : State :=
  if s.standby || s.gooseVals b k = (Tbl.get s.alm.goose k {}).vals then s else s.goosePublish b k (s.rn (Reg.ALM_GOOSE_STNUM k))

/-- The pins and every template after a merge, a timer or an acknowledgement. -/
def State.almOutputs (s : State) : State :=
  let b := s.almBody
  s.almPins.forRange (fun k s => s.gooseCheck b k) 0 (almTmplCnt b)

/-- A template's interval has passed: its message again, and the next interval (R285). -/
def gooseRepeat (k : Nat) (s : State) : State :=
  let b := s.almBody
  let g := Tbl.get s.alm.goose k {}
  if k < almTmplCnt b && s.img.inForce && !s.standby && g.due ≤ s.time.ticks then
    let ivl := min (2 * s.rn (Reg.ALM_GOOSE_IVL k)) (fld (goTmpl b k 4) 16 16)
    let sq := s.rn (Reg.ALM_GOOSE_SQNUM k)
    let s := (s.setReg (Reg.ALM_GOOSE_SQNUM k) (if sq = 0xFFFFFFFF then 1 else sq + 1)).setReg (Reg.ALM_GOOSE_IVL k) ivl
    (s.setGoose k { g with due := g.due + 250000 * ivl }).gooseSend b k ivl
  else s

/-- GOOSE_REPEAT. -/
def execGooseRepeat (tmpl : Fin 64) (s : State) : Host.Outcome State Fault Refusal := live (gooseRepeat tmpl.val) s

/-! ## Host alarm records (R286) -/

/-- A record placed in the host alarm queue. -/
def State.hostRecord (s : State) (r : List Byte) : State :=
  let empty := s.alm.queue.isEmpty
  let q := fifoPush 4096 s.alm.queue r
  let s := { s with alm := { s.alm with queue := q.1 }, hq := { s.hq with almWatch := s.watchWrite empty s.hq.almWatch } }
  let s := s.count Reg.ALM_HREC_CNT
  let s := if q.2 then (s.count Reg.ALM_HREC_LOST_CNT).raise 63 else s
  if empty then s.raise 62 else s

/-- Word 14 of a record: class `c` after the merge. -/
def State.recWord14 (s : State) (c : Nat) : Nat := s.rf (Reg.ALM_CLASS c) 2 18 + 2 ^ 18 * s.clsState c + 2 ^ 20 * s.rf (Reg.ALM_CLASS c) 20 1

/-- The record of an entry, where its class asks for it; `ofs` is merge end minus T0. -/
def State.entryRecord (s : State) (b : List Byte) (ofs : Nat) (e : AlarmEntry) : State :=
  let h := fld (classRec b e.cls 0) 9 2
  if h = 2 || (h = 1 && e.act ≠ 2) then s.hostRecord (wordBytes (e.words ++ [s.recWord14 e.cls, ofs])) else s

/-- The KIND 4 record of a RELEASE made by a timer or an acknowledgement. -/
def State.releaseRecord (s : State) (b : List Byte) (c : Nat) : State :=
  if fld (classRec b c 0) 9 2 = 0 then s
  else
    let e : AlarmEntry := { kind := 4, inst := 0, act := 1, cls := c, t0 := nsOfT80 (s.rn Reg.ALM_LAST_T0) }
    s.hostRecord (wordBytes (e.words ++ [s.recWord14 c, s.rn Reg.ALM_LAST_OFS]))

/-! ## Alarm instants and merges (R280, R281) -/

/-- The number of an instance in WAIT: floe 0 to 3, threshold 4 to 7, oscillation 8 to 11. -/
def waitBit (role inst : Nat) : Nat := (if role = 2 then 0 else if role = 4 then 4 else 8) + inst

/-- The instances expected at `t0`: those in WAIT that consume a group with a reporting instant then. -/
def State.expected (s : State) (t0 : Nat) : List Nat :=
  let w := wf (s.patAt 11 t0) 1 0 12
  (List.range 12).filter fun k =>
    let role := if k < 4 then 2 else if k < 8 then 4 else 3
    fld w k 1 = 1 && (match s.leadOf role (k % 4) with
      | some p => !(s.contributing p t0).isEmpty
      | none => false)

/-- Instances whose MARK an alarm instant holds. -/
def AlmInstant.marked (x : AlmInstant) : List Nat := (x.entries.filter fun e => e.kind = 0).map fun e => waitBit e.role e.inst

/-- An alarm instant is complete. -/
def State.almComplete (s : State) (x : AlmInstant) : Bool := (s.expected x.t0).all fun k => x.marked.contains k

/-- An alarm instant is due. -/
def State.almDue (s : State) (x : AlmInstant) : Bool :=
  x.late || (s.expected x.t0).all fun k => x.marked.contains k || (match Tbl.get s.alm.marks k none with
    | some t => decide (x.t0 < t)
    | none => false)

/-- The alarm instants set, and shown. -/
def State.setInstants (s : State) (l : List AlmInstant) : State :=
  ({ s with alm := { s.alm with instants := l } }).setReg Reg.ALM_OPEN l.length

/-- The registers that hold the ALARMS header. -/
def State.showAlarms (s : State) (b : List Byte) : State :=
  ((s.setReg Reg.ALM_CFG (almClassCnt b + 65536 * almTmplCnt b)).setReg Reg.ALM_WAIT (wf b 1 0 12)).setReg Reg.ALM_MERGE_US (wf b 2 0 16)

/-- An alarm instant merged (R281, R282). -/
def State.merge (s : State) (x : AlmInstant) : State :=
  let s := if s.pend && s.actNs ≤ x.t0 && !s.alm.onNew && s.bit Reg.FEAT_IMG_PEND 11 then
      let s := { s with alm := { s.alm with onNew := true, kept := none } }
      s.showAlarms s.almBody
    else if s.alm.kept.isSome then
      let s := { s with alm := { s.alm with kept := none } }
      s.showAlarms s.almBody
    else s
  let b := s.almBody
  let complete := s.almComplete x
  let es := (List.range 12).flatMap fun k => x.entries.filter fun e => e.kind ≠ 0 && waitBit e.role e.inst = k
  let touched := (es.map AlarmEntry.cls).eraseDups
  let s := es.foldl (fun (s : State) e => s.setAlmClass e.cls ((s.almClass e.cls).apply e)) s
  let s := s.forRange (fun c s =>
    if c < almClassCnt b then
      let j := (s.checkFound 27 c).2.almJudge b c
      if s.clsState c = 0 && j.clsState c = 1 then j.capAlarm c x.t0 else j
    else s) 0 256
  let s := if complete then s else (s.count Reg.ALM_INCOMPLETE_CNT).raise 61
  let s := touched.foldl (fun (s : State) c => s.setF (Reg.ALM_CLASS c) 20 1 (if complete then 0 else 1)) s
  let ofs := min 0xFFFFFFFF (s.nowNs - x.t0)
  let s := es.foldl (fun (s : State) e => s.entryRecord b ofs e) s
  let s := ((s.setReg Reg.ALM_LAST_T0 (t80OfNs x.t0)).setReg Reg.ALM_LAST_OFS ofs).count Reg.ALM_MERGE_CNT
  let s := s.almOutputs.firnNs 3 0 (t80OfNs x.t0) ofs
  let s := { s with alm := { s.alm with merged := some x.t0 } }
  (s.pushNote .merge).setReg Reg.ALM_SEQ ((s.rn Reg.ALM_SEQ + 1) % 65536)

/-- The oldest open instant merged, whatever it still lacks. -/
def State.mergeOldest (s : State) : State :=
  match s.alm.instants with
  | x :: rest => (s.setInstants rest).merge x
  | [] => s

/-- An entry's T0 is at or before the last merged T0. -/
def State.entryStale (s : State) (t0 : Nat) : Bool :=
  match s.alm.merged with
  | some m => decide (t0 ≤ m)
  | none => false

/-- An instant inserted in ascending T0. -/
def insertInstant (x : AlmInstant) : List AlmInstant → List AlmInstant
  | [] => [x]
  | y :: t => if x.t0 < y.t0 then x :: y :: t else y :: insertInstant x t

/-- The next entry of crossing 3 taken (R280). -/
def alarmEntryReceive (s : State) : State :=
  if !s.img.inForce then s
  else
    match s.popAlarm with
    | (none, s) => s
    | (some e, s) =>
      let s := s.count Reg.ALM_ENTRY_CNT
      let known := s.alm.instants.any fun x => x.t0 = e.t0
      let s := if !s.entryStale e.t0 && !known && 8 ≤ s.alm.instants.length then (s.count Reg.ALM_OVER_CNT).mergeOldest else s
      if s.entryStale e.t0 then s.count Reg.ALM_STALE_ENTRY_CNT
      else
        let l := if known then s.alm.instants else insertInstant { t0 := e.t0, opened := s.time.ticks } s.alm.instants
        let s := s.setInstants (l.map fun x => if x.t0 = e.t0 then { x with entries := x.entries ++ [e] } else x)
        if e.kind = 0 then
          let k := waitBit e.role e.inst
          let m := max e.t0 ((Tbl.get s.alm.marks k none).getD 0)
          { s with alm := { s.alm with marks := Tbl.set s.alm.marks k (some m) none } }
        else s

/-- Open instants whose MERGE_US has passed become due (R280 case 3). -/
def mergeTimeout (s : State) : State :=
  { s with alm := { s.alm with instants := s.alm.instants.map fun (x : AlmInstant) =>
      { x with late := x.late || decide (x.opened + wf (s.patAt 11 x.t0) 2 0 16 * 250 ≤ s.time.ticks) } } }

/-- MERGE_TIMEOUT. -/
def execMergeTimeout (s : State) : Host.Outcome State Fault Refusal := live mergeTimeout s

/-- The oldest open instant merges when it is due. -/
def alarmMerge (s : State) : State :=
  match s.alm.instants with
  | x :: _ => if s.img.inForce && s.almDue x then s.mergeOldest else s
  | [] => s

/-! ## Timers, acknowledgement and forcing (R282, R283) -/

/-- The hold timer of class `c`, in HOLD, has run. -/
def State.holdRun (s : State) (c : Nat) : Bool := s.clsState c = 2 && (s.almClass c).holdEnd ≤ s.time.ticks

/-- Class `c` where its hold timer has run. -/
def State.holdEnds (s : State) (b : List Byte) (c : Nat) : State :=
  if s.holdRun c then
    let (s, released) := s.almExpire b c
    if released then s.releaseRecord b c else s
  else s

/-- A merge is due, so that this tick judges it before any timer (R282). -/
def State.mergeDue (s : State) : Bool :=
  match s.alm.instants with
  | x :: _ => s.img.inForce && (s.almDue x || x.opened + wf (s.patAt 11 x.t0) 2 0 16 * 250 ≤ s.time.ticks)
  | [] => false

/-- The hold timer of class `c` has run: the tick ends every hold whose timer has run, and publishes once (R282, R285). -/
def classHoldExpiry (c : Nat) (s : State) : State :=
  if s.holdRun c && !s.mergeDue then (s.forRange (fun k s => s.holdEnds s.almBody k) 0 256).almOutputs else s

/-- CLASS_HOLD_EXPIRY. -/
def execClassHoldExpiry (cls : Fin 256) (s : State) : Host.Outcome State Fault Refusal := running (classHoldExpiry cls.val) s

/-- A write of ALM_ACK. -/
def almAck (w : Word) (s : State) : State :=
  let b := s.almBody
  let c := fld w.toNat 0 8
  if w.getLsbD 31 && s.img.inForce && s.clsState c = 3 then
    (((s.setF (Reg.ALM_CLASS c) 0 2 0).almChange c false).releaseRecord b c).almOutputs
  else s

/-- ALM_ACK. -/
def execAlmAck (who : Party) (w : Word) (s : State) : Host.Outcome State Fault Refusal :=
  live (written who Reg.ALM_ACK w (almAck w)) s

/-- A write of ALM_PIN_FORCE. -/
def almPinForce (w : Word) (s : State) : State := (s.setReg Reg.ALM_PIN_FORCE (w.toNat % 256)).almPins

/-- ALM_PIN_FORCE. -/
def execAlmPinForce (who : Party) (w : Word) (s : State) : Host.Outcome State Fault Refusal :=
  live (written who Reg.ALM_PIN_FORCE w (almPinForce w)) s

/-! ## Image and reset -/

/-- The alarm path's part of a full image applied: classes IDLE, pins high, every template's first message (R282, R283, R285). -/
def State.applyAlarms (s : State) : State :=
  let s := s.forRange (fun c s => s.setReg (Reg.ALM_CLASS c) 0) 0 256
  let s := s.forRange (fun k s => ((s.setReg (Reg.ALM_GOOSE_STNUM k) 0).setReg (Reg.ALM_GOOSE_SQNUM k) 0).setReg (Reg.ALM_GOOSE_IVL k) 0) 0 64
  let s := ({ s with alm := { queue := s.alm.queue, loaded := s.utcTime } }).setInstants []
  (s.showAlarms (s.pat 11)).almOutputs

/-- A WDT, SOFT or LINK reset: open instants and queued records go; class states, counts and hold timers stay (R283, R286). -/
def State.resetAlarms (s : State) : State :=
  (({ s with alm := { s.alm with merged := none, marks := [], queue := [] } }).setInstants []).almPins

end Sys2Proof.Machine
end

