-- ==== Sys2Proof/Machine/AuxAdc.lean ====
section
/-! DEFINITION. The auxiliary ADC (R318 to R321): scans, urgent conversions and their results. -/
namespace Sys2Proof.Machine
open Sys2Proof

/-- Entries of an AUXSEQ body, and word `i` of entry `e`. -/
def auxCnt (b : List Byte) : Nat := wf b 0 0 6
def auxWord (b : List Byte) (e i : Nat) : Nat := word b (4 + 2 * e + i)

/-- AUX_STATUS shows the sequencer. -/
def State.showAux (s : State) : State :=
  let e := (s.aux.run.map AuxRun.entry).getD 0
  s.setReg Reg.AUX_STATUS (bitAt s.aux.run.isSome 0 + e % 32 * 2 + bitAt s.aux.held.isSome 6 + s.aux.urgent.length % 8 * 128)

/-- The sequencer set, and shown. -/
def State.setAux (s : State) (x : Aux) : State := ({ s with aux := x }).showAux

/-- The table that scans starting now use (R321). -/
def State.auxBody (s : State) : List Byte := s.patAt 15 s.nowNs

/-- A start of a scan at entry `e` (R319): at once, or held, replacing a held one. -/
def State.auxStart (s : State) (e : Nat) : State :=
  let b := s.auxBody
  if !s.feat 53 || auxCnt b ≤ e then s
  else
    match s.aux.run with
    | none => s.setAux { s.aux with run := some { body := b, entry := e }, since := if s.aux.urg.isNone then s.time.ticks else s.aux.since }
    | some _ =>
      let s := if s.aux.held.isSome then s.count Reg.AUX_SCAN_REPL_CNT else s
      s.setAux { s.aux with held := some e }

/-- A write of AUX_CTRL. -/
def auxCtrlStart (w : Word) (s : State) : State := if w.getLsbD 31 then s.auxStart (fld w.toNat 0 5) else s

/-- AUX_CTRL_START. -/
def execAuxCtrlStart (who : Party) (w : Word) (s : State) : Host.Outcome State Fault Refusal :=
  live (written who Reg.AUX_CTRL w (auxCtrlStart w)) s

/-- The continuous period has passed. -/
def auxContStart (s : State) : State :=
  let b := s.auxBody
  let us := wf b 1 0 16
  if us ≠ 0 && s.aux.contAt + us * 250 ≤ s.time.ticks then
    (s.setAux { s.aux with contAt := s.time.ticks }).auxStart (wf b 1 16 5)
  else s

/-- AUX_CONT_START. -/
def execAuxContStart (s : State) : Host.Outcome State Fault Refusal := live auxContStart s

/-- An entry's result (R319): the mean code × 16, its time, and its limits. -/
def State.auxResult (s : State) (x : AuxRun) : State :=
  let w := auxWord x.body x.entry 0
  let v := (rhe (x.sum * 16 : Nat) (2 ^ fld w 4 3)).toNat
  let s := (s.setReg (Reg.AUX_RESULT x.entry) v).setReg (Reg.AUX_RESULT_T x.entry) x.t
  let l := auxWord x.body x.entry 1
  if fld w 13 1 = 1 && (v < fld l 0 16 * 16 || fld l 16 16 * 16 < v) then (s.setF Reg.AUX_LIMIT_PEND x.entry 1 1).raise 71 else s

/-- The scan ends; a held start begins. -/
def State.auxEnd (s : State) : State :=
  let s := (s.count Reg.AUX_SCAN_CNT).raise 70
  let h := s.aux.held
  let s := s.setAux { s.aux with run := none, held := none }
  match h with
  | some e => s.auxStart e
  | none => s

/-- The converter goes on after a conversion: with the oldest urgent request, else with the scan (R320). -/
def State.auxNext (s : State) : State :=
  match s.aux.urgent with
  | ch :: rest => s.setAux { s.aux with urgent := rest, urg := some ch, since := s.time.ticks }
  | [] => s.setAux { s.aux with urg := none, since := s.time.ticks }

/-- Ticks of extra acquisition of the entry that runs (R318). -/
def AuxRun.ext (x : AuxRun) : Nat := fld (auxWord x.body x.entry 0) 8 4 * 250

/-- A conversion of the scan ends with a code, 1 µs after its acquisition began, or ACQ_EXT µs later; its sampling instant lies 750 ns
back. -/
def auxConversionEnd (code : Nat) (s : State) : State :=
  match s.aux.run with
  | none => s
  | some x =>
    if s.aux.urg.isSome || s.time.ticks < s.aux.since + x.ext + 250 then s
    else
      let s := (s.count Reg.AUX_CONV_CNT).auxNext
      let x : AuxRun := { x with n := x.n + 1, sum := x.sum + code, t := if x.n = 0 then t80OfNs (s.nowNs - 750) else x.t }
      let w := auxWord x.body x.entry 0
      if x.n < 2 ^ fld w 4 3 then s.setAux { s.aux with run := some x }
      else
        let s := s.auxResult x
        if fld w 12 1 = 1 || auxCnt x.body ≤ x.entry + 1 then s.auxEnd
        else s.setAux { s.aux with run := some { body := x.body, entry := x.entry + 1 } }

/-- AUX_CONVERSION_END: the result crosses the bridge. -/
def execAuxConversionEnd (code : BitVec 16) (err : MemErr) (s : State) : Host.Outcome State Fault Refusal :=
  live (fun s => auxConversionEnd code.toNat (s.crossing 0 err)) s

/-- A conversion runs: an urgent one, or one of the scan past its extra acquisition. -/
def State.converting (s : State) : Bool :=
  s.aux.urg.isSome || (match s.aux.run with
    | some x => decide (s.aux.since + x.ext ≤ s.time.ticks)
    | none => false)

/-- A write of AUX_URGENT (R320): the conversion begins at once where none runs. -/
def auxUrgent (w : Word) (s : State) : State :=
  if !w.getLsbD 31 || !s.feat 53 then s
  else if !s.converting then s.setAux { s.aux with urg := some (fld w.toNat 0 4), since := s.time.ticks }
  else if 4 ≤ s.aux.urgent.length then s.count Reg.AUX_URG_LOST_CNT
  else s.setAux { s.aux with urgent := s.aux.urgent ++ [fld w.toNat 0 4] }

/-- AUX_URGENT. -/
def execAuxUrgent (who : Party) (w : Word) (s : State) : Host.Outcome State Fault Refusal :=
  live (written who Reg.AUX_URGENT w (auxUrgent w)) s

/-- The urgent conversion that runs ends, 1 µs after it began. -/
def auxUrgentEnd (code : Nat) (s : State) : State :=
  match s.aux.urg with
  | none => s
  | some ch =>
    if s.time.ticks < s.aux.since + 250 then s
    else
      let s := ((s.count Reg.AUX_CONV_CNT).count Reg.AUX_URG_CNT).auxNext
      let s := s.setReg Reg.AUX_URG_RESULT (2 ^ 31 + (code * 16 + 2 ^ 20 * ch))
      (s.setReg Reg.AUX_URG_T (t80OfNs (s.nowNs - 750))).raise 70

/-- AUX_URGENT_END: the result crosses the bridge. -/
def execAuxUrgentEnd (code : BitVec 16) (err : MemErr) (s : State) : Host.Outcome State Fault Refusal :=
  live (fun s => auxUrgentEnd code.toNat (s.crossing 0 err)) s

/-- A read of AUX_URG_RESULT returns it and clears VALID. -/
def auxUrgRead (s : State) : State :=
  (s.emit (.read (BitVec.ofNat 64 (s.rn Reg.AUX_URG_RESULT)))).setF Reg.AUX_URG_RESULT 31 1 0

/-- AUX_URG_READ. -/
def execAuxUrgRead (_who : Party) (s : State) : Host.Outcome State Fault Refusal := live auxUrgRead s

/-- Scans, held starts and urgent requests abandoned: at every reset and at a full image load (R321). -/
def State.resetAux (s : State) : State := s.setAux { contAt := s.time.ticks }

/-- The auxiliary ADC's part of an AUXSEQ pattern applied. -/
def State.showAuxCfg (s : State) : State :=
  let b := s.pat 15
  s.setReg Reg.AUX_CFG (auxCnt b + wf b 1 0 16 * 256)

end Sys2Proof.Machine
end

