-- ==== Sys2Proof/Machine/Disp.lean ====
section
/-! DEFINITION. The control cores' device-specific CSRs, the boot of core 0 and the thread dispatcher (R343 to R361, R418). -/
namespace Sys2Proof.Machine
open Sys2Proof

/-- PWR_STATE shows the state, and a move or held request in progress; SUPWARN stays. -/
def State.showPower (s : State) : State :=
  (s.setF Reg.PWR_STATE 0 2 (if s.pwr.state = Power.park then 1 else 0)).setF Reg.PWR_STATE 3 1
    (if s.pwr.moving.isSome || s.pwr.held.isSome then 1 else 0)

/-- A request for an operating state (R442): held while an image load is in VERIFY or a migration runs; one for the current state has no
effect. -/
def State.requestPower (s : State) (p : Power) : State :=
  if s.pwr.state = p then s
  else if s.imgState = 1 || s.key.migr.isSome then ({ s with pwr := { s.pwr with held := some p } }).showPower
  else ({ s with pwr := { s.pwr with moving := some p } }).showPower

/-- A command of the cores or the dispatcher, which PARK gates (R443). -/
def coring (f : State → State) (s : State) : Host.Outcome State Fault Refusal :=
  done (fun s => if s.alive && s.pwr.state = Power.run then f s else s) s

/-! ## The DISPATCH pattern (R349, R350) -/

/-- Threads and jobs of a DISPATCH body. -/
def thrCnt (b : List Byte) : Nat := wf b 0 0 11
def jobCnt (b : List Byte) : Nat := wf b 0 16 9

/-- Word `i` of thread record `t` and of job record `j`; notice-map entry `n`. -/
def thrWord (b : List Byte) (t i : Nat) : Nat := word b (16 + 4 * t + i)
def jobWord (b : List Byte) (j i : Nat) : Nat := word b (16 + 4 * thrCnt b + 2 * j + i)
def noticeEntry (b : List Byte) (n : Nat) : Nat := leNat (slice b (64 + 16 * thrCnt b + 8 * jobCnt b + 2 * n) 2)

/-- Thread `t` exists. -/
def thrExists (b : List Byte) (t : Nat) : Bool := t < thrCnt b && fld (thrWord b t 0) 0 1 = 1
def thrPrio (b : List Byte) (t : Nat) : Nat := if t < thrCnt b then fld (thrWord b t 0) 1 6 else 0
def thrNtok (b : List Byte) (t : Nat) : Nat := fld (thrWord b t 0) 7 3
def thrCores (b : List Byte) (t : Nat) : Nat := fld (thrWord b t 0) 10 8
def thrPrefetch (b : List Byte) (t : Nat) : Bool := fld (thrWord b t 0) 18 1 = 1

/-! ## Threads and cores -/

/-- Thread `t` and core `k`. -/
def State.thread (s : State) (t : Nat) : Thread := Tbl.get s.disp.threads t {}
def State.core (s : State) (k : Nat) : Core := Tbl.get s.disp.cores k {}

/-- Ports 0 to NTOK − 1 of a thread all hold tokens. -/
def Thread.complete (x : Thread) (ntok : Nat) : Bool := (List.range ntok).all fun p => (Tbl.get x.filed p none).isSome

/-- Thread `t` set, and DISP_THR shown. -/
def State.setThread (s : State) (t : Nat) (x : Thread) : State :=
  let s := { s with disp := { s.disp with threads := Tbl.set s.disp.threads t x {} } }
  let b := s.pat 17
  let filled := ((List.range 4).map fun p => bitAt (Tbl.get x.filed p none).isSome p).foldl (· + ·) 0
  s.setReg (Reg.DISP_THR t) (x.state + bitAt (x.state = 3 && x.complete (thrNtok b t)) 2 + filled * 8 + thrPrio b t * 128)

/-- Core `k` runs: released, and the device out of reset. -/
def State.coreRuns (s : State) (k : Nat) : Bool := s.bit Reg.DISP_CORE_RUN k

/-- DISP_CORE shows core `k`. -/
def State.showCore (s : State) (k : Nat) : State :=
  let x := s.core k
  s.setReg (Reg.DISP_CORE k) (bitAt (s.coreRuns k) 0 + bitAt x.running.isSome 2 + x.running.getD 0 * 8 + bitAt x.valid 13 +
    2 ^ 14 * x.slot.getD 0)

/-- Core `k` set, and shown. -/
def State.setCore (s : State) (k : Nat) (x : Core) : State :=
  ({ s with disp := { s.disp with cores := Tbl.set s.disp.cores k x {} } }).showCore k

/-- The ready list of a priority. -/
def State.readyList (s : State) (p : Nat) : List Nat := Tbl.get s.disp.ready p []

/-- A ready list set, and DISP_READY shown. -/
def State.setReady (s : State) (p : Nat) (l : List Nat) : State :=
  ({ s with disp := { s.disp with ready := Tbl.set s.disp.ready p l [] } }).setF
    (if p < 32 then Reg.DISP_READY_LO else Reg.DISP_READY_HI) (p % 32) 1 (if l = [] then 0 else 1)

/-! ## The decision trace (R359 to R361) -/

/-- Trace kinds. -/
abbrev trPost : Nat := 0
abbrev trReady : Nat := 1
abbrev trSlot : Nat := 2
abbrev trTake : Nat := 3
abbrev trDone : Nat := 4
abbrev trCancel : Nat := 5
abbrev trCor : Nat := 6
abbrev trDisplace : Nat := 7
abbrev trColl : Nat := 8
abbrev trDiscard : Nat := 9
abbrev trJobFire : Nat := 10
abbrev trJobUnder : Nat := 11
abbrev trLost : Nat := 12

/-- An entry into the trace buffer; what finds no room is counted, and told by a LOST entry before the next that does. -/
def State.traceAdd (s : State) (kind core thread prio port src value : Nat) : State :=
  if wf (s.pat 17) 4 0 1 = 0 || !s.bit Reg.DISP_TRACE_MASK kind then s
  else
    let e := fun (k v : Nat) => ({ w0 := 2 ^ 31 + (k + core * 16 + thread * 128 + 2 ^ 17 * prio + 2 ^ 23 * (port % 4) + 2 ^ 25 * src)
                                   value := v, ns := s.time.ns.toNat, sec := s.time.sec.toNat % 2 ^ 32 } : Trace)
    let lost : Trace := { w0 := 2 ^ 31 + (trLost + 4 * 2 ^ 25), value := min 65535 s.disp.traceLost, ns := s.time.ns.toNat
                          sec := s.time.sec.toNat % 2 ^ 32 }
    let l := if s.disp.traceLost = 0 then [e kind value] else [lost, e kind value]
    if s.disp.trace.length + l.length ≤ 256 then
      { s with disp := { s.disp with trace := s.disp.trace ++ l, traceLost := 0 } }
    else
      let s := { s with disp := { s.disp with traceLost := s.disp.traceLost + 1 } }
      (s.count Reg.DISP_TRACE_LOST_CNT).raise 81

/-- A trace entry about thread `t` with no token. -/
def State.traceThr (s : State) (kind core t value : Nat) : State := s.traceAdd kind core t (thrPrio (s.pat 17) t) 0 4 value

/-- The oldest buffered entry written to the ring. -/
def traceWrite (s : State) : State :=
  match s.disp.trace with
  | [] => s
  | e :: rest =>
    let s := { s with disp := { s.disp with trace := rest } }
    let w := s.rn Reg.DISP_TRACE_WPTR
    let ix := fld w 0 16
    let lap := fld w 16 16
    let base := s.rn Reg.DISP_TRACE_BASE_LO + 2 ^ 32 * s.rn Reg.DISP_TRACE_BASE_HI
    let s := s.ddrWrite (base + 16 * ix) (leBytes 4 e.w0 ++ leBytes 2 e.value ++ leBytes 2 lap ++ leBytes 4 e.ns ++ leBytes 4 e.sec)
    if ix = 65535 then ((s.setReg Reg.DISP_TRACE_WPTR (65536 * ((lap + 1) % 65536))).count Reg.DISP_TRACE_WRAP_CNT).raise 80
    else s.setReg Reg.DISP_TRACE_WPTR (ix + 1 + 65536 * lap)

/-- TRACE_WRITE. -/
def execTraceWrite (s : State) : Host.Outcome State Fault Refusal := coring traceWrite s

/-! ## Readiness (R352, R354, R357) -/

/-- Thread `t` eligible for core `k`. -/
def eligible (b : List Byte) (t k : Nat) : Bool := fld (thrCores b t) k 1 = 1

/-- A slotted thread sent back to the head of its list, its copy abandoned. -/
def State.displace (s : State) (b : List Byte) (k u : Nat) : State :=
  let p := thrPrio b u
  let s := s.setCore k { s.core k with slot := none, valid := false }
  let s := (s.setThread u { s.thread u with state := 1 }).setReady p (u :: s.readyList p)
  ((s.count Reg.DISP_DISPLACE_CNT).count Reg.DISP_READY_CNT).traceThr trDisplace k u 0

/-- Thread `t` has become ready: where no eligible core has an empty slot, the first whose slotted thread has a lower priority gives its
slot up. -/
def State.displaceFor (s : State) (b : List Byte) (t : Nat) : State :=
  let ks := (List.range 8).filter fun k => eligible b t k && s.coreRuns k
  if ks.any fun k => (s.core k).slot.isNone then s
  else match ks.find? fun k => match (s.core k).slot with
      | some u => decide (thrPrio b t < thrPrio b u)
      | none => false with
    | some k => (match (s.core k).slot with
      | some u => s.displace b k u
      | none => s)
    | none => s

/-- Thread `t` READY at the tail of its list, its tokens moved out of its ports. -/
def State.makeReady (s : State) (b : List Byte) (t : Nat) : State :=
  let x := s.thread t
  let vals := (List.range (thrNtok b t)).map fun p => (Tbl.get x.filed p none).getD 0
  let p := thrPrio b t
  let s := s.setThread t { state := 1, act := vals }
  let s := ((s.setReady p (s.readyList p ++ [t])).count Reg.DISP_READY_CNT).traceThr trReady 0 t 0
  s.displaceFor b t

/-- A token filed (R352). -/
def State.fileTok (s : State) (k : Post) : State :=
  let b := s.pat 17
  let s := (s.count Reg.DISP_POST_CNT).traceAdd trPost k.core k.thread (thrPrio b k.thread) k.port k.src k.value
  if !s.img.inForce || !thrExists b k.thread || thrNtok b k.thread ≤ k.port then
    ((s.count Reg.DISP_DISC_CNT).raise 91).traceAdd trDiscard k.core k.thread (thrPrio b k.thread) k.port k.src k.value
  else
    let s := (s.checkFound 26 k.thread).2
    let x := s.thread k.thread
    let s := if (Tbl.get x.filed k.port none).isSome then
        ((s.count Reg.DISP_COLL_CNT).raise 82).traceAdd trColl k.core k.thread (thrPrio b k.thread) k.port k.src k.value
      else s
    let x : Thread := { x with filed := Tbl.set x.filed k.port (some k.value) none }
    let s := s.setThread k.thread x
    if x.state = 0 && x.complete (thrNtok b k.thread) then
      if s.disp.cancels.contains k.thread && s.disp.cancelT = s.time.ticks then
        -- cancel and completion in one cycle: cancel wins
        let s := s.setThread k.thread {}
        let s := { s with disp := { s.disp with cancels := s.disp.cancels.erase k.thread } }
        (((s.count Reg.DISP_COR_CNT).count Reg.DISP_CANCEL_CNT).raise 84).traceThr trCor 0 k.thread 0
      else s.makeReady b k.thread
    else s

/-! ## Token sources (R351) -/

/-- DISP_XQ_STATUS shows the intake. -/
def State.showIntake (s : State) : State :=
  s.setReg Reg.DISP_XQ_STATUS (s.disp.intake.length + bitAt (s.disp.intake = []) 7)

/-- A token enters the external intake (R166); in PARK with WAKE it brings the device back to RUN (R442). -/
def State.intakePush (s : State) (k : Post) : State :=
  let r := fifoPush 64 s.disp.intake k
  let s := { s with disp := { s.disp with intake := r.1, watch := s.watchWrite s.disp.intake.isEmpty s.disp.watch } }
  let s := if r.2 then (s.count Reg.DISP_XQ_LOST_CNT).raise 85 else s
  let s := if s.pwr.state = Power.park && s.bit Reg.PWR_CFG 1 then s.requestPower .run else s
  s.showIntake

/-- DISP_POST written. -/
def dispPost (w : Word) (s : State) : State :=
  s.intakePush { thread := fld w.toNat 0 10, port := fld w.toNat 10 2, value := fld w.toNat 16 16, src := 2 }

/-- DISP_POST. -/
def execDispPost (who : Party) (w : Word) (s : State) : Host.Outcome State Fault Refusal :=
  live (written who Reg.DISP_POST w (dispPost w)) s

/-- `dpost` written by core `k`: into the post buffer, or stalled while that is full. -/
def dpost (k v : Nat) (s : State) : State :=
  let p : Post := { thread := fld v 0 10, port := fld v 10 2, value := fld v 16 16, src := 0, core := k }
  if s.disp.posts.length < 64 then { s with disp := { s.disp with posts := s.disp.posts ++ [p] } }
  else (({ s with disp := { s.disp with stalled := s.disp.stalled ++ [p] } }).count Reg.DISP_POST_STALL_CNT).raise 87

/-- DPOST. -/
def execDpost (core : Fin 8) (v : BitVec 64) (s : State) : Host.Outcome State Fault Refusal := coring (dpost core.val v.toNat) s

/-! ## Jobs (R353) -/

/-- Job `j` has reached zero: it posts its token and reloads. -/
def jobFire (j : Nat) (s : State) : State :=
  let b := s.pat 17
  let w := jobWord b j 0
  if jobCnt b ≤ j || fld w 0 16 = 0 || s.rn (Reg.DISP_JOB j) ≠ 0 then s
  else
    let v := fld (jobWord b j 1) 0 16
    let s := (s.checkFound 26 (0x400 + j)).2
    let s := ((s.setReg (Reg.DISP_JOB j) (fld w 0 16)).count Reg.DISP_JOB_FIRE_CNT).traceAdd trJobFire 0 j 0 0 3 v
    s.fileTok { thread := fld w 16 10, port := fld w 26 2, value := v, src := 3 }

/-- Every job at zero fires, in ascending number: firings come before the tokens of the intake and of the cores (R351). -/
def State.fireJobs (s : State) : State := s.forRange jobFire 0 (jobCnt (s.pat 17))

/-- A decrement of job `j`; one that reached zero on an earlier tick has fired before it, while decrements of one tick are summed. -/
def State.jobDec (s : State) (j : Nat) : State :=
  let b := s.pat 17
  if jobCnt b ≤ j || fld (jobWord b j 0) 0 16 = 0 then s
  else
    let s := if Tbl.get s.disp.zeroT j 0 < s.time.ticks then jobFire j s else s
    let n := s.rn (Reg.DISP_JOB j)
    if n = 0 then ((s.count Reg.DISP_JOB_UNDER_CNT).raise 83).traceAdd trJobUnder 0 j 0 0 4 0
    else
      let s := if n = 1 then { s with disp := { s.disp with zeroT := Tbl.set s.disp.zeroT j s.time.ticks 0 } } else s
      s.setReg (Reg.DISP_JOB j) (n - 1)

/-- JOB_FIRE; `errs` as for TOKEN_FILE. -/
def execJobFire (job : Fin 256) (errs : Tbl MemErr) (s : State) : Host.Outcome State Fault Refusal :=
  coring (withErrs errs (jobFire job.val)) s

/-- The dispatcher takes a token, after the firings due: the intake before the core posts (R351). -/
def tokenFile (s : State) : State :=
  let s := s.fireJobs
  match s.disp.intake, s.disp.posts with
  | k :: rest, _ => (({ s with disp := { s.disp with intake := rest, watch := s.watchRead } }).showIntake).fileTok k
  | [], k :: rest =>
    let s := { s with disp := { s.disp with posts := rest ++ s.disp.stalled.take 1, stalled := s.disp.stalled.drop 1 } }
    s.fileTok k
  | [], [] => s

/-- TOKEN_FILE; `errs` is what the checkers of the thread and job tables find. -/
def execTokenFile (errs : Tbl MemErr) (s : State) : Host.Outcome State Fault Refusal := coring (withErrs errs tokenFile) s

/-- DJOB. -/
def execDjob (_core : Fin 8) (v : BitVec 64) (s : State) : Host.Outcome State Fault Refusal :=
  coring (fun s => s.jobDec (v.toNat % 256)) s

/-- DISP_JOB_DEC. -/
def execDispJobDec (who : Party) (w : Word) (s : State) : Host.Outcome State Fault Refusal :=
  live (written who Reg.DISP_JOB_DEC w (fun s => s.jobDec (w.toNat % 256))) s

/-- Entry of the notice map that a completion names (R350). -/
def Note.index : Note → Nat
  | .seam g => g
  | .engine role inst => 256 + 4 * (role - 1) + inst
  | .merge => 276
  | .refac e => 277 + e

/-- The dispatcher takes a completion from crossing 4. -/
def noticeTake (s : State) : State :=
  match s.popNote with
  | (none, s) => s
  | (some n, s) =>
    let e := noticeEntry (s.pat 17) n.index
    if fld e 8 1 = 1 then s.jobDec (fld e 0 8) else s

/-- NOTICE_TAKE. -/
def execNoticeTake (s : State) : Host.Outcome State Fault Refusal := coring noticeTake s

/-! ## Bobbin slots (R354, R355) -/

/-- The first eligible thread of the highest-priority non-empty list, from priority `p` on. -/
def State.bestFor (s : State) (b : List Byte) (k p : Nat) : Nat → Option Nat
  | 0 => none
  | n + 1 =>
    match (s.readyList p).find? fun t => eligible b t k with
    | some t => some t
    | none => s.bestFor b k (p + 1) n

/-- Every ready thread, the highest priority first, displaces where it may: a slot filled with another thread may have left it without an
empty one. -/
def State.displaceReady (s : State) (b : List Byte) : State :=
  s.forRange (fun p s => s.forEach (fun t s => s.displaceFor b t) (s.readyList p)) 0 64

/-- An empty slot of a released core filled; with PREFETCH it is valid once the copy ends. -/
def slotFill (k : Nat) (s : State) : State :=
  let b := s.pat 17
  let x := s.core k
  if x.slot.isSome || !s.coreRuns k then s
  else
    match s.bestFor b k 0 64 with
    | none => s
    | some t =>
      let p := thrPrio b t
      let s := (s.setReady p ((s.readyList p).erase t)).setThread t { s.thread t with state := 2 }
      ((s.setCore k { x with slot := some t, valid := !thrPrefetch b t }).traceThr trSlot k t 0).displaceReady b

/-- SLOT_FILL. -/
def execSlotFill (core : Fin 8) (s : State) : Host.Outcome State Fault Refusal := coring (slotFill core.val) s

/-- The buffer a slot's copy goes to: the one that the running, or last, thread does not use. -/
def Core.slotBuf (x : Core) : Nat := 1 - x.buf

/-- The argument block of the slotted thread copied to its DLM buffer: the slot is valid. -/
def slotValid (k : Nat) (s : State) : State :=
  let b := s.pat 17
  let x := s.core k
  match x.slot with
  | none => s
  | some t =>
    if x.valid then s
    else
      let src := sramIx (word b 1 - 0x10000000 + 256 * t)
      let s := (s.checkFound 25 (src / 8)).2
      let dst := 65536 * k + (if x.slotBuf = 0 then 0xFE00 else 0xFF00)
      let s := { s with disp := { s.disp with dlm := Memory.write s.disp.dlm dst (Memory.read s.sram src 256) } }
      s.setCore k { x with valid := true }

/-- SLOT_VALID; `errs` is what the checker of shared SRAM finds. -/
def execSlotValid (core : Fin 8) (errs : Tbl MemErr) (s : State) : Host.Outcome State Fault Refusal :=
  coring (withErrs errs (slotValid core.val)) s

/-- The values of an activation as `dtok` gives them. -/
def dtokWord (l : List Nat) : Nat := ((List.range 4).map fun p => l.getD p 0 % 65536 * 2 ^ (16 * p)).foldl (· + ·) 0

/-- A read of `dtake` by core `k`. -/
def dtake (k : Nat) (s : State) : State :=
  let b := s.pat 17
  let x := s.core k
  match x.slot, x.running with
  | some t, none =>
    if !x.valid then s.emit (.read 0)
    else
      let buf := x.slotBuf
      let y := s.thread t
      let s := s.setThread t { y with state := 3 }
      let s := s.setCore k { x with
        slot := none, valid := false, running := some t, buf := buf, dtok := BitVec.ofNat 64 (dtokWord y.act)
        dentry := BitVec.ofNat 64 (thrWord b t 1) }
      let s := ((s.count Reg.DISP_TAKE_CNT).count (Reg.DISP_CORE_TAKE_CNT k)).traceThr trTake k t 0
      s.emit (.read (BitVec.ofNat 64 (2 ^ 17 + (t + thrPrio b t * 2 ^ 10 + 2 ^ 16 * buf))))
  | _, _ => s.emit (.read 0)

/-- DTAKE. -/
def execDtake (core : Fin 8) (s : State) : Host.Outcome State Fault Refusal := coring (dtake core.val) s

/-- `ddone` written by core `k` (R356). -/
def ddone (k status : Nat) (s : State) : State :=
  let b := s.pat 17
  let x := s.core k
  match x.running with
  | none => (s.count Reg.DISP_DONE_ORPHAN_CNT).raise 88
  | some t =>
    let y := s.thread t
    let s := s.setCore k { x with running := none }
    let s := (s.count Reg.DISP_DONE_CNT).traceThr trDone k t (status % 65536)
    let s := if y.complete (thrNtok b t) then s.makeReady b t else s.setThread t { y with state := 0, act := [] }
    let w := thrWord b t 2
    if fld w 8 1 = 1 then s.jobDec (fld w 0 8) else s

/-- DDONE. -/
def execDdone (core : Fin 8) (v : BitVec 64) (s : State) : Host.Outcome State Fault Refusal := coring (ddone core.val v.toNat) s

/-! ## Cancels (R357, R358) -/

/-- A cancel of thread `t`. -/
def State.cancel (s : State) (t : Nat) : State :=
  let b := s.pat 17
  if !s.img.inForce || !thrExists b t then (s.count Reg.DISP_DISC_CNT).raise 91
  else
    let x := s.thread t
    match x.state with
    | 0 =>
      let l := if s.disp.cancelT = s.time.ticks then s.disp.cancels else []
      { s with disp := { s.disp with cancels := l ++ [t], cancelT := s.time.ticks } }
    | 1 =>
      let p := thrPrio b t
      (((s.setReady p ((s.readyList p).erase t)).setThread t {}).count Reg.DISP_CANCEL_CNT).traceThr trCancel 0 t 0
    | 2 =>
      let s := s.forRange (fun k s => if (s.core k).slot = some t then s.setCore k { s.core k with slot := none, valid := false } else s) 0 8
      ((s.setThread t {}).count Reg.DISP_CANCEL_CNT).traceThr trCancel 0 t 0
    | _ => ((s.setThread t { x with filed := [] }).count Reg.DISP_CANCEL_CNT).traceThr trCancel 0 t 0

/-- DCANCEL. -/
def execDcancel (_core : Fin 8) (v : BitVec 64) (s : State) : Host.Outcome State Fault Refusal :=
  coring (fun s => s.cancel (v.toNat % 1024)) s

/-- DISP_CANCEL. -/
def execDispCancel (who : Party) (w : Word) (s : State) : Host.Outcome State Fault Refusal :=
  live (written who Reg.DISP_CANCEL w (fun s => s.cancel (w.toNat % 1024))) s

/-! ## Interrupts of the cores (R345) -/

/-- DIPI: MSIP of each named core sets. -/
def dipi (mask : Nat) (s : State) : State :=
  s.forRange (fun k s => if fld mask k 1 = 1 then s.setCore k { s.core k with msip := true } else s) 0 8

/-- DIPI. -/
def execDipi (_core : Fin 8) (v : BitVec 64) (s : State) : Host.Outcome State Fault Refusal := coring (dipi v.toNat) s

/-- MTIP of core `k` judged. -/
def State.judgeMtip (s : State) (k : Nat) : State :=
  s.setCore k { s.core k with mtip := decide ((s.core k).mtickcmp.toNat ≤ s.time.ticks) }

/-- `mtickcmp` written by core `k`. -/
def mtickcmpWrite (k : Nat) (v : BitVec 64) (s : State) : State := (s.setCore k { s.core k with mtickcmp := v }).judgeMtip k

/-- MTICKCMP_WRITE. -/
def execMtickcmpWrite (core : Fin 8) (v : BitVec 64) (s : State) : Host.Outcome State Fault Refusal := coring (mtickcmpWrite core.val v) s

/-- MTIMER_EXPIRY. -/
def execMtimerExpiry (core : Fin 8) (s : State) : Host.Outcome State Fault Refusal := live (fun s => s.judgeMtip core.val) s

/-- DISP_CORE_RUN written: bit 0 reads 1. -/
def coreRelease (w : Word) (s : State) : State :=
  (s.setReg Reg.DISP_CORE_RUN (w.toNat % 256 / 2 * 2 + 1)).forRange (fun k s => s.showCore k) 0 8

/-- CORE_RELEASE. -/
def execCoreRelease (who : Party) (w : Word) (s : State) : Host.Outcome State Fault Refusal :=
  live (written who Reg.DISP_CORE_RUN w (coreRelease w)) s

/-! ## Boot (R347, R418) -/

/-- A section: destination, length and offset. -/
def fwSection (o : List Byte) (k : Nat) : Nat × Nat × Nat := (word o (8 + 3 * k), word o (9 + 3 * k), word o (10 + 3 * k))

/-- A destination range lies in the ILM of core 0, as core address. -/
def inIlm (a n : Nat) : Bool := (0x100000 ≤ a && a + n ≤ 0x110000) || (0x1000000 ≤ a && a + n ≤ 0x1010000)

/-- A section is in range. -/
def fwSecOk (o : List Byte) (x : Nat × Nat × Nat) : Bool :=
  x.2.1 % 16 = 0 && x.2.2 % 16 = 0 && 2848 ≤ x.2.2 && x.2.2 + x.2.1 + 4640 ≤ word o 2 &&
    (inIlm x.1 x.2.1 || (0x10000000 ≤ x.1 && x.1 + x.2.1 ≤ 0x10400000))

/-- The header of a firmware object is in range. -/
def fwHeaderOk (o : List Byte) : Bool :=
  let secs := (List.range (wf o 6 0 4)).map (fwSection o)
  word o 0 = 0x4F574656 && word o 1 = 0x0001 + 256 * 65536 && word o 2 ≤ 3145728 + 7488 && word o 2 ≤ o.length && 7488 ≤ word o 2 &&
    fld (word o 3) 6 2 = 0 && word o 3 / 512 = 0 && word o 4 ≠ 0 && 1 ≤ wf o 6 0 4 && wf o 6 0 4 ≤ 8 && word o 6 / 16 = 0 &&
    word o 7 = 0 && ((List.range 32).all fun k => word o (32 + k) = 0) && secs.all (fwSecOk o) &&
    decide ((secs.map fun x => x.2.1).foldl (· + ·) 0 ≤ 3145728) &&
    secs.any fun x => decide (x.1 ≤ word o 5 && word o 5 < x.1 + x.2.1)

/-- A section copied to its destination. -/
def State.fwCopy (s : State) (o : List Byte) (x : Nat × Nat × Nat) : State :=
  let bytes := slice o x.2.2 x.2.1
  if inIlm x.1 x.2.1 then { s with disp := { s.disp with ilm := Memory.write s.disp.ilm (x.1 % 65536) bytes } }
  else s.sramWrite (x.1 - 0x10000000) bytes

/-- A firmware object booted: the FAIL code (0 when it runs) and the state. -/
def State.fwBoot (s : State) (o : List Byte) : Nat × State :=
  if !fwHeaderOk o || (s.lc = lcRetired && wf o 3 0 6 ≠ 0) then (2, s)
  else
    let s := ((List.range (wf o 6 0 4)).map (fwSection o)).foldl (fun (s : State) x => s.fwCopy o x) s
    let len := word o 2
    let digest := Config.sha3_512 (o.take (len - 4640))
    let (r, s) := s.verifySig (wf o 3 0 6) 5 (slice o 256 2592) digest (slice o (len - 4640) 4627)
    if r ≠ krOk then (3, s)
    else if word o 4 < s.rn Reg.KEY_FW_FLOOR then (4, s)
    else
      let s := s.setReg Reg.KEY_FW_VERSION (word o 4)
      let s := if wf o 3 8 1 = 1 then s.setReg Reg.KEY_FW_FLOOR (max (s.rn Reg.KEY_FW_FLOOR) (word o 4)) else s
      let s := { s with key := { s.key with fwDigest := digest.take 32 } }
      (0, (s.setReg Reg.DISP_BOOT 6).raise 89)

/-- The line the boot ROM sends on UTXD as DISP_BOOT changes (R469). -/
def State.bootLine (s : State) (stage fail : Nat) : State :=
  let digit := fun n => BitVec.ofNat 8 (48 + n)
  s.forEach (fun b s => s.emit (.uart b))
    (ascii "VL9160 STAGE " ++ [digit stage] ++ ascii " FAIL " ++ [digit fail] ++ [BitVec.ofNat 8 13, BitVec.ofNat 8 10])

/-- The last stage the boot ROM begins before an object fails with `r`, or runs (0) (R347). -/
def bootLast (r : Nat) : Nat := if r = 1 then 1 else if r = 2 then 2 else 3

/-- The boot ROM's first attempt ends, with the object found in flash (none: no flash). -/
def bootComplete (object : List Byte) (s : State) : State :=
  if s.rf Reg.DISP_BOOT 0 4 ≠ 0 then s
  else
    let r := if object = [] then (1, s) else s.fwBoot object
    let t := r.2.forRange (fun k s => s.bootLine k 0) 1 (bootLast r.1)
    if r.1 = 0 then t.bootLine 6 0 else ((t.setReg Reg.DISP_BOOT (4 + r.1 * 256)).raise 90).bootLine 4 r.1

/-! ## Image and resets (R348, R357) -/

/-- Every thread IDLE, slots empty, running activations forgotten, jobs reloaded. -/
def State.resetDisp (s : State) : State :=
  let b := s.pat 17
  let s := { s with disp := { s.disp with
    threads := [], ready := [], intake := [], watch := {}, posts := [], stalled := [], cancels := []
    cores := s.disp.cores.map fun (e : Nat × Core) => (e.1, { e.2 with slot := none, valid := false, running := none }) } }
  let s := s.forRange (fun p s => s.setReady p []) 0 64
  let s := s.forRange (fun t s => if t < thrCnt b then s.setThread t {} else s.setReg (Reg.DISP_THR t) 0) 0 1024
  let s := s.forRange (fun j s => s.setReg (Reg.DISP_JOB j) (if j < jobCnt b then fld (jobWord b j 0) 0 16 else 0)) 0 256
  (s.forRange (fun k s => s.showCore k) 0 8).showIntake

/-- The dispatcher's part of a full image applied; tokens in the intake are kept. -/
def State.applyDisp (s : State) : State :=
  let b := s.pat 17
  let keep := s.disp
  let s := s.resetDisp
  let s := ({ s with disp := { s.disp with intake := keep.intake, watch := keep.watch, posts := keep.posts, stalled := keep.stalled } }).showIntake
  let s := s.setReg Reg.DISP_CFG (thrCnt b + 65536 * jobCnt b)
  let s := (s.setReg Reg.DISP_TRACE_BASE_LO (word b 2)).setReg Reg.DISP_TRACE_BASE_HI (word b 3)
  s.setReg Reg.DISP_TRACE_MASK (wf b 5 0 16)

end Sys2Proof.Machine
end

