-- ==== Sys2Proof/Machine/Se.lean ====
section
/-! DEFINITION. The linear state estimator (R201 to R225, R503): the TOPOLOGY and FACTOR patterns, the solve of an instant, channel
modes, refactorisation and swap. -/
namespace Sys2Proof.Machine
open Sys2Proof

/-! ## The TOPOLOGY pattern (R204 to R208) -/

/-- A little-endian number of `n` bytes at byte `o` of a body. -/
def numAt (b : List Byte) (o n : Nat) : Nat := leNat (slice b o n)

/-- A signed 40-bit field that spans the words at byte `o`. -/
def p40At (b : List Byte) (o : Nat) : Int := sInt 40 (numAt b o 5)

/-- A bus record (R205). -/
structure BusRec where
  s : Int
  x0 : Phasor
  psw : Nat
  use : Bool
deriving DecidableEq, Repr

/-- A branch record (R206). -/
structure BrRec where
  a : Nat
  b : Nat
  en : Bool
  src : Nat
  dg : Nat
  bit : Nat
  pol : Bool
deriving DecidableEq, Repr

/-- A channel record (R207). -/
structure ChRec where
  src : Nat
  lane : Nat
  current : Bool
  a : Nat
  b : Nat
  branch : Nat
  ha : Phasor
  hb : Phasor
  sc : Int
deriving DecidableEq, Repr

/-- A section of TOPOLOGY: header values, records, and for each column its rows and its PARENT. -/
structure Topo where
  sigma : Int
  lambda : Int
  absP : Nat
  retP : Nat
  topoP : Nat
  redund : Nat
  pool : Nat
  fact : Nat
  buses : List BusRec
  brs : List BrRec
  chans : List ChRec
  rows : List (List Nat)
  parent : List Nat
  /-- The structure section as it stands in the body (R208). -/
  struct : List Byte
deriving DecidableEq, Repr

/-- The bus record at byte `o`. -/
def busRec (b : List Byte) (o : Nat) : BusRec :=
  { s := p40At b o, x0 := ⟨p40At b (o + 8), p40At b (o + 16)⟩, psw := numAt b (o + 24) 4, use := fld (numAt b (o + 28) 4) 0 1 = 1 }

/-- The branch record at byte `o`. -/
def brRec (b : List Byte) (o : Nat) : BrRec :=
  let w := numAt b o 4
  let v := numAt b (o + 4) 4
  { a := fld w 0 14, b := fld w 16 14, en := fld w 31 1 = 1, src := fld v 0 14, dg := fld v 14 2, bit := fld v 16 4, pol := fld v 20 1 = 1 }

/-- The channel record at byte `o`. -/
def chRec (b : List Byte) (o : Nat) : ChRec :=
  let w := numAt b o 4
  let v := numAt b (o + 4) 4
  { src := fld w 0 14, lane := fld w 14 4, current := fld w 18 1 = 1, a := fld v 0 14, b := fld v 16 14, branch := numAt b (o + 8) 2
    ha := ⟨p40At b (o + 12), p40At b (o + 20)⟩, hb := ⟨p40At b (o + 28), p40At b (o + 36)⟩, sc := (numAt b (o + 44) 4 * 256 : Nat) }

/-- The rows of `runs` run words from byte `o`. -/
def runRows (b : List Byte) (o : Nat) : Nat → List Nat
  | 0 => []
  | k + 1 =>
    let w := numAt b o 4
    (List.range (fld w 14 14)).map (fld w 0 14 + ·) ++ runRows b (o + 4) k

/-- Rows and PARENT of `n` columns from byte `o`, and the byte after them. -/
def structCols (b : List Byte) (o : Nat) : Nat → List (List Nat × Nat) × Nat
  | 0 => ([], o)
  | n + 1 =>
    let h := numAt b o 4
    let runs := fld h 16 16
    let r := structCols b (o + 4 + 4 * runs) n
    ((runRows b (o + 4) runs, fld h 0 14) :: r.1, r.2)

/-- The section at byte `o`, and the byte after it. -/
def topoAt (b : List Byte) (o : Nat) : Topo × Nat :=
  let w := fun i => numAt b (o + 4 * i) 4
  let n := fld (w 1) 0 14
  let m := fld (w 2) 0 18
  let br := fld (w 3) 0 15
  let st := structCols b (o + w 10) n
  ({ sigma := p40At b (o + 16), lambda := p40At b (o + 24), absP := fld (w 8) 0 8, retP := fld (w 8) 8 8, topoP := fld (w 8) 16 8
     redund := fld (w 9) 0 10, pool := fld (w 11) 0 22, fact := fld (w 12) 0 22
     buses := (List.range n).map fun j => busRec b (o + 64 + 32 * j)
     brs := (List.range br).map fun j => brRec b (o + 64 + 32 * n + 16 * j)
     chans := (List.range m).map fun i => chRec b (o + 64 + 32 * n + 16 * br + 48 * i)
     rows := st.1.map Prod.fst, parent := st.1.map Prod.snd, struct := slice b (o + w 10) (st.2 - (o + w 10)) }, (st.2 + 7) / 8 * 8)

/-- The sections from byte `o`, by INST. -/
def topoSecs (b : List Byte) (o : Nat) : Nat → List (Nat × Topo)
  | 0 => []
  | k + 1 =>
    let r := topoAt b o
    (fld (numAt b o 4) 0 2, r.1) :: topoSecs b r.2 k

/-- The section of instance `e`. -/
def topoOf (b : List Byte) (e : Nat) : Option Topo := (topoSecs b 16 (wf b 0 0 3)).lookup e

/-! ## The FACTOR pattern (R209) -/

/-- A column's stored entries from byte `o`. -/
def entries10 (b : List Byte) (o n : Nat) : List Phasor := (List.range n).map fun k => ⟨p40At b (o + 10 * k), p40At b (o + 10 * k + 5)⟩

/-- `k` column records from byte `o`, by column, and the byte after them. -/
def factCols (t : Topo) (b : List Byte) (o : Nat) : Nat → List (Nat × SeCol) × Nat
  | 0 => ([], o)
  | k + 1 =>
    let j := fld (numAt b o 4) 0 14
    let n := (t.rows.getD j []).length
    let r := factCols t b (o + (12 + 10 * n + 7) / 8 * 8) k
    ((j, { dinv := p40At b (o + 4), l := entries10 b (o + 12) n }) :: r.1, r.2)

/-- A section of FACTOR at byte `o`: its columns, its κ² table, and the byte after it. -/
def factAt (t : Topo) (b : List Byte) (o : Nat) : List (Nat × SeCol) × List Int × Nat :=
  let r := factCols t b (o + 8) (fld (numAt b (o + 4) 4) 0 14)
  let m := t.chans.length
  (r.1, (List.range m).map fun i => p40At b (r.2 + 5 * i), r.2 + (5 * m + 7) / 8 * 8)

/-- The sections of FACTOR from byte `o`, by INST. -/
def factSecs (tb b : List Byte) (o : Nat) : Nat → List (Nat × List (Nat × SeCol) × List Int)
  | 0 => []
  | k + 1 =>
    let e := fld (numAt b o 4) 0 2
    match topoOf tb e with
    | some t =>
      let r := factAt t b o
      (e, r.1, r.2.1) :: factSecs tb b r.2.2 k
    | none => []

/-- The section of FACTOR of instance `e`. -/
def factOf (tb b : List Byte) (e : Nat) : Option (List (Nat × SeCol) × List Int) := (factSecs tb b 16 (wf b 0 0 3)).lookup e

/-! ## Instances -/

/-- Estimator instance `e`. -/
def State.seI (s : State) (e : Nat) : SeInst := Tbl.get s.se e {}

/-- Estimator instance `e` set. -/
def State.setSe (s : State) (e : Nat) (x : SeInst) : State := { s with se := Tbl.set s.se e x {} }

/-- Mode of channel `i`. -/
def SeInst.mode (x : SeInst) (i : Nat) : Nat := Tbl.get x.modes i 0

/-- The path of a column (R208): the column and its ancestors, at most `fuel`. -/
def pathOf (t : Topo) (j : Nat) : Nat → List Nat
  | 0 => []
  | k + 1 =>
    let p := t.parent.getD j 0x3FFF
    j :: (if p = 0x3FFF then [] else pathOf t p k)

/-- The change set of requested channels (R217), ascending. -/
def changeSet (t : Topo) (chans : List Nat) : List Nat :=
  let starts := chans.filterMap fun i => (t.chans[i]?).map fun c => min c.a c.b
  let all := starts.flatMap fun j => pathOf t j t.buses.length
  (List.range t.buses.length).filter fun j => all.contains j

/-- Pool entries that shadow copies of columns take: a diagonal and the entries of L of each. -/
def poolNeed (t : Topo) (cs : List Nat) : Nat := (cs.map fun j => 1 + (t.rows.getD j []).length).foldl (· + ·) 0

/-- The registers that show instance `e` beside its counters. -/
def State.showSe (s : State) (e : Nat) : State :=
  let x := s.seI e
  let s := s.setReg (Reg.SE_POOL_FREE e) (s.rn (Reg.SE_POOL e) - x.used - x.retired)
  (s.setReg (Reg.SE_REFAC_STATE e) x.refac).setReg (Reg.SE_REQ_PEND e) x.reqs.length

/-- Instance `e` set, and shown. -/
def State.putSe (s : State) (e : Nat) (x : SeInst) : State := (s.setSe e x).showSe e

/-- The registers that hold instance `e`'s TOPOLOGY sizes. -/
def State.showTopo (s : State) (e : Nat) (t : Topo) : State :=
  (((s.setReg (Reg.SE_BUSES e) t.buses.length).setReg (Reg.SE_CHANS e) t.chans.length).setReg (Reg.SE_FACT_ENT e) t.fact).setReg
    (Reg.SE_POOL e) t.pool

/-! ## The solve (R212) -/

/-- The exact row of a channel times a state, at 60 fraction bits. -/
def ChRec.row (c : ChRec) (x : List Phasor) : Int × Int :=
  let p := cmulRaw c.ha (x.getD c.a ⟨0, 0⟩)
  let q := cmulRaw c.hb (x.getD c.b ⟨0, 0⟩)
  (p.1 + q.1, p.2 + q.2)

/-- A phasor extracted from an exact complex sum. -/
def extPh (v : Int × Int) : Phasor := ⟨ext30 v.1, ext30 v.2⟩

/-- The conjugate. -/
def phConj (p : Phasor) : Phasor := ⟨p.re, -p.im⟩

/-- Accumulator `k` of a list raised. -/
def addAt (acc : List (Int × Int)) (k : Nat) (v : Int × Int) : List (Int × Int) :=
  acc.modify k fun a => (a.1 + v.1, a.2 + v.2)

/-- Forward substitution: columns `j, …` of the factor with their rows. -/
def forwardSub (j : Nat) (acc : List (Int × Int)) : List (List Nat × SeCol) → List Phasor
  | [] => []
  | (rows, c) :: rest =>
    let y := extPh (acc.getD j (0, 0))
    let acc := (rows.zip c.l).foldl (fun a kl =>
      let p := cmulRaw kl.2 y
      addAt a kl.1 (-p.1, -p.2)) acc
    y :: forwardSub (j + 1) acc rest

/-- Back substitution: the scaled state from column `j` on. -/
def backSub (j : Nat) : List ((List Nat × SeCol) × Phasor) → List Phasor
  | [] => []
  | ((rows, c), y) :: rest =>
    let xs := backSub (j + 1) rest
    let acc := (rows.zip c.l).foldl (fun a kl =>
      let p := cmulRaw (phConj kl.2) (xs.getD (kl.1 - (j + 1)) ⟨0, 0⟩)
      (a.1 - p.1, a.2 - p.2)) (2 ^ 30 * y.re, 2 ^ 30 * y.im)
    extPh acc :: xs

/-- A right-hand side, at 60 fraction bits, solved through the factor. -/
def solveLDL (rows : List (List Nat)) (cols : List SeCol) (acc : List (Int × Int)) : List Phasor :=
  let rc := rows.zip cols
  let y := forwardSub 0 acc rc
  let y := (y.zip cols).map fun a => extPh (a.2.dinv * a.1.re, a.2.dinv * a.1.im)
  backSub 0 (rc.zip y)

/-- What an instant sees of a source: its loaded lanes and flags. -/
def viewOf (ls : List Loaded) (src : Nat) : Option Loaded := ls.find? fun l => l.src = src

/-- A source's flag lane has ABSENT, BAD or SKIP set; a source that no list loads counts as absent. -/
def flagged (v : Option Loaded) : Bool :=
  match v with
  | some l => l.absent || l.bad || l.skip
  | none => true

/-- A source shows OFFRATE. -/
def offrate (v : Option Loaded) : Bool := (v.map Loaded.offrate).getD false

/-- Raw status of a branch is open. -/
def SeInst.isOpen (x : SeInst) (br : Nat) : Bool := br ≠ 0xFFFF && (Tbl.get x.raw br (false, 0)).1

/-- A channel is unavailable other than by OFFRATE. -/
def SeInst.lacking (x : SeInst) (c : ChRec) (v : Option Loaded) : Bool :=
  x.isOpen c.branch || (!offrate v && (flagged v || (match v with
    | some l => fld l.payload.invalid c.lane 1 = 1
    | none => true)))

/-- Branch status of an instant (R215): read from its source, else held; consecutive open instants counted. -/
def SeInst.readBranches (x : SeInst) (t : Topo) (ls : List Loaded) : SeInst :=
  { x with raw := (List.range t.brs.length).foldl (fun m k =>
      match t.brs[k]? with
      | none => m
      | some b =>
        let old := Tbl.get m k (false, 0)
        let v := viewOf ls b.src
        let now := if !b.en then false
          else if flagged v || offrate v then old.1
          else match v with
            | some l => !((fld (l.payload.dg.getD b.dg 0) b.bit 1 = 1) = b.pol)
            | none => old.1
        Tbl.set m k (now, if now then min (old.2 + 1) 65535 else 0) (false, 0)) x.raw }

/-- The mean frequency F of an instant: its F-sources' FREQ lanes, one value each. -/
def meanFreq (ls : List Loaded) : Option Int :=
  let fs := ls.filter fun l => fld l.lanes 16 1 = 1 && !l.absent && !l.bad && !l.skip && !l.offrate && fld l.payload.invalid 16 1 = 0
  let srcs := (fs.map Loaded.src).eraseDups
  let vals := srcs.filterMap fun k => (fs.find? fun l => l.src = k).map fun l => l.payload.freq
  if vals = [] then none else some (divFix 0 0 (vals.foldl (· + ·) 0) vals.length).1

/-- The parameters of an instance, from windows where declared (R204): LAMBDA, ABS_PERSIST, RET_PERSIST, TOPO_PERSIST, REDUND_LIM. -/
def State.seParam (s : State) (e p : Nat) (image : Nat) : Nat := (s.window (0x5000 + 16 * e + p)).getD image

/-- The result of one instant's solve before the modes are judged. -/
structure Solve where
  f : Int
  cold : Bool
  x : List Phasor
  t : Tbl Int
  subst : List Nat
  corr : Option Nat
  more : Bool
  pred : List Nat
deriving DecidableEq, Repr

/-- Steps of R212 from prediction to correction, R213, for instance state `x` at instant `t0`; `lambda` is in force; `voids` are the
buses whose result is VOID; `f17` tells whether feature 17 is accepted. -/
def solveInstant (x : SeInst) (t : Topo) (ls : List Loaded) (t0 : Nat) (lambda : Int) (f17 : Bool) (voids : List Nat) : Solve :=
  let f := (meanFreq ls).getD x.f
  let dt : Option Int := match x.t0 with
    | some p => if (1000000000 : Int) < (t0 : Int) - p then none else some ((t0 : Int) - p)
    | none => none
  let dA := match dt with
    | some d => uNat 40 (rhe (f * d * 4096) 1000000000)
    | none => 0
  let xp := if dt.isNone then x.xprev else x.xprev.map fun p => rot p dA
  let ix := List.range t.chans.length
  let ch := fun i => t.chans[i]?
  let lacks := fun (c : ChRec) => x.lacking c (viewOf ls c.src) || offrate (viewOf ls c.src)
  let used := ix.filter fun i => x.mode i ≤ 1
  let subst := used.filter fun i => x.mode i = 1 || (match ch i with
    | some c => lacks c
    | none => true)
  let zs : List (Option Phasor) := ix.map fun i =>
    match ch i with
    | none => none
    | some c =>
      if 1 < x.mode i then none
      else if subst.contains i then some (extPh (c.row xp))
      else match viewOf ls c.src with
        | some l => let z := l.payload.ph.getD c.lane ⟨0, 0⟩; some (extPh (c.sc * z.re, c.sc * z.im))
        | none => none
  let z := fun i => zs.getD i none
  -- right-hand side, at 69 fraction bits, extracted once
  let acc0 : List (Int × Int) := t.buses.zipIdx.map fun bj =>
    if x.psw.contains bj.2 then
      let p := xp.getD bj.2 ⟨0, 0⟩
      ((bj.1.psw * 256 : Nat) * p.re, (bj.1.psw * 256 : Nat) * p.im)
    else (0, 0)
  let acc := ix.foldl (fun a i =>
    match ch i, z i with
    | some c, some v =>
      let p := cmulRaw (phConj c.ha) v
      let q := cmulRaw (phConj c.hb) v
      addAt (addAt a c.a (p.1 * 512, p.2 * 512)) c.b (q.1 * 512, q.2 * 512)
    | _, _ => a) acc0
  let r := acc.map fun a => (2 ^ 30 * sat39 (rhe a.1 (2 ^ 39)), 2 ^ 30 * sat39 (rhe a.2 (2 ^ 39)))
  let x0 := solveLDL t.rows x.cols r
  -- residuals
  let res : List (Nat × Phasor × Int) := ix.filterMap fun i =>
    match ch i, z i with
    | some c, some v =>
      let k2 := x.k2.getD i 0
      if x.mode i ≠ 0 || subst.contains i || k2 = 0 || voids.contains c.a || (c.current && voids.contains c.b) then none
      else
        let h := c.row x0
        let e := extPh (2 ^ 30 * v.re - h.1, 2 ^ 30 * v.im - h.2)
        some (i, e, ext30 (ext30 (e.re * e.re + e.im * e.im) * k2))
    | _, _ => none
  let p := ext30 (lambda * t.sigma)
  let t2 := ext30 (p * p)
  let above := res.filter fun a => t2 < a.2.2
  let best := res.foldl (fun (b : Option (Nat × Phasor × Int)) a => match b with
    | some c => if c.2.2 < a.2.2 then some a else some c
    | none => some a) none
  let tests : Tbl Int := res.foldl (fun m a => Tbl.set m a.1 a.2.2 0) []
  let fix := match best with
    | some k => if above = [] || !f17 then none else some k
    | none => none
  let x1 := match fix with
    | none => x0
    | some k =>
      match ch k.1 with
      | none => x0
      | some c =>
        let k2 := x.k2.getD k.1 0
        let v := fun (h : Phasor) =>
          let q := extPh (cmulRaw (phConj h) k.2.1)
          (2 ^ 30 * ext30 (k2 * q.re), 2 ^ 30 * ext30 (k2 * q.im))
        let va := addAt (t.buses.map fun _ => ((0, 0) : Int × Int)) c.a (v c.ha)
        let u := solveLDL t.rows x.cols (if c.current then addAt va c.b (v c.hb) else va)
        (x0.zip u).map fun (a : Phasor × Phasor) => ⟨sat39 (a.1.re - a.2.re), sat39 (a.1.im - a.2.im)⟩
  let nz := fun (q : Phasor) => !(q.re = 0 && q.im = 0)
  let held := ix.flatMap fun i =>
    match ch i with
    | some c => if x.mode i ≤ 1 && !subst.contains i then (if nz c.ha then [c.a] else []) ++ (if nz c.hb then [c.b] else []) else []
    | none => []
  let pred := (List.range t.buses.length).filter fun j => !held.contains j || voids.contains j || x.lone.contains j
  { f := f, cold := dt.isNone, t := tests, subst := subst, corr := fix.map Prod.fst, pred := pred
    x := x1.zipIdx.map fun (a : Phasor × Nat) => if voids.contains a.2 then xp.getD a.2 ⟨0, 0⟩ else a.1
    more := if fix.isSome then decide (1 < above.length) else !decide (above = []) }

/-! ## Channel modes (R214, R216) -/

/-- One channel judged after the correction pass: the instance, and the channel if it queues a request. -/
def SeInst.judgeOne (x : SeInst) (c : ChRec) (i : Nat) (v : Option Loaded) (corrected : Bool) (absP retP topoP : Nat) : SeInst :=
  let lack := x.lacking c v
  let off := offrate v && !x.isOpen c.branch
  let n := Tbl.get x.cnt i 0
  let set := fun (m k : Nat) (q : Bool) =>
    { x with modes := Tbl.set x.modes i m 0, cnt := Tbl.set x.cnt i (k % 256) 0, reqs := if q then x.reqs ++ [i] else x.reqs }
  match x.mode i with
  | 0 =>
    let topo := c.branch ≠ 0xFFFF && topoP ≤ (Tbl.get x.raw c.branch (false, 0)).2 && x.isOpen c.branch
    if topo then set 1 (n + 1) true
    else if off then x
    else if lack || corrected then (if absP ≤ n + 1 then set 1 (n + 1) true else set 0 (n + 1) false)
    else set 0 0 false
  | 2 =>
    if off then x
    else if lack then set 2 0 false
    else if retP ≤ n + 1 then set 3 (n + 1) true
    else set 2 (n + 1) false
  | _ => x

/-- Channels `i, …` judged. -/
def SeInst.judge (x : SeInst) (ls : List Loaded) (corr : Option Nat) (absP retP topoP i : Nat) : List ChRec → SeInst
  | [] => x
  | c :: t => (x.judgeOne c i (viewOf ls c.src) (corr = some i) absP retP topoP).judge ls corr absP retP topoP (i + 1) t

/-! ## Swap (R210, R218) -/

/-- Every channel USED with count zero, the request list cleared, branches unread (R214, R215). -/
def SeInst.freshModes (x : SeInst) : SeInst := { x with modes := [], cnt := [], reqs := [], raw := [] }

/-- Shadow copies made active. -/
def SeInst.swapCols (x : SeInst) : SeInst :=
  { x with
    cols := x.cols.zipIdx.map fun a => (Tbl.get x.shadow a.2 none).getD a.1
    shadow := [], k2 := x.k2S, psw := x.pswS, lone := x.loneS, retired := x.retired + x.used, used := 0, swapped := true, refac := 0 }

/-- The start of an engine instant of instance `e` at `t0`: a due swap takes effect. -/
def State.seStart (s : State) (e t0 : Nat) : State :=
  let x := s.seI e
  if x.refac = 2 then
    let y := x.swapCols
    let drop := x.taken.filter fun i => x.mode i = 1
    let back := x.taken.filter fun i => x.mode i = 3
    let y := { y with
      modes := back.foldl (fun m i => Tbl.set m i 0 0) (drop.foldl (fun m i => Tbl.set m i 2 0) y.modes)
      cnt := x.taken.foldl (fun m i => Tbl.set m i 0 0) y.cnt
      taken := [] }
    let s := s.setReg (Reg.SE_BANK e) (1 - s.rn (Reg.SE_BANK e))
    let s := (s.countBy (Reg.SE_DROP_CNT e) drop.length).countBy (Reg.SE_RESTORE_CNT e) back.length
    ((s.count (Reg.SE_SWAP_CNT e)).raise 50).putSe e y
  else if x.refac = 3 && x.imgA ≤ t0 then
    let s := s.setReg (Reg.SE_BANK e) (1 - s.rn (Reg.SE_BANK e))
    let s := match topoOf (s.patAt 6 t0) e with
      | some t => s.showTopo e t
      | none => s
    s.putSe e { x.swapCols.freshModes with begun := true }
  else s.putSe e { x with swapped := false }

/-! ## An instant decided (R212 to R222) -/

/-- Numbers of the flag word's bits summed. -/
def flagWord (bs : List Bool) : Nat := ((bs.zipIdx.map fun a => bitAt a.1 a.2).foldl (· + ·) 0)

/-- Instance `e` decides the instant `p` from the lanes its panels loaded. -/
def State.seDecide (s : State) (e : Nat) (p : Pending) (ls : List Loaded) (voids : List Nat) : State :=
  match topoOf (s.patAt 6 p.t0) e with
  | none => s
  | some t =>
    let lambda := sInt 40 (s.seParam e 0 (uNat 40 t.lambda))
    let absP := s.seParam e 1 t.absP
    let retP := s.seParam e 2 t.retP
    let topoP := s.seParam e 3 t.topoP
    let redund := s.seParam e 4 t.redund
    let x := (s.seI e).readBranches t ls
    let vs := (List.range t.buses.length).filter fun j => voids.contains j
    let r := solveInstant x t ls p.t0 lambda (s.feat 17) vs
    let v := (t.buses.zip r.x).map fun a => extPh (a.1.s * a.2.re, a.1.s * a.2.im)
    let pol := v.map vec
    let y := x.judge ls r.corr absP retP topoP 0 t.chans
    let queued := x.reqs.length < y.reqs.length
    let dropped := ((List.range t.chans.length).filter fun i => x.mode i = 2).length
    let low := redund * t.chans.length < (r.subst.length + dropped) * 1024
    let out : SeOut := { t0 := p.t0, v := v, mag := pol.map Prod.fst, ang := pol.map Prod.snd, pred := r.pred }
    let y := { y with
      xprev := r.x, f := r.f, t0 := some p.t0, outs := (out :: y.outs).take 8, t := r.t, subst := r.subst, corr := r.corr
      retired := 0, swapped := false }
    let before := s.rn (Reg.SE_LAST_FLAGS e)
    let flags := flagWord [r.corr.isSome, r.more, r.cold, !(y.reqs = []) || !(y.taken = []) || 2 ≤ y.refac, !(x.psw = []), x.swapped, low,
      p.tokens.any fun k => k.short, !(p.skipped = []), !(vs = []), queued, ls.any fun l => l.offrate]
    let s := s.putSe e y
    let s := (s.setReg (Reg.SE_LAST_FLAGS e) flags).setReg (Reg.SE_LAST_T0 e) (t80OfNs p.t0)
    let s := (s.setReg (Reg.SE_LAST_SUBST e) r.subst.length).setReg (Reg.SE_LAST_DROPPED e)
      ((List.range t.chans.length).filter fun i => y.mode i = 2).length
    let s := (s.setReg (Reg.SE_FMEAN e) (uNat 40 r.f)).count (Reg.SE_INST_CNT e)
    let s := (s.countBy (Reg.SE_SUBST_CNT e) r.subst.length).countBy (Reg.SE_VOID_CNT e) vs.length
    let s := match r.corr with
      | some k =>
        let rn := (divFix 0 30 (sqrtFix 0 30 (Tbl.get r.t k 0)).1 t.sigma).1
        ((((s.setReg (Reg.SE_BD_CHAN e) (2 ^ 31 + k)).setReg (Reg.SE_BD_RN e) (uNat 40 rn)).count (Reg.SE_CORR_CNT e)).raise 48)
      | none => s
    let s := if r.more then s.count (Reg.SE_BDMORE_CNT e) else s
    let s := if r.cold then s.count (Reg.SE_COLD_CNT e) else s
    let s := if low then s.count (Reg.SE_LOWRED_CNT e) else s
    let s := if queued then s.raise 49 else s
    if [2, 4, 6].any fun k => fld flags k 1 = 1 && fld before k 1 = 0 then s.raise 51 else s

/-- The estimate of instance `e` at `t0`. -/
def State.estimate (s : State) (e t0 : Nat) : Option SeOut := (s.seI e).outs.find? fun o => o.t0 = t0

/-! ## Refactorisation (R217 to R220) -/

/-- A rounding error of at most one LSB: the spec gives no rounding of a refactorisation's steps, so it is free. -/
def refacErr (which : Nat) (v : Int) : Int := ((Config.refacErr which v).toNat % 3 : Nat) - 1

/-- The value a refactorisation stores for an exact result. -/
def refacVal (which : Nat) (v : Int) : Int := sat39 (v + refacErr which v)

/-- The TOPOLOGY that instance `e` works by: a pending image's once its swap has taken effect (R218). -/
def State.seTopo (s : State) (e : Nat) : Option Topo :=
  topoOf (if (s.seI e).begun && s.bit Reg.FEAT_IMG_PEND 6 then Tbl.get s.img.idle 6 [] else s.pat 6) e

/-- Element (j, k) of G' from the channels in the factor, with 96 fraction bits. -/
def gainAt (t : Topo) (inF : Nat → Bool) (j k : Nat) : Int × Int :=
  t.chans.zipIdx.foldl (fun a ci =>
    if !inF ci.2 then a
    else
      let c := ci.1
      let at_ := fun (n : Nat) => (⟨(if c.a = n then c.ha.re else 0) + (if c.current && c.b = n then c.hb.re else 0),
        (if c.a = n then c.ha.im else 0) + (if c.current && c.b = n then c.hb.im else 0)⟩ : Phasor)
      let p := cmulRaw (phConj (at_ j)) (at_ k)
      (a.1 + 2 ^ 36 * p.1, a.2 + 2 ^ 36 * p.2)) (0, 0)

/-- Entry (k, j) of a factor. -/
def entryAt (rows : List (List Nat)) (cols : List SeCol) (k j : Nat) : Phasor :=
  match (rows.getD j []).idxOf? k with
  | some i => (cols.getD j {}).l.getD i ⟨0, 0⟩
  | none => ⟨0, 0⟩

/-- The sum over earlier columns of L[k][m] · D[m] · conj(L[j][m]), with 96 fraction bits. -/
def leftSum (rows : List (List Nat)) (cols : List SeCol) (k j : Nat) : Int × Int :=
  (List.range j).foldl (fun a m =>
    let d := (cols.getD m {}).dinv
    if d ≤ 0 then a
    else
      let p := cmulRaw (entryAt rows cols k m) (phConj (entryAt rows cols j m))
      (a.1 + 2 ^ 66 * p.1 / d, a.2 + 2 ^ 66 * p.2 / d)) (0, 0)

/-- The exact D of column `j` without its pseudo weight, with 96 fraction bits. -/
def bareD (t : Topo) (inF : Nat → Bool) (cols : List SeCol) (j : Nat) : Int := (gainAt t inF j j).1 - (leftSum t.rows cols j j).1

/-- PSW of bus `j`. -/
def Topo.psw (t : Topo) (j : Nat) : Nat := ((t.buses[j]?).map BusRec.psw).getD 0

/-- One column of the change set recomputed (R217 steps 2 and 3): the columns, the buses with a pseudo weight, and changes of those. -/
def refacCol (t : Topo) (inF : Nat → Bool) (st : List SeCol × List Nat × Nat) (j : Nat) : List SeCol × List Nat × Nat :=
  let (cols, psw, n) := st
  let w : Int := (2 ^ 57 * (t.psw j * 256) : Nat)
  let bare := bareD t inF cols j
  let need := decide (bare < 2 ^ 87) && w ≠ 0
  let psw' := if need then (if psw.contains j then psw else psw ++ [j]) else psw.erase j
  let n' := if psw'.contains j = psw.contains j then n else n + 1
  let d := if psw'.contains j then bare + w else bare
  let dinv := if d < 2 ^ 87 then 512 * 2 ^ 30 else refacVal 0 (rnd 0 (2 ^ 126) d.toNat)
  let div := fun (v : Int) => if d ≤ 0 then (divFix 0 0 v 0).1 else sat39 (rhe (2 ^ 30 * v) d.toNat)
  let l := (t.rows.getD j []).map fun k =>
    let g := gainAt t inF k j
    let u := leftSum t.rows cols k j
    (⟨refacVal 1 (div (g.1 - u.1)), refacVal 2 (div (g.2 - u.2))⟩ : Phasor)
  (cols.set j { dinv := dinv, l := l }, psw', n')

/-- A vector with 60 fraction bits solved through a factor. -/
def solveHi (rows : List (List Nat)) (cols : List SeCol) (v : List (Int × Int)) : List (Int × Int) :=
  let n := rows.length
  let fwd := (List.range n).foldl (fun (a : List (Int × Int)) j =>
    let y := a.getD j (0, 0)
    ((rows.getD j []).zip (cols.getD j {}).l).foldl (fun a kl =>
      addAt a kl.1 (-((kl.2.re * y.1 - kl.2.im * y.2) / 2 ^ 30), -((kl.2.re * y.2 + kl.2.im * y.1) / 2 ^ 30))) a) v
  let sc := fwd.zipIdx.map fun a => (a.1.1 * (cols.getD a.2 {}).dinv / 2 ^ 30, a.1.2 * (cols.getD a.2 {}).dinv / 2 ^ 30)
  (List.range n).reverse.foldl (fun (a : List (Int × Int)) j =>
    ((rows.getD j []).zip (cols.getD j {}).l).foldl (fun a kl =>
      let x := a.getD kl.1 (0, 0)
      addAt a j (-((kl.2.re * x.1 + kl.2.im * x.2) / 2 ^ 30), -((kl.2.re * x.2 - kl.2.im * x.1) / 2 ^ 30))) a) sc

/-- κ² of a channel from a factor (R202): 0 where it is critical. -/
def kappa2 (t : Topo) (cols : List SeCol) (c : ChRec) : Int :=
  let v0 := addAt (t.buses.map fun _ => ((0, 0) : Int × Int)) c.a (2 ^ 30 * c.ha.re, 2 ^ 30 * -c.ha.im)
  let v := if c.current then addAt v0 c.b (2 ^ 30 * c.hb.re, 2 ^ 30 * -c.hb.im) else v0
  let u := solveHi t.rows cols v
  let dot := fun (h : Phasor) (j : Nat) => let x := u.getD j (0, 0); (h.re * x.1 - h.im * x.2) / 2 ^ 30
  let rest := 2 ^ 60 - dot c.ha c.a - (if c.current then dot c.hb c.b else 0)
  let rest := rest + 2 ^ 30 * refacErr 4 rest
  if rest < 2 ^ 51 then 0 else refacVal 3 (rhe (2 ^ 90) rest.toNat)

/-- The longest prefix of the requests, at most `fuel`, whose change set fits `free`. -/
def takePrefix (t : Topo) (free : Nat) (reqs : List Nat) : Nat → List Nat
  | 0 => []
  | n + 1 => if poolNeed t (changeSet t (reqs.take (n + 1))) ≤ free then reqs.take (n + 1) else takePrefix t free reqs n

/-- Instance `e` can refactorise (R220). -/
def State.canRefac (s : State) (e : Nat) : Bool :=
  s.feat 18 && (List.range 16).any fun p => s.role p = 6 && s.pnlInst p = e

/-- A write of SE_REFAC_CTRL (R217, R218). -/
def refacGo (e : Nat) (w : Word) (s : State) : State :=
  let x := s.seI e
  match s.seTopo e with
  | none => s
  | some t =>
    if !w.getLsbD 0 || !s.img.inForce then s
    else if x.refac ≠ 0 || x.reqs = [] || !s.canRefac e then s.count (Reg.SE_REJ_CNT e)
    else
      let take := takePrefix t (t.pool - x.used - x.retired) x.reqs x.reqs.length
      let cs := changeSet t take
      let s := if take.length < x.reqs.length then s.count (Reg.SE_SPLIT_CNT e) else s
      let s := (s.setReg (Reg.SE_REFAC_TAKEN e) take.length).setReg (Reg.SE_REFAC_COLS e) cs.length
      s.putSe e { x with taken := take, reqs := x.reqs.drop take.length, refac := 1, goAt := s.time.ticks, used := x.used + poolNeed t cs }

/-- REFAC_GO. -/
def execRefacGo (who : Party) (inst : Fin 4) (w : Word) (s : State) : Host.Outcome State Fault Refusal :=
  live (written who (Reg.SE_REFAC_CTRL inst.val) w (refacGo inst.val w)) s

/-- The computation of a refactorisation ends (R217 steps 2 to 6). -/
def refacReady (e : Nat) (s : State) : State :=
  let x := s.seI e
  match s.seTopo e with
  | none => s
  | some t =>
    if x.refac ≠ 1 || !s.measuring then s
    else
      let inF := fun i => if x.taken.contains i then decide (x.mode i = 3) else decide (x.mode i ≤ 1)
      let cs := changeSet t x.taken
      let r := cs.foldl (refacCol t inF) (x.cols, x.psw, 0)
      let s := s.countBy (Reg.SE_PSEUDO_CNT e) r.2.2
      let s := s.setReg (Reg.SE_REFAC_LAST e) ((s.time.ticks - x.goAt) / 250)
      let y := { x with
        shadow := cs.foldl (fun m j => Tbl.set m j (some (r.1.getD j {})) none) [], pswS := r.2.1
        loneS := x.lone.filter (fun j => !cs.contains j) ++ cs.filter fun j => t.psw j = 0 && decide (bareD t inF r.1 j < 2 ^ 87)
        k2S := t.chans.map (kappa2 t r.1), refac := 2 }
      (s.putSe e y).pushNote (.refac e)

/-- REFAC_READY. -/
def execRefacReady (inst : Fin 4) (s : State) : Host.Outcome State Fault Refusal := live (refacReady inst.val) s

/-! ## Image and reset (R211, R214, R218, R219) -/

/-- The estimator's part of a full image applied. -/
def State.applySe (s : State) : State :=
  let tb := s.pat 6
  ((topoSecs tb 16 (wf tb 0 0 3)).foldl (fun s et =>
    let e := et.1
    let t := et.2
    let f := (factOf tb (s.pat 7) e).getD ([], [])
    let psw := (List.range t.buses.length).filter fun j => ((t.buses[j]?).map BusRec.use).getD false
    let x : SeInst := {
      cols := (List.range t.buses.length).map fun j => (f.1.lookup j).getD {}
      k2 := f.2, k2S := f.2, psw := psw, pswS := psw, xprev := t.buses.map BusRec.x0 }
    ((s.showTopo e t).setReg (Reg.SE_BANK e) 0).putSe e x) { s with se := [] })

/-- A partial image that carries TOPOLOGY and FACTOR and activates at `a` has passed every check (R218): its columns and κ² tables enter the
pools, beside columns that an earlier image left there. -/
def State.acceptSe (s : State) (tb fb : List Byte) (a : Nat) : State :=
  (topoSecs tb 16 (wf tb 0 0 3)).foldl (fun s et =>
    let e := et.1
    let x := s.seI e
    let f := (factOf tb fb e).getD ([], [])
    let s := if x.refac = 1 || x.refac = 2 then s.count (Reg.SE_ABORT_CNT e) else s
    let sh := f.1.foldl (fun m c => Tbl.set m c.1 (some c.2) none) (if x.refac = 3 then x.shadow else [])
    -- requests a refactorisation had taken are requests again
    s.putSe e { x with
      shadow := sh, k2S := f.2, pswS := x.psw, loneS := x.lone.filter fun j => !(f.1.map Prod.fst).contains j, refac := 3, imgA := a
      begun := false, reqs := x.taken ++ x.reqs, taken := [], used := poolNeed et.2 (sh.map Prod.fst) }) s

/-- A WDT, SOFT or LINK reset (R214, R218). -/
def State.resetSe (s : State) : State :=
  s.se.foldl (fun (s : State) (ex : Nat × SeInst) =>
    let x := ex.2
    let back := fun (m : Nat) => if m = 1 then 0 else if m = 3 then 2 else m
    let x : SeInst := { x with
      modes := x.modes.foldl (fun t im => Tbl.set t im.1 (back im.2) 0) []
      cnt := x.cnt.foldl (fun t ic => Tbl.set t ic.1 (if x.mode ic.1 = 1 || x.mode ic.1 = 3 then 0 else ic.2) 0) []
      reqs := [], taken := [], retired := 0, swapped := false, outs := [], t := [], subst := [], corr := none, busSnap := [], chanSnap := [] }
    s.putSe ex.1 (if x.refac = 3 then x else { x with refac := 0, shadow := [], used := 0 })) s

/-! ## Snapshots (R224) -/

/-- A write of SE_BUS_SEL. -/
def seBusSel (e : Nat) (w : Word) (s : State) : State :=
  let x := s.seI e
  let j := fld w.toNat 0 14
  if s.rn (Reg.SE_BUSES e) ≤ j then s
  else
    let o := x.outs.head?
    let v := (o.map fun o => o.v.getD j ⟨0, 0⟩).getD ⟨0, 0⟩
    let snap := [
      (Reg.SE_BUS_RE e, uNat 40 v.re), (Reg.SE_BUS_IM e, uNat 40 v.im)
      , (Reg.SE_BUS_MAG e, uNat 40 ((o.map fun o => o.mag.getD j 0).getD 0)), (Reg.SE_BUS_ANG e, (o.map fun o => o.ang.getD j 0).getD 0)
      , (Reg.SE_BUS_STAT e, 1 + bitAt ((o.map fun o => o.pred.contains j).getD false) 1 + bitAt (x.psw.contains j) 2)]
    (s.setSe e { x with busSnap := snap }).setReg (Reg.SE_BUS_STAT e) 0

/-- SE_BUS_SEL. -/
def execSeBusSel (who : Party) (inst : Fin 4) (w : Word) (s : State) : Host.Outcome State Fault Refusal :=
  live (written who (Reg.SE_BUS_SEL inst.val) w (seBusSel inst.val w)) s

/-- Registers written from a list of offsets and values. -/
def State.setRegs (s : State) (l : List (Nat × Nat)) : State := l.foldl (fun s a => s.setReg a.1 a.2) s

/-- A bus snapshot completes. -/
def seBusReady (e : Nat) (s : State) : State :=
  let x := s.seI e
  (s.setSe e { x with busSnap := [] }).setRegs x.busSnap

/-- SE_BUS_READY. -/
def execSeBusReady (inst : Fin 4) (s : State) : Host.Outcome State Fault Refusal := live (seBusReady inst.val) s

/-- A write of SE_CHAN_SEL. -/
def seChanSel (e : Nat) (w : Word) (s : State) : State :=
  let x := s.seI e
  let i := fld w.toNat 0 17
  if s.rn (Reg.SE_CHANS e) ≤ i then s
  else
    let k2 := x.k2.getD i 0
    let snap := [
      (Reg.SE_CHAN_T e, uNat 40 (Tbl.get x.t i 0)), (Reg.SE_CHAN_K2 e, uNat 40 k2)
      , (Reg.SE_CHAN_STAT e, 1 + x.mode i * 2 + bitAt (x.subst.contains i) 3 + bitAt (x.corr = some i) 4 + bitAt (k2 = 0) 5 +
          Tbl.get x.cnt i 0 * 256)]
    (s.setSe e { x with chanSnap := snap }).setReg (Reg.SE_CHAN_STAT e) 0

/-- SE_CHAN_SEL. -/
def execSeChanSel (who : Party) (inst : Fin 4) (w : Word) (s : State) : Host.Outcome State Fault Refusal :=
  live (written who (Reg.SE_CHAN_SEL inst.val) w (seChanSel inst.val w)) s

/-- A channel snapshot completes. -/
def seChanReady (e : Nat) (s : State) : State :=
  let x := s.seI e
  (s.setSe e { x with chanSnap := [] }).setRegs x.chanSnap

/-- SE_CHAN_READY. -/
def execSeChanReady (inst : Fin 4) (s : State) : Host.Outcome State Fault Refusal := live (seChanReady inst.val) s

end Sys2Proof.Machine
end

