-- ==== Sys2Proof/Machine/Floe.lean ====
section
/-! DEFINITION. The floe engine (R226 to R238). -/
namespace Sys2Proof.Machine
open Sys2Proof

/-! ## Shared by the engines -/

/-- The instant at `t0` is the first on a new bank of pattern `t`, or the first after a full image load (R37). -/
def State.firstOn (s : State) (t t0 : Nat) (fresh : Bool) (act : Option Nat) : Bool :=
  fresh || (s.pend && s.actNs ≤ t0 && s.bit Reg.FEAT_IMG_PEND t && act ≠ some s.actNs)

/-- The activation an instance has begun, after an instant at `t0`. -/
def State.begunAct (s : State) (t0 : Nat) (act : Option Nat) : Option Nat := if s.pend && s.actNs ≤ t0 then some s.actNs else act

/-- The value of a window on a target, or the image's. -/
def State.winOr (s : State) (target image : Nat) : Nat := (s.window target).getD image

/-- Two panels consume the same groups. -/
def State.sameMask (s : State) (p q : Nat) : Bool := (List.range 8).all fun i => pnlWord (s.pat 1) p (1 + i) = pnlWord (s.pat 1) q (1 + i)

/-- The estimator instance paired with panel `p`'s instance (R226): that with an equal GRPMASK. -/
def State.pairedSe (s : State) (p : Nat) : Option Nat :=
  ((List.range 16).find? fun q => s.role q = 1 && s.sameMask p q).map s.pnlInst

/-! ## The COHERENCE pattern (R227, R228) -/

/-- A section of COHERENCE: its header words, limit sets (DF_MAX, SLIP_MAX), nodes (FSRC, BUS) and edges (A, B, LSET, NOSLIP). -/
structure Coh where
  refs : List Nat
  split : Nat
  join : Nat
  hold : Nat
  minNodes : Nat
  islCls : Nat
  refCls : Nat
  sets : List (Int × Int)
  nodes : List (Nat × Nat)
  edges : List (Nat × Nat × Nat × Bool)
deriving DecidableEq, Repr

/-- The section at byte `o`, and the byte after it. -/
def cohAt (b : List Byte) (o : Nat) : Coh × Nat :=
  let w := fun i => numAt b (o + 4 * i) 4
  let ls := fld (w 0) 2 5
  let n := fld (w 1) 0 15
  let m := fld (w 2) 0 17
  let ns := o + 64 + 16 * ls
  let es := ns + 8 * n
  ({ refs := [fld (w 3) 0 14, fld (w 3) 16 14, fld (w 4) 0 14, fld (w 4) 16 14], split := fld (w 5) 0 8, join := fld (w 5) 8 8
     hold := fld (w 5) 16 8, minNodes := fld (w 6) 0 15, islCls := fld (w 7) 0 8, refCls := fld (w 7) 8 8
     sets := (List.range ls).map fun k => (p40At b (o + 64 + 16 * k), p40At b (o + 72 + 16 * k))
     nodes := (List.range n).map fun k => (fld (numAt b (ns + 8 * k) 4) 0 14, fld (numAt b (ns + 8 * k) 4) 16 14)
     edges := (List.range m).map fun k =>
       let a := numAt b (es + 8 * k) 4
       let c := numAt b (es + 8 * k + 4) 4
       (fld a 0 14, fld a 16 14, fld c 0 4, fld c 4 1 = 1) }, es + 8 * m)

/-- The sections from byte `o`, by INST. -/
def cohSecs (b : List Byte) (o : Nat) : Nat → List (Nat × Coh)
  | 0 => []
  | k + 1 =>
    let r := cohAt b o
    (fld (numAt b o 4) 0 2, r.1) :: cohSecs b r.2 k

/-- The section of instance `e`. -/
def cohOf (b : List Byte) (e : Nat) : Option Coh := (cohSecs b 16 (wf b 0 0 3)).lookup e

/-- The section with its windows' values in force (R229). -/
def State.cohInForce (s : State) (e : Nat) (c : Coh) : Coh :=
  let t := 0x5800 + 64 * e
  { c with
    split := s.winOr t c.split, join := s.winOr (t + 1) c.join, hold := s.winOr (t + 2) c.hold, minNodes := s.winOr (t + 3) c.minNodes
    sets := c.sets.zipIdx.map fun (a : (Int × Int) × Nat) =>
      (sInt 40 (s.winOr (t + 16 + 2 * a.2) (uNat 40 a.1.1)), sInt 40 (s.winOr (t + 17 + 2 * a.2) (uNat 40 a.1.2))) }

/-! ## Judging edges (R230, R231) -/

/-- What an instant sees of the nodes: FREQ, lit, rate-dark and angle of each. -/
structure NodeView where
  freq : Int
  lit : Bool
  rate : Bool
  ang : Nat
deriving DecidableEq, Repr

/-- The view of a node. -/
def nodeView (ls : List Loaded) (est : SeOut) (n : Nat × Nat) : NodeView :=
  let v := viewOf ls n.1
  let bad := flagged v || est.pred.contains n.2
  let off := offrate v
  let inv := (v.map fun l => decide (fld l.payload.invalid 16 1 = 1)).getD true
  { freq := (v.map fun l => l.payload.freq).getD 0, ang := est.ang.getD n.2 0
    lit := !bad && !off && !inv, rate := off && !bad }

/-- What judging the edges gives: the edges, their bonds in this instant in order, and counts of held bonds, expiries and frequency-only
judgements. -/
structure EdgeSum where
  edges : Tbl FloeEdge
  bonds : List Bool := []
  held : Nat := 0
  expired : Nat := 0
  slipskip : Nat := 0
deriving DecidableEq, Repr

/-- One edge judged. -/
def judgeEdge (c : Coh) (vs : List NodeView) (lims : List Int) (cold : Bool) (litPrev : List Nat) (r : EdgeSum)
    (k : Nat) (e : Nat × Nat × Nat × Bool) : EdgeSum :=
  let x := Tbl.get r.edges k {}
  let a := vs.getD e.1 ⟨0, false, false, 0⟩
  let b := vs.getD e.2.1 ⟨0, false, false, 0⟩
  let put := fun (y : FloeEdge) => Tbl.set r.edges k y {}
  let set := c.sets.getD e.2.2.1 (0, 0)
  if a.lit && b.lit then
    let th := uNat 40 ((a.ang : Int) - b.ang)
    let freqOk := decide (((a.freq - b.freq).natAbs : Int) ≤ set.1)
    if !cold && !e.2.2.2 && litPrev.contains e.1 && litPrev.contains e.2.1 then
      let d := sInt 40 (uNat 40 ((th : Int) - x.th))
      let bond := freqOk && decide ((d.natAbs : Int) ≤ lims.getD e.2.2.1 0)
      { r with edges := put { bond := bond, hold := 0, th := th }, bonds := r.bonds ++ [bond] }
    else { r with
      edges := put { bond := freqOk, hold := 0, th := th }, bonds := r.bonds ++ [freqOk], slipskip := if e.2.2.2 then r.slipskip else r.slipskip + 1 }
  else if (!a.lit && !a.rate) || (!b.lit && !b.rate) then
    if x.hold < c.hold then { r with edges := put { x with hold := x.hold + 1 }, bonds := r.bonds ++ [x.bond], held := r.held + 1 }
    else if x.hold = c.hold then
      { r with edges := put { x with hold := x.hold + 1 }, bonds := r.bonds ++ [false], expired := r.expired + 1 }
    else { r with bonds := r.bonds ++ [false] }
  else { r with bonds := r.bonds ++ [x.bond] }

/-- Edges `k, …` judged. -/
def judgeEdges (c : Coh) (vs : List NodeView) (lims : List Int) (cold : Bool) (litPrev : List Nat) (r : EdgeSum) (k : Nat) :
    List (Nat × Nat × Nat × Bool) → EdgeSum
  | [] => r
  | e :: t => judgeEdges c vs lims cold litPrev (judgeEdge c vs lims cold litPrev r k e) (k + 1) t

/-! ## Floes (R232, R233) -/

/-- Labels after an edge joins its ends: the higher label gives way to the lower. -/
def joinLabels (l : List Nat) (a b : Nat) : List Nat :=
  let x := l.getD a a
  let y := l.getD b b
  l.map fun z => if z = max x y then min x y else z

/-- The label of each node: the lowest node of its floe. -/
def floeLabels (n : Nat) (es : List (Nat × Nat)) : List Nat := es.foldl (fun l e => joinLabels l e.1 e.2) (List.range n)

/-- Lit nodes of a floe. -/
def floeSize (labels : List Nat) (vs : List NodeView) (l : Nat) : Nat :=
  ((labels.zip vs).filter fun a => a.1 = l && a.2.lit).length

/-- The label of largest size among candidates, the lowest on equal sizes. -/
def largestFloe (labels : List Nat) (vs : List NodeView) (cands : List Nat) : Option Nat :=
  cands.foldl (fun b l => match b with
    | none => some l
    | some m => if floeSize labels vs m < floeSize labels vs l then some l else some m) none

/-! ## Node states (R234) -/

/-- A lit node's state and count after an instant in the main floe or out of it, and whether it left IN or returned to it. -/
def nodeMove (split join : Nat) (st : Nat × Nat) (isIn : Bool) : (Nat × Nat) × Bool × Bool :=
  match st.1, isIn with
  | 0, true => ((0, 0), false, false)
  | 0, false => (if split = 1 then (2, 0) else (1, 1), true, false)
  | 1, false => (if st.2 + 1 = split then (2, 0) else (1, (st.2 + 1) % 256), false, false)
  | 1, true => ((0, 0), false, false)
  | 2, false => ((2, 0), false, false)
  | 2, true => if join = 1 then ((0, 0), false, true) else ((3, 1), false, false)
  | _, true => if st.2 + 1 = join then ((0, 0), false, true) else ((3, (st.2 + 1) % 256), false, false)
  | _, false => ((2, 0), false, false)

/-- Nodes `n, …` moved: the states, and whether some node left IN and some returned. -/
def moveNodes (split join main : Nat) (m : Tbl (Nat × Nat)) (n : Nat) : List (Nat × NodeView) → Tbl (Nat × Nat) × Bool × Bool
  | [] => (m, false, false)
  | (label, v) :: t =>
    if v.lit then
      let r := nodeMove split join (Tbl.get m n (0, 0)) (label = main)
      let q := moveNodes split join main (Tbl.set m n r.1 (0, 0)) (n + 1) t
      (q.1, q.2.1 || r.2.1, q.2.2 || r.2.2)
    else moveNodes split join main m (n + 1) t

/-! ## An instant decided (R231 to R236) -/

/-- Floe instance `e`. -/
def State.floeI (s : State) (e : Nat) : FloeInst := Tbl.get s.floe e {}

/-- Floe instance `e` set. -/
def State.setFloe (s : State) (e : Nat) (x : FloeInst) : State := { s with floe := Tbl.set s.floe e x {} }

/-- A condition's entry sent, with its event and, at an assertion, its counter. -/
def State.floeEntry (s : State) (e cond act cls t0 value label : Nat) (reset : Bool) : State :=
  let s := s.pushAlarm { role := 2, kind := 1, inst := e, act := act, reset := reset, cls := cls, cond := cond, t0 := t0, valA := value, valB := label }
  let s := if act = 0 then s.count (if cond = 0 then Reg.FLOE_ISLAND_CNT e else if cond = 1 then Reg.FLOE_REFMIN_CNT e else Reg.FLOE_REFLOST_CNT e)
    else s
  s.raise (if cond = 0 then 53 else 54)

/-- Condition `cond` judged: asserted where `on`, released where `off`; entries carry `cls`. -/
def State.floeCond (s : State) (e cond cls t0 value label : Nat) (on off update : Bool) : State :=
  let x := s.floeI e
  match x.conds.lookup cond with
  | none =>
    if on then (s.setFloe e { x with conds := x.conds ++ [(cond, cls)] }).floeEntry e cond 0 cls t0 value label false else s
  | some _ =>
    if off then (s.setFloe e { x with conds := x.conds.filter fun c => c.1 ≠ cond }).floeEntry e cond 1 cls t0 value label false
    else if update then s.floeEntry e cond 2 cls t0 value label false
    else s

/-- Floe table entries `k, …` written (R236). -/
def State.floeTable (s : State) (e k : Nat) (rows : List (Nat × Nat × Nat × Nat)) : State :=
  match rows with
  | [] => s
  | (label, size, isl, dark) :: t =>
    if k < 64 then
      ((s.setReg (Reg.FLOE_TAB_LABEL e k) (label + 65536 * (size % 2 ^ 14))).setReg (Reg.FLOE_TAB_NODES e k) (isl + 65536 * dark)).floeTable e
        (k + 1) t
    else s

/-- FLOE_NODES and FLOE_EDGES show the sections of a COHERENCE body (R247). -/
def State.showFloe (s : State) (b : List Byte) : State :=
  (cohSecs b 16 (wf b 0 0 3)).foldl (fun s ec => (s.setReg (Reg.FLOE_NODES ec.1) ec.2.nodes.length).setReg (Reg.FLOE_EDGES ec.1) ec.2.edges.length)
    s

/-- Floe instance `e` decides instant `t0` from its loaded lanes and its estimator's handover. -/
def State.floeDecide (s : State) (e t0 : Nat) (ls : List Loaded) (est : SeOut) : State :=
  match cohOf (s.patAt 8 t0) e with
  | none => s
  | some c0 =>
    let c := s.cohInForce e c0
    let x := s.floeI e
    let first := s.firstOn 8 t0 x.fresh x.act
    let old := x.conds
    let x : FloeInst := if first then { fresh := false, act := s.begunAct t0 x.act } else { x with fresh := false }
    let vs := c.nodes.map (nodeView ls est)
    let n := c.nodes.length
    let dt : Option Int := match x.t0 with
      | some q => if (1000000000 : Int) < (t0 : Int) - q then none else some ((t0 : Int) - q)
      | none => none
    let lims := c.sets.map fun (a : Int × Int) => rhe (a.2 * dt.getD 0 * 4096) 1000000000
    let js := judgeEdges c vs lims dt.isNone x.lit { edges := x.edges } 0 c.edges
    let bonded := ((c.edges.zip js.bonds).filter fun a => a.2).map fun a => (a.1.1, a.1.2.1)
    let labels := floeLabels n bonded
    let roots := (List.range n).filter fun k => labels.getD k k = k
    let litN := fun k => (vs.getD k ⟨0, false, false, 0⟩).lit
    let ref := c.refs.zipIdx.find? fun a => (a.2 = 0 || a.1 ≠ 0x3FFF) && litN a.1
    let main := match ref with
      | some r => labels.getD r.1 r.1
      | none => (largestFloe labels vs roots).getD 0
    let size := floeSize labels vs
    let others := roots.filter fun l => l ≠ main && 0 < size l
    let minor := ref.isSome && others.any fun l => size main < size l
    let free := (s.draw 32).toNat
    let s := s.drawn
    let big := (largestFloe labels vs others).getD (free % 2 ^ 14)
    let mv := moveNodes c.split c.join main x.nodes 0 (labels.zip vs)
    let st := fun k => (Tbl.get mv.1 k (0, 0)).1
    let nIsl := ((List.range n).filter fun k => litN k && 2 ≤ st k).length
    let isl := roots.filter fun l => (List.range n).any fun k => labels.getD k k = l && 2 ≤ st k
    let minHeld := if minor then min 256 (x.minHeld + 1) else 0
    let minGone := if minor then 0 else min 256 (x.minGone + 1)
    let x : FloeInst := { x with
      edges := js.edges, nodes := mv.1, t0 := some t0, lit := (List.range n).filter fun k => litN k, minHeld := minHeld, minGone := minGone
      labels := isl }
    let before := (s.floeI e).labels
    let s := if first then (s.clearRegs (Reg.FLOE_NODE e n) (Reg.FLOE_NODE e 16384)).showFloe (s.patAt 8 t0) else s
    let s := s.setFloe e x
    -- entries (R235): REF_LOST, REF_MINOR, ISLAND, of each first the release of the old content
    let value := fun cond => if cond = 0 then nIsl else size main
    let cleared := fun cond (s : State) => match first, old.lookup cond with
        | true, some cls => s.floeEntry e cond 1 cls t0 (value cond) big true
        | _, _ => s
    let s := (cleared 2 s).floeCond e 2 c.refCls t0 (size main) big ref.isNone ref.isSome false
    let s := (cleared 1 s).floeCond e 1 c.refCls t0 (size main) big (c.split ≤ minHeld) (c.join ≤ minGone) false
    let s := (cleared 0 s).floeCond e 0 c.islCls t0 nIsl big (c.minNodes ≤ nIsl) (nIsl < c.minNodes) (before ≠ isl)
    let s := s.pushAlarm { role := 2, kind := 0, inst := e, t0 := t0 }
    -- registers (R236, R247)
    let cond := fun (s : State) k => ((s.floeI e).conds.lookup k).isSome
    let flags := flagWord [mv.2.1, mv.2.2, cond s 0, cond s 1, ref.isNone, dt.isNone, 0 < js.held, 0 < js.expired, 0 < js.slipskip]
    let s := s.setReg (Reg.FLOE_REF e) (match ref with
      | some r => r.1 + 2 ^ 14 * r.2
      | none => 2 ^ 16 + free / 2 ^ 16)
    let s := (s.setReg (Reg.FLOE_LAST_FLAGS e) flags).setReg (Reg.FLOE_LAST_T0 e) (t80OfNs t0)
    let s := (s.setReg (Reg.FLOE_FLOES e) (roots.filter fun l => 0 < size l).length).setReg (Reg.FLOE_MAIN_SIZE e) (size main)
    let s := (s.setReg (Reg.FLOE_MAIN_LABEL e) main).setReg (Reg.FLOE_ISL_NODES e) nIsl
    let s := s.setReg (Reg.FLOE_OUT_NODES e) ((List.range n).filter fun k => litN k && st k = 1).length
    let s := (s.setReg (Reg.FLOE_DARK_NODES e) ((List.range n).filter fun k => !litN k).length).setReg (Reg.FLOE_UNBOND e)
      (c.edges.length - bonded.length)
    let s := (s.setReg (Reg.FLOE_HELD e) js.held).setReg (Reg.FLOE_COND e) (flagWord [cond s 0, cond s 1, cond s 2])
    let s := s.count (Reg.FLOE_INST_CNT e)
    let s := if mv.2.1 then (s.count (Reg.FLOE_SPLIT_CNT e)).raise 52 else s
    let s := if mv.2.2 then s.count (Reg.FLOE_JOIN_CNT e) else s
    let s := if dt.isNone then s.count (Reg.FLOE_COLD_CNT e) else s
    let s := (s.countBy (Reg.FLOE_HOLDEXP_CNT e) js.expired).countBy (Reg.FLOE_SLIPSKIP_CNT e) js.slipskip
    let s := s.forRange (fun k s => s.setReg (Reg.FLOE_NODE e k)
      (labels.getD k k + 2 ^ 14 * st k + bitAt (!litN k) 17 + 2 ^ 18 * (Tbl.get mv.1 k (0, 0)).2)) 0 n
    let big := others.filter fun l => c.minNodes ≤ size l
    let inL := fun l => (List.range n).filter fun k => labels.getD k k = l
    let rows := (big.take 64).map fun l =>
      (l, size l, ((inL l).filter fun k => litN k && 2 ≤ st k).length, ((inL l).filter fun k => !litN k).length)
    let s := ((s.floeTable e 0 rows).setReg (Reg.FLOE_TAB_CNT e) rows.length).setReg (Reg.FLOE_TAB_OVER e) (big.length - rows.length)
    s.setReg (Reg.FLOE_SEQ e) ((s.rn (Reg.FLOE_SEQ e) + 1) % 65536)

/-! ## Image and reset (R237) -/

/-- The floe engine's part of a full image applied. -/
def State.applyFloe (s : State) : State :=
  let b := s.pat 8
  let s := { s with floe := s.floe.map fun (e : Nat × FloeInst) => (e.1, ({ conds := e.2.conds } : FloeInst)) }
  let s := { s with floe := s.floe.filter fun (e : Nat × FloeInst) => e.2 ≠ ({} : FloeInst) }
  ((cohSecs b 16 (wf b 0 0 3)).foldl (fun s ec => s.clearRegs (Reg.FLOE_NODE ec.1 0) (Reg.FLOE_NODE ec.1 16384)) s).showFloe b

/-- A WDT, SOFT or LINK reset: the next instant is COLD (R237). -/
def State.resetFloe (s : State) : State :=
  let f := s.floe.map fun (e : Nat × FloeInst) => (e.1, { e.2 with t0 := none })
  { s with floe := f.filter fun (e : Nat × FloeInst) => e.2 ≠ ({} : FloeInst) }

/-- The old banks released (R38): an instance that has decided no instant from A on begins its bank at its next one. -/
def State.releaseFloe (s : State) : State :=
  let s := if s.bit Reg.FEAT_IMG_PEND 8 then s.showFloe (s.pat 8) else s
  { s with floe := s.floe.map fun (e : Nat × FloeInst) =>
      (e.1, { e.2 with fresh := e.2.fresh || (s.bit Reg.FEAT_IMG_PEND 8 && e.2.act ≠ some s.actNs) }) }

end Sys2Proof.Machine
end

