-- ==== Sys2Proof/Machine/Upstream.lean ====
section
/-! DEFINITION. The upstream C37.118 streams (R134 to R137): readiness, conversion, STAT and the frame. -/
namespace Sys2Proof.Machine
open Sys2Proof

/-! ## The UPSTREAM pattern (R134) -/

/-- Word `i` of stream record `n`, and of item record `k`. -/
def upWord (b : List Byte) (n i : Nat) : Nat := word b (4 + 16 * n + i)
def upItem (b : List Byte) (k i : Nat) : Nat := word b (4 + 16 * wf b 0 0 5 + 4 * k + i)

/-- The item records of stream `n`. -/
def upItems (b : List Byte) (n : Nat) : List Nat := (List.range (fld (upWord b n 6) 17 12)).map (fld (upWord b n 6) 0 17 + ·)

/-! ## Readiness (R135) -/

/-- What an item finds: nothing yet, a value, or an instant that never comes. -/
inductive UpView
  | wait
  | slot (x : Slot) (present : Bool)
  | bus (v : Option Phasor)
  | discarded
  | undecided
deriving DecidableEq, Repr

/-- What the seam of source `k` at `t0` gives. -/
def State.upSlot (s : State) (k t0 : Nat) : UpView :=
  match groupOfSrc (s.patAt 5 t0) k with
  | none => .slot {} false
  | some g =>
    match s.groupAt g t0 with
    | none => .slot {} false
    | some x =>
      let i := latestInst (grpRate (s.patAt 5 t0) g) t0
      if x.lo ≤ i then .wait
      else match x.seamOf i with
        | some m => if m.closed then .slot (s.slotAt k (i % 8)) (s.slotFlags k (i % 8)).1 else .discarded
        | none => .discarded

/-- What the estimate of instance `e` at `t0` gives for a bus. -/
def State.upBus (s : State) (e bus t0 : Nat) : UpView :=
  match s.estimate e t0 with
  | some o => .bus (if o.pred.contains bus then none else o.v[bus]?)
  | none => if (s.seI e).outs.any fun o => t0 < o.t0 then .undecided else .wait

/-- What item record `k` finds at `t0`. -/
def State.upView (s : State) (b : List Byte) (k t0 : Nat) : UpView :=
  let w1 := upItem b k 1
  if fld (upItem b k 0) 0 4 = 1 then s.upBus (fld w1 20 2) (fld w1 0 14) t0 else s.upSlot (fld w1 0 14) t0

/-- A slot that could not be read is absent for that read (R147). -/
def UpView.without (v : UpView) (bad : Bool) : UpView :=
  match v with
  | .slot x p => .slot x (p && !bad)
  | v => v

/-- Slots that the items `ks` read at `t0` checked (R147): the sources whose slot cannot be read. -/
def State.checkUps (s : State) (b : List Byte) (t0 : Nat) (ks : List Nat) : List Nat × State :=
  let srcs := ((ks.filter fun k => fld (upItem b k 0) 0 4 ≠ 1).map fun k => fld (upItem b k 1) 0 14).eraseDups
  srcs.foldl (fun a src =>
    match groupOfSrc (a.2.patAt 5 t0) src with
    | none => a
    | some g =>
      let r := a.2.checkSlots (latestInst (grpRate (a.2.patAt 5 t0) g) t0 % 8) [src]
      (r.1 ++ a.1, r.2)) ([], s)

/-! ## Conversion (R136) -/

/-- A count as an integer field. -/
def upInt (om oe : Nat) (v : Int) : List Byte :=
  beBytes 2 (uNat 16 (max (-32767) (min 32767 (rhe (v * om) (2 ^ oe)))))

/-- A count with `lsb` fraction bits as a float field. -/
def upFloat (om lsb : Nat) (v : Int) : List Byte :=
  match f32 om with
  | some (m, e) => beBytes 4 (toF32 (v * m) (e - lsb))
  | none => beBytes 4 0x7FC00000

/-- One scalar: a float or integer field, or its absent tag. -/
def upScalar (float : Bool) (om oe lsb : Nat) (v : Option Int) : List Byte :=
  match v with
  | some c => if float then upFloat om lsb c else upInt om oe c
  | none => if float then beBytes 4 0x7FC00000 else [0x80, 0]

/-- An angle in 10^-4 rad or in rad. -/
def upAngle (float : Bool) (a : Nat) : List Byte :=
  let v := sInt 40 a * (2 * piQ : Nat)
  if float then beBytes 4 (toF32 v (-168)) else beBytes 2 (uNat 16 (max (-32767) (min 32767 (rhe (10000 * v) (2 ^ 168)))))

/-- A phasor in the format of the stream. -/
def upPhasor (fmt om oe : Nat) (v : Option Phasor) : List Byte :=
  let float := fld fmt 1 1 = 1
  match v with
  | none => upScalar float om oe 30 none ++ upScalar float om oe 30 none
  | some p =>
    if fld fmt 0 1 = 1 then
      let q := vec p
      upScalar float om oe 30 (some q.1) ++ upAngle float q.2
    else upScalar float om oe 30 (some p.re) ++ upScalar float om oe 30 (some p.im)

/-- The octets of item record `k`, and whether they are the absent tag. -/
def upOctets (b : List Byte) (fmt k : Nat) (v : UpView) : List Byte × Bool :=
  let kind := fld (upItem b k 0) 0 4
  let lane := fld (upItem b k 1) 16 4
  let om := upItem b k 2
  let oe := fld (upItem b k 3) 0 6
  let pay : Nat → Option Payload := fun bit => match v with
    | .slot x p => if !p || x.bad || fld x.payload.invalid bit 1 = 1 then none else some x.payload
    | _ => none
  let absent := fun (o : Option Payload) => o.isNone
  match kind with
  | 0 => let y := pay lane; (upPhasor fmt om oe (y.map fun z => z.ph.getD lane ⟨0, 0⟩), absent y)
  | 1 =>
    let y := match v with
      | .bus p => p
      | _ => none
    (upPhasor fmt om oe y, y.isNone)
  | 2 => let y := pay 16; (upScalar (fld fmt 3 1 = 1) om oe 28 (y.map Payload.freq), absent y)
  | 3 => let y := pay 17; (upScalar (fld fmt 3 1 = 1) om oe 28 (y.map Payload.rocof), absent y)
  | 4 => let y := pay (18 + lane); (upScalar (fld fmt 2 1 = 1) om oe 30 (y.map fun z => z.an.getD lane 0), absent y)
  | _ => match pay 24 with
    | some z => (beBytes 2 (z.dg.getD lane 0), false)
    | none => ([0x80, 0], true)

/-! ## STAT and time (R137) -/

/-- PMU_TQ from TIME_EST_ERR. -/
def State.pmuTq (s : State) : Nat :=
  let e := s.rn Reg.TIME_EST_ERR
  if s.disc = 0 then 7 else if e ≤ 100 then 1 else if e ≤ 1000 then 2 else if e ≤ 10000 then 3 else if e ≤ 100000 then 4
  else if e ≤ 1000000 then 5 else if e ≤ 10000000 then 6 else 7

/-- Unlocked time since LOCKED was left. -/
def State.unlockCode (s : State) : Nat :=
  if s.disc = 0 then 3
  else if s.disc = 2 then 0
  else match s.time.leftLock with
    | none => 3
    | some t =>
      let sec := (s.time.ticks - t) / 250000000
      if sec < 10 then 0 else if sec < 100 then 1 else if sec < 1000 then 2 else 3

/-- STAT of a block: whether all its items are absent, and whether it holds an estimated one. -/
def State.upStat (s : State) (allAbsent est : Bool) : Nat :=
  let new := match s.dec.upAt with
    | some t => decide (s.time.ticks < 60 * 250000000 + t)
    | none => false
  bitAt allAbsent 15 + bitAt (s.disc ≠ 2) 13 + bitAt new 10 + bitAt est 9 + s.pmuTq * 64 + s.unlockCode * 16

/-- FRACSEC [31:24]. -/
def State.fracFlags (s : State) : Nat :=
  let pend := s.rf Reg.TIME_UTCOFS 16 2
  let after := match s.time.leapAt with
    | some t => decide (s.time.ticks < 86400 * 250000000 + t)
    | none => false
  s.rn Reg.TIME_QUAL % 16 + bitAt (pend ≠ 0) 4 + bitAt after 5 + bitAt (2 ≤ pend || (pend = 0 && after && s.time.leapDel)) 6

/-! ## The frame -/

/-- The blocks of a stream from its items: each item's record with its octets and absence. -/
def upBlocks (b : List Byte) (l : List (Nat × List Byte × Bool)) : List (List (Nat × List Byte × Bool)) :=
  l.foldr (fun x acc => match acc with
    | [] => [[x]]
    | blk :: rest => if fld (upItem b (((blk.head?).map Prod.fst).getD 0) 0) 4 1 = 1 then [x] :: blk :: rest else (x :: blk) :: rest) []

/-- The octets of a block: its STAT and its items. -/
def State.upBlock (s : State) (b : List Byte) (blk : List (Nat × List Byte × Bool)) : List Byte :=
  beBytes 2 (s.upStat (blk.all fun x => x.2.2) (blk.any fun x => fld (upItem b x.1 0) 0 4 = 1)) ++ blk.flatMap fun x => x.2.1

/-- The C37.118 data frame of stream `n` for the instant `t0`, numbered `i`, from what its items find. -/
def State.upFrame (s : State) (b : List Byte) (n t0 i : Nat) (vs : List (Nat × UpView)) : List Byte :=
  let w0 := upWord b n 0
  let rate := fld (upWord b n 1) 0 8
  let base := fld (upWord b n 1) 8 24
  let its := vs.map fun kv => (kv.1, upOctets b (fld w0 4 4) kv.1 kv.2)
  let body := (upBlocks b its).flatMap (s.upBlock b)
  let soc := ((t0 / 1000000000 : Nat) - s.utcOfs).toNat % 2 ^ 32
  let frac := i % rate * base / rate
  let f := [0xAA, 0x02] ++ beBytes 2 (16 + body.length) ++ beBytes 2 (fld w0 16 16) ++ beBytes 4 soc ++
    beBytes 4 (frac % 2 ^ 24 + 2 ^ 24 * s.fracFlags) ++ body
  f ++ beBytes 2 (crcCcitt f).toNat

/-- A frame of stream `n` sent in UDP on its ports, or handed to its firmware ring. -/
def State.upSend (s : State) (b : List Byte) (n : Nat) (f : List Byte) : State :=
  let w7 := upWord b n 7
  let w3 := upWord b n 3
  let s := s.count Reg.DEC_UP_FRAMES_CNT
  if fld w7 0 1 = 1 then
    s.stage { octets := f, ring := fld w7 1 3, port := 0, flags := 0, epoch := s.epoch, rule := 0, vid := 0, tagged := false, pcp := 0
              rxts := s.nowT80, flen := f.length }
  else
    let da := s.addrRec (fld (upWord b n 2) 0 5)
    let dmac := leBytes 4 (upWord b n 4) ++ leBytes 2 (upWord b n 5)
    let tag := if fld w3 28 1 = 1 then some (fld w3 16 12 + fld w3 29 3 * 2 ^ 13) else none
    -- the record gives no source address and no hop limit: free values
    let src := if da.1 then (s.draw 128).toNat else (s.draw 32).toNat
    let s := s.drawn
    let ttl := s.draw 8
    s.drawn.sendPorts (fld (upWord b n 0) 0 4) 2 fun smac => udpFrame dmac smac tag da.1 src da.2 (fld w3 0 16) (fld (upWord b n 2) 16 16) ttl f

/-- T0 of the instant that stream `n` built or skipped last. -/
def State.upLast (s : State) (n : Nat) : Nat := Tbl.get s.dec.upDone n 0

/-- The instant of stream `n` marked done. -/
def State.setUpLast (s : State) (n t0 : Nat) : State := { s with dec := { s.dec with upDone := Tbl.set s.dec.upDone n t0 0 } }

/-- RATE of stream `n` of an UPSTREAM body; 0 where there is none. -/
def upRate (b : List Byte) (n : Nat) : Nat := if n < wf b 0 0 5 then fld (upWord b n 1) 0 8 else 0

/-- The next instant of stream `n`: the body that decides it, and its number. -/
def State.upNext (s : State) (n : Nat) : Option (List Byte × Nat) :=
  let ob := s.pat 12
  let i := latestInst (upRate ob n) (s.upLast n) + 1
  let new := s.pend && s.bit Reg.FEAT_IMG_PEND 12
  if upRate ob n ≠ 0 && !(new && s.actNs ≤ instT0 (upRate ob n) i) then some (ob, i)
  else if new then
    let nb := Tbl.get s.img.idle 12 []
    if upRate nb n = 0 then none else some (nb, latestInst (upRate nb n) (max (s.upLast n) (s.actNs - 1)) + 1)
  else none

/-- The frame of stream `n` for its next reporting instant, once every item is ready; a device in STANDBY sends none (R375). -/
def upstreamFrameBuild (n : Nat) (s : State) : State :=
  match s.upNext n with
  | none => s
  | some (b, i) =>
    let t0 := instT0 (upRate b n) i
    let vs := (upItems b n).map fun k => (k, s.upView b k t0)
    if !s.measuring || vs.any fun x => x.2 = .wait then s
    else if vs.any fun x => x.2 = .discarded then (s.count Reg.DEC_UP_SKIP_CNT).setUpLast n t0
    else if s.standby || vs.any fun x => x.2 = .undecided then s.setUpLast n t0
    else
      let (bad, s) := s.checkUps b t0 (upItems b n)
      (s.setUpLast n t0).upSend b n (s.upFrame b n t0 i (vs.map fun x => (x.1, x.2.without (bad.contains (fld (upItem b x.1 1) 0 14)))))

/-- UPSTREAM_FRAME_BUILD; `errs` is what the checks of the slots it reads find. -/
def execUpstreamFrameBuild (stream : Fin 16) (errs : Tbl MemErr) (s : State) : Host.Outcome State Fault Refusal :=
  live (withErrs errs (upstreamFrameBuild stream.val)) s

/-- Item record `k` draws on a seam that is open at `t0`. -/
def State.seamAt (s : State) (b : List Byte) (k t0 : Nat) : Bool :=
  let src := fld (upItem b k 1) 0 14
  fld (upItem b k 0) 0 4 ≠ 1 && (groupOfSrc (s.patAt 5 t0) src).any fun g => (s.groupAt g t0).any fun x =>
    (x.seamOf (latestInst (grpRate (s.patAt 5 t0) g) t0)).any fun m => !m.closed && m.t0 = t0

/-- Reporting instants of the seams that are open. -/
def State.openT0s (s : State) : List Nat :=
  ((s.seam.groups ++ s.seam.next).flatMap fun e => (e.2.map fun x => x.openSeams.map Seam.t0).getD []).eraseDups

/-- The body of stream `n` that decides its instant at `t0`. -/
def State.upBody (s : State) (t0 : Nat) : List Byte :=
  if s.pend && s.bit Reg.FEAT_IMG_PEND 12 && s.actNs ≤ t0 then Tbl.get s.img.idle 12 [] else s.pat 12

/-- Instants of every stream whose open seams a load or an UNLOAD is about to discard send no frame, and count as skipped (R32, R135). -/
def State.skipUps (s : State) : State :=
  s.forRange (fun n s => s.countBy Reg.DEC_UP_SKIP_CNT (s.openT0s.filter fun t0 =>
    let b := s.upBody t0
    decide (s.upLast n < t0) && decide (upRate b n ≠ 0) && instT0 (upRate b n) (latestInst (upRate b n) t0) = t0 &&
      (upItems b n).any fun k => s.seamAt b k t0).length) 0 16

/-- Every stream's next instant is the first after now: after a load or a step. -/
def State.upRestart (s : State) : State := s.forRange (fun n s => s.setUpLast n s.nowNs) 0 16

/-- The bank before A is released: no stream goes back before A. -/
def State.upRelease (s : State) : State := s.forRange (fun n s => s.setUpLast n (max (s.upLast n) (s.actNs - 1))) 0 16

end Sys2Proof.Machine
end

