-- ==== Sys2Proof/Machine/Ndk.lean ====
section
/-! DEFINITION. The Noduko station link (R364 to R377): lanes and wraps, cells, the poll token, acknowledgement, time transfer and
hot-standby mirroring. -/
namespace Sys2Proof.Machine
open Sys2Proof

/-! ## Lanes and rings (R364, R373). Lane 0 transmits ring A and receives ring B; lane 1 the other way round. -/

/-- The receiver of lane `l` is up. -/
def State.laneUp (s : State) (l : Nat) : Bool := s.bit Reg.NDK_STATUS (1 - l)

/-- Cells for ring `r` (0 A, 1 B) are turned onto the other ring. -/
def State.ringTurned (s : State) (r : Nat) : Bool := s.bit Reg.NDK_STATUS (2 + r) || !s.laneUp r

/-- Both receivers are down: the device runs alone. -/
def State.ndkAlone (s : State) : Bool := !s.laneUp 0 && !s.laneUp 1

/-- The device is station master. -/
def State.ndkMaster (s : State) : Bool := s.bit Reg.NDK_STATUS 4

/-- Peer `d`. -/
def State.ndkPeer (s : State) (d : Nat) : NdkPeer := Tbl.get s.ndk.peers d {}

/-- Peer `d` set. -/
def State.setNdkPeer (s : State) (d : Nat) (x : NdkPeer) : State :=
  { s with ndk := { s.ndk with peers := Tbl.set s.ndk.peers d x {} } }

/-! ## Cells (R366, R374) -/

/-- Header, payload and tag: the 240 bytes the CRC covers. -/
def ndkCell (w0 seq poll : Nat) (payload tag : List Byte) : List Byte :=
  padTo 32 (leBytes 4 w0 ++ leBytes 6 seq ++ leBytes 2 poll) ++ padTo 192 payload ++ padTo 16 tag

/-- A whole cell, with its CRC. -/
def ndkFinish (c : List Byte) : List Byte := c.take 240 ++ leBytes 4 (crc32 (c.take 240)).toNat ++ List.replicate 12 0

/-- Word 3 of a cell's header replaced. -/
def setCellWord3 (c : List Byte) (w : Nat) : List Byte := c.take 12 ++ leBytes 4 w ++ c.drop 16

/-- A cell sent on ring `r`, turned onto the other ring where that ring's link is down (R373). -/
def State.ringSend (s : State) (r : Nat) (c : List Byte) : State :=
  let turned := s.ringTurned r
  let l := if turned then 1 - r else r
  if s.laneUp l then s.emit (.cell l (ndkFinish (if turned then setCellWord3 c (putFld (word c 3) 3 1 1) else c))) else s

/-- The nonce of R374. -/
def ndkNonce (dev seq : Nat) (control : Bool) : List Byte :=
  [BitVec.ofNat 8 dev, if control then 1 else 0, 0, 0] ++ leBytes 6 seq ++ [0, 0]

/-- A cell of a kind, sealed where ENC asks for it; nothing where its key is not usable. -/
def State.buildCell (s : State) (kind dst seq : Nat) (payload : List Byte) : Option (List Byte) × State :=
  let b := s.ndkBody
  let enc := wf b 0 10 1 = 1 && kind ≠ 1
  let w0 := kind + s.devNum * 8 + dst * 64 + bitAt enc 14
  let poll := s.rf Reg.NDK_STATUS 8 16
  if enc then
    match s.takeBound engNdkTx (wf b 0 16 8) 2 false with
    | (some (key, _), s) =>
      let aad := leBytes 4 w0 ++ leBytes 6 seq ++ leBytes 2 poll
      let sealed := Config.aesGcmSeal key (ndkNonce s.devNum seq (kind ≠ 2)) aad (padTo 192 payload)
      (some (ndkCell w0 seq poll (sealed.take 192) (sealed.drop 192)), s)
    | (none, s) => (none, s.count Reg.NDK_KEYREV_CNT)
  else (some (ndkCell w0 seq poll payload []), s)

/-- A control cell sent on ring A with the next control sequence number (R371). -/
def State.sendControl (s : State) (kind dst : Nat) (payload : List Byte) : State :=
  let seq := (s.ndk.ctlSeq + 1) % 2 ^ 48
  let s := { s with ndk := { s.ndk with ctlSeq := seq } }
  match s.buildCell kind dst seq payload with
  | (some c, s) => s.ringSend 0 c
  | (none, s) => s

/-! ## Own DATA cells and their retransmission (R370) -/

/-- A cell abandoned. -/
def State.ndkAbandon (s : State) : State := (s.count Reg.NDK_RTX_ABANDON_CNT).raise 101

/-- RTX_US in ticks. -/
def State.rtxTicks (s : State) : Nat := wf s.ndkBody 2 0 16 * 250

/-- The oldest queued item sent as a DATA cell, held for retransmission. -/
def State.sendData1 (s : State) : State :=
  match s.ndk.txq with
  | [] => s
  | x :: rest =>
    let seq := (s.ndk.dataSeq + 1) % 2 ^ 48
    let s := { s with ndk := { s.ndk with txq := rest, dataSeq := seq } }
    match s.buildCell 2 x.dst seq x.payload with
    | (none, s) => s
    | (some c, s) =>
      let full := decide (1024 ≤ s.ndk.store.length)
      let s := if full then ({ s with ndk := { s.ndk with store := s.ndk.store.tail } }).ndkAbandon else s
      let sent : NdkSent := { seq := seq, left := x.dst, sends := 1, due := s.time.ticks + s.rtxTicks, cell := c }
      let s := { s with ndk := { s.ndk with store := s.ndk.store ++ [sent] } }
      (s.count Reg.NDK_TX_CNT).ringSend 0 c

/-- Up to CREDIT queued DATA cells sent; none in PARK (R443). -/
def State.sendData (s : State) : State :=
  if s.pwr.state = Power.run then s.forRange (fun _ s => s.sendData1) 0 (wf s.ndkBody 0 4 6) else s

/-- STATUS (R366, R368), alternating TBASE. -/
def State.sendStatus (s : State) : State :=
  let base := if s.ndk.tbase then 32 else 0
  let p := leBytes 4 (s.mrole + bitAt s.mirrorActive 2 + bitAt s.ndk.take 3 + base * 16) ++ leBytes 8 (s.rn Reg.FEAT_IMG_SERIAL) ++
    leBytes 12 s.ndk.since ++ (List.range 32).flatMap (fun k => leBytes 4 (s.rn (Reg.ALM_GOOSE_STNUM (base + k))))
  ({ s with ndk := { s.ndk with tbase := !s.ndk.tbase, take := false } }).sendControl 5 0xFF p

/-- The first stored cell whose RTX_US has passed: resent, or abandoned after RTX_MAX sends. -/
def ndkRetransmit (s : State) : State :=
  if !s.ndkOn then s
  else
    match s.ndk.store.find? fun x => x.due ≤ s.time.ticks with
    | none => s
    | some x =>
      if wf s.ndkBody 2 16 4 ≤ x.sends then
        ({ s with ndk := { s.ndk with store := s.ndk.store.erase x } }).ndkAbandon
      else
        let s := (s.checkFound 47 (s.ndk.store.idxOf x)).2
        let y : NdkSent := { x with sends := x.sends + 1, due := s.time.ticks + s.rtxTicks }
        let s := { s with ndk := { s.ndk with store := s.ndk.store.map fun z => if z = x then y else z } }
        (s.count Reg.NDK_RTX_CNT).ringSend 0 x.cell

/-- NDK_RETRANSMIT; `errs` is what the checker of the retransmit store finds. -/
def execNdkRetransmit (errs : Tbl MemErr) (s : State) : Host.Outcome State Fault Refusal := live (withErrs errs ndkRetransmit) s

/-- Device `d` has acknowledged the cell of sequence `seq` where its HIGH and window say so, or the cell is older than the window. -/
def ackedBy (high : Nat) (win : BitVec 64) (seq : Nat) : Bool :=
  let d := sInt 48 (2 ^ 48 + high - seq)
  if d < 0 then false else if d < 64 then win.getLsbD d.toNat else true

/-- An ACK from device `d`: its bit clears in every cell it covers, and cells that nobody lacks leave the store. -/
def State.ackFrom (s : State) (d high : Nat) (win : BitVec 64) : State :=
  let l := s.ndk.store.map fun (x : NdkSent) => if ackedBy high win x.seq then { x with left := putFld x.left d 1 0 } else x
  { s with ndk := { s.ndk with store := l.filter fun x => x.left ≠ 0 } }

/-! ## Receiving DATA (R370) -/

/-- An ACK to device `d` with HIGH and window. -/
def State.sendAck (s : State) (d : Nat) : State :=
  let p := s.ndkPeer d
  (s.setNdkPeer d { p with news := 0, ackDue := none }).sendControl 3 (2 ^ d)
    (leBytes 8 (p.high.getD 0) ++ leBytes 8 p.win.toNat)

/-- A 40-bit lane of a compact entry. -/
def unlane (b : List Byte) (ofs : Nat) : Int := sInt 40 (leNat (slice b ofs 5))

/-- The item a DATA payload carries, with the receiver's epoch; fields the compact entry lacks are zero. -/
def State.cellItem (s : State) (p : List Byte) (revoked : Bool) : Item :=
  let e := slice p 64 128
  let src := wf p 0 0 14
  let b := s.pat 5
  let q := leNat (slice e 120 4)
  let q := if revoked then putFld (putFld q 25 1 1) 21 1 1 else q
  { src := src, sec := word p 5 + 2 ^ 32 * wf p 6 0 16, n := wf p 6 16 8
    rate := max 1 (match groupOfSrc b src with
      | some g => grpRate b g
      | none => 1)
    arr := leNat (slice p 4 12), epoch := s.epoch
    payload := {
      ph := (List.range 8).map fun k => ⟨unlane e (8 + 10 * k), unlane e (13 + 10 * k)⟩
      freq := unlane e 88, rocof := unlane e 93, an := (List.range 4).map fun j => unlane e (98 + 5 * j)
      dg := [leNat (slice e 118 2)], qual := q, invalid := leNat (slice e 124 4) } }

/-- The item of a DATA cell delivered to crossing 0, unless its source is not in the image. -/
def State.deliverCell (s : State) (p : List Byte) (revoked : Bool) : State :=
  if wf (s.pat 4) 1 0 15 ≤ wf p 0 0 14 then s.count Reg.NDK_FWD_UNKNOWN_CNT
  else (s.count Reg.NDK_RX_CNT).pushItem false (s.cellItem p revoked)

/-- One delivered cell more to acknowledge: at once after 16, otherwise within ACK_US. -/
def State.ackLater (s : State) (d : Nat) : State :=
  let p := s.ndkPeer d
  if 15 ≤ p.news then s.sendAck d
  else s.setNdkPeer d { p with
    news := p.news + 1, ackDue := some (p.ackDue.getD (s.time.ticks + wf s.ndkBody 2 20 12 * 250)) }

/-- A DATA cell from device `d` judged (R370, R93). -/
def State.dataCell (s : State) (d seq : Nat) (p : List Byte) (revoked : Bool) : State :=
  let x := s.ndkPeer d
  let newer := fun (win : BitVec 64) => ((s.setNdkPeer d { x with high := some seq, win := win }).deliverCell p revoked).ackLater d
  match x.high with
  | none => newer 1
  | some h =>
    let n := sInt 48 (2 ^ 48 + seq - h)
    if 0 < n then newer (if n < 64 then (x.win.shiftLeft n.toNat) ||| 1#64 else 1#64)
    else if -64 < n && !x.win.getLsbD (-n).toNat then
      ((s.setNdkPeer d { x with win := x.win ||| (1#64).shiftLeft (-n).toNat }).deliverCell p revoked).ackLater d
    else (s.count Reg.NDK_DUP_CNT).sendAck d

/-- ACK_US has passed since the first unacknowledged cell of device `d`. -/
def ndkAckTimer (d : Nat) (s : State) : State :=
  match (s.ndkPeer d).ackDue with
  | some t => if s.ndkOn && t ≤ s.time.ticks then s.sendAck d else s
  | none => s

/-- NDK_ACK_TIMER. -/
def execNdkAckTimer (dev : Fin 8) (s : State) : Host.Outcome State Fault Refusal := live (ndkAckTimer dev.val) s

/-! ## Rounds and the master (R368, R369) -/

/-- The master starts a round: STATUS once per round, then a POLL carrying POLLSEQ + 1. -/
def State.startRound (s : State) : State :=
  let s := s.setF Reg.NDK_STATUS 8 16 (s.rf Reg.NDK_STATUS 8 16 + 1)
  let s := { s with ndk := { s.ndk with round := some s.time.ticks, lastPoll := s.time.ticks } }
  s.sendStatus.sendControl 1 0xFF []

/-- A POLL of device `src` with its round number: a master gives way to a lower number. -/
def State.pollFrom (s : State) (src poll : Nat) : State :=
  let s := { s with ndk := { s.ndk with lastPoll := s.time.ticks } }
  if s.ndkMaster && s.devNum < src then s
  else
    let changed := s.ndk.master ≠ some src
    let s := ((s.setF Reg.NDK_STATUS 4 1 0).setF Reg.NDK_STATUS 5 3 src).setF Reg.NDK_STATUS 8 16 poll
    let s := { s with ndk := { s.ndk with round := none, master := some src } }
    if changed then s.raise 102 else s

/-- No POLL for POLL_TMO × (1 + DEVNUM): a device with MASTER_EN, or one that runs alone, becomes master. -/
def ndkMasterTimer (s : State) : State :=
  let b := s.ndkBody
  if s.ndkOn && !s.ndkMaster && (wf b 0 3 1 = 1 || s.ndkAlone) &&
      s.ndk.lastPoll + wf b 1 16 16 * 250 * (1 + s.devNum) ≤ s.time.ticks then
    let s := { s with ndk := { s.ndk with master := some s.devNum } }
    (((s.setF Reg.NDK_STATUS 4 1 1).setF Reg.NDK_STATUS 5 3 s.devNum).raise 102).startRound
  else s

/-- NDK_MASTER. -/
def execNdkMaster (s : State) : Host.Outcome State Fault Refusal := live ndkMasterTimer s

/-- The master's round has not come back within ROUND_TMO. -/
def ndkPollLost (s : State) : State :=
  match s.ndk.round with
  | some t =>
    if s.ndkOn && s.ndkMaster && !s.ndkAlone && t + wf s.ndkBody 1 0 16 * 250 ≤ s.time.ticks then
      ((s.count Reg.NDK_POLL_LOST_CNT).raise 98).startRound
    else s
  | none => s

/-- NDK_POLL_LOST. -/
def execNdkPollLost (s : State) : Host.Outcome State Fault Refusal := live ndkPollLost s

/-! ## Mirroring (R375) -/

/-- The device becomes ACTIVE. -/
def State.mirrorOn (s : State) : State :=
  ({ s with ndk := { s.ndk with since := s.nowT80, decided := true } }).setF Reg.NDK_MIRROR 0 1 1

/-- The device becomes STANDBY: ALM_N high. -/
def State.mirrorOff (s : State) : State := (s.setF Reg.NDK_MIRROR 0 1 0).almPins

/-- A takeover: the pins take the class states, and each template publishes with stNum one above the larger of its own and the peer's. -/
def State.takeover (s : State) : State :=
  let peer := s.ndkPeer s.ndkPeerNum
  let s := s.mirrorOn.almPins
  let b := s.almBody
  let s := s.forRange (fun k s => s.goosePublish b k (max (s.rn (Reg.ALM_GOOSE_STNUM k)) (Tbl.get peer.stnum k 0))) 0 (almTmplCnt b)
  (s.count Reg.NDK_TAKEOVER_CNT).raise 103

/-- MIRROR_TMO has passed: the first decision after a load, or no cell from PEER. -/
def mirrorTimeout (s : State) : State :=
  let t := wf s.ndkBody 3 0 16 * 250
  let peer := s.ndkPeer s.ndkPeerNum
  if !s.standby then s
  else if !s.ndk.decided then
    if s.ndk.loadAt + t ≤ s.time.ticks then
      if s.mrole = 1 && !peer.active then s.mirrorOn.almOutputs else { s with ndk := { s.ndk with decided := true } }
    else s
  else if max peer.heard s.ndk.loadAt + t ≤ s.time.ticks then
    if peer.serial = some (s.rn Reg.FEAT_IMG_SERIAL) then s.takeover else if s.bit Reg.NDK_MIRROR 1 then s else (s.setF Reg.NDK_MIRROR 1 1 1).raise 103
  else s

/-- MIRROR_TIMEOUT. -/
def execMirrorTimeout (s : State) : Host.Outcome State Fault Refusal := live mirrorTimeout s

/-- A write of NDK_MIRROR_CTRL. -/
def ndkMirrorTake (w : Word) (s : State) : State :=
  if w.getLsbD 0 && s.standby then { s.takeover with ndk := { s.takeover.ndk with take := true } } else s

/-- NDK_MIRROR_TAKE. -/
def execNdkMirrorTake (who : Party) (w : Word) (s : State) : Host.Outcome State Fault Refusal :=
  live (written who Reg.NDK_MIRROR_CTRL w (ndkMirrorTake w)) s

/-- A STATUS from device `d`. -/
def State.statusFrom (s : State) (d : Nat) (p : List Byte) : State :=
  let base := wf p 0 4 6
  let x := s.ndkPeer d
  let st := (List.range 32).foldl (fun (m : Tbl Nat) k => Tbl.set m (base + k) (word p (6 + k)) 0) x.stnum
  let active := wf p 0 2 1 = 1
  let s := s.setNdkPeer d { x with serial := some (word2 p 1), stnum := st, active := active }
  if s.mrole ≠ 0 && d = s.ndkPeerNum && s.mirrorActive then
    if wf p 0 3 1 = 1 then s.mirrorOff
    else if active then
      let theirs := leNat (slice p 12 12) % 2 ^ 80
      if theirs < s.ndk.since || (theirs = s.ndk.since && d < s.devNum) then (s.mirrorOff).count Reg.NDK_YIELD_CNT else s
    else s
  else s

/-! ## Time transfer (R372) -/

/-- TIME_MS has passed: the master's TIME cell. -/
def ndkTimeSend (s : State) : State :=
  if s.ndkOn && s.ndkMaster && s.ndk.timeAt + 250000 * wf s.ndkBody 4 0 10 ≤ s.time.ticks then
    ({ s with ndk := { s.ndk with timeAt := s.time.ticks } }).sendControl 4 0xFF
      (leBytes 12 s.nowT80 ++ leBytes 4 (s.disc + s.rf Reg.TIME_QUAL 0 4 * 16 + s.epoch * 256) ++ leBytes 4 (s.rn Reg.TIME_EST_ERR))
  else s

/-- NDK_TIME_SEND. -/
def execNdkTimeSend (s : State) : Host.Outcome State Fault Refusal := live ndkTimeSend s

/-- CORR of a cell, signed 1/16 ns. -/
def cellCorr (c : List Byte) : Int := sInt 64 (word2 c 6)

/-- The one-way delay of the hop into lane `l`: ring A comes in on lane 1. -/
def State.hopDelay (s : State) (l : Nat) : Nat := s.rn (Reg.NDK_HOP_DLY (1 - l))

/-- A TIME cell received on lane `l`. -/
def State.timeCell (s : State) (l : Nat) (c p : List Byte) : State :=
  let d : Int := (s.nowNs : Int) - nsOfT80 (leNat (slice p 0 12) % 2 ^ 80)
  let ofs := rhe (d * 16 - (cellCorr c + s.hopDelay l)) 16
  let seq := s.rf Reg.NDK_TIME_MST 8 8 + 1
  ((s.setReg Reg.NDK_TIME_OFS (uNat 64 ofs)).setReg Reg.NDK_TIME_MST (wf p 3 0 3 + wf p 3 4 4 * 16 + seq % 256 * 256)).setReg
    Reg.NDK_TIME_ERR (word p 4)

/-- The hop's echo on lane `l` measured. -/
def ndkHopEcho (l : Nat) (delay : Nat) (s : State) : State :=
  if s.ndkOn && s.laneUp l then s.setReg (Reg.NDK_HOP_DLY (1 - l)) delay else s

/-- NDK_HOP_ECHO. -/
def execNdkHopEcho (lane : Fin 2) (delay : BitVec 32) (s : State) : Host.Outcome State Fault Refusal :=
  running (ndkHopEcho lane.val delay.toNat) s

/-! ## Links (R364, R373) -/

/-- A receiver comes up. -/
def ndkLinkUp (l : Nat) (s : State) : State :=
  if s.ndkOn && !s.laneUp l then
    (({ s with ndk := { s.ndk with upAt := Tbl.set s.ndk.upAt l (s.time.ticks + 1) 0 } }).setF Reg.NDK_STATUS (1 - l) 1 1).raise 96
  else s

/-- NDK_LINK_UP. -/
def execNdkLinkUp (lane : Fin 2) (s : State) : Host.Outcome State Fault Refusal := running (ndkLinkUp lane.val) s

/-- A wrap made or undone. -/
def State.ndkWrap (s : State) (r : Nat) (on : Bool) : State :=
  ((s.setF Reg.NDK_STATUS (2 + r) 1 (bitAt on 0)).count Reg.NDK_WRAP_CNT).raise 97

/-- A receiver goes down; the ring its lane transmits is wrapped. -/
def ndkLinkDown (l : Nat) (s : State) : State :=
  if s.ndkOn && s.laneUp l then
    let s := (({ s with ndk := { s.ndk with upAt := Tbl.set s.ndk.upAt l 0 0 } }).setF Reg.NDK_STATUS (1 - l) 1 0).raise 96
    if s.bit Reg.NDK_STATUS (2 + l) then s else s.ndkWrap l true
  else s

/-- NDK_LINK_DOWN. -/
def execNdkLinkDown (lane : Fin 2) (s : State) : Host.Outcome State Fault Refusal := running (ndkLinkDown lane.val) s

/-- A link up for UNWRAP_MS undoes its wrap. -/
def ndkUnwrap (l : Nat) (s : State) : State :=
  if s.ndkOn && s.bit Reg.NDK_STATUS (2 + l) && s.laneUp l &&
      Tbl.get s.ndk.upAt l 0 + 250000 * wf s.ndkBody 3 16 16 ≤ s.time.ticks + 1 then s.ndkWrap l false
  else s

/-- NDK_UNWRAP. -/
def execNdkUnwrap (lane : Fin 2) (s : State) : Host.Outcome State Fault Refusal := running (ndkUnwrap lane.val) s

/-! ## The checks of a received cell (R367) -/

/-- A cell of another device passed on: HOPS, and for TIME the two terms of CORR (the residence time is a free value below 600 ns). -/
def State.forwardCell (s : State) (l : Nat) (c : List Byte) : State :=
  let c := setCellWord3 c (putFld (word c 3) 0 3 (wf c 3 0 3 + 1))
  if wf c 0 0 3 = 4 then
    let corr := cellCorr c + ((s.draw 14).toNat % 9601 : Nat) + s.hopDelay l
    s.drawn.ringSend (1 - l) (c.take 24 ++ leBytes 8 (uNat 64 corr) ++ c.drop 32)
  else s.ringSend (1 - l) c

/-- Order 6: the payload of a cell that passes, and whether its key was withdrawn during the verification. -/
def State.openCell (s : State) (c : List Byte) : Option (List Byte × Bool) × State :=
  let b := s.ndkBody
  let kind := wf c 0 0 3
  let enc := wf c 0 14 1 = 1
  let own := wf b 0 10 1 = 1
  if kind = 1 || (!enc && !own) then (some (slice c 32 192, false), s)
  else if enc ≠ own then (none, s)
  else
    match s.takeBound engNdkRx (wf b 0 16 8) 2 (wf c 0 15 1 = 1) with
    | (none, s) => (none, s)
    | (some (key, late), s) =>
      match Config.aesGcmOpen key (ndkNonce (wf c 0 3 3) (leNat (slice c 4 6)) (kind ≠ 2)) (c.take 12) (slice c 32 192) (slice c 224 16) with
      | some p => (some (p, late), if late then s.count Reg.NDK_KEYREV_CNT else s)
      | none => (none, s)

/-- Order 7 of a control cell (R371): newer than the last accepted from its sender. -/
def State.controlNew (s : State) (d seq : Nat) : Bool :=
  match (s.ndkPeer d).ctl with
  | some h => decide (0 < sInt 48 (2 ^ 48 + seq - h))
  | none => true

/-- The last control sequence accepted from device `d`. -/
def State.tookControl (s : State) (d seq : Nat) : State := s.setNdkPeer d { s.ndkPeer d with ctl := some seq }

/-- A cell of another device after forwarding: orders 5 to 7 and what its kind asks. -/
def State.handleCell (s : State) (l : Nat) (c : List Byte) : State :=
  let kind := wf c 0 0 3
  let d := wf c 0 3 3
  let seq := leNat (slice c 4 6)
  if (kind = 2 || kind = 3) && fld (wf c 0 6 8) s.devNum 1 = 0 then s
  else
    match s.openCell c with
    | (none, s) => (s.count Reg.NDK_AUTH_FAIL_CNT).raise 100
    | (some (p, late), s) =>
      if kind = 2 then s.dataCell d seq p late
      else if !s.controlNew d seq then s.count Reg.NDK_DUP_CNT
      else
        let s := s.tookControl d seq
        if kind = 3 then s.ackFrom d (word2 p 0 % 2 ^ 48) (BitVec.ofNat 64 (word2 p 2))
        else if kind = 4 then s.timeCell l c p
        else if kind = 5 then s.statusFrom d p
        else s

/-- An own cell back from the ring: removed, and a POLL of the round ends it. -/
def State.ownCell (s : State) (c : List Byte) : State :=
  let kind := wf c 0 0 3
  let seq := leNat (slice c 4 6)
  if kind = 3 || (kind = 2 && s.ndk.store.any fun x => x.seq = seq) then s.count Reg.NDK_ORBIT_CNT
  else if kind = 1 && s.ndkMaster && s.ndk.round.isSome && wf c 2 16 16 = s.rf Reg.NDK_STATUS 8 16 then s.sendData.startRound
  else s

/-- A cell received on lane `l`. -/
def ndkCellReceive (l : Nat) (c : List Byte) (s : State) : State :=
  if !(s.ndkOn && s.laneUp l) then s
  else if c.length < 256 then (s.count Reg.NDK_RUNT_CNT).raise 99
  else if 256 < c.length then (s.count Reg.NDK_LONG_CNT).raise 99
  else if leNat (slice c 240 4) ≠ (crc32 (c.take 240)).toNat then (s.count Reg.NDK_CRC_CNT).raise 99
  else if wf c 0 0 3 = 0 then s
  else
    let d := wf c 0 3 3
    if d = s.devNum then s.ownCell c
    else
      let s := s.setNdkPeer d { s.ndkPeer d with heard := s.time.ticks }
      let s := if d = s.ndkPeerNum && s.mrole ≠ 0 then s.setF Reg.NDK_MIRROR 2 1 1 else s
      let s := if wf c 0 0 3 = 1 && s.controlNew d (leNat (slice c 4 6)) then
          ((s.pollFrom d (wf c 2 16 16)).sendStatus).sendData
        else s
      (s.forwardCell l c).handleCell l c

/-- NDK_CELL_RECEIVE; `errs` is what the checkers of the memories it reads find. -/
def execNdkCellReceive (lane : Fin 2) (cell : List Byte) (errs : Tbl MemErr) (s : State) : Host.Outcome State Fault Refusal :=
  live (withErrs errs (ndkCellReceive lane.val cell)) s

/-! ## Image and reset -/

/-- The NODUKO pattern of a full image applied (R375, R376). -/
def State.applyNdk (s : State) : State :=
  let s := { s with ndk := { s.ndk with
    txq := [], store := [], round := none, master := none, lastPoll := s.time.ticks, timeAt := s.time.ticks, loadAt := s.time.ticks, take := false } }
  let s := s.forRange (fun d s =>
    let x := s.ndkPeer d
    s.setNdkPeer d { high := x.high, win := x.win, ctl := x.ctl }) 0 8
  let s := ((s.setReg Reg.NDK_CFG (word s.ndkBody 0)).setReg Reg.NDK_MIRROR 0).setF Reg.NDK_STATUS 4 4 0
  { s with ndk := { s.ndk with decided := s.mrole ≠ 1 } }

/-- The lanes go down with the image (UNLOAD, PIN and POR). -/
def State.dropNdk (s : State) : State := ({ s with ndk := { s.ndk with upAt := [] } }).setReg Reg.NDK_STATUS 0

/-- A WDT, SOFT or LINK reset: the lanes stay trained (R441); the rest starts afresh. -/
def State.resetNdk (s : State) : State :=
  let up := s.ndk.upAt
  let now := s.time.ticks
  ({ s with ndk := { upAt := up, lastPoll := now, timeAt := now, loadAt := now, decided := s.mrole ≠ 1 } }).setReg Reg.NDK_STATUS
    (bitAt (Tbl.get up 1 0 ≠ 0) 0 + bitAt (Tbl.get up 0 0 ≠ 0) 1)

end Sys2Proof.Machine
end

