-- ==== Sys2Proof/Machine/Mhr.lean ====
section
/-! DEFINITION. IEEE 802.15.4-2020 frames as the line-sensor radio uses them (R382, R385, R387): the MAC header, CCM* and the FCS. -/
namespace Sys2Proof.Machine
open Sys2Proof

/-- What the parser finds in a PSDU without its FCS. -/
structure Mhr where
  fcf : Nat := 0
  seq : Option Nat := none
  dpan : Option Nat := none
  dst : Option Nat := none
  src : Option Nat := none
  /-- Octets up to the auxiliary security header. -/
  front : List Byte := []
  level : Nat := 0
  keyMode : Nat := 0
  ctr : Nat := 0
  keyId : Nat := 0
  /-- Auxiliary security header, header IEs, and the octets after the MHR. -/
  aux : List Byte := []
  ies : List Byte := []
  rest : List Byte := []
deriving DecidableEq, Repr

/-- The first `n` octets of a list and the others, where there are so many. -/
def takeOct (n : Nat) (l : List Byte) : Option (List Byte × List Byte) := if l.length < n then none else some (l.take n, l.drop n)

/-- Octets taken where `c` holds. -/
def takeIf (c : Bool) (n : Nat) (l : List Byte) : Option (List Byte × List Byte) := if c then takeOct n l else some ([], l)

/-- Length of an address of a mode. -/
def addrLen (mode : Nat) : Nat := if mode = 3 then 8 else if mode = 2 then 2 else 0

/-- Whether the destination and the source PAN identifiers are present in a version-0b10 frame (IEEE 802.15.4-2020, Table 7-2). -/
def panPresent (dm sm : Nat) (comp : Bool) : Bool × Bool :=
  if dm = 0 && sm = 0 then (comp, false)
  else if sm = 0 then (!comp, false)
  else if dm = 0 then (false, !comp)
  else if dm = 3 && sm = 3 then (!comp, false)
  else (true, !comp)

/-- The header IEs at the front of octets, up to and with a termination IE. -/
def headerIes : Nat → List Byte → List Byte
  | 0, _ => []
  | k + 1, l =>
    if l.length < 2 then l
    else
      let d := leNat (l.take 2)
      let n := fld d 0 7
      let id := fld d 7 8
      if id = 0x7E || id = 0x7F then l.take 2 else l.take (2 + n) ++ headerIes k (l.drop (2 + n))

/-- A little-endian number where octets are present. -/
def optNat (l : List Byte) : Option Nat := if l = [] then none else some (leNat l)

/-- A version-0b10 frame parsed. -/
def parseMhr (f : List Byte) : Option Mhr := do
  let (c, l) ← takeOct 2 f
  let w := leNat c
  let dm := fld w 10 2
  let sm := fld w 14 2
  let pans := panPresent dm sm (fld w 6 1 = 1)
  let (sq, l) ← takeIf (fld w 8 1 = 0) 1 l
  let (dp, l) ← takeIf pans.1 2 l
  let (da, l) ← takeOct (addrLen dm) l
  let (sp, l) ← takeIf pans.2 2 l
  let (sa, l) ← takeOct (addrLen sm) l
  let sec := fld w 3 1 = 1
  let (sc, l) ← takeIf sec 1 l
  let v := leNat sc
  let (fc, l) ← takeIf (sec && fld v 5 1 = 0) 4 l
  let mode := fld v 3 2
  let (ks, l) ← takeOct (if mode = 2 then 4 else if mode = 3 then 8 else 0) l
  let (ki, l) ← takeIf (mode ≠ 0) 1 l
  let ies := if fld w 9 1 = 1 then headerIes l.length l else []
  some { fcf := w, seq := optNat sq, dpan := optNat dp, dst := if dm = 3 then optNat da else none
         src := if sm = 3 then optNat sa else none, front := c ++ sq ++ dp ++ da ++ sp ++ sa, level := fld v 0 3, keyMode := mode
         ctr := leNat fc, keyId := leNat ki, aux := sc ++ fc ++ ks ++ ki, ies := ies, rest := l.drop ies.length }

/-- Octets of the MIC of a security level. -/
def micLen (level : Nat) : Nat := if level % 4 = 1 then 4 else if level % 4 = 2 then 8 else if level % 4 = 3 then 16 else 0

/-- The CCM* nonce: extended address, frame counter, security level. -/
def ccmNonce (addr ctr level : Nat) : List Byte := beBytes 8 addr ++ beBytes 4 ctr ++ [BitVec.ofNat 8 level]

/-- A received frame opened: its plaintext payload where the MIC verifies. -/
def openFrame (key : List Byte) (addr : Nat) (m : Mhr) : Option (List Byte) :=
  let k := micLen m.level
  if m.rest.length < k then none
  else
    let text := m.rest.take (m.rest.length - k)
    let nonce := ccmNonce addr m.ctr m.level
    let plain := Config.ccmCtr key nonce text
    if Config.ccmMic key nonce (m.front ++ m.aux ++ m.ies) plain k = m.rest.drop (m.rest.length - k) then some plain else none

/-- An auxiliary security header of a level with frame counter and key index. -/
def auxHeader (level ctr slot : Nat) : List Byte := [BitVec.ofNat 8 (level + 8)] ++ leBytes 4 ctr ++ [BitVec.ofNat 8 slot]

/-- A secured frame without its FCS: header up to the auxiliary security header, header IEs, payload; level 2 leaves the payload clear. -/
def sealFrame (key : List Byte) (addr level ctr slot : Nat) (front ies payload : List Byte) : List Byte :=
  let nonce := ccmNonce addr ctr level
  let head := front ++ auxHeader level ctr slot ++ ies
  if 4 ≤ level then
    head ++ Config.ccmCtr key nonce payload ++ Config.ccmMic key nonce head payload (micLen level)
  else head ++ payload ++ Config.ccmMic key nonce (head ++ payload) [] (micLen level)

/-- One bit of the 2-octet FCS: polynomial 0x1021, reflected. -/
def fcs16Bit (c : BitVec 16) : Nat → BitVec 16
  | 0 => c
  | k + 1 => fcs16Bit (if c.getLsbD 0 then (c >>> 1) ^^^ 0x8408 else c >>> 1) k

/-- The 2-octet FCS of IEEE 802.15.4. -/
def fcs16 (l : List Byte) : BitVec 16 := l.foldl (fun c (b : Byte) => fcs16Bit (c ^^^ b.setWidth 16) 8) 0

/-- A frame with its FCS. -/
def withRadioFcs (four : Bool) (f : List Byte) : List Byte :=
  f ++ (if four then leBytes 4 (crc32 f).toNat else leBytes 2 (fcs16 f).toNat)

/-- CRC-8 with polynomial 0x07 and initial value 0 (R391). -/
def crc8 (l : List Byte) : Byte :=
  l.foldl (fun c (b : Byte) => (List.range 8).foldl (fun (d : Byte) _ => if d.getLsbD 7 then (d.shiftLeft 1) ^^^ 0x07 else d.shiftLeft 1) (c ^^^ b)) 0

end Sys2Proof.Machine
end

