-- ==== Sys2Proof/Machine/Radio.lean ====
section
/-! DEFINITION. The line-sensor radio (R378 to R398): superframes, windows and drift, reception, acknowledgement, misses and wake-up,
downlink and the duty limit. -/
namespace Sys2Proof.Machine
open Sys2Proof

/-! ## The RADIO pattern (R396) -/

/-- The RADIO body in force. -/
def State.radBody (s : State) : List Byte := s.pat 19

/-- The radio works: a band feature and a RADIO pattern. -/
def State.radioOn (s : State) : Bool := s.img.inForce && (s.feat 72 || s.feat 73) && s.radBody ≠ []

/-- Word `i` of sensor record `k`. -/
def snsWord (b : List Byte) (k i : Nat) : Nat := word b (16 + 8 * k + i)
/-- SENS_CNT. -/
def snsCnt (b : List Byte) : Nat := wf b 0 16 9
/-- Sensor record `k` is in use. -/
def snsOn (b : List Byte) (k : Nat) : Bool := k < snsCnt b && fld (snsWord b k 2) 0 1 = 1
/-- Extended address of sensor `k`. -/
def snsAddr (b : List Byte) (k : Nat) : Nat := word2 b (16 + 8 * k)
/-- SECLVL and KBIND of sensor `k`. -/
def snsLevel (b : List Byte) (k : Nat) : Nat := fld (snsWord b k 2) 21 3
def snsBind (b : List Byte) (k : Nat) : Nat := fld (snsWord b k 3) 0 8
/-- SLOT of sensor `k`. -/
def snsSlot (b : List Byte) (k : Nat) : Nat := fld (snsWord b k 2) 1 10
/-- The enabled sensors. -/
def sensorsOf (b : List Byte) : List Nat := (List.range (snsCnt b)).filter (snsOn b)

/-- Superframe and slot, ns. -/
def sfNs (b : List Byte) : Nat := wf b 3 0 26 * 1000
def slotNs (b : List Byte) : Nat := wf b 5 0 26 * 1000

/-- The nominal instant of sensor `k`'s slot in superframe `n`, ns of the counter (R380). -/
def snsNominal (b : List Byte) (k n : Nat) : Nat := n * sfNs b + snsSlot b k * slotNs b + wf b 6 0 16 * 1000

/-- Time of `n` octets at the mode's data rate, µs (R378). -/
def octetsUs (b : List Byte) (n : Nat) : Nat :=
  let rate := [50, 100, 150, 200].getD (wf b 0 1 2) 50
  (n * 8000 + rate - 1) / rate

/-- Airtime of a PSDU of `n` octets, µs: preamble, SFD, PHR and PSDU. -/
def airtime (b : List Byte) (n : Nat) : Nat := octetsUs b (wf b 2 0 10 + 4 + n)

/-! ## Transmission and the duty limit (R393) -/

/-- Sensor `k`'s run-time side. -/
def State.sensor (s : State) (k : Nat) : Sensor := Tbl.get s.radio.sensors k {}
/-- Sensor `k`'s run-time side set. -/
def State.setSensor (s : State) (k : Nat) (x : Sensor) : State :=
  { s with radio := { s.radio with sensors := Tbl.set s.radio.sensors k x {} } }

/-- Transmissions other than beacons are withheld. -/
def State.dutyHold (s : State) : Bool := s.bit Reg.RADIO_STATUS 1

/-- Transmit time of a transmission that starts at counter time `t` ns counted; at the limit the hold begins, with RADIO_DUTY once an
hour. -/
def State.transmitted (s : State) (t us : Nat) : State :=
  let used := s.rn Reg.RADIO_DUTY_USED + us
  let s := s.setReg Reg.RADIO_DUTY_USED used
  let s := { s with radio := { s.radio with busy := t + us * 1000, txFrom := t, txTo := t + us * 1000 } }
  if 3600000 * wf s.radBody 9 8 10 ≤ used && !s.dutyHold then (s.setF Reg.RADIO_STATUS 1 1 1).raise 110 else s

/-- A PSDU sent, its FCS appended; its preamble starts at counter time `t` ns. -/
def State.sendPsdu (s : State) (t : Nat) (f : List Byte) : State :=
  let b := s.radBody
  let p := withRadioFcs (wf b 0 4 1 = 1) f
  (s.emit (.psdu p)).transmitted t (airtime b p.length)

/-- A withheld transmission counted. -/
def State.withheld (s : State) : State := s.count Reg.RADIO_DUTY_WAIT_CNT

/-- A frame counter register advanced by 1: its new value, or nothing where the counter is exhausted, which is counted (R394). -/
def State.advanceCtr (s : State) (off : Nat) : Option Nat × State :=
  let c := s.rn off + 1
  if c < 0xFFFFFFFF then (some c, s.setReg off c) else (none, (s.setReg off 0xFFFFFFFF).count Reg.RADIO_CTR_EXH_CNT)

/-- The UTC hour of the counter. -/
def State.utcHour (s : State) : Int := s.utcNs / 3600000000000

/-- The UTC hour ends. -/
def dutyHourEnd (s : State) : State :=
  if s.radioOn && s.utcHour ≠ s.radio.hour then
    (({ s with radio := { s.radio with hour := s.utcHour } }).setReg Reg.RADIO_DUTY_USED 0).setF Reg.RADIO_STATUS 1 1 0
  else s

/-- DUTY_HOUR_END. -/
def execDutyHourEnd (s : State) : Host.Outcome State Fault Refusal := running dutyHourEnd s

/-! ## Front-end outputs (R395) -/

/-- A transmission's FEM_TXEN span, or `gap` ns before or after one: about the last transmission, and ahead of an acknowledgement or a
downlink frame due that no duty limit withholds. -/
def State.txNear (s : State) (gap : Nat) : Bool :=
  let lead := wf s.radBody 8 16 7 * 1000 + gap
  let ahead := fun (due : Option Nat) => match due with
    | some d => decide (d * 4 ≤ s.time.ticks * 4 + lead)
    | none => false
  (s.radio.txTo ≠ 0 && decide (s.radio.txFrom ≤ s.nowNs + lead) && decide (s.nowNs ≤ s.radio.txTo + 2000 + gap)) ||
    (!s.dutyHold && (ahead (s.radio.ack.map RadioAck.due) || ahead (s.radio.down.map Prod.fst)))

/-- FEM_TXEN. -/
def State.femTxEn (s : State) : Bool := s.radioOn && s.txNear 0

/-- The key index of slot `j`: KEYID [7:0] (R399). -/
def State.keyIndex (s : State) (j : Nat) : Nat := s.rn (Reg.KEY_SLOT_HDR j 1) % 256

/-! ## Superframes and the beacon (R380 to R382) -/

/-- A downlink frame waits for sensor `k`. -/
def State.downPending (s : State) (k : Nat) : Bool := s.radio.txq.any fun x => x.sensor = k

/-- The beacon of superframe `n` under a key of a slot. -/
def State.beaconFrame (s : State) (n ctr slot : Nat) (key : List Byte) : List Byte :=
  let b := s.radBody
  let front := leBytes 2 (2 ^ 3 + 2 ^ 8 + 2 ^ 9 + 2 * 2 ^ 12 + 3 * 2 ^ 14) ++ leBytes 2 (wf b 10 0 16) ++ leBytes 8 (word2 b 11)
  let pend := (List.range 256).foldl (fun v k => v + bitAt (s.downPending k) k) 0
  let content := leBytes 5 n ++ leBytes 3 (wf b 3 0 26 / 100) ++ leBytes 2 (wf b 5 0 26 / 10) ++ leBytes 2 (wf b 4 0 11) ++ leBytes 32 pend
  sealFrame key (word2 b 11) 2 ctr slot front (leBytes 2 (0x7E * 128)) (leBytes 2 (44 + 2 * 2 ^ 11 + 2 ^ 15) ++ content)

/-- The beacon of superframe `n`, whose SFD ends at the nominal instant of slot 0: the counter advances once a superframe, and a beacon that
cannot be sealed is not sent. -/
def State.sendBeacon (s : State) (n : Nat) : State :=
  let bind := wf s.radBody 9 24 8
  match s.advanceCtr Reg.RADIO_BCN_CTR with
  | (none, s) => s
  | (some ctr, s) =>
    match s.takeBound engRadio bind 3 false with
    | (some (key, _), s) =>
      let b := s.radBody
      s.sendPsdu (n * sfNs b + wf b 6 0 16 * 1000 - octetsUs b (wf b 2 0 10 + 2) * 1000)
        (s.beaconFrame n ctr (s.keyIndex (s.bindSlot bind false)) key)
    | (none, s) => s.count Reg.RADIO_KEYREV_CNT

/-- The counter reaches the start of a superframe not yet started; none starts while the time is UNSET. -/
def superframeStart (s : State) : State :=
  let sf := sfNs s.radBody
  if s.radioOn && s.disc ≠ stUnset && s.radio.next * sf ≤ s.nowNs then
    let n := s.nowNs / sf
    let s := { s with radio := { s.radio with next := n + 1, started := n :: s.radio.started.take 1 } }
    ((s.setReg Reg.RADIO_SFN (n % 2 ^ 40)).setF Reg.RADIO_STATUS 0 1 1).sendBeacon n
  else s

/-- SUPERFRAME_START. -/
def execSuperframeStart (s : State) : Host.Outcome State Fault Refusal := running superframeStart s

/-- After a step of the counter: superframes whose start was skipped are not held, and those passed are not repeated (R381). -/
def State.radioStep (s : State) : State :=
  if s.radioOn then
    let n := max s.radio.next ((s.nowNs + sfNs s.radBody - 1) / sfNs s.radBody)
    let s := { s with radio := { s.radio with next := n } }
    s.forRange (fun k s => match (s.sensor k).wakeIn with
      | some w => if w < n then s.setSensor k { s.sensor k with wakeIn := some n } else s
      | none => s) 0 256
  else s

/-! ## Windows (R383, R384) -/

/-- Sensor `k` has a slot in superframe `n`: its phase, or a recovery slot. -/
def State.slotIn (s : State) (k n : Nat) : Bool :=
  let w := snsWord s.radBody k 2
  n % 2 ^ fld w 11 3 = fld w 14 7 || (s.sensor k).recovery = some n

/-- `n / d` rounded half to even, for any `d` other than 0. -/
def rheDiv (n d : Int) : Int := if d < 0 then rhe (-n) (-d).toNat else rhe n d.toNat

/-- The window of sensor `k` in superframe `n`: its bounds, ns of the counter. -/
def State.radioWindow (s : State) (k n : Nat) : Int × Int :=
  let b := s.radBody
  let x := s.sensor k
  let t : Int := snsNominal b k n
  let c := t + rhe (sInt 32 (s.rn (Reg.RADIO_SNS_DRIFT k)) * (t - x.tref)) 1000000000
  let g : Int := wf b 6 16 14 * 1000 * (if x.winEpoch = s.epoch then 1 else 4)
  (c - g, c + g)

/-- The superframe in whose window of sensor `k` an SFD ended at `t`, while the radio was not busy. -/
def State.windowOf (s : State) (k : Nat) (t : Int) : Option Nat :=
  if t < s.radio.busy then none
  else (s.radio.started ++ [s.radio.next]).find? fun n =>
    s.slotIn k n && decide ((s.radioWindow k n).1 ≤ t) && decide (t ≤ (s.radioWindow k n).2)

/-- FEM_RXEN: some window is open, or an acknowledgement is awaited, at least 10 µs away from FEM_TXEN. -/
def State.femRxEn (s : State) : Bool :=
  s.radioOn && !s.txNear 10000 && ((sensorsOf s.radBody).any (fun k => (s.windowOf k s.nowNs).isSome) || s.radio.await.isSome)

/-! ## The receive queue (R388) -/

/-- RADIO_RXQ_HEAD shows the queue. -/
def State.showRadioQ (s : State) : State :=
  s.setReg Reg.RADIO_RXQ_HEAD (if s.radio.rxCount = 0 then 0 else 2 ^ 31 + s.radio.rxHead)

/-- An entry of the receive queue. -/
def State.radioPush (s : State) (e : List Byte) : State :=
  let s := (s.checkFound 49 0).2
  let s := if s.radio.rxCount = 0 then
      ({ s with radio := { s.radio with watch := s.watchWrite true s.radio.watch } }).raise 104
    else s
  let s := if s.radio.rxCount < 256 then s
    else (({ s with radio := { s.radio with rxHead := (s.radio.rxHead + 1) % 256, rxCount := 255 } }).count Reg.RADIO_RXQ_LOST_CNT).raise 105
  let i := (s.radio.rxHead + s.radio.rxCount) % 256
  let s := s.sramWrite (s.rn Reg.RADIO_RXQ_BASE + 2112 * i) (padTo 2112 e)
  ({ s with radio := { s.radio with rxCount := s.radio.rxCount + 1 } }).showRadioQ

/-- A write of RADIO_RXQ_POP releases the head. -/
def radioRxqPop (w : Word) (s : State) : State :=
  if w.getLsbD 0 && s.radio.rxCount ≠ 0 then
    let a := s.rn Reg.RADIO_RXQ_BASE + 2112 * s.radio.rxHead
    let s := s.sramWrite (a + 3) [Memory.byte s.sram (sramIx (a + 3)) &&& 0x7F]
    ({ s with radio := { s.radio with
      rxHead := (s.radio.rxHead + 1) % 256, rxCount := s.radio.rxCount - 1, watch := s.watchRead } }).showRadioQ
  else s

/-- RADIO_RXQ_POP. -/
def execRadioRxqPop (who : Party) (w : Word) (s : State) : Host.Outcome State Fault Refusal :=
  live (written who Reg.RADIO_RXQ_POP w (radioRxqPop w)) s

/-! ## Reception (R384 to R386, R389) -/

/-- The key of order 5: the frame's key index is that of the current or next slot of the sensor's binding. -/
def State.radioKey (s : State) (k : Nat) (m : Mhr) : Option (List Byte × Bool) × State :=
  let bind := snsBind s.radBody k
  if fld m.fcf 3 1 = 1 && m.level = snsLevel s.radBody k && m.keyMode = 1 then
    match [s.bindSlot bind false, s.bindSlot bind true].find? fun j => j ≠ 255 && s.keyIndex j = m.keyId with
    | some j => s.takeKey engRadio j 3
    | none => (none, s)
  else (none, s)

/-- ρ after an accepted frame with error `e` (R384). -/
def State.updateDrift (s : State) (k : Nat) (tnom : Nat) (e : Int) : State :=
  let x := s.sensor k
  if x.epoch ≠ s.epoch then s
  else
    let d : Int := (tnom : Int) - x.tref
    -- no elapsed time: the spec states no quotient, a free value
    let (m, s) := if d = 0 then ((s.draw 32).toInt, s.drawn) else (rheDiv (1000000000 * e) d, s)
    let rho := sInt 32 (s.rn (Reg.RADIO_SNS_DRIFT k))
    let r := rho + rhe (m - rho) (2 ^ wf s.radBody 7 0 4)
    s.setReg (Reg.RADIO_SNS_DRIFT k) (uNat 32 (max (-200000) (min 200000 r)))

/-- The receive-queue entry of a frame (R388). -/
def State.radioEntry (s : State) (k : Nat) (revoked : Bool) (t e : Int) (rx : RadioRx) (m : Mhr) (plain : List Byte) : List Byte :=
  let d := m.front ++ m.aux ++ m.ies ++ plain
  padTo 64 (leBytes 4 (2 ^ 31 + (d.length % 2048 + k * 2 ^ 11 + bitAt revoked 19 + 2 ^ 20 * s.epoch)) ++ leBytes 12 (t80OfNs t.toNat) ++
    leBytes 4 (uNat 32 e) ++ [rx.rssi, rx.lqi, 0, 0] ++ leBytes 4 m.ctr) ++ d

/-- A frame accepted (R385, R389). -/
def State.acceptRadio (s : State) (k : Nat) (tnom : Nat) (revoked : Bool) (t e : Int) (rx : RadioRx) (m : Mhr) (plain : List Byte) : State :=
  let s := ((s.setReg (Reg.RADIO_SNS_RXCTR k) m.ctr).count Reg.RADIO_RX_CNT).radioPush (s.radioEntry k revoked t e rx m plain)
  let s := (s.updateDrift k tnom e).setF (Reg.RADIO_SNS_STATE k) 0 12 0
  ((s.setReg (Reg.RADIO_SNS_ERR k) (uNat 32 e)).setReg (Reg.RADIO_SNS_LINK k) (rx.rssi.toNat + rx.lqi.toNat * 256)).setReg
    (Reg.RADIO_SNS_LAST k) (t.toNat / 1000000000 % 2 ^ 32)

/-- Orders 5 and 6 for sensor `k`, whose frame lies in its window of superframe `n`. -/
def State.radioSecured (s : State) (k n : Nat) (t : Int) (rx : RadioRx) (m : Mhr) : State :=
  let tnom := snsNominal s.radBody k n
  let e := t - tnom
  let fail := fun (s : State) => (s.count Reg.RADIO_AUTH_FAIL_CNT).raise 107
  match s.radioKey k m with
  | (none, s) => fail s
  | (some (key, late), s) =>
    match openFrame key (snsAddr s.radBody k) m with
    | none => fail s
    | some plain =>
      if m.ctr = 0xFFFFFFFF then fail s
      else
        let s := if late then s.count Reg.RADIO_KEYREV_CNT else s
        let fresh := decide (s.rn (Reg.RADIO_SNS_RXCTR k) < m.ctr)
        let s := if fresh then s.acceptRadio k tnom late t e rx m plain else s.count Reg.RADIO_DUP_CNT
        if fld m.fcf 5 1 = 1 then
          { s with radio := { s.radio with ack := some {
            due := 250000 + s.time.ticks, sensor := k, key := key, keyId := m.keyId, err := e, seq := m.seq, tnom := tnom, accepted := fresh } } }
        else s

/-- RADIO_TXQ_STATUS and the PEND bits show the transmit queue. -/
def State.showTxq (s : State) : State :=
  let s := s.setF Reg.RADIO_TXQ_STATUS 0 5 s.radio.txq.length
  s.forRange (fun k s => s.setF (Reg.RADIO_SNS_STATE k) 12 1 (bitAt (s.downPending k) 0)) 0 (snsCnt s.radBody)

/-- The first element that satisfies `p` taken out. -/
def dropFirst {α : Type} (p : α → Bool) : List α → List α
  | [] => []
  | a :: t => if p a then t else a :: dropFirst p t

/-- The first element that satisfies `p` replaced. -/
def setFirst {α : Type} (p : α → Bool) (b : α) : List α → List α
  | [] => []
  | a :: t => if p a then b :: t else a :: setFirst p b t

/-- The first queued frame of sensor `k` ends, acknowledged or not (R392). -/
def State.downEnd (s : State) (k : Nat) (ok : Bool) : State :=
  let s := { s with radio := { s.radio with txq := dropFirst (fun x => x.sensor = k) s.radio.txq, await := none } }
  ((s.setF Reg.RADIO_TXQ_STATUS 8 9 (k + bitAt ok 8)).showTxq).raise 109

/-- The sensor's acknowledgement of a downlink frame: secured, with a counter above RXCTR. -/
def State.radioAckIn (s : State) (k : Nat) (m : Mhr) : State :=
  match s.radioKey k m with
  | (none, s) => (s.count Reg.RADIO_AUTH_FAIL_CNT).raise 107
  | (some (key, _), s) =>
    if (openFrame key (snsAddr s.radBody k) m).isNone || m.ctr = 0xFFFFFFFF then (s.count Reg.RADIO_AUTH_FAIL_CNT).raise 107
    else if m.ctr ≤ s.rn (Reg.RADIO_SNS_RXCTR k) then s.count Reg.RADIO_DUP_CNT
    else (s.setReg (Reg.RADIO_SNS_RXCTR k) m.ctr).downEnd k true

/-- The enabled sensor of a data frame addressed to the device (order 3). -/
def State.radioSource (s : State) (m : Mhr) : Option Nat :=
  let b := s.radBody
  if fld m.fcf 0 3 = 1 && fld m.fcf 12 2 = 2 && m.dpan = some (wf b 10 0 16) && m.dst = some (word2 b 11) then
    (sensorsOf b).find? fun k => some (snsAddr b k) = m.src
  else none

/-- The sensor whose acknowledgement of a downlink frame is awaited. -/
def State.ackAwaited (s : State) : Option Nat :=
  match s.radio.await with
  | some (d, k) => if s.time.ticks ≤ d then some k else none
  | none => none

/-- The checks of R385 on a frame the receiver heard; an acknowledgement frame that is awaited goes to its downlink frame (R392). -/
def State.radioChecks (s : State) (t : Int) (rx : RadioRx) : State :=
  if rx.ms || rx.psdu.length < 9 then s.count Reg.RADIO_SHORT_CNT
  else
    let f := rx.psdu.take (rx.psdu.length - if rx.fcs4 then 4 else 2)
    if withRadioFcs rx.fcs4 f ≠ rx.psdu then s.count Reg.RADIO_FCS_ERR_CNT
    else
      match parseMhr f with
      | none => s.count Reg.RADIO_UNKNOWN_CNT
      | some m =>
        match if fld m.fcf 0 3 = 2 && fld m.fcf 12 2 = 2 then s.ackAwaited else none with
        | some k => s.radioAckIn k m
        | none =>
          match s.radioSource m with
          | none => s.count Reg.RADIO_UNKNOWN_CNT
          | some k =>
            match s.windowOf k t with
            | none => s.count Reg.RADIO_SLOT_ERR_CNT
            | some n =>
              (s.setSensor k { s.sensor k with heard := some n, winEpoch := s.epoch }).radioSecured k n t rx m

/-- A radio frame whose last symbol has just ended: heard only where its SFD ended in an open window, or while an acknowledgement is
awaited. -/
def radioFrameReceive (rx : RadioRx) (s : State) : State :=
  let t : Int := (s.nowNs : Int) + rx.sfd
  if s.radioOn && s.disc ≠ stUnset && (s.ackAwaited.isSome || (sensorsOf s.radBody).any fun k => (s.windowOf k t).isSome) then
    let r := s.radioChecks t rx
    { r with radio := { r.radio with busy := max r.radio.busy r.nowNs } }
  else s

/-- RADIO_FRAME_RECEIVE: the frame crosses the bridge; `errs` is what the checkers of the memories it reads find. -/
def execRadioFrameReceive (rx : RadioRx) (err : MemErr) (errs : Tbl MemErr) (s : State) : Host.Outcome State Fault Refusal :=
  live (withErrs errs fun s => radioFrameReceive rx (s.crossing 0 err)) s

/-! ## Acknowledgement (R387) -/

/-- The Enh-Ack of an acknowledgement: sequence number, Time Correction, Frame Pending. -/
def State.ackFrame (s : State) (a : RadioAck) (ctr : Nat) : List Byte :=
  let b := s.radBody
  let us := max (-2047) (min 2047 (rhe (-a.err) 1000))
  let fcf := 2 + 2 ^ 3 + bitAt (s.downPending a.sensor) 4 + bitAt a.seq.isNone 8 + 2 ^ 9 + 3 * 2 ^ 10 + 2 * 2 ^ 12
  let front := leBytes 2 fcf ++ (match a.seq with
    | some q => leBytes 1 q
    | none => []) ++ leBytes 2 (wf b 10 0 16) ++ leBytes 8 (snsAddr b a.sensor)
  let ie := leBytes 2 (2 + 0x1E * 128) ++ leBytes 2 (uNat 12 us)
  sealFrame a.key (word2 b 11) (snsLevel b a.sensor) ctr a.keyId front ie []

/-- The acknowledgement due is sent, or withheld. -/
def radioAckSend (s : State) : State :=
  match s.radio.ack with
  | none => s
  | some a =>
    if !s.radioOn || s.time.ticks < a.due then s
    else
      let s := { s with radio := { s.radio with ack := none } }
      if s.dutyHold then s.withheld
      else
        match s.advanceCtr (Reg.RADIO_SNS_TXCTR a.sensor) with
        | (none, s) => s
        | (some ctr, s) =>
          let f := s.ackFrame a ctr
          let us := airtime s.radBody (f.length + if wf s.radBody 0 4 1 = 1 then 4 else 2)
          let s := (s.sendPsdu s.nowNs f).count Reg.RADIO_ACK_CNT
          let s := if a.accepted then s.setSensor a.sensor { s.sensor a.sensor with tref := a.tnom, epoch := s.epoch } else s
          if s.downPending a.sensor then
            { s with radio := { s.radio with down := some (s.time.ticks + (us + 1000) * 250, a.sensor) } }
          else s

/-- RADIO_ACK_SEND. -/
def execRadioAckSend (s : State) : Host.Outcome State Fault Refusal := live radioAckSend s

/-! ## Missed slots and wake-up (R389 to R391) -/

/-- A sensor's wake-up queued before the superframe after `n`. -/
def State.queueWake (s : State) (k : Nat) : State :=
  let s := s.setF (Reg.RADIO_SNS_STATE k) 0 12 (1 + (s.rf (Reg.RADIO_SNS_STATE k) 4 8 + 1) % 256 * 16)
  (s.setSensor k { s.sensor k with wakeIn := some s.radio.next }).count Reg.RADIO_WAKE_CNT

/-- A miss of sensor `k` (R389). -/
def State.miss (s : State) (k : Nat) : State :=
  let s := s.count Reg.RADIO_MISS_CNT
  let r := Reg.RADIO_SNS_STATE k
  let n := s.rf r 2 2 + 1
  match s.rf r 0 2 with
  | 0 => if n = 3 then s.queueWake k else s.setF r 2 2 n
  | 1 =>
    if n < 3 then s.setF r 2 2 n
    else if s.rf r 4 8 < wf s.radBody 7 4 8 then s.queueWake k
    else (((s.setF r 0 2 2).setF r 2 2 3).count Reg.RADIO_LOST_CNT).raise 108
  | _ => s

/-- The slot of sensor `k` in superframe `n` has ended. -/
def State.slotEnded (s : State) (k n : Nat) : Bool :=
  decide (n * sfNs s.radBody + (snsSlot s.radBody k + 1) * slotNs s.radBody ≤ s.nowNs)

/-- A slot of sensor `k` ended without a frame that passed order 4. -/
def slotMiss (k : Nat) (s : State) : State :=
  let x := s.sensor k
  if s.radioOn && s.disc ≠ stUnset && snsOn s.radBody k then
    match s.radio.started.reverse.find? fun n => s.slotIn k n && s.slotEnded k n && x.heard ≠ some n && !(match x.missed with
      | some m => decide (n ≤ m)
      | none => false) with
    | some n => (s.setSensor k { x with missed := some n, winEpoch := s.epoch }).miss k
    | none => s
  else s

/-- SLOT_MISS. -/
def execSlotMiss (sensor : Fin 256) (s : State) : Host.Outcome State Fault Refusal := live (slotMiss sensor.val) s

/-- The wake-up signature of sensor `k` (R391). -/
def wakeSignature (b : List Byte) (k : Nat) : List Byte :=
  let id := beBytes 3 (fld (snsWord b k 3) 8 24)
  [0x55, 0x55, 0x55, 0x55, 0x7A, 0x0E] ++ (List.replicate (wf b 7 12 4) (id ++ [crc8 id])).flatten

/-- Sensor `k` gets a signature: it has a wake-up receiver and feature 74 is accepted. -/
def State.wakes (s : State) (k : Nat) : Bool := fld (snsWord s.radBody k 2) 24 1 = 1 && s.feat 74

/-- The wake-up of sensor `k`: the signatures of one superframe are sent back to back in ascending sensor number, the last ending
WU_LEAD_US before its start. -/
def radioWake (k : Nat) (s : State) : State :=
  match (s.sensor k).wakeIn with
  | none => s
  | some n =>
    let b := s.radBody
    let dur := (6 + 4 * wf b 7 12 4) * 160
    let after := ((sensorsOf b).filter fun j => k ≤ j && (s.sensor j).wakeIn = some n && s.wakes j).length
    if !s.radioOn || s.nowNs + (wf b 8 0 16 + dur * after) * 1000 < n * sfNs b then s
    else
      let s := s.setSensor k { s.sensor k with wakeIn := none, recovery := some n, tref := n * sfNs b, epoch := s.epoch }
      let s := s.raise 111
      if !s.wakes k then s
      else if s.dutyHold then s.withheld
      else (s.emit (.wake k (wakeSignature b k))).transmitted s.nowNs dur

/-- RADIO_WAKE. -/
def execRadioWake (sensor : Fin 256) (s : State) : Host.Outcome State Fault Refusal := live (radioWake sensor.val) s

/-! ## Downlink (R392) -/

/-- A write of RADIO_TXQ_CTRL. -/
def radioTxqCtrl (w : Word) (s : State) : State :=
  let k := fld w.toNat 0 8
  if !(w.getLsbD 31 && s.radioOn) then s
  else if 16 ≤ s.radio.txq.length || !snsOn s.radBody k then s.count Reg.RADIO_TX_FAIL_CNT
  else
    let x : Downlink := { sensor := k, data := Memory.read s.sram (sramIx (s.rn Reg.RADIO_TXQ_ADDR)) (fld w.toNat 8 11) }
    ({ s with radio := { s.radio with txq := s.radio.txq ++ [x] } }).showTxq

/-- RADIO_TXQ_CTRL. -/
def execRadioTxqCtrl (who : Party) (w : Word) (s : State) : Host.Outcome State Fault Refusal :=
  live (written who Reg.RADIO_TXQ_CTRL w (radioTxqCtrl w)) s

/-- A queued frame with AR set, secured at the sensor's level under a key slot. -/
def State.downFrame (s : State) (x : Downlink) (key : List Byte) (slot ctr : Nat) : List Byte :=
  let b := s.radBody
  match parseMhr x.data with
  | some m =>
    let fcf := putFld (putFld m.fcf 5 1 1) 3 1 1
    sealFrame key (word2 b 11) (snsLevel b x.sensor) ctr slot (leBytes 2 fcf ++ m.front.drop 2) m.ies m.rest
  | none => sealFrame key (word2 b 11) (snsLevel b x.sensor) ctr slot x.data [] []

/-- The sensor's queued frame starts 1,000 µs after the acknowledgement that carried Frame Pending. -/
def radioDownlinkSend (s : State) : State :=
  match s.radio.down with
  | none => s
  | some (due, k) =>
    if !s.radioOn || s.time.ticks < due then s
    else
      let s := { s with radio := { s.radio with down := none } }
      match s.radio.txq.find? fun x => x.sensor = k with
      | none => s
      | some x =>
        if s.dutyHold then s.withheld
        else
          let bind := snsBind s.radBody k
          match s.takeBound engRadio bind 3 false with
          | (none, s) => s
          | (some (key, _), s) =>
            match s.advanceCtr (Reg.RADIO_SNS_TXCTR k) with
            | (none, s) => s
            | (some ctr, s) =>
              let f := s.downFrame x key (s.keyIndex (s.bindSlot bind false)) ctr
              let us := airtime s.radBody (f.length + if wf s.radBody 0 4 1 = 1 then 4 else 2)
              let y : Downlink := { x with sends := x.sends + 1 }
              let s := { s with radio := { s.radio with
                txq := setFirst (fun z => z.sensor = k) y s.radio.txq, await := some (s.time.ticks + (us + 3000) * 250, k) } }
              s.sendPsdu s.nowNs f

/-- RADIO_DOWNLINK_SEND. -/
def execRadioDownlinkSend (s : State) : Host.Outcome State Fault Refusal := live radioDownlinkSend s

/-- A downlink frame is not acknowledged in time: resent in a later slot, or discarded after three sends. -/
def downlinkAckTimeout (s : State) : State :=
  match s.radio.await with
  | none => s
  | some (d, k) =>
    if s.time.ticks < d then s
    else
      match s.radio.txq.find? fun x => x.sensor = k with
      | some x =>
        if 3 ≤ x.sends then (s.downEnd k false).count Reg.RADIO_TX_FAIL_CNT
        else { s with radio := { s.radio with await := none } }
      | none => { s with radio := { s.radio with await := none } }

/-- DOWNLINK_ACK_TIMEOUT. -/
def execDownlinkAckTimeout (s : State) : Host.Outcome State Fault Refusal := live downlinkAckTimeout s

/-! ## Image and reset -/

/-- The key bindings of a RADIO pattern: the beacon's, then each sensor's. -/
def radioBinds (b : List Byte) : List Nat := wf b 9 24 8 :: (List.range (snsCnt b)).map (snsBind b)

/-- The RADIO pattern of a full image applied (R384, R389, R394, R395). -/
def State.applyRadio (s : State) : State :=
  let b := s.radBody
  if !s.radioOn then s
  else
    let old := s.radio.binds
    let new := radioBinds b
    let fresh := fun (i off : Nat) (s : State) =>
      if old.getD i 256 ≠ new.getD i 256 && s.rn off = 0xFFFFFFFF then s.setReg off 0 else s
    let s := fresh 0 Reg.RADIO_BCN_CTR s
    let first := (s.nowNs + sfNs b - 1) / sfNs b
    let s := { s with radio := { next := first, binds := new, hour := s.radio.hour, antsel := wf b 8 23 1 = 1, band := wf b 0 0 1 = 1 } }
    let s := ((s.setReg Reg.RADIO_CFG (word b 0)).setReg Reg.RADIO_TX_PWR (wf b 9 0 5)).setReg Reg.RADIO_STATUS
      (4 + s.rf Reg.RADIO_STATUS 1 1 * 2)
    let s := s.forRange (fun k s =>
      let s := fresh (k + 1) (Reg.RADIO_SNS_TXCTR k) s
      let s := (s.setReg (Reg.RADIO_SNS_STATE k) (if snsOn b k then 0 else 3)).setReg (Reg.RADIO_SNS_DRIFT k) 0
      s.setSensor k { tref := first * sfNs b, epoch := s.epoch, winEpoch := s.epoch }) 0 (snsCnt b)
    (s.setReg Reg.RADIO_TXQ_STATUS 0).showRadioQ

/-- A WDT, SOFT or LINK reset: beacons go on (R441); queues and exchanges in progress go. -/
def State.resetRadio (s : State) : State :=
  ({ s with radio := { s.radio with txq := [], ack := none, down := none, await := none, rxHead := 0, rxCount := 0, watch := {} } }).setReg
    Reg.RADIO_STATUS (if s.radioOn then 5 else 0)

/-- The radio goes silent with the image, and every front-end output is low (UNLOAD, PIN, POR). -/
def State.dropRadio (s : State) : State :=
  ({ s with radio := { binds := s.radio.binds } }).setReg Reg.RADIO_STATUS 0

end Sys2Proof.Machine
end

