-- ==== Sys2Proof/Machine/Micro.lean ====
section
/-! DEFINITION. Microcode (R173 to R183): a node that fires on one tile, and the meaning of each operation. -/
namespace Sys2Proof.Machine
open Sys2Proof

/-- A node that fires: the tile's panel and number, the word, the tokens' tag and instant, and the tokens by port. -/
structure Fire where
  tile : Nat
  op : Nat
  tag : Nat
  inst : Nat
  bg : Bool
  ports : List (Option Tok)
  derr : MemErr
  cerr : MemErr
deriving DecidableEq, Repr

/-- EXT of a firing node. -/
def Fire.ext (x : Fire) (lo len : Nat) : Nat := fld x.op lo len

/-- A value with its VOID bit. -/
abbrev VVal := Int × Bool

/-- Register `r` of a tile. -/
def State.ureg (s : State) (t r : Nat) : VVal :=
  let v := Tbl.get (s.tile t).regs r (0, false)
  (v.1.toInt, v.2)

/-- Register `r` of a tile written. -/
def State.setUreg (s : State) (t r : Nat) (v : VVal) : State :=
  s.setTile t { s.tile t with regs := Tbl.set (s.tile t).regs (r % 64) (BitVec.ofInt 40 v.1, v.2) (0, false) }

/-- Accumulator `a` of a tile. -/
def State.uacc (s : State) (t a : Nat) : VVal :=
  let v := Tbl.get (s.tile t).accs a (0, false)
  (v.1.toInt, v.2)

/-- Accumulator `a` of a tile written. -/
def State.setUacc (s : State) (t a : Nat) (v : VVal) : State :=
  s.setTile t { s.tile t with accs := Tbl.set (s.tile t).accs (a % 8) (BitVec.ofInt 96 v.1, v.2) (0, false) }

/-- The operand a selector names (R178), `k` further along in a pair; a port that holds no token gives a free value. -/
def State.operand (s : State) (x : Fire) (sel k : Nat) : VVal :=
  if fld sel 6 1 = 0 then s.ureg x.tile ((fld sel 0 6 + k) % 64)
  else
    match x.ports.getD (fld sel 0 2 + k) none with
    | some t => (t.value.toInt, t.void)
    | none => ((Config.free 40 (s.draws + fld sel 0 2 + k)).toInt, false)

/-- Operand A. -/
def State.opA (s : State) (x : Fire) : VVal := s.operand x (fld x.op 47 7) 0
/-- Second part of operand pair A. -/
def State.opA2 (s : State) (x : Fire) : VVal := s.operand x (fld x.op 47 7) 1
/-- Operand B. -/
def State.opB (s : State) (x : Fire) : VVal := s.operand x (fld x.op 40 7) 0
/-- Second part of operand pair B. -/
def State.opB2 (s : State) (x : Fire) : VVal := s.operand x (fld x.op 40 7) 1
/-- Operand C. -/
def State.opC (s : State) (x : Fire) : VVal := s.operand x (fld x.op 33 7) 0
/-- Second part of operand pair C. -/
def State.opC2 (s : State) (x : Fire) : VVal := s.operand x (fld x.op 33 7) 1

/-- Some token operand of the node is VOID. -/
def Fire.void (x : Fire) : Bool := x.ports.any fun p => (p.map Tok.void).getD false

/-- RND of a firing node. -/
def Fire.rnd (x : Fire) : Nat := fld x.op 22 2
/-- SAT of a firing node. -/
def Fire.sat (x : Fire) : Bool := fld x.op 21 1 = 1
/-- DST of a firing node. -/
def Fire.dst (x : Fire) : Nat := fld x.op 27 6
/-- ACC of a firing node. -/
def Fire.acc (x : Fire) : Nat := fld x.op 24 3

/-! ## Sending (R176, R181 to R183) -/

/-- Route entry `r` of panel `p`, as its two words (R183, R192). -/
def State.route (s : State) (p r : Nat) : Nat × Nat :=
  let b := s.pat 1
  let o := pnlWord b p 18 / 4
  (word b (o + 2 * r), word b (o + 2 * r + 1))

/-- A cell by route entry `e` of tile `t`'s panel: one at each panel of its stops. -/
def State.byRoute (s : State) (t : Nat) (e : Nat × Nat) (c : Nat → RingCell) : State :=
  s.forRange (fun p s => if fld e.1 p 1 = 1 then s.panelCell p (c (t / 16)) else s) 0 16

/-- A TOKEN cell by route `r` of the node's panel. -/
def State.ringToken (s : State) (x : Fire) (r k : Nat) (v : VVal) : State :=
  let e := s.route (x.tile / 16) r
  s.byRoute x.tile e fun src => .token src (fld e.1 19 4)
    { node := fld e.2 0 10, port := fld e.2 10 2 + k, bg := fld e.1 23 1 = 1, tag := x.tag, inst := x.inst
      value := BitVec.ofInt 40 v.1, void := v.2, src := 16 }

/-- A BLOCK cell of 8 lanes by route `r` of the node's panel. -/
def State.ringBlock (s : State) (x : Fire) (r : Nat) (data : List (BitVec 40)) : State :=
  let e := s.route (x.tile / 16) r
  s.byRoute x.tile e fun src =>
    .block src { tile := fld e.1 19 4, lane := fld e.2 12 16, cntr := fld e.1 24 6, bg := fld e.1 23 1 = 1, data := data }

/-- A token to a tile of the node's own panel (SEND LOCAL). -/
def State.localToken (s : State) (x : Fire) (v : VVal) : State :=
  s.toTile (x.tile / 16 * 16 + x.ext 0 4)
    { node := x.ext 4 10, port := x.ext 14 2, bg := x.bg, tag := (x.tag + x.ext 16 4) % 65536, inst := x.inst
      value := BitVec.ofInt 40 v.1, void := v.2, src := x.tile % 16 }

/-- EMIT: the result also goes by the route in EXT [19:12] (R178). -/
def State.emitResult (s : State) (x : Fire) (k : Nat) (v : VVal) : State :=
  if fld x.op 20 1 = 1 then s.ringToken x (x.ext 12 8) k v else s

/-- A result written to DST, and emitted. -/
def State.result (s : State) (x : Fire) (v : VVal) : State := (s.setUreg x.tile x.dst v).emitResult x 0 v

/-- A pair of results written to DST and the register after it, and emitted to the route's port and the one after it. -/
def State.result2 (s : State) (x : Fire) (v w : VVal) : State :=
  (((s.setUreg x.tile x.dst v).setUreg x.tile (x.dst + 1) w).emitResult x 0 v).emitResult x 1 w

/-! ## Firing (R177, R198) -/

/-- The unit that a node's operation needs, of those of R172; ALU and CTRL operations need none of them. -/
def unitOf (op : Nat) : Option Nat := if fld op 60 4 = 1 || 6 ≤ fld op 60 4 then none else some (fld op 60 4)

/-- Entry `m` of tile `t` may issue now (R172): no entry that became ready earlier, or with it under a lower node number, waits for the same
unit or for none. DEDUCED (log 59): an earlier one whose own unit is busy does not hold it back. -/
def State.mayIssue (s : State) (t : Nat) (m : Match) : Bool :=
  (s.tile t).store.all fun y => match y.ready with
    | none => true
    | some q =>
      let r := m.ready.getD 0
      !(q < r || (q = r && y.node < m.node)) ||
        ((unitOf (s.ucode t y.node)).isSome && unitOf (s.ucode t y.node) ≠ unitOf (s.ucode t m.node))

/-- The word of a node whose tokens are all present and whose turn it is, and the state with its entry freed. -/
def State.takeFire (s : State) (t : Nat) (f : Firing) : Option (Fire × State) :=
  let op := s.ucode t f.node
  let x := s.tile t
  match x.store.find? fun m => m.node = f.node && m.tag = f.tag && m.inst = f.inst with
  | some m =>
    if (m.ports.take (fld op 54 2)).all Option.isSome && s.mayIssue t m then
      some ({ tile := t, op := op, tag := f.tag, inst := f.inst, bg := m.ports.any fun p => (p.map Tok.bg).getD false, ports := m.ports
              derr := f.derr, cerr := f.cerr }, s.setTile t { x with store := x.store.erase m })
    else none
  | none => none

/-- The operation gives a pair of results (R174, R178, R179): ROT, VEC, SINCOS and LD64. -/
def pairResult (op : Nat) : Bool := (fld op 60 4 = 2 && fld op 56 4 ≤ 2) || (fld op 60 4 = 4 && fld op 56 4 = 1)

/-- A poisoned node sends a VOID zero to every destination it names (R198): a token's ports, or the lanes of a BLOCK, where zero is stored. -/
def State.poisoned (s : State) (x : Fire) : State :=
  if fld x.op 60 4 = 5 then
    if fld x.op 56 4 = 0 then s.localToken x (0, true)
    else if fld x.op 56 4 = 1 then s.ringToken x (x.ext 0 8) 0 (0, true)
    else if fld x.op 56 4 = 5 then s.ringBlock x (x.ext 0 8) (List.replicate 8 0)
    else s
  else
    let s := s.emitResult x 0 (0, true)
    if pairResult x.op then s.emitResult x 1 (0, true) else s

/-- The fetch of a node's word checked: an uncorrectable error poisons the node. -/
def State.fetchNode (s : State) (t node : Nat) (err : MemErr) : State :=
  let (e, s) := s.tileCheck t 1 node err
  if e = .ue then
    (s.setTile t { s.tile t with poison := if (s.tile t).poison.contains node then (s.tile t).poison else (s.tile t).poison ++ [node] }).setF
      (Reg.FAB_UC_POISON (t / 32)) (t % 32) 1 1
  else s

/-- Node `f` of tile `t` fires if it is ready and its operation is OP `o` of CLASS `c`; `g` is the operation. -/
def fire (c o : Nat) (g : Fire → State → State) (t : Fin 256) (f : Firing) (s : State) : State :=
  if !s.measuring || s.role (t.val / 16) = 0 || fld (s.ucode t.val f.node) 60 4 ≠ c || fld (s.ucode t.val f.node) 56 4 ≠ o then s
  else
    match s.takeFire t.val f with
    | none => s
    | some (x, s) =>
      let s := s.fetchNode t.val f.node f.uerr
      let s := if (s.tile t.val).poison.contains f.node then s.poisoned x else g x s
      { s with draws := s.draws + 8 }

/-- A node fires: the meaning of a microcode row. -/
def fires (c o : Nat) (g : Fire → State → State) (t : Fin 256) (f : Firing) (s : State) : Host.Outcome State Fault Refusal :=
  live (fire c o g t f) s

/-! ## Multiply-accumulate and extraction (R173) -/

/-- An accumulator given the 97-bit sum `v`, saturated and counted. -/
def State.accumulate (s : State) (x : Fire) (a : Nat) (v : Int) (void : Bool) : State :=
  let s := if v < -(2 ^ 95) || 2 ^ 95 - 1 < v then s.count Reg.FAB_ACC_SAT_CNT else s
  s.setUacc x.tile a (clampS 96 v, void)

/-- MUL, MACC and MSUB: `k` times the product, on top of the accumulator where `add` holds. -/
def macOp (k : Int) (add : Bool) (x : Fire) (s : State) : State :=
  let a := s.opA x
  let b := s.opB x
  let c := s.uacc x.tile x.acc
  s.accumulate x x.acc ((if add then c.1 else 0) + k * (a.1 * b.1)) (x.void || a.2 || b.2 || (add && c.2))

/-- CMAC: the product of two phasors added to accumulators n and n + 4. -/
def cmacOp (x : Fire) (s : State) : State :=
  let a := s.opA x
  let a2 := s.opA2 x
  let b := s.opB x
  let b2 := s.opB2 x
  let p := cmulRaw ⟨a.1, a2.1⟩ ⟨b.1, b2.1⟩
  let v := x.void || a.2 || a2.2 || b.2 || b2.2
  let n := x.acc % 4
  let c := s.uacc x.tile n
  let d := s.uacc x.tile (n + 4)
  (s.accumulate x n (c.1 + p.1) (v || c.2)).accumulate x (n + 4) (d.1 + p.2) (v || d.2)

/-- The value EXTR gives for `v`, and whether OVF is set. -/
def extract (mode sh : Nat) (sat : Bool) (v : Int) : Int × Bool :=
  let q := rnd mode v (2 ^ sh)
  if sat then (sat39 q, over39 q) else (sInt 40 (uNat 40 q), q < -(2 ^ 39) || 2 ^ 39 - 1 < q)

/-- OVF events counted. -/
def State.ovf (s : State) (c : Bool) : State := if c then s.count Reg.FAB_OVF_CNT else s

/-- EXTR. -/
def extrOp (x : Fire) (s : State) : State :=
  let c := s.uacc x.tile x.acc
  let r := extract x.rnd (x.ext 0 7) x.sat c.1
  (s.ovf r.2).result x (r.1, x.void || c.2)

/-- CLR. -/
def clrOp (x : Fire) (s : State) : State := s.setUacc x.tile x.acc (0, x.void)

/-- ACCADD. -/
def accaddOp (x : Fire) (s : State) : State :=
  let c := s.uacc x.tile x.acc
  let a := s.opC x
  s.accumulate x x.acc (c.1 + a.1 * (2 ^ x.ext 0 7 : Nat)) (x.void || c.2 || a.2)

/-! ## ALU (R179) -/

/-- A 40-bit value from an exact one: saturated at ±(2^39 − 1) where `sat` holds, else wrapped. -/
def alu40 (sat : Bool) (v : Int) : Int := if sat then sat39 v else sInt 40 (uNat 40 v)

/-- An operation on operands A and B. -/
def alu2 (g : Fire → Int → Int → Int) (x : Fire) (s : State) : State :=
  let a := s.opA x
  let b := s.opB x
  s.result x (g x a.1 b.1, x.void || a.2 || b.2)

/-- An operation on operand A. -/
def alu1 (g : Fire → Int → Int) (x : Fire) (s : State) : State :=
  let a := s.opA x
  s.result x (g x a.1, x.void || a.2)

/-- A bitwise operation on 40-bit values. -/
def bitwise (g : BitVec 40 → BitVec 40 → BitVec 40) (_ : Fire) (a b : Int) : Int := (g (BitVec.ofInt 40 a) (BitVec.ofInt 40 b)).toInt

/-- SEL. -/
def selOp (x : Fire) (s : State) : State :=
  let a := s.opA x
  let b := s.opB x
  let c := s.opC x
  s.result x (if c.1 ≠ 0 then a.1 else b.1, x.void || a.2 || b.2 || c.2)

/-- MOVI. -/
def moviOp (x : Fire) (s : State) : State := s.result x (sInt 20 (x.ext 0 20), x.void)

/-! ## CORDIC (R174) -/

/-- ROT. -/
def rotOp (x : Fire) (s : State) : State :=
  let a := s.opA x
  let a2 := s.opA2 x
  let b := s.opB x
  let r := rotRaw ⟨a.1, a2.1⟩ (uNat 40 b.1)
  let v := x.void || a.2 || a2.2 || b.2
  ((s.ovf (over39 r.re)).ovf (over39 r.im)).result2 x (sat39 r.re, v) (sat39 r.im, v)

/-- VEC. -/
def vecOp (x : Fire) (s : State) : State :=
  let a := s.opA x
  let a2 := s.opA2 x
  let m := within2 (Config.cordic 5 a.1 a2.1 0) (isqrt (2 ^ 32 * (a.1 * a.1 + a2.1 * a2.1).toNat)) 16
  let r := vec ⟨a.1, a2.1⟩
  let v := x.void || a.2 || a2.2
  (s.ovf (over39 m)).result2 x (r.1, v) (sInt 40 r.2, v)

/-- SINCOS. -/
def sincosOp (x : Fire) (s : State) : State :=
  let a := s.opA x
  let r := sinCos40 (uNat 40 a.1)
  s.result2 x (r.1, x.void || a.2) (r.2, x.void || a.2)

/-- ATAN2: the angle of (y, x), y in A and x in B. -/
def atan2Op (x : Fire) (s : State) : State :=
  let a := s.opA x
  let b := s.opB x
  s.result x (sInt 40 (atan40 b.1 a.1), x.void || a.2 || b.2)

/-! ## Divide and square root (R174) -/

/-- A result of the divide and square-root unit: saturation and a corner case count in FAB_OVF_CNT. -/
def State.divResult (s : State) (x : Fire) (r : Int × Bool) (void : Bool) : State := (s.ovf r.2).result x (r.1, x.void || void || r.2)

/-- DIV. -/
def divOp (x : Fire) (s : State) : State :=
  let a := s.opA x
  let b := s.opB x
  s.divResult x (divFix x.rnd (x.ext 0 6) a.1 b.1) (a.2 || b.2)

/-- RECIP. -/
def recipOp (x : Fire) (s : State) : State :=
  let a := s.opA x
  s.divResult x (recipFix x.rnd (x.ext 0 6) a.1) a.2

/-- SQRT. -/
def sqrtOp (x : Fire) (s : State) : State :=
  let a := s.opA x
  s.divResult x (sqrtFix x.rnd (x.ext 0 6) a.1) a.2

/-- RSQRT. -/
def rsqrtOp (x : Fire) (s : State) : State :=
  let a := s.opA x
  s.divResult x (rsqrtFix x.rnd (x.ext 0 6) a.1) a.2

/-! ## Memory (R171, R179, R198) -/

/-- The background grants of a background node's access to its tile's SRAM. -/
def State.nodeAccess (s : State) (x : Fire) (a n : Nat) : State := if x.bg then s.bgAccess x.tile a n else s

/-- The words of `n` bytes of tile SRAM from byte `b` checked for a load, and the background grants counted. -/
def State.loadCheck (s : State) (x : Fire) (b n : Nat) : Bool × State := (s.nodeAccess x b n).readCheck x.tile b n x.derr

/-- A lane loaded: VOID only under the memory-error rules (R175). A lane beyond the last gives a free value. -/
def loadLane (k : Nat) (x : Fire) (s : State) : State :=
  if k < 52428 then
    let (ue, s) := s.loadCheck x (5 * k) 5
    s.result x ((s.lane x.tile k).toInt, ue)
  else (s.result x ((s.draw 40).toInt, false)).drawn

/-- A lane stored; one beyond the last is not. -/
def storeLane (k : Nat) (x : Fire) (s : State) : State :=
  let s := s.nodeAccess x (5 * k) 5
  s.setLane x.tile k (BitVec.ofInt 40 (s.opC x).1)

/-- The lane address of an X form: EXT plus register A, modulo 2^40. -/
def State.xAddr (s : State) (x : Fire) : Nat := uNat 40 ((x.ext 0 16 : Nat) + (s.opA x).1)

/-- LD64: the word's low 40 bits to DST and its high 24 bits to the register after it. -/
def ld64Op (x : Fire) (s : State) : State :=
  let w := x.ext 0 16 % 2 ^ 15
  let (ue, s) := s.loadCheck x (8 * w) 8
  let v := leNat (s.tileBytes x.tile (8 * w) 8)
  s.result2 x (sInt 40 v, ue) ((v / 2 ^ 40 : Nat), ue)

/-- ST64: the word's low 40 bits from C and its high 24 bits from the second part of C. -/
def st64Op (x : Fire) (s : State) : State :=
  let w := x.ext 0 16 % 2 ^ 15
  let s := s.nodeAccess x (8 * w) 8
  s.tileStore x.tile (8 * w) (leBytes 8 (uNat 40 (s.opC x).1 + 2 ^ 40 * uNat 24 (s.opC2 x).1))

/-! ## Send and control (R179, R181, R182) -/

/-- SEND BLOCK: 8 lanes from lane address A, to the tile and lane of the route at each stop. -/
def sendBlockOp (x : Fire) (s : State) : State :=
  let a := uNat 40 (s.opA x).1
  let (_, s) := s.loadCheck x (5 * a) 40
  s.ringBlock x (x.ext 0 8) ((List.range 8).map fun i => s.lane x.tile (a + i))

/-- An ALARM or DONE cell of the node's panel passes its parity check, or is discarded as an orphan (R200). -/
def State.cellChecked (s : State) (x : Fire) (f : State → State) : State :=
  let (e, s) := s.check 20 (x.tile / 16) x.cerr
  if e = .ue then s.cellLost (x.tile / 16) false else f s

/-- SEND ALARM: the 64-byte entry at word address A goes to the alarm path. -/
def sendAlarmOp (x : Fire) (s : State) : State :=
  let a := uNat 40 (s.opA x).1 % 2 ^ 15
  let (_, s) := s.loadCheck x (8 * a) 64
  s.cellChecked x fun s => s.pushAlarm (AlarmEntry.parse (s.role (x.tile / 16)) (s.tileBytes x.tile (8 * a) 64))

/-- SEND DONE: the panel's DONE cell is on the ring; the lead's ends the instant it runs (R190). -/
def sendDoneOp (x : Fire) (s : State) : State :=
  s.cellChecked x fun s => s.putPanel (x.tile / 16) { s.panel (x.tile / 16) with doneSent := (s.panel (x.tile / 16)).started }

/-- LOOP: the node's token again with TAG + 1, until TAG reaches register A. -/
def loopOp (x : Fire) (node : Nat) (s : State) : State :=
  match x.ports.getD 0 none with
  | some k => if (x.tag : Int) < (s.opA x).1 then s.toTile x.tile { k with node := node, tag := (x.tag + 1) % 65536, stalled := false, src := x.tile % 16 } else s
  | none => s

/-! ## The microcode rows -/

/-- MUL. -/
def execMul (t : Fin 256) (f : Firing) (s : State) : Host.Outcome State Fault Refusal := fires 0 0 (macOp 1 false) t f s
/-- MACC. -/
def execMacc (t : Fin 256) (f : Firing) (s : State) : Host.Outcome State Fault Refusal := fires 0 1 (macOp 1 true) t f s
/-- MSUB. -/
def execMsub (t : Fin 256) (f : Firing) (s : State) : Host.Outcome State Fault Refusal := fires 0 2 (macOp (-1) true) t f s
/-- CMAC. -/
def execCmac (t : Fin 256) (f : Firing) (s : State) : Host.Outcome State Fault Refusal := fires 0 3 cmacOp t f s
/-- EXTR. -/
def execExtr (t : Fin 256) (f : Firing) (s : State) : Host.Outcome State Fault Refusal := fires 0 4 extrOp t f s
/-- CLR. -/
def execClr (t : Fin 256) (f : Firing) (s : State) : Host.Outcome State Fault Refusal := fires 0 5 clrOp t f s
/-- ACCADD. -/
def execAccadd (t : Fin 256) (f : Firing) (s : State) : Host.Outcome State Fault Refusal := fires 0 6 accaddOp t f s
/-- ADD. -/
def execAdd (t : Fin 256) (f : Firing) (s : State) : Host.Outcome State Fault Refusal :=
  fires 1 0 (alu2 fun x a b => alu40 x.sat (a + b)) t f s
/-- SUB. -/
def execSub (t : Fin 256) (f : Firing) (s : State) : Host.Outcome State Fault Refusal :=
  fires 1 1 (alu2 fun x a b => alu40 x.sat (a - b)) t f s
/-- NEG. -/
def execNeg (t : Fin 256) (f : Firing) (s : State) : Host.Outcome State Fault Refusal := fires 1 2 (alu1 fun x a => alu40 x.sat (-a)) t f s
/-- ABS. -/
def execAbs (t : Fin 256) (f : Firing) (s : State) : Host.Outcome State Fault Refusal :=
  fires 1 3 (alu1 fun x a => alu40 x.sat (a.natAbs : Nat)) t f s
/-- MIN. -/
def execMin (t : Fin 256) (f : Firing) (s : State) : Host.Outcome State Fault Refusal := fires 1 4 (alu2 fun _ a b => min a b) t f s
/-- MAX. -/
def execMax (t : Fin 256) (f : Firing) (s : State) : Host.Outcome State Fault Refusal := fires 1 5 (alu2 fun _ a b => max a b) t f s
/-- CMPLT. -/
def execCmplt (t : Fin 256) (f : Firing) (s : State) : Host.Outcome State Fault Refusal :=
  fires 1 6 (alu2 fun _ a b => if a < b then 1 else 0) t f s
/-- CMPGE. -/
def execCmpge (t : Fin 256) (f : Firing) (s : State) : Host.Outcome State Fault Refusal :=
  fires 1 7 (alu2 fun _ a b => if b ≤ a then 1 else 0) t f s
/-- AND. -/
def execAnd (t : Fin 256) (f : Firing) (s : State) : Host.Outcome State Fault Refusal := fires 1 8 (alu2 (bitwise (· &&& ·))) t f s
/-- OR. -/
def execOr (t : Fin 256) (f : Firing) (s : State) : Host.Outcome State Fault Refusal := fires 1 9 (alu2 (bitwise (· ||| ·))) t f s
/-- XOR. -/
def execXor (t : Fin 256) (f : Firing) (s : State) : Host.Outcome State Fault Refusal := fires 1 10 (alu2 (bitwise (· ^^^ ·))) t f s
/-- SHL. -/
def execShl (t : Fin 256) (f : Firing) (s : State) : Host.Outcome State Fault Refusal :=
  fires 1 11 (alu1 fun x a => alu40 false (a * (2 ^ x.ext 0 6 : Nat))) t f s
/-- SHRA. -/
def execShra (t : Fin 256) (f : Firing) (s : State) : Host.Outcome State Fault Refusal :=
  fires 1 12 (alu1 fun x a => a / (2 ^ x.ext 0 6 : Nat)) t f s
/-- SEL. -/
def execSel (t : Fin 256) (f : Firing) (s : State) : Host.Outcome State Fault Refusal := fires 1 13 selOp t f s
/-- MOVI. -/
def execMovi (t : Fin 256) (f : Firing) (s : State) : Host.Outcome State Fault Refusal := fires 1 14 moviOp t f s
/-- ROT. -/
def execRot (t : Fin 256) (f : Firing) (s : State) : Host.Outcome State Fault Refusal := fires 2 0 rotOp t f s
/-- VEC. -/
def execVec (t : Fin 256) (f : Firing) (s : State) : Host.Outcome State Fault Refusal := fires 2 1 vecOp t f s
/-- SINCOS. -/
def execSincos (t : Fin 256) (f : Firing) (s : State) : Host.Outcome State Fault Refusal := fires 2 2 sincosOp t f s
/-- ATAN2. -/
def execAtan2 (t : Fin 256) (f : Firing) (s : State) : Host.Outcome State Fault Refusal := fires 2 3 atan2Op t f s
/-- DIV. -/
def execDiv (t : Fin 256) (f : Firing) (s : State) : Host.Outcome State Fault Refusal := fires 3 0 divOp t f s
/-- RECIP. -/
def execRecip (t : Fin 256) (f : Firing) (s : State) : Host.Outcome State Fault Refusal := fires 3 1 recipOp t f s
/-- SQRT. -/
def execSqrt (t : Fin 256) (f : Firing) (s : State) : Host.Outcome State Fault Refusal := fires 3 2 sqrtOp t f s
/-- RSQRT. -/
def execRsqrt (t : Fin 256) (f : Firing) (s : State) : Host.Outcome State Fault Refusal := fires 3 3 rsqrtOp t f s
/-- LD40. -/
def execLd40 (t : Fin 256) (f : Firing) (s : State) : Host.Outcome State Fault Refusal :=
  fires 4 0 (fun x s => loadLane (x.ext 0 16) x s) t f s
/-- LD64. -/
def execLd64 (t : Fin 256) (f : Firing) (s : State) : Host.Outcome State Fault Refusal := fires 4 1 ld64Op t f s
/-- ST40. -/
def execSt40 (t : Fin 256) (f : Firing) (s : State) : Host.Outcome State Fault Refusal :=
  fires 4 2 (fun x s => storeLane (x.ext 0 16) x s) t f s
/-- ST64. -/
def execSt64 (t : Fin 256) (f : Firing) (s : State) : Host.Outcome State Fault Refusal := fires 4 3 st64Op t f s
/-- LDX40. -/
def execLdx40 (t : Fin 256) (f : Firing) (s : State) : Host.Outcome State Fault Refusal :=
  fires 4 4 (fun x s => loadLane (s.xAddr x) x s) t f s
/-- STX40. -/
def execStx40 (t : Fin 256) (f : Firing) (s : State) : Host.Outcome State Fault Refusal :=
  fires 4 5 (fun x s => storeLane (s.xAddr x) x s) t f s
/-- SEND LOCAL. -/
def execSendLocal (t : Fin 256) (f : Firing) (s : State) : Host.Outcome State Fault Refusal :=
  fires 5 0 (fun x s => s.localToken x ((s.opA x).1, x.void || (s.opA x).2)) t f s
/-- SEND RING. -/
def execSendRing (t : Fin 256) (f : Firing) (s : State) : Host.Outcome State Fault Refusal :=
  fires 5 1 (fun x s => s.ringToken x (x.ext 0 8) 0 ((s.opA x).1, x.void || (s.opA x).2)) t f s
/-- SEND CNT. -/
def execSendCnt (t : Fin 256) (f : Firing) (s : State) : Host.Outcome State Fault Refusal :=
  fires 5 2 (fun x s => s.decrement (x.tile / 16) (x.ext 0 6)) t f s
/-- SEND ALARM. -/
def execSendAlarm (t : Fin 256) (f : Firing) (s : State) : Host.Outcome State Fault Refusal := fires 5 3 sendAlarmOp t f s
/-- SEND DONE. -/
def execSendDone (t : Fin 256) (f : Firing) (s : State) : Host.Outcome State Fault Refusal := fires 5 4 sendDoneOp t f s
/-- SEND BLOCK. -/
def execSendBlock (t : Fin 256) (f : Firing) (s : State) : Host.Outcome State Fault Refusal := fires 5 5 sendBlockOp t f s
/-- NOP: the node's tokens are taken and nothing else happens. -/
def execNop (t : Fin 256) (f : Firing) (s : State) : Host.Outcome State Fault Refusal := fires 6 0 (fun _ s => s) t f s
/-- LOOP. -/
def execLoopTok (t : Fin 256) (f : Firing) (s : State) : Host.Outcome State Fault Refusal :=
  fires 6 1 (fun x s => loopOp x f.node s) t f s
/-- END: the node's tokens are taken and nothing follows. -/
def execEndSeq (t : Fin 256) (f : Firing) (s : State) : Host.Outcome State Fault Refusal := fires 6 2 (fun _ s => s) t f s
/-- TRAP: the orphan fault. -/
def execTrap (t : Fin 256) (f : Firing) (s : State) : Host.Outcome State Fault Refusal :=
  fires 6 3 (fun x s => s.detect 18 (x.tile / 16) false) t f s

end Sys2Proof.Machine
end

