-- ==== Sys2Proof/Machine/Thr.lean ====
section
/-! DEFINITION. The threshold engine (R239 to R248). -/
namespace Sys2Proof.Machine
open Sys2Proof

/-- A section of THRESHOLDS: for each of the three kinds of monitor, word 0 and word 1 of its records. -/
structure ThrSec where
  mon1 : List (Nat × Nat)
  mon2 : List (Nat × Nat)
  pairs : List (Nat × Nat)
deriving DecidableEq, Repr

/-- `n` 8-byte records from byte `o`. -/
def recs8 (b : List Byte) (o n : Nat) : List (Nat × Nat) := (List.range n).map fun k => (numAt b (o + 8 * k) 4, numAt b (o + 8 * k + 4) 4)

/-- The sections from byte `o`, by INST (R240). -/
def thrSecs (b : List Byte) (o : Nat) : Nat → List (Nat × ThrSec)
  | 0 => []
  | k + 1 =>
    let m1 := fld (numAt b (o + 4) 4) 0 17
    let m2 := fld (numAt b (o + 8) 4) 0 15
    let pc := fld (numAt b (o + 12) 4) 0 17
    let r := o + 16
    (fld (numAt b o 4) 0 2, { mon1 := recs8 b r m1, mon2 := recs8 b (r + 8 * m1) m2, pairs := recs8 b (r + 8 * m1 + 8 * m2) pc }) ::
      thrSecs b (r + 8 * (m1 + m2 + pc)) k

/-- The sections of a body. -/
def thrAll (b : List Byte) : List (Nat × ThrSec) := thrSecs b (16 + 32 * wf b 1 0 11) (wf b 0 0 3)

/-- A limit set in force (R240, R242). -/
structure Limit where
  dir : Nat
  on : Nat
  off : Nat
  level : Int
  hyst : Int
deriving DecidableEq, Repr

/-- Limit set `k`, with its windows' values in force. -/
def State.limit (s : State) (b : List Byte) (k : Nat) : Limit :=
  let o := 16 + 32 * k
  let w := numAt b o 4
  let t := 0x6000 + 4 * k
  { dir := fld w 0 2, level := sInt 40 (s.winOr t (numAt b (o + 4) 5)), hyst := sInt 40 (s.winOr (t + 1) (numAt b (o + 12) 5))
    on := s.winOr (t + 2) (fld w 8 8), off := s.winOr (t + 3) (fld w 16 8) }

/-- A value judged against a limit (R243): the judged value, on and off. -/
def Limit.judge (l : Limit) (v : Int) : Int × Bool × Bool :=
  let v := if l.dir = 2 then min (v.natAbs : Int) (2 ^ 39 - 1) else v
  if l.dir = 1 then (v, v < l.level, l.level + l.hyst ≤ v) else (v, l.level < v, v ≤ l.level - l.hyst)

/-- A monitor after a judged value (R244), and whether it asserted and whether it released. -/
def Monitor.move (m : Monitor) (l : Limit) (v : Int) : Monitor × Bool × Bool :=
  let (v, on, off) := l.judge v
  let st := fun (a k : Nat) => ({ state := a, cnt := k % 256, v := v } : Monitor)
  match m.state with
  | 0 => if on then (if l.on = 1 then (st 2 1, true, false) else (st 1 1, false, false)) else (st 0 0, false, false)
  | 1 => if on then (if m.cnt + 1 = l.on then (st 2 (m.cnt + 1), true, false) else (st 1 (m.cnt + 1), false, false)) else (st 0 0, false, false)
  | 2 => if off then (if l.off = 1 then (st 0 1, false, true) else (st 3 1, false, false)) else (st 2 0, false, false)
  | _ => if off then (if m.cnt + 1 = l.off then (st 0 (m.cnt + 1), false, true) else (st 3 (m.cnt + 1), false, false)) else (st 2 0, false, false)

/-- The input of a pass 1 monitor: nothing while it is unavailable. -/
def input1 (ls : List Loaded) (r : Nat × Nat) : Option Int :=
  let v := viewOf ls (fld r.1 0 14)
  let rocof := fld r.1 16 1
  match v with
  | some l => if flagged v || offrate v || fld l.payload.invalid (16 + rocof) 1 = 1 then none
    else some (if rocof = 1 then l.payload.rocof else l.payload.freq)
  | none => none

/-- The input of a pass 2 monitor. -/
def input2 (est : SeOut) (r : Nat × Nat) : Option Int :=
  let j := fld r.1 0 14
  if est.pred.contains j then none else some (est.mag.getD j 0)

/-- The input of a pair: the signed separation of its buses' angles. -/
def inputPair (est : SeOut) (r : Nat × Nat) : Option Int :=
  let a := fld r.1 0 14
  let b := fld r.1 16 14
  if est.pred.contains a || est.pred.contains b then none else some (sInt 40 (uNat 40 ((est.ang.getD a 0 : Int) - est.ang.getD b 0)))

/-- What a pass gives: the monitors, those that asserted and released with their classes, and how many were held. -/
structure PassSum where
  mons : Tbl Monitor
  ons : List (Nat × Nat) := []
  offs : List (Nat × Nat) := []
  held : Nat := 0
deriving DecidableEq, Repr

/-- One monitor judged: number `k`, record word 1 `w`, its input. -/
def PassSum.one (r : PassSum) (s : State) (b : List Byte) (k w : Nat) (v : Option Int) : PassSum :=
  let m := Tbl.get r.mons k {}
  let cls := fld w 16 8
  match v with
  | none => { r with mons := Tbl.set r.mons k { m with held := true } {}, held := r.held + 1 }
  | some v =>
    let (m, on, off) := m.move (s.limit b (fld w 0 10)) v
    { r with
      mons := Tbl.set r.mons k m {}, ons := if on then r.ons ++ [(cls, k)] else r.ons, offs := if off then r.offs ++ [(cls, k)] else r.offs }

/-- Monitors `k, …` judged. -/
def PassSum.all (r : PassSum) (s : State) (b : List Byte) (f : Nat × Nat → Option Int) (k : Nat) : List (Nat × Nat) → PassSum
  | [] => r
  | e :: t => (r.one s b k e.2 (f e)).all s b f (k + 1) t

/-- Numbers of the monitors of a section, with their classes. -/
def ThrSec.numbered (c : ThrSec) : List (Nat × Nat) :=
  let go := fun (base : Nat) (l : List (Nat × Nat)) => l.zipIdx.map fun (a : (Nat × Nat) × Nat) => (base + a.2, fld a.1.2 16 8)
  go 0 c.mon1 ++ go 65536 c.mon2 ++ go 90112 c.pairs

/-- A monitor counts as active. -/
def Monitor.active (m : Monitor) : Bool := 2 ≤ m.state

/-- Threshold instance `e`. -/
def State.thrI (s : State) (e : Nat) : ThrInst := Tbl.get s.thr e {}

/-- Threshold instance `e` set. -/
def State.setThr (s : State) (e : Nat) (x : ThrInst) : State := { s with thr := Tbl.set s.thr e x {} }

/-- A threshold entry sent. -/
def State.thrEntry (s : State) (e : Nat) (a : AlarmEntry) : State :=
  ((s.pushAlarm { a with role := 4, kind := 2, inst := e }).count (Reg.THR_ENTRY_CNT e)).raise 55

/-- The entries of a pass (R245), in ascending class. -/
def State.passEntries (s : State) (e t0 pass : Nat) (r : PassSum) (nums : List (Nat × Nat)) : State :=
  let low := fun (l : List (Nat × Nat)) => l.head?.map Prod.snd
  s.forRange (fun cls s =>
    let on := r.ons.filter fun a => a.1 = cls
    let off := r.offs.filter fun a => a.1 = cls
    if on = [] && off = [] then s
    else
      let act := (nums.filter fun a => a.2 = cls && (Tbl.get r.mons a.1 ({} : Monitor)).active).length
      s.thrEntry e { kind := 2, inst := e, act := if on = [] then 1 else 0, cls := cls, pass := pass, t0 := t0, valA := on.length,
                     valB := off.length, active := act, first := (low on).getD ((low off).getD 0) }) 0 256

/-- THR_MON1, THR_MON2 and THR_PAIRS show the sections of a THRESHOLDS body (R248). -/
def State.showThr (s : State) (b : List Byte) : State :=
  (thrAll b).foldl (fun s ec =>
    ((s.setReg (Reg.THR_MON1 ec.1) ec.2.mon1.length).setReg (Reg.THR_MON2 ec.1) ec.2.mon2.length).setReg (Reg.THR_PAIRS ec.1)
      ec.2.pairs.length) s

/-- Threshold instance `e` needs its estimator's handover for the instant at `t0`: it has pass 2 monitors or pairs (R222, R246). -/
def State.thrNeedsEst (s : State) (e t0 : Nat) : Bool :=
  match (thrAll (s.patAt 10 t0)).lookup e with
  | some c => c.mon2 ≠ [] || c.pairs ≠ []
  | none => false

/-- Pass 1 of threshold instance `e` for the instant at `t0` (R20 step 6, R243 to R245), unless it has been run. -/
def State.thrPass1 (s : State) (e t0 : Nat) (ls : List Loaded) : State :=
  let b := s.patAt 10 t0
  match (thrAll b).lookup e with
  | none => s
  | some c =>
    let x := s.thrI e
    if x.ran.any fun r => r.t0 = t0 then s
    else
    let first := s.firstOn 10 t0 x.fresh x.act
    let old := x.active
    let x : ThrInst := if first then { snap := x.snap, act := s.begunAct t0 x.act, fresh := false } else { x with fresh := false }
    let s := if first then (s.clearRegs (Reg.THR_ACTIVE_MAP e 0) (Reg.THR_ACTIVE_MAP e 4864)).showThr b else s
    let s := if first then (List.range 256).foldl (fun (s : State) cls => match old.lookup cls with
        | some (n, low) => s.thrEntry e { kind := 2, inst := e, act := 1, reset := true, cls := cls, t0 := t0, valB := n, first := low }
        | none => s) s
      else s
    let nums := c.numbered
    let mons := x.mons.map fun (m : Nat × Monitor) => (m.1, { m.2 with held := false })
    let mons := mons.filter fun (m : Nat × Monitor) => m.2 ≠ ({} : Monitor)
    let r1 := ({ mons := mons } : PassSum).all s b (input1 ls) 0 c.mon1
    let s := s.passEntries e t0 0 r1 nums
    s.setThr e { x with
      mons := r1.mons, ran := some { t0 := t0, ons := r1.ons, offs := r1.offs, held := r1.held, reset := first && !(old = []) } }

/-- Threshold instance `e` decides instant `t0`: pass 1 where it has not been run, then pass 2 on `est`, its estimator's handover, where it
has pass 2 monitors or pairs. -/
def State.thrDecide (s : State) (e t0 : Nat) (ls : List Loaded) (est : Option SeOut) : State :=
  let b := s.patAt 10 t0
  let s := s.thrPass1 e t0 ls
  let x := s.thrI e
  match (thrAll b).lookup e, x.ran with
  | some c, some r1 =>
    let nums := c.numbered
    let r2 := match est with
      | some o => (({ mons := x.mons } : PassSum).all s b (input2 o) 65536 c.mon2).all s b (inputPair o) 90112 c.pairs
      | none => { mons := x.mons }
    let s := s.passEntries e t0 1 r2 nums
    let s := s.pushAlarm { role := 4, kind := 0, inst := e, t0 := t0 }
    let act := nums.filter fun a => (Tbl.get r2.mons a.1 ({} : Monitor)).active
    let classes := (List.range 256).filterMap fun cls =>
      let l := act.filter fun a => a.2 = cls
      match l with
      | [] => none
      | a :: _ => some (cls, l.length, a.1)
    let s := s.setThr e { x with mons := r2.mons, active := classes }
    let flags := flagWord [!(r1.ons = []), !(r1.offs = []), !(r2.ons = []), !(r2.offs = []), 0 < r1.held + r2.held, r1.reset]
    let s := (s.setReg (Reg.THR_LAST_FLAGS e) flags).setReg (Reg.THR_LAST_T0 e) (t80OfNs t0)
    let s := (s.setReg (Reg.THR_ACTIVE e) act.length).count (Reg.THR_INST_CNT e)
    let s := (s.countBy (Reg.THR_ASSERT_CNT e) (r1.ons.length + r2.ons.length)).countBy (Reg.THR_RELEASE_CNT e) (r1.offs.length + r2.offs.length)
    let s := s.countBy (Reg.THR_HELD_CNT e) (r1.held + r2.held)
    let s := (r1.ons ++ r2.ons).foldl (fun (s : State) a => s.setF (Reg.THR_ACTIVE_MAP e (a.2 / 32)) (a.2 % 32) 1 1) s
    let s := (r1.offs ++ r2.offs).foldl (fun (s : State) a => s.setF (Reg.THR_ACTIVE_MAP e (a.2 / 32)) (a.2 % 32) 1 0) s
    s.setReg (Reg.THR_SEQ e) ((s.rn (Reg.THR_SEQ e) + 1) % 65536)
  | _, _ => s

/-! ## Image and snapshots -/

/-- The threshold engine's part of a full image applied. -/
def State.applyThr (s : State) : State :=
  let s := { s with thr := s.thr.map fun (e : Nat × ThrInst) => (e.1, ({ active := e.2.active } : ThrInst)) }
  let s := { s with thr := s.thr.filter fun (e : Nat × ThrInst) => e.2 ≠ ({} : ThrInst) }
  let s := s.forRange (fun e s => (s.clearRegs (Reg.THR_ACTIVE_MAP e 0) (Reg.THR_ACTIVE_MAP e 4864)).setReg (Reg.THR_ACTIVE e) 0) 0 4
  s.showThr (s.pat 10)

/-- The old banks released (R38). -/
def State.releaseThr (s : State) : State :=
  let s := if s.bit Reg.FEAT_IMG_PEND 10 then s.showThr (s.pat 10) else s
  { s with thr := s.thr.map fun (e : Nat × ThrInst) =>
      (e.1, { e.2 with fresh := e.2.fresh || (s.bit Reg.FEAT_IMG_PEND 10 && e.2.act ≠ some s.actNs) }) }

/-- A write of THR_MON_SEL (R248); one that names no monitor takes no snapshot. -/
def thrMonSel (e : Nat) (w : Word) (s : State) : State :=
  let i := fld w.toNat 0 17
  let kind := fld w.toNat 17 2
  let n := if kind = 0 then s.rn (Reg.THR_MON1 e) else if kind = 1 then s.rn (Reg.THR_MON2 e) else if kind = 2 then s.rn (Reg.THR_PAIRS e) else 0
  if n ≤ i then s
  else
    let x := s.thrI e
    let m := Tbl.get x.mons ([0, 65536, 90112].getD kind 0 + i) {}
    (s.setThr e { x with snap := [(Reg.THR_MON_VAL e, uNat 40 m.v), (Reg.THR_MON_STAT e, 1 + m.state * 2 + bitAt m.held 3 + m.cnt * 256)] }).setReg
      (Reg.THR_MON_STAT e) 0

/-- THR_MON_SEL. -/
def execThrMonSel (who : Party) (inst : Fin 4) (w : Word) (s : State) : Host.Outcome State Fault Refusal :=
  live (written who (Reg.THR_MON_SEL inst.val) w (thrMonSel inst.val w)) s

/-- A monitor snapshot completes. -/
def thrMonReady (e : Nat) (s : State) : State :=
  let x := s.thrI e
  (s.setThr e { x with snap := [] }).setRegs x.snap

/-- THR_MON_READY. -/
def execThrMonReady (inst : Fin 4) (s : State) : Host.Outcome State Fault Refusal := live (thrMonReady inst.val) s

end Sys2Proof.Machine
end

