-- ==== Sys2Proof/Machine/Osc.lean ====
section
/-! DEFINITION. The oscillation engine (R250 to R276). -/
namespace Sys2Proof.Machine
open Sys2Proof

/-! ## The BANDS pattern (R252 to R255) -/

/-- A signal group record (R253). -/
structure SgRec where
  inst : Nat
  rate : Nat
  dec : Nat
  id : Nat
  firstSig : Nat
  nSig : Nat
  firstBand : Nat
  nBand : Nat
  ref : Nat
  dsh : Nat
  lsh : Nat
  warm : Nat
  missMax : Nat
deriving DecidableEq, Repr

/-- A band record (R254), as in force. -/
structure BandRec where
  cls : Nat
  on : Nat
  off : Nat
  inc : Nat
  a : Int
  bw : Int
  eMin : Int
  qMin : Int
  zOn : Int
  zHyst : Int
  aMin : Int
  aMax : Int
  aHyst : Int
deriving DecidableEq, Repr

/-- A signal record (R255). -/
structure SigRec where
  src : Nat
  kind : Nat
  lane : Nat
  lane2 : Nat
  asrc : Nat
  alane : Nat
  gain : Nat
  gsh : Nat
deriving DecidableEq, Repr

/-- SG_CNT, BAND_CNT and SIG_CNT. -/
def sgCnt (b : List Byte) : Nat := wf b 1 0 9
/-- BAND_CNT. -/
def bandCnt (b : List Byte) : Nat := wf b 2 0 13
/-- SIG_CNT. -/
def sigCnt (b : List Byte) : Nat := wf b 3 0 13

/-- Byte of signal group record `k`. -/
def sgOfs (k : Nat) : Nat := 16 + 64 * k
/-- Byte of band record `k`. -/
def bandOfs (b : List Byte) (k : Nat) : Nat := 16 + 64 * sgCnt b + 128 * k
/-- Byte of signal record `k`. -/
def sigOfs (b : List Byte) (k : Nat) : Nat := 16 + 64 * sgCnt b + 128 * bandCnt b + 16 * k

/-- Signal group record `k`. -/
def sgRec (b : List Byte) (k : Nat) : SgRec :=
  let w := fun i => numAt b (sgOfs k + 4 * i) 4
  { inst := fld (w 0) 0 2, rate := fld (w 0) 8 8, dec := fld (w 0) 16 2, id := fld (w 1) 0 16, firstSig := fld (w 2) 0 13
    nSig := fld (w 3) 0 13, firstBand := fld (w 4) 0 12, nBand := fld (w 4) 16 7, ref := fld (w 5) 0 13, dsh := fld (w 6) 0 5
    lsh := fld (w 6) 8 5, warm := fld (w 7) 0 16, missMax := fld (w 7) 16 8 }

/-- Band record `k`. -/
def bandRec (b : List Byte) (k : Nat) : BandRec :=
  let o := bandOfs b k
  let w := numAt b o 4
  let p := fun i => p40At b (o + 4 * i)
  { cls := fld w 0 8, on := fld w 8 8, off := fld w 16 8, inc := numAt b (o + 4) 5, a := p 3, bw := p 5, eMin := p 7, qMin := p 9, zOn := p 11
    zHyst := p 13, aMin := p 15, aMax := p 17, aHyst := p 19 }

/-- Signal record `k`. -/
def sigRec (b : List Byte) (k : Nat) : SigRec :=
  let o := sigOfs b k
  let w := numAt b o 4
  let v := numAt b (o + 4) 4
  { src := fld w 0 14, kind := fld w 14 3, lane := fld w 17 4, lane2 := fld w 21 4, asrc := fld v 0 14, alane := fld v 14 4
    gain := numAt b (o + 8) 4 * 256, gsh := fld (numAt b (o + 12) 4) 0 5 }

/-- Band record `k` with its windows' values in force (R257). -/
def State.bandInForce (s : State) (b : List Byte) (k : Nat) : BandRec :=
  let r := bandRec b k
  let t := 0x7000 + 8 * k
  let v := fun p (x : Int) => sInt 40 (s.winOr (t + p) (uNat 40 x))
  { r with
    zOn := v 0 r.zOn, zHyst := v 1 r.zHyst, aMin := v 2 r.aMin, aMax := v 3 r.aMax, aHyst := v 4 r.aHyst, eMin := v 5 r.eMin
    on := s.winOr (t + 6) r.on, off := s.winOr (t + 7) r.off }

/-- The words of a group's group, band and signal records (R268). -/
def groupRecs (b : List Byte) (k : Nat) : List Nat :=
  let g := sgRec b k
  (List.range 16).map (fun i => numAt b (sgOfs k + 4 * i) 4) ++ (List.range (32 * g.nBand)).map (fun i => numAt b (bandOfs b g.firstBand + 4 * i) 4) ++
    (List.range (4 * g.nSig)).map fun i => numAt b (sigOfs b g.firstSig + 4 * i) 4

/-! ## Samples (R259) -/

/-- A usable source's payload: its flags clear, and the lane numbered `bit` of INVALID loaded and valid (R250, R259). -/
def usable (ls : List Loaded) (src bit : Nat) : Option Payload :=
  let v := viewOf ls src
  match v with
  | some l => if flagged v || l.offrate || fld l.lanes bit 1 = 0 || fld l.payload.invalid bit 1 = 1 then none else some l.payload
  | none => none

/-- The sample of a signal, the signal after it, and whether it saturated; nothing while unavailable. -/
def sampleOf (ls : List Loaded) (r : SigRec) (x : OscSig) : Option (Int × OscSig × Bool) :=
  let ph := fun (p : Payload) k => p.ph.getD k ⟨0, 0⟩
  match r.kind with
  | 0 => (usable ls r.src r.lane).map fun p =>
      let q := ph p r.lane
      (mag40 q, x, over39 (within2 (Config.cordic 5 q.re q.im 0) (isqrt (2 ^ 32 * (q.re * q.re + q.im * q.im).toNat)) 16))
  | 1 =>
    match usable ls r.src r.lane, usable ls r.asrc r.alane with
    | some p, some q =>
      let a := uNat 40 (((vec (ph p r.lane)).2 : Int) - (vec (ph q r.alane)).2)
      let v := if x.angled then x.raw + rhe (sInt 40 (uNat 40 ((a : Int) - x.aprev))) (2 ^ 10) else 0
      some (sat39 v, { x with aprev := a, raw := sat39 v, angled := true }, over39 v)
    | _, _ => none
  | 2 => (usable ls r.src 16).map fun p => (sat39 (p.freq * 4), x, over39 (p.freq * 4))
  | 3 => (usable ls r.src (18 + r.lane)).map fun p => (p.an.getD r.lane 0, x, false)
  | _ =>
    match usable ls r.src r.lane, usable ls r.src r.lane2 with
    | some p, some _ =>
      let v := ph p r.lane
      let i := ph p r.lane2
      let w := rhe (v.re * i.re + v.im * i.im) (2 ^ 30)
      some (sat39 w, x, over39 w)
    | _, _ => none

/-! ## One group -/

/-- Band `k`, numbered within the group. -/
def OscGroup.band (g : OscGroup) (k : Nat) : OscBand := Tbl.get g.bands k {}
/-- Signal `i`, numbered within the group. -/
def OscGroup.sig (g : OscGroup) (i : Nat) : OscSig := Tbl.get g.sigs i {}
/-- Pair of band `k` and signal `i`. -/
def OscGroup.pair (g : OscGroup) (k i : Nat) : OscPair := Tbl.get g.pairs (4096 * k + i) {}
/-- Pair set. -/
def OscGroup.setPair (g : OscGroup) (k i : Nat) (x : OscPair) : OscGroup := { g with pairs := Tbl.set g.pairs (4096 * k + i) x {} }
/-- Signal set. -/
def OscGroup.setSig (g : OscGroup) (i : Nat) (x : OscSig) : OscGroup := { g with sigs := Tbl.set g.sigs i x {} }
/-- Band set. -/
def OscGroup.setBand (g : OscGroup) (k : Nat) (x : OscBand) : OscGroup := { g with bands := Tbl.set g.bands k x {} }

/-- `f` applied to a group for each of `0, …, n - 1`. -/
def OscGroup.each (g : OscGroup) (f : OscGroup → Nat → OscGroup) (n : Nat) : OscGroup := (List.range n).foldl f g

/-- A signal restarted (R267). -/
def OscGroup.restartSig (g : OscGroup) (c : SgRec) (i : Nat) : OscGroup :=
  let g := g.setSig i { sum := (g.sig i).sum, n := (g.sig i).n }
  let g := g.each (fun g k => g.setPair k i { bp := (g.pair k i).bp }) c.nBand
  if i = c.ref - c.firstSig then
    g.each (fun g k => g.each (fun g j => g.setPair k j { g.pair k j with sx := ⟨0, 0⟩ }) c.nSig) c.nBand
  else g

/-- Samples of an instant accumulated toward advance `n` (R258); how many derivations saturated. -/
def OscGroup.sample (g : OscGroup) (b : List Byte) (c : SgRec) (ls : List Loaded) (n : Nat) : OscGroup × Nat :=
  let g := if g.accN = n then g else
    { g with accN := n, sigs := g.sigs.map fun (e : Nat × OscSig) => (e.1, { e.2 with sum := 0, n := 0 }) }
  (List.range c.nSig).foldl (fun (r : OscGroup × Nat) i =>
    let x := r.1.sig i
    match sampleOf ls (sigRec b (c.firstSig + i)) x with
    | some (v, x, sat) => (r.1.setSig i { x with sum := x.sum + v, n := x.n + 1 }, if sat then r.2 + 1 else r.2)
    | none => r) (g, 0)

/-- An average moved toward a value by 2^-sh. -/
def toward (r v : Int) (sh : Nat) : Int := sat39 (r + rhe (v - r) (2 ^ sh))

/-- A low-pass stage moved by a Q40 coefficient. -/
def lowPass (a : Int) (y h : Int) : Int := sat39 (y + sat39 (rhe (a * (h - y)) (2 ^ 39)))

/-- A signal at an advance (R260, R261, R267): its input taken, its mean removed, every band filtered; whether it missed and whether it
restarted. -/
def OscGroup.advanceSig (g : OscGroup) (b : List Byte) (c : SgRec) (n : Nat) (i : Nat) : OscGroup × Bool × Bool :=
  let x := g.sig i
  let r := sigRec b (c.firstSig + i)
  let prev := x.avail && g.advN + 1 = n && g.advAt.isSome
  let clr := fun (x : OscSig) => { x with sum := 0, n := 0, availPrev := prev }
  if x.n = 0 then
    let miss := x.miss + 1
    let g := g.setSig i { clr x with avail := false, part := false, miss := min miss 255, warm := min (x.warm + 1) 65536 }
    if miss = c.missMax then
      let g := g.restartSig c i
      (g.setSig i { g.sig i with miss := min miss 255 }, true, true)
    else (g, true, false)
  else
    let v := (divFix 0 0 x.sum x.n).1
    let m := if x.started then toward x.m v c.dsh else v
    let warm := if x.started then min (x.warm + 1) 65536 else 0
    let u := sat39 (rhe ((v - m) * (r.gain : Int)) (2 ^ (39 - r.gsh)))
    let x : OscSig := { clr x with m := m, started := true, avail := true, miss := 0, warm := warm, part := prev && decide (c.warm ≤ warm) }
    let g := g.setSig i x
    (g.each (fun g k =>
      let bd := bandRec b (c.firstBand + k)
      let ph : Nat := bd.inc * (n % 2 ^ 40) % 2 ^ 40
      let cs := sinCos40 (uNat 40 (-((ph : Nat) : Int)))
      let h : Phasor := ⟨sat39 (rhe (u * cs.1) (2 ^ 39)), sat39 (rhe (u * cs.2) (2 ^ 39))⟩
      let p := g.pair k i
      let y1 : Phasor := ⟨lowPass bd.a p.y1.re h.re, lowPass bd.a p.y1.im h.im⟩
      let y2 : Phasor := ⟨lowPass bd.a p.y2.re y1.re, lowPass bd.a p.y2.im y1.im⟩
      g.setPair k i { p with y1 := y1, y2 := y2, bp := p.y2 }) c.nBand, false, false)

/-- The smallest `n` with `2^n ≥ v`. -/
def log2up (v : Nat) : Nat := if v ≤ 1 then 0 else Nat.log2 (v - 1) + 1

/-- −L and √(L² + th²) of R264 with 84 fraction bits, exact to their last bits for `z`: its magnitude, and its angle `al` in 2^-80 turns. -/
def dampOf (z : Phasor) (inc al : Nat) : Int × Nat :=
  let r : Int := isqrt ((z.re * z.re + z.im * z.im).toNat * 2 ^ 108)
  let t := 2 ^ 84 * (r - 2 ^ 84) / (2 ^ 84 + r)
  let l := 2 * (t + t * t / 2 ^ 84 * t / 2 ^ 84 / 3)
  let th := sInt 80 ((2 ^ 40 * inc + al) % 2 ^ 80) * (2 * piQ : Nat) / 2 ^ 124
  (-l, isqrt (l * l + th * th).toNat)

/-- A² and D of R262 times 2^231, for A_COEF `a` and an offset of `al` 2^-80 turns. -/
def ampOf (a : Int) (al : Nat) : Int × Int :=
  let s := (cosSinQ (sInt 80 al).natAbs 81).2
  let a2 := a * a * 2 ^ 153
  (a2, a2 + 4 * (2 ^ 39 - a) * (s * s))

/-- The fit of a band (R262, R264): mode frequency, damping ratio, |z| and amplitude factor, where it is valid. ZETA and K lie within ±4 LSB
of the exact functions of the rounded z; a divisor that extracts to zero makes its result VOID. -/
def fit (c : SgRec) (bd : BandRec) (x : OscBand) : Option (Int × Int × Int × Int) :=
  if x.ryy = 0 || x.rxx = 0 || ext30 (x.rxx * x.ryy) = 0 then none
  else
    let z : Phasor := ⟨(divFix 0 30 x.rxy.re x.ryy).1, (divFix 0 30 x.rxy.im x.ryy).1⟩
    let (r, a) := vec z
    let al := angleAt 78 z.re z.im
    let w := sInt 40 (uNat 40 ((bd.inc : Int) + a))
    let dm := dampOf z bd.inc al
    let zeta := sat39 (within4 (Config.cordic 6 z.re z.im bd.inc) (2 ^ 39 * dm.1) dm.2)
    let sh := c.dec + 12
    let f := rhe (w * c.rate) (2 ^ sh)
    let near := decide (((f * 2 ^ sh - (bd.inc : Int) * c.rate).natAbs : Int) ≤ bd.bw * 2 ^ sh)
    let ad := ampOf bd.a al
    let k := sat39 (within4 (Config.cordic 7 z.re z.im bd.a) (2 ^ 31 * ad.2) ad.1.toNat)
    if dm.2 < 2 ^ 53 || !near || r < 2 ^ 29 || 2 ^ 31 < r then none else some (f, zeta, r, k)

/-- A quotient of a squared magnitude by a product, in Q40 (R263, R265). -/
def cohOfMag (m e1 e2 : Int) : Int := (divFix 0 39 (ext30 (m * m)) (ext30 (e1 * e2))).1

/-- IGAIN of a signal, P40 (R265). -/
def SigRec.igain (r : SigRec) : Int := sat39 (rhe (2 ^ 69) (r.gain * 2 ^ r.gsh))

/-- A band at an advance (R263 to R266): sums, averages, fit, energies and cross terms, outputs and TRACK; whether the fit was invalid. -/
def OscGroup.advanceBand (g : OscGroup) (b : List Byte) (c : SgRec) (bd : BandRec) (k : Nat) : OscGroup × Bool :=
  let parts := (List.range c.nSig).filter fun i => (g.sig i).part
  let sh := 2 ^ (30 + log2up c.nSig)
  let ex := fun (v : Int) => sat39 (rhe v sh)
  let sum := fun (f : OscPair → Int) => (parts.map fun i => f (g.pair k i)).foldl (· + ·) 0
  let x := g.band k
  let x : OscBand := if parts = [] then x else
    let re := sum fun p => p.y2.re * p.bp.re + p.y2.im * p.bp.im
    let im := sum fun p => p.y2.im * p.bp.re - p.y2.re * p.bp.im
    let yy := sum fun p => p.bp.re * p.bp.re + p.bp.im * p.bp.im
    let xx := sum fun p => p.y2.re * p.y2.re + p.y2.im * p.y2.im
    { x with
      rxy := ⟨toward x.rxy.re (ex re) c.lsh, toward x.rxy.im (ex im) c.lsh⟩, ryy := toward x.ryy (ex yy) c.lsh
      rxx := toward x.rxx (ex xx) c.lsh }
  let ft := fit c bd x
  let x : OscBand := match ft with
    | some (f, z, r, kk) => { x with f := f, zeta := z, zmag := r, k := kk, q := cohOfMag (mag40 x.rxy) x.rxx x.ryy }
    | none => x
  let ρ := c.ref - c.firstSig
  let refPart := (g.sig ρ).part
  let bρ := (g.pair k ρ).y2
  let g := parts.foldl (fun (g : OscGroup) i =>
    let p := g.pair k i
    let e := ext30 (p.y2.re * p.y2.re + p.y2.im * p.y2.im)
    let q := extPh (cmulRaw p.y2 (phConj bρ))
    g.setPair k i { p with
      es := toward p.es e c.lsh
      sx := if refPart then ⟨toward p.sx.re q.re c.lsh, toward p.sx.im q.im c.lsh⟩ else p.sx }) g
  let eρ := (g.pair k ρ).es
  let g := g.each (fun g i =>
    let p := g.pair k i
    g.setPair k i { p with
      amp := ext30 (ext30 (mag40 p.y2 * x.k) * (sigRec b (c.firstSig + i)).igain)
      shape := if i = ρ then ⟨2 ^ 30, 0⟩ else ⟨(divFix 0 30 p.sx.re eρ).1, (divFix 0 30 p.sx.im eρ).1⟩
      coh := if i = ρ then 2 ^ 39 - 1 else cohOfMag (mag40 p.sx) p.es eρ }) c.nSig
  let track := ft.isSome && decide (bd.eMin ≤ x.rxx) && decide (bd.qMin ≤ x.q) && decide (c.warm ≤ g.warm)
  (g.setBand k { x with track := track, aref := (g.pair k ρ).amp }, ft.isNone)

/-- A watcher's move (R269, with the table of R244): the band, and whether it asserted and whether it released. -/
def OscBand.watch (x : OscBand) (bd : BandRec) : OscBand × Bool × Bool :=
  let a := x.aref
  let on := x.track && decide (bd.aMin ≤ a) && (decide (x.zeta < bd.zOn) || decide (bd.aMax ≤ a))
  let off := !x.track || decide (a < bd.aMin - bd.aHyst) || (decide (bd.zOn + bd.zHyst ≤ x.zeta) && decide (a ≤ bd.aMax - bd.aHyst))
  let x : OscBand := { x with held := false, cause := bitAt (x.zeta < bd.zOn) 0 + bitAt (bd.aMax ≤ a) 1 + bitAt (x.zeta < 0) 2 }
  let st := fun m n => { x with state := m, cnt := n % 256 }
  match x.state with
  | 0 => if on then (if bd.on = 1 then (st 2 1, true, false) else (st 1 1, false, false)) else (st 0 0, false, false)
  | 1 => if on then (if x.cnt + 1 = bd.on then (st 2 (x.cnt + 1), true, false) else (st 1 (x.cnt + 1), false, false)) else (st 0 0, false, false)
  | 2 => if off then (if bd.off = 1 then (st 0 1, false, true) else (st 3 1, false, false)) else (st 2 0, false, false)
  | _ => if off then (if x.cnt + 1 = bd.off then (st 0 (x.cnt + 1), false, true) else (st 3 (x.cnt + 1), false, false)) else (st 2 0, false, false)

/-- Watchers of a group that are active: signal group, band and class. -/
def OscGroup.actives (g : OscGroup) : List (Nat × Nat × Nat) :=
  g.bands.filterMap fun e => if 2 ≤ e.2.state then some (g.sg, g.firstBand + e.1, g.classes.getD e.1 0) else none

/-! ## An instant decided (R258 to R271) -/

/-- Oscillation instance `e`. -/
def State.oscI (s : State) (e : Nat) : OscInst := Tbl.get s.osc e {}

/-- Oscillation instance `e` set. -/
def State.setOsc (s : State) (e : Nat) (x : OscInst) : State := { s with osc := Tbl.set s.osc e x {} }

/-- The band registers of band `b` (R275). -/
def State.showBand (s : State) (b : Nat) (x : OscBand) : State :=
  let s := s.setReg (Reg.OSC_BAND_STATE b) (x.state + bitAt x.track 2 + bitAt x.held 3 + x.cnt * 16 + x.cause * 4096)
  let s := (s.setReg (Reg.OSC_BAND_F b) (uNat 40 x.f)).setReg (Reg.OSC_BAND_ZETA b) (uNat 40 x.zeta)
  let s := (s.setReg (Reg.OSC_BAND_AREF b) (uNat 40 x.aref)).setReg (Reg.OSC_BAND_ENERGY b) (uNat 40 x.rxx)
  (s.setReg (Reg.OSC_BAND_COH b) (uNat 40 x.q)).setReg (Reg.OSC_BAND_ZMAG b) (uNat 40 x.zmag)

/-- A restarted group (R268), with the records it now runs from. -/
def freshGroup (b : List Byte) (k : Nat) : OscGroup :=
  let c := sgRec b k
  { recs := groupRecs b k, sg := k, firstBand := c.firstBand, nBand := c.nBand, firstSig := c.firstSig, nSig := c.nSig, ref := c.ref
    need := c.warm, classes := (List.range c.nBand).map fun i => (bandRec b (c.firstBand + i)).cls }

/-- What the instants of an instance's groups add up to: RESET entries due, watcher entries, and flags. -/
structure OscSum where
  resets : List (Nat × Nat × Nat) := []
  entries : List (Nat × AlarmEntry) := []
  up : Bool := false
  down : Bool := false
  held : Bool := false
  restart : Bool := false
  advance : Bool := false
deriving DecidableEq, Repr

/-- A group restart, and the restart of each of its `n` signals, counted (R267, R268). -/
def State.grpRestart (s : State) (e n : Nat) : State :=
  ((s.countBy (Reg.OSC_SIG_RESTART_CNT e) n).count (Reg.OSC_GRP_RESTART_CNT e)).raise 58

/-- A band of the group tracks. -/
def OscGroup.tracks (g : OscGroup) : Bool := g.bands.any fun e => e.2.track

/-- The band registers of a group. -/
def State.showBands (s : State) (g : OscGroup) : State := s.forRange (fun j s => s.showBand (g.firstBand + j) (g.band j)) 0 g.nBand

/-- What a restart of group `g` adds to the instant: RESET entries, and the tracks that end (R268, R270, R271). -/
def OscSum.restarted (sum : OscSum) (g : OscGroup) : OscSum :=
  { sum with resets := sum.resets ++ g.actives, down := sum.down || g.tracks, restart := true }

/-- One band of an advanced group: its numbers, its watcher, its entry. -/
def State.oscBand (s : State) (e t0 : Nat) (b : List Byte) (c : SgRec) (g : OscGroup) (sum : OscSum) (k : Nat) : State × OscGroup × OscSum :=
  let bd := s.bandInForce b (c.firstBand + k)
  let was := (g.band k).track
  let (g, bad) := g.advanceBand b c bd k
  let s := if bad then s.count (Reg.OSC_FITINV_CNT e) else s
  let x := g.band k
  let s := if x.track && !was then s.raise 57 else s
  let sum := { sum with up := sum.up || (x.track && !was), down := sum.down || (!x.track && was) }
  if !(g.sig (c.ref - c.firstSig)).part then
    (s.count (Reg.OSC_HELD_CNT e), g.setBand k { x with held := true }, { sum with held := true })
  else
    let (x, up, down) := x.watch bd
    let n := c.firstBand + k
    let en : AlarmEntry := {
      role := 3, kind := 3, inst := e, act := if up then 0 else 1, cls := bd.cls, cause := x.cause, t0 := t0
      valA := g.sg % 256 + n % 1024 * 256, valB := n / 1024, modeF := x.f, zeta := x.zeta, aref := x.aref }
    let s := if up then s.count (Reg.OSC_ASSERT_CNT e) else if down then s.count (Reg.OSC_RELEASE_CNT e) else s
    (s, g.setBand k x, if up || down then { sum with entries := sum.entries ++ [(n, en)] } else sum)

/-- One group at the instant: group record `k`. -/
def State.oscGroup (s : State) (e t0 : Nat) (b : List Byte) (ls : List Loaded) (sum : OscSum) (k : Nat) : State × OscSum :=
  let c := sgRec b k
  if c.inst ≠ e then (s, sum)
  else
    let old := Tbl.get (s.oscI e).groups c.id none
    let changed := match old with
      | some g => decide (g.recs ≠ groupRecs b k)
      | none => true
    let (s, g, sum) := match old with
      | some g =>
        if changed then (s.grpRestart e c.nSig, freshGroup b k, sum.restarted g) else (s, { g with sg := k }, sum)
      | none => (s.grpRestart e c.nSig, freshGroup b k, { sum with restart := true })
    let i := latestInst c.rate t0
    if c.rate = 0 || instT0 c.rate i ≠ t0 then
      let s := s.setOsc e { s.oscI e with groups := Tbl.set (s.oscI e).groups c.id (some g) none }
      (if changed then s.showBands g else s, sum)
    else
      let n := i / 2 ^ c.dec
      let adv := (i + 1) % 2 ^ c.dec = 0
      let late := adv && (match g.advAt with
        | some p => decide (1000000000 + p < t0)
        | none => false)
      let (s, g, sum) := if late then
          (s.grpRestart e c.nSig, { freshGroup b k with
            sigs := (g.sigs.map fun (x : Nat × OscSig) => (x.1, { ({} : OscSig) with sum := x.2.sum, n := x.2.n })), accN := g.accN },
           sum.restarted g)
        else (s, g, sum)
      let (g, sats) := g.sample b c ls n
      let s := if sats = 0 then s else (s.countBy (Reg.OSC_SAT_CNT e) sats).raise 59
      let (s, g, sum) := if !adv then (s, g, sum)
        else
          let g := { g with warm := if g.advAt.isSome then min (g.warm + 1) 65536 else 0 }
          let (g, miss, rst) := (List.range c.nSig).foldl (fun (r : OscGroup × Nat × Nat) j =>
            let a := r.1.advanceSig b c n j
            (a.1, if a.2.1 then r.2.1 + 1 else r.2.1, if a.2.2 then r.2.2 + 1 else r.2.2)) (g, 0, 0)
          let s := (s.countBy (Reg.OSC_MISS_CNT e) miss).countBy (Reg.OSC_SIG_RESTART_CNT e) rst
          let s := s.count (Reg.OSC_ADV_CNT e)
          let sum := { sum with advance := true, restart := sum.restart || 0 < rst }
          let (s, g, sum) := (List.range c.nBand).foldl (fun (r : State × OscGroup × OscSum) j => r.1.oscBand e t0 b c r.2.1 r.2.2 j) (s, g, sum)
          (s, { g with advAt := some t0, advN := n }, sum)
      let s := s.setOsc e { s.oscI e with groups := Tbl.set (s.oscI e).groups c.id (some g) none }
      (s.showBands g, sum)

/-- Counts over an instance's groups, of watchers active, bands tracking and signals within WARM. -/
def State.showOsc (s : State) (e : Nat) (b : List Byte) : State :=
  let gs := (s.oscI e).groups.filterMap Prod.snd
  let tot := fun (f : OscGroup → Nat) => (gs.map f).foldl (· + ·) 0
  let s := s.setReg (Reg.OSC_ACTIVE e) (tot fun g => g.actives.length)
  let s := s.setReg (Reg.OSC_TRACKING e) (tot fun g => (g.bands.filter fun x => x.2.track).length)
  s.setReg (Reg.OSC_WARMING e) (tot fun g =>
    let c := sgRec b g.sg
    ((List.range c.nSig).filter fun i => !(g.sig i).started || (g.sig i).warm < c.warm).length)

/-- The registers that hold the sizes of instance `e` (R274). -/
def State.showOscSizes (s : State) (e : Nat) (b : List Byte) : State :=
  let gs := ((List.range (sgCnt b)).map (sgRec b)).filter fun c => c.inst = e
  let tot := fun (f : SgRec → Nat) => (gs.map f).foldl (· + ·) 0
  ((s.setReg (Reg.OSC_SIGS e) (tot SgRec.nSig)).setReg (Reg.OSC_GROUPS e) gs.length).setReg (Reg.OSC_BANDS e) (tot SgRec.nBand)

/-- Oscillation instance `e` decides instant `t0` from its loaded lanes. -/
def State.oscDecide (s : State) (e t0 : Nat) (ls : List Loaded) : State :=
  let b := s.patAt 9 t0
  let x := s.oscI e
  let ids := ((List.range (sgCnt b)).map (sgRec b)).filterMap fun c => if c.inst = e then some c.id else none
  let s := s.setOsc e { x with
    old := [], groups := x.groups.filter fun g => ids.contains g.1 }
  let (s, sum) := (List.range (sgCnt b)).foldl (fun (r : State × OscSum) k => r.1.oscGroup e t0 b ls r.2 k)
    (s, ({ resets := x.old } : OscSum))
  let resets := sum.resets.mergeSort fun a b => a.2.1 ≤ b.2.1
  let send := fun (s : State) (a : AlarmEntry) => (s.pushAlarm a).raise 56
  let s := resets.foldl (fun (s : State) r => (send s {
    role := 3, kind := 3, inst := e, act := 1, reset := true, cls := r.2.2, t0 := t0, valA := r.1 % 256 + r.2.1 % 1024 * 256
    valB := r.2.1 / 1024 }).count (Reg.OSC_RELEASE_CNT e)) s
  let entries := sum.entries.mergeSort fun a b => a.1 ≤ b.1
  let s := entries.foldl (fun (s : State) a => send s a.2) s
  let s := s.pushAlarm { role := 3, kind := 0, inst := e, t0 := t0 }
  let s := (s.showOscSizes e b).showOsc e b
  let flags := flagWord [entries.any fun a => a.2.act = 0, entries.any fun a => a.2.act = 1, sum.up, sum.down, sum.held, sum.restart,
    !(resets = []), sum.advance]
  let s := ((s.setReg (Reg.OSC_LAST_FLAGS e) flags).setReg (Reg.OSC_LAST_T0 e) (t80OfNs t0)).count (Reg.OSC_INST_CNT e)
  s.setReg (Reg.OSC_SEQ e) ((s.rn (Reg.OSC_SEQ e) + 1) % 65536)

/-! ## Image and snapshots -/

/-- The oscillation engine's part of a full image applied: every group restarts (R268). -/
def State.applyOsc (s : State) : State :=
  let b := s.pat 9
  let s := s.forRange (fun e s =>
    let x := s.oscI e
    let old := (x.groups.filterMap Prod.snd).flatMap OscGroup.actives
    s.setOsc e { old := x.old ++ old }) 0 4
  let s := s.clearRegs (Reg.OSC_BAND_STATE 0) (Reg.OSC_BAND_STATE 4096)
  let s := (List.range (sgCnt b)).foldl (fun (s : State) k =>
    let c := sgRec b k
    let s := s.grpRestart c.inst c.nSig
    s.setOsc c.inst { s.oscI c.inst with groups := Tbl.set (s.oscI c.inst).groups c.id (some (freshGroup b k)) none }) s
  s.forRange (fun e s => (s.showOscSizes e b).showOsc e b) 0 4

/-- A write of OSC_PAIR_SEL (R274): the pair, as the records of the last instant number it. -/
def oscPairSel (e : Nat) (w : Word) (s : State) : State :=
  let sg := fld w.toNat 0 13
  let bd := fld w.toNat 16 12
  let x := s.oscI e
  let g? := (x.groups.filterMap Prod.snd).find? fun g =>
    g.firstBand ≤ bd && bd < g.firstBand + g.nBand && g.firstSig ≤ sg && sg < g.firstSig + g.nSig
  let regs := [Reg.OSC_PAIR_AMP e, Reg.OSC_PAIR_SHRE e, Reg.OSC_PAIR_SHIM e, Reg.OSC_PAIR_COH e]
  let snap : List (Nat × Nat) := match g? with
    | some g =>
      let y := g.sig (sg - g.firstSig)
      let p := g.pair (bd - g.firstBand) (sg - g.firstSig)
      regs.zip [uNat 40 p.amp, uNat 40 p.shape.re, uNat 40 p.shape.im, uNat 40 p.coh] ++
        [(Reg.OSC_PAIR_STAT e, 1 + bitAt y.avail 1 + bitAt (!y.started || y.warm < g.need) 2 + bitAt (sg = g.ref) 3)]
    | none => regs.map (fun r => (r, 0)) ++ [(Reg.OSC_PAIR_STAT e, 17)]
  (s.setOsc e { x with snap := snap }).setReg (Reg.OSC_PAIR_STAT e) 0

/-- OSC_PAIR_SEL. -/
def execOscPairSel (who : Party) (inst : Fin 4) (w : Word) (s : State) : Host.Outcome State Fault Refusal :=
  live (written who (Reg.OSC_PAIR_SEL inst.val) w (oscPairSel inst.val w)) s

/-- A pair snapshot completes. -/
def oscPairReady (e : Nat) (s : State) : State :=
  let x := s.oscI e
  (s.setOsc e { x with snap := [] }).setRegs x.snap

/-- OSC_PAIR_READY. -/
def execOscPairReady (inst : Fin 4) (s : State) : Host.Outcome State Fault Refusal := live (oscPairReady inst.val) s

end Sys2Proof.Machine
end

