-- ==== Sys2Proof/Machine/Stn.lean ====
section
/-! DEFINITION. The station inputs (R291 to R317): samples, coefficient banks, ranges, per-cycle quantities, zero crossings, the local
synchrophasor source, energy, pulses and saves. -/
namespace Sys2Proof.Machine
open Sys2Proof

/-! ## The STATION pattern (R315 to R317) -/

/-- A 40-bit field whose low word is word `i` of a body. -/
def stn40 (b : List Byte) (i : Nat) : Int := sInt 40 (word b i + 2 ^ 32 * wf b (i + 1) 0 8)

/-- Word 0 of channel record `c`. -/
def chanWord (b : List Byte) (c : Nat) : Nat := word b (16 + 4 * c)

/-- Channel `c` is enabled. -/
def chanEn (b : List Byte) (c : Nat) : Bool := fld (chanWord b c) 0 1 = 1

/-- Word `i` of EPO record `p`. -/
def epoWord (b : List Byte) (p i : Nat) : Nat := word b (16 + 96 + 1024 + 4 * p + i)

/-- Main-path and fallback-path channel of current `m` (0 to 3) of a bay. -/
def mainCh (q m : Nat) : Nat := 12 * q + 4 + m
def fallCh (q m : Nat) : Nat := 12 * q + 8 + m

/-! ## Modulator clocks (R292) -/

/-- MCKO[k] of a STATION body is high in a quarter of the period of fM. -/
def mckoHigh (b : List Byte) (k quarter : Nat) : Bool := wf b 0 (12 + k) 1 = 1 && decide ((quarter + 4 - wf b 0 (16 + 2 * k) 2) % 4 < 2)

/-- The level of MCKO[k] in a quarter of the period of fM: low while no image runs the station inputs. -/
def State.mckoPin (s : State) (k quarter : Nat) : Bool := s.bit Reg.STN_STATUS 0 && mckoHigh (s.pat 14) k quarter

/-- The quarter at whose start channel `c` samples MDAT: the edge of the MCKO it selects. -/
def edgeQuarter (b : List Byte) (c : Nat) : Nat := (wf b 0 (16 + 2 * fld (chanWord b c) 1 2) 2 + 2 * fld (chanWord b c) 3 1) % 4

/-- The bitstream of channel `c` in what MDAT held from quarter period to quarter period. -/
def bitstream (b : List Byte) (c : Nat) (mdat : List (BitVec 24)) : List Bool :=
  (List.range (mdat.length / 4)).map fun n => (mdat.getD (4 * n + edgeQuarter b c) 0).getLsbD c

/-! ## The filter chain (R294) -/

/-- `v / d`, rounded down or up as the stage rounds. -/
def chainDiv (stage : Nat) (v d : Int) : Int := v / d + (if v % d ≠ 0 && Config.chainUp stage v then 1 else 0)

/-- The channel's filter chain. -/
def State.chain (s : State) (c : Nat) : Chain := Tbl.get s.stn.chain c {}

/-- Running sums, each of the sums before it: an integrator after another. -/
def integrate (x : Int) : List Nat → List Nat
  | [] => []
  | a :: t => let y := (x + a) % 2 ^ 48; y.toNat :: integrate y t

/-- A bit of the bitstream enters the integrators: 1 as full scale, 0 as its negative. -/
def Chain.clock (x : Chain) (bit : Bool) : Chain :=
  { x with int := integrate (if bit then 1 else -1) x.int, last := some bit, run := if x.last = some bit then x.run + 1 else 1 }

/-- Differences of the last integrator with what the combs held, comb after comb: the result, and what they hold then. -/
def combs (x : Int) : List Nat → Int × List Nat
  | [] => (x, [])
  | a :: t => let r := combs (x - a) t; (r.1, (x % 2 ^ 48).toNat :: r.2)

/-- An output of the CIC of decimation `r`, as Q40: its sum is `r`^4 at full scale. -/
def Chain.dump (r : Nat) (x : Chain) : Chain :=
  let d := combs (x.int.getD 3 0) x.comb
  { x with comb := d.2, cic := (chainDiv 0 (2 ^ 39 * sInt 48 (uNat 48 d.1)) (r ^ 4 : Nat) :: x.cic).take 31 }

/-- An output of the halfband, whose 31 taps are symmetric. -/
def Chain.halve (x : Chain) : Chain :=
  let v := (List.range 31).foldl (fun a i => a + (Config.halfTap (min i (30 - i))).toInt * x.cic.getD i 0) 0
  { x with half := (chainDiv 1 v (2 ^ 39) :: x.half).take 87 }

/-- Two CIC outputs, and the halfband output they bring, from 2 × `r` bits. -/
def Chain.pair (r : Nat) (x : Chain) (bits : List Bool) : Chain :=
  let x := ((bits.take r).foldl Chain.clock x).dump r
  ((((bits.drop r).take r).foldl Chain.clock x).dump r).halve

/-- The bits of an output sample enter the chain. -/
def Chain.enter (r : Nat) (x : Chain) (bits : List Bool) : Chain := (x.pair r bits).pair r (bits.drop (2 * r))

/-- The bitstream changes value. -/
def Chain.moves (x : Chain) (bits : List Bool) : Bool :=
  let l := x.last.toList ++ bits
  l.any id && l.any not

/-- The longest run of one value that the bitstream has reached with these bits. -/
def Chain.longest (x : Chain) (bits : List Bool) : Nat :=
  (bits.foldl (fun (a : Chain × Nat) bit => (a.1.clock bit, max a.2 (a.1.clock bit).run)) (x, x.run)).2

/-- DLY of channel `c` in the words of a bank. -/
def bankDly (ws : List Nat) (c : Nat) : Int := sInt 9 (ws.getD (68 + 8 * c) 0 % 512)

/-- Tap `j` of the 63 of the final FIR of channel `c`: the bank's voltage or current FIR. -/
def bankTap (ws : List Nat) (c j : Nat) : Int := sInt 24 (ws.getD ((if c % 12 < 4 then 0 else 32) + min j (62 - j)) 0 % 2 ^ 24)

/-- Output of the interpolator `j` halfband samples back, at delay DLY: 32 steps of DLY to a halfband sample, four phases to a step. The
nine samples more stand for the alignment to 28 output samples, two of which despiking keeps. -/
def Chain.interp (x : Chain) (dly : Int) (j : Nat) : Int :=
  let at0 := (9 - dly / 32).toNat + j
  chainDiv 2 ((List.range 8).foldl (fun a i => a + (Config.interpTap (4 * (dly % 32).toNat) i).toInt * x.half.getD (at0 + i) 0) 0) (2 ^ 39)

/-- The chain's output under a bank, a Q40 fraction of the modulator's full scale. -/
def Chain.out (x : Chain) (ws : List Nat) (c : Nat) : Int :=
  sat39 (chainDiv 3 ((List.range 63).foldl (fun a j => a + bankTap ws c j * x.interp (bankDly ws c) j) 0) (2 ^ 22))

/-! ## Samples (R293, R296 to R298) -/

/-- GAIN and OFFSET of channel `c` in the words of a bank. -/
def bankGain (ws : List Nat) (c : Nat) : Int := sInt 40 (ws.getD (64 + 8 * c) 0 + 2 ^ 32 * (ws.getD (65 + 8 * c) 0 % 256))
def bankOfs (ws : List Nat) (c : Nat) : Int := sInt 40 (ws.getD (66 + 8 * c) 0 + 2 ^ 32 * (ws.getD (67 + 8 * c) 0 % 256))

/-- The words of bank `k`. -/
def State.bank (s : State) (k : Nat) : List Nat := s.words (Reg.STN_BANK k 0) 256

/-- The active bank. -/
def State.activeBank (s : State) : Nat := s.rf Reg.STN_STATUS 3 2

/-- A chain output scaled by a bank (R296), and whether it carries SAT. -/
def scaleSample (ws : List Nat) (c : Nat) (ovl x : Int) : Int × Bool :=
  let v := rhe (bankGain ws c * x - 2 ^ 39 * bankOfs ws c) (2 ^ 39)
  (sat39 v, over39 v || decide (ovl ≤ x.natAbs))

/-- The scaled sample of channel `c` from its filter chain: under the active bank, or mixed with the incoming bank during a fade. -/
def State.scaled (s : State) (b : List Byte) (c : Nat) : Int × Nat :=
  if !chanEn b c then (0, 1)
  else
    let ovl := stn40 b 7
    let inv := bitAt (s.thruBit Reg.STN_MOD_LOSS c) 0
    let o := scaleSample (s.bank s.activeBank) c ovl ((s.chain c).out (s.bank s.activeBank) c)
    if s.bit Reg.STN_STATUS 2 then
      let n := scaleSample s.stn.fadeBank c ovl ((s.chain c).out s.stn.fadeBank c)
      let a : Int := (2 ^ 39 * (s.stn.fadeAt + 1) / 2 ^ wf b 2 8 4 : Nat)
      (sat39 (o.1 + rhe (a * (n.1 - o.1)) (2 ^ 39)), inv + bitAt (o.2 || n.2) 1)
    else (o.1, inv + bitAt o.2 1)

/-- A sample placed among others by value. -/
def placeSample (x : Int × Nat) : List (Int × Nat) → List (Int × Nat)
  | [] => [x]
  | y :: t => if x.1 < y.1 then x :: y :: t else y :: placeSample x t

/-- The median of an odd number of samples. -/
def medianSample (l : List (Int × Nat)) : Int × Nat := (l.foldl (fun a x => placeSample x a) []).getD (l.length / 2) (0, 1)

/-- The output sample of a channel from its last five scaled samples: the middle one, or a median centred on it. -/
def despike (dspk : Nat) (h : List (Int × Nat)) : Int × Nat :=
  if dspk = 1 then medianSample ((h.drop 1).take 3) else if dspk = 2 then medianSample h else h.getD 2 (0, 1)

/-- STUCK_N. -/
def stuckN (b : List Byte) : Nat := wf b 2 16 16

/-- The bitstream of channel `c` is stuck: MOD_LOSS sets, or stays set from here on (R293). -/
def State.stuck (s : State) (c : Nat) : State :=
  let new := !s.thruBit Reg.STN_MOD_LOSS c
  let s := { s with stn := { s.stn with moved := Tbl.set s.stn.moved c 0 0 } }
  if new then ((s.setThruF Reg.STN_MOD_LOSS c 1 1).count Reg.STN_MOD_LOSS_CNT).raise 64 else s

/-- The last five scaled samples of channel `c`. -/
def State.chanHist (s : State) (c : Nat) : List (Int × Nat) := Tbl.get s.stn.hist c [(0, 1), (0, 1), (0, 1), (0, 1), (0, 1)]

/-- The bits of channel `c` pass its chain and give a scaled sample: SAT is counted, and MOD_LOSS runs out once the bitstream has moved. -/
def State.enterSample (s : State) (b : List Byte) (mdat : List (BitVec 24)) (c : Nat) : State :=
  let s := if chanEn b c then (s.checkFound 48 c).2 else s
  let bits := if chanEn b c then bitstream b c mdat else []
  let moves := (s.chain c).moves bits
  let s := if chanEn b c && !s.thruBit Reg.STN_MOD_LOSS c && decide (stuckN b ≤ (s.chain c).longest bits) then s.stuck c else s
  let s := if chanEn b c then
    { s with stn := { s.stn with chain := Tbl.set s.stn.chain c ((s.chain c).enter (wf b 0 0 9) bits) {} } } else s
  let x := s.scaled b c
  let s := if fld x.2 1 1 = 1 && chanEn b c then s.count Reg.STN_SAT_CNT else s
  let s := { s with stn := { s.stn with
    hist := Tbl.set s.stn.hist c (x :: (s.chanHist c).take 4) [(0, 1), (0, 1), (0, 1), (0, 1), (0, 1)] } }
  if !s.thruBit Reg.STN_MOD_LOSS c then s
  else
    let left := Tbl.get s.stn.moved c 0
    if left = 1 then
      ({ s with stn := { s.stn with moved := Tbl.set s.stn.moved c 0 0 } }).setThruF Reg.STN_MOD_LOSS c 1 0
    else if left ≠ 0 then { s with stn := { s.stn with moved := Tbl.set s.stn.moved c (left - 1) 0 } }
    else if moves then { s with stn := { s.stn with moved := Tbl.set s.stn.moved c 28 0 } }
    else s

/-- The output sample of channel `c`. -/
def State.chanOut (s : State) (b : List Byte) (c : Nat) : Int × Nat :=
  if chanEn b c then despike (fld (chanWord b c) 4 2) (s.chanHist c) else (0, 1)

/-- A channel's bitstream has held one value for STUCK_N clocks (R293): those of its chain, and those since, of which the output sample
that runs has 4 × R at most. -/
def modLoss (c : Nat) (s : State) : State :=
  let b := s.pat 14
  if !s.bit Reg.STN_STATUS 0 || !chanEn b c || (s.chain c).run + 4 * wf b 0 0 9 < stuckN b then s
  else s.stuck c

/-- MOD_LOSS. -/
def execModLoss (ch : Fin 24) (s : State) : Host.Outcome State Fault Refusal := running (modLoss ch.val) s

/-! ## Cross-fades (R298, R299) -/

/-- A swap request for bank `k`, while no fade runs. -/
def State.startFade (s : State) (k : Nat) : State :=
  if k = s.activeBank then s
  else
    let s := { s with stn := { s.stn with fadeTo := k, fadeAt := 0, fadeBank := [] } }
    ((s.setF Reg.STN_STATUS 2 1 1).setF Reg.STN_STATUS 5 2 s.activeBank).count Reg.STN_SWAP_CNT

/-- A write of STN_BANK_SWAP. -/
def stnBankSwap (w : Word) (s : State) : State :=
  let k := fld w.toNat 0 2
  if !w.getLsbD 31 || !s.feat 48 then s
  else if s.bit Reg.STN_STATUS 2 then
    let s := if s.bit Reg.STN_STATUS 7 then s.count Reg.STN_SWAP_REPL_CNT else s
    (s.setF Reg.STN_STATUS 7 1 1).setF Reg.STN_STATUS 8 2 k
  else s.startFade k

/-- STN_BANK_SWAP. -/
def execStnBankSwap (who : Party) (w : Word) (s : State) : Host.Outcome State Fault Refusal :=
  live (written who Reg.STN_BANK_SWAP w (stnBankSwap w)) s

/-- A fade that has had its last sample ends: its bank is active, and a held request is handled. -/
def stnBankDone (s : State) : State :=
  if s.bit Reg.STN_STATUS 2 && 2 ^ wf (s.pat 14) 2 8 4 ≤ s.stn.fadeAt then
    let s := ((s.setF Reg.STN_STATUS 2 1 0).setF Reg.STN_STATUS 3 2 s.stn.fadeTo).setF Reg.STN_STATUS 5 2 0
    let s := ({ s with stn := { s.stn with fadeTo := 0, fadeAt := 0, fadeBank := [] } }).raise 67
    if s.bit Reg.STN_STATUS 7 then
      ((s.setF Reg.STN_STATUS 7 1 0).setF Reg.STN_STATUS 8 2 0).startFade (s.rf Reg.STN_STATUS 8 2)
    else s
  else s

/-- STN_BANK_DONE. -/
def execStnBankDone (s : State) : Host.Outcome State Fault Refusal := running stnBankDone s

/-! ## Time steps (R300) -/

/-- The counter has stepped: the station inputs re-phase. -/
def State.stnStep (s : State) : State :=
  if s.bit Reg.STN_STATUS 0 then
    ({ s with stn := { s.stn with lastK := none, marks := (s.nowNs, 2 ^ 33) :: s.stn.marks } }.setF Reg.STN_STATUS 1 1 1).count Reg.STN_REPHASE_CNT
  else s

/-- The sample instants are back on the grid. -/
def rephaseEnd (s : State) : State := s.setF Reg.STN_STATUS 1 1 0

/-- REPHASE_END. -/
def execRephaseEnd (s : State) : Host.Outcome State Fault Refusal := running rephaseEnd s

/-! ## Current ranges (R301) -/

/-- Current `k` (4 × bay + m) switches ranges. -/
def State.rsOn (s : State) (b : List Byte) (k : Nat) : Bool :=
  let q := k / 4
  let m := k % 4
  s.feat 51 && fld (chanWord b (mainCh q m)) 7 1 = 1 && chanEn b (mainCh q m) && chanEn b (fallCh q m)

/-- The range that current `k` is due to move to. -/
def State.rangeDue (s : State) (b : List Byte) (k : Nat) : Option Bool :=
  let q := k / 4
  let m := k % 4
  let lost := fun (c : Nat) => s.thruBit Reg.STN_MOD_LOSS c
  if !s.rsOn b k then none
  else if !s.bit Reg.STN_RANGE k then
    if lost (mainCh q m) && !lost (fallCh q m) then some true else none
  else if lost (fallCh q m) && !lost (mainCh q m) then some false
  else if !lost (mainCh q m) && wf b 11 16 16 ≤ Tbl.get s.stn.rsCnt k 0 then some false
  else none

/-- Current `k` moved to a range. -/
def State.rangeMove (s : State) (k : Nat) (high : Bool) : State :=
  let s := { s with stn := { s.stn with rsCnt := Tbl.set s.stn.rsCnt k 0 0, rsBad := Tbl.set s.stn.rsBad k high false } }
  ((s.setF Reg.STN_RANGE k 1 (if high then 1 else 0)).count Reg.STN_RANGE_CNT).raise 65

/-- Current `k` moves to the range it is due to move to. -/
def rangeSwitch (k : Nat) (high : Bool) (s : State) : State :=
  if s.rangeDue (s.pat 14) k = some high then s.rangeMove k high else s

/-- RANGE_SWITCH. -/
def execRangeSwitch (cur : Fin 8) (high : Bool) (s : State) : Host.Outcome State Fault Refusal := running (rangeSwitch cur.val high) s

/-- The sample of current `k`, and the state in which its range has moved where the sample or an earlier event moves it. -/
def State.currentOut (s : State) (b : List Byte) (k : Nat) : CapSample × State :=
  let q := k / 4
  let m := k % 4
  let mn := s.chanOut b (mainCh q m)
  let fb := s.chanOut b (fallCh q m)
  if s.rsOn b k then
    let s := match s.rangeDue b k with
      | some h => s.rangeMove k h
      | none => s
    let s := if !s.bit Reg.STN_RANGE k && fld mn.2 1 1 = 1 then s.rangeMove k true else s
    if s.bit Reg.STN_RANGE k then
      let lim := rhe (stn40 b 9 * bankGain (s.bank s.activeBank) (mainCh q m)) (2 ^ 39)
      let bad := decide (lim ≤ fb.1.natAbs) || s.thruBit Reg.STN_MOD_LOSS (mainCh q m)
      let s := if bad then { s with stn := { s.stn with rsBad := Tbl.set s.stn.rsBad k true false } } else s
      (⟨fb.1, fb.2 + 4⟩, s)
    else (⟨mn.1, mn.2⟩, s)
  else if chanEn b (mainCh q m) then (⟨mn.1, mn.2⟩, s)
  else (⟨fb.1, fb.2 + bitAt (chanEn b (fallCh q m)) 2⟩, s)

/-- The samples of the signals from number `z` on (R291). -/
def State.signals (s : State) (b : List Byte) (z : Nat) : Nat → List CapSample × State
  | 0 => ([], s)
  | n + 1 =>
    let q := z / 8
    let m := z % 8
    if m < 4 then
      let x := s.chanOut b (12 * q + m)
      let r := s.signals b (z + 1) n
      (⟨x.1, x.2⟩ :: r.1, r.2)
    else
      let x := s.currentOut b (4 * q + (m - 4))
      let r := x.2.signals b (z + 1) n
      (x.1 :: r.1, r.2)

/-! ## Zero crossings (R303) -/

/-- Detector `z`. -/
def State.zdet (s : State) (z : Nat) : ZeroDet := Tbl.get s.stn.zc z {}
def State.setZdet (s : State) (z : Nat) (x : ZeroDet) : State := { s with stn := { s.stn with zc := Tbl.set s.stn.zc z x {} } }

/-- Signal `z` detects zero crossings. -/
def zcEn (b : List Byte) (z : Nat) : Bool := fld (chanWord b (12 * (z / 8) + z % 8)) 6 1 = 1

/-- A sample of a signal at instant `t` passes its detector. -/
def ZeroDet.take (x : ZeroDet) (hyst : Int) (v : CapSample) (t : Nat) : ZeroDet :=
  if fld v.flags 0 1 = 1 then { x with prev := none }
  else
    let x := match x.prev with
      | some (y, t0) =>
        if x.armed && y < 0 && 0 ≤ v.v then
          { x with armed := false, due := x.due ++ [t0 + (rhe (1000000000 * -y) (14400 * (v.v - y).toNat)).toNat] }
        else x
      | none => x
    { x with armed := x.armed || decide (v.v < -hyst), prev := some (v.v, t) }

/-- The oldest crossing of signal `z` written to its registers. -/
def zeroCrossing (z : Nat) (s : State) : State :=
  let x := s.zdet z
  match x.due with
  | [] => s
  | t :: rest =>
    let s := s.setZdet z { x with due := rest, last := some t, since := s.time.ticks }
    let s := s.setReg (Reg.STN_ZC_TIME z) (t80OfNs t)
    let s := match x.last with
      | some p => s.setReg (Reg.STN_ZC_PERIOD z) ((t - p) % 2 ^ 32)
      | none => s
    (s.count (Reg.STN_ZC_CNT z)).setF Reg.STN_ZC_LOST z 1 0

/-- ZERO_CROSSING. -/
def execZeroCrossing (z : Fin 16) (s : State) : Host.Outcome State Fault Refusal := running (zeroCrossing z.val) s

/-- Signal `z` has had no crossing for ZC_TMO ms. -/
def zcTimeout (z : Nat) (s : State) : State :=
  let b := s.pat 14
  if s.bit Reg.STN_STATUS 0 && zcEn b z && !s.bit Reg.STN_ZC_LOST z && (s.zdet z).since + 250000 * wf b 11 0 16 ≤ s.time.ticks then
    ((s.setF Reg.STN_ZC_LOST z 1 1).count Reg.STN_ZC_TMO_CNT).raise 66
  else s

/-- ZC_TIMEOUT. -/
def execZcTimeout (z : Fin 16) (s : State) : Host.Outcome State Fault Refusal := running (zcTimeout z.val) s

/-! ## The running cycle and its quantities (R302) -/

/-- Bay `q`. -/
def State.bay (s : State) (q : Nat) : Bay := Tbl.get s.stn.bays q {}
def State.setBay (s : State) (q : Nat) (x : Bay) : State := { s with stn := { s.stn with bays := Tbl.set s.stn.bays q x {} } }

/-- A bay's eight samples enter its running cycle. -/
def Bay.take (x : Bay) (smp : List CapSample) : Bay :=
  let v := fun (m : Nat) => (smp.getD m ⟨0, 1⟩).v
  let bad := (List.range 8).filter fun m => fld (smp.getD m ⟨0, 1⟩).flags 0 1 = 1 && !x.inv.contains m
  { x with
    n := x.n + 1, sq := x.sq.zipIdx.map fun a => a.1 + v a.2 * v a.2
    p := x.p.zipIdx.map fun a => a.1 + ext30 (v a.2 * v (4 + a.2)), inv := x.inv ++ bad }

/-- What a cycle gives: the 31 quantities in offset order, each with whether an INVALID sample went into it, and Q and S of the elements. -/
structure CycleOut where
  vals : List (Int × Bool)
  q : List Int
  s : List Int
  noload : List Bool
deriving DecidableEq, Repr

/-- An angle as a signed A40 value. -/
def angle40 (p : Phasor) : Int := sInt 40 (atan40 p.re p.im)

/-- The quantities of a cycle, from its sums and the phasors, frequency and ROCOF that its chain measured. -/
def Bay.quantities (x : Bay) (m : BayCycle) (noload : Int) : CycleOut :=
  let n := x.n
  let ph := fun (k : Nat) => (⟨m.vals.getD (2 * k) 0, m.vals.getD (2 * k + 1) 0⟩ : Phasor)
  let bad := fun (l : List Nat) => l.any fun k => x.inv.contains k
  let rms := x.sq.map fun a => (sqrtFix 0 30 (rhe a (2 ^ 30 * n))).1
  let sumOf := fun (l : List Int) => l ++ [sat39 (l.foldl (· + ·) 0)]
  let p := sumOf (x.p.map fun a => sat39 (rhe a n))
  let q := sumOf ((List.range 3).map fun k => ext30 ((ph k).im * (ph (4 + k)).re - (ph k).re * (ph (4 + k)).im))
  let s := sumOf ((List.range 3).map fun k => ext30 (rms.getD k 0 * rms.getD (4 + k) 0))
  let idle := s.map fun a => decide (a < noload)
  let pf := (List.range 4).map fun k => if idle.getD k true then 0 else (divFix 0 39 (p.getD k 0) (s.getD k 0)).1
  let ins := fun (k : Nat) => if k < 3 then [k, 4 + k] else [0, 1, 2, 4, 5, 6]
  let el := fun (l : List Int) => l.zipIdx.map fun a => (a.1, bad (ins a.2))
  let phang := (List.range 3).map fun k => (sInt 40 (uNat 40 (angle40 (ph (4 + k)) - angle40 (ph k))), bad [k, 4 + k])
  let vang := [1, 2].map fun k => (sInt 40 (uNat 40 (angle40 (ph k) - angle40 (ph 0))), bad [0, k])
  let fr := [16, 17].map fun k => (m.vals.getD k 0, bad [0, 1, 2])
  { vals := fr ++ (rms.zipIdx.map fun a => (a.1, bad [a.2])) ++ el p ++ el q ++ el s ++ el pf ++ phang ++ vang
    q := q, s := s, noload := idle }

/-! ## Energy and pulses (R307 to R310) -/

/-- One P40-sample in 2^-64 pu·h. -/
def energyKe : Int := rhe (2 ^ 66) 51840000

/-- Pulse output `p`. -/
def State.epo (s : State) (p : Nat) : Epo := Tbl.get s.stn.epo p {}
def State.setEpo (s : State) (p : Nat) (x : Epo) : State := { s with stn := { s.stn with epo := Tbl.set s.stn.epo p x {} } }

/-- Energy that the register of pulse output `p` gained reaches its residue: whole pulses are owed. -/
def State.epoGain (s : State) (b : List Byte) (p gain : Nat) : State :=
  let e := 2 ^ 32 * (epoWord b p 1 + 2 ^ 32 * epoWord b p 2)
  let x := s.epo p
  let r := x.residue + gain
  if e = 0 then s
  else
    let n := s.rn (Reg.STN_EPO_OWED p) + r / e
    let s := s.setEpo p { x with residue := r % e % 2 ^ 96 }
    let s := s.setReg (Reg.STN_EPO_OWED p) (min 65535 n)
    if n ≤ 65535 then s else (s.countBy Reg.STN_EPO_OVF_CNT (n - 65535)).raise 69

/-- `x` P40-samples added to accumulator `k` of an element. -/
def State.energyAdd (s : State) (b : List Byte) (q e k : Nat) (x : Int) : State :=
  let ix := 32 * q + 8 * e + k
  let old := Tbl.get s.stn.acc ix 0
  let gain := (rhe (x * energyKe) (2 ^ 32)).toNat
  let new := (old + gain) % 2 ^ 96
  let s := { s with stn := { s.stn with acc := Tbl.set s.stn.acc ix new 0 } }
  let s := s.setReg (Reg.STN_E q e k) (new / 2 ^ 32)
  let s := if new < old then s.setF (Reg.STN_EWRAP q) (8 * e + k) 1 1 else s
  s.forRange (fun p s =>
    let w := epoWord b p 0
    if fld w 0 1 = 1 && fld w 1 1 = q && fld w 2 2 = e && fld w 4 3 = k then s.epoGain b p gain else s) 0 4

/-- The quadrant accumulator of (EP, EQ). -/
def quadrant (ep eq : Int) : Nat := if 0 ≤ ep then (if 0 ≤ eq then 2 else 5) else if 0 ≤ eq then 3 else 4

/-- Element `e` of bay `q` advanced by a cycle (R307). -/
def State.energyElem (s : State) (b : List Byte) (q e n : Nat) (ep qc sc : Int) : State :=
  if sc < stn40 b 3 then s.setThruF Reg.STN_NOLOAD (4 * q + e) 1 1
  else
    let s := s.setThruF Reg.STN_NOLOAD (4 * q + e) 1 0
    let s := s.energyAdd b q e (if 0 ≤ ep then 0 else 1) ep.natAbs
    let s := s.energyAdd b q e (quadrant ep (qc * n)) (qc * n).natAbs
    s.energyAdd b q e (if 0 ≤ ep then 6 else 7) (sc * n)

/-- The elements of bay `q` advanced by its running cycle with the given Q and S. -/
def State.energyBay (s : State) (b : List Byte) (q : Nat) (x : Bay) (qs ss : List Int) : State :=
  if !s.feat 52 || !s.img.inForce || (s.pwr.state ≠ .run && s.pwr.state ≠ .park) then s
  else
    s.forRange (fun e s =>
      let ep := if e < 3 then x.p.getD e 0 else x.p.foldl (· + ·) 0
      s.energyElem b q e x.n ep (qs.getD e 0) (ss.getD e 0)) 0 4

/-- Offset of quantity `i` of bay `q` (R322). -/
def qtyReg (q i : Nat) : Nat := Reg.STN_FREQ q + 8 * i

/-- Quantity `i` written, unless it is held. -/
def State.putQty (s : State) (q i : Nat) (v : Int × Bool) : State := if v.2 then s else s.setReg (qtyReg q i) (uNat 40 v.1)

/-- Quantities from number `i` on written. -/
def State.putQtys (s : State) (q i : Nat) : List (Int × Bool) → State
  | [] => s
  | v :: t => (s.putQty q i v).putQtys q (i + 1) t

/-- Current `k` at its bay's cycle end: a cycle without a high sample counts toward LOW (R301). -/
def State.rsCycle (s : State) (k : Nat) : State :=
  if s.bit Reg.STN_RANGE k then
    let n := if Tbl.get s.stn.rsBad k false then 0 else Tbl.get s.stn.rsCnt k 0 + 1
    { s with stn := { s.stn with rsCnt := Tbl.set s.stn.rsCnt k (min n 65535) 0, rsBad := Tbl.set s.stn.rsBad k false false } }
  else s

/-- Bay `q`'s cycle ends. -/
def bayCycleEnd (q : Nat) (m : BayCycle) (s : State) : State :=
  let b := s.pat 14
  let x := s.bay q
  if !s.bit Reg.STN_STATUS 0 || x.n = 0 then s
  else
    let r := x.quantities m (stn40 b 3)
    let s := s.putQtys q 0 r.vals
    let s := s.setReg (Reg.STN_Q_HELD q) ((r.vals.zipIdx.map fun a => bitAt a.1.2 a.2).foldl (· + ·) 0)
    let s := s.setReg (Reg.STN_Q_SEQ q) ((s.rn (Reg.STN_Q_SEQ q) + 1) % 65536)
    let s := s.energyBay b q x r.q r.s
    let s := s.setBay q { q := r.q, s := r.s }
    let s := s.forRange (fun k s => s.rsCycle k) (4 * q) 4
    s.firnAll 1 (t80OfNs s.stn.lastT) fun i _ =>
      if i / 64 ≠ q then none
      else match r.vals[i % 64]? with
        | some v => if v.2 then some none else some (some v.1)
        | none => none

/-- BAY_CYCLE_END. -/
def execBayCycleEnd (bay : Fin 2) (m : BayCycle) (s : State) : Host.Outcome State Fault Refusal := running (bayCycleEnd bay.val m) s

/-- A bay's tracker gains or loses lock. -/
def bayTrackerLock (q : Nat) (locked : Bool) (s : State) : State := s.setF Reg.STN_STATUS (10 + q) 1 (if locked then 1 else 0)

/-- BAY_TRACKER_LOCK. -/
def execBayTrackerLock (bay : Fin 2) (locked : Bool) (s : State) : Host.Outcome State Fault Refusal :=
  running (bayTrackerLock bay.val locked) s

/-! ## The output sample -/

/-- The number k of the sample that leaves the chain now (R295). -/
def State.sampleK (s : State) : Nat := 14400 * s.nowNs / 1000000000 - 28

/-- Input instant, in ns, of the sample that leaves the chain now (R295): on the grid of 1/14,400 s except during a re-phase. -/
def State.sampleInstant (s : State) : Nat :=
  if s.bit Reg.STN_STATUS 1 then ((s.nowNs : Int) - 1944444).toNat else 1000000000 * s.sampleK / 14400

/-- A sample is due: one not yet delivered of the grid; during a re-phase, one no sooner after the last than fM raised by 0.1 % gives
(R300). -/
def State.sampleDue (s : State) : Bool :=
  if s.bit Reg.STN_STATUS 1 then 17343 + s.stn.outAt ≤ s.time.ticks
  else match s.stn.lastK with
    | some k => decide (k < s.sampleK)
    | none => true

/-- A sample of every channel leaves the chain: `mdat` holds the levels of MDAT at each quarter period of fM of its 4 × R modulator
clocks, two of which are left to the CIC's phase; what leaves is two output samples behind what enters scaling. -/
def stnOutputSample (mdat : List (BitVec 24)) (s : State) : State :=
  let b := s.pat 14
  if !s.bit Reg.STN_STATUS 0 || mdat.length ≠ 16 * wf b 0 0 9 || !s.sampleDue then s
  else
    let s := { s with stn := { s.stn with outAt := s.time.ticks, lastK := if s.bit Reg.STN_STATUS 1 then none else some s.sampleK } }
    let s := stnBankDone s
    let fading := s.bit Reg.STN_STATUS 2
    let s := if fading && s.stn.fadeAt = 0 then { s with stn := { s.stn with fadeBank := s.bank s.stn.fadeTo } } else s
    let s := s.forRange (fun c s => s.enterSample b mdat c) 0 24
    let s := if fading then { s with stn := { s.stn with fadeAt := s.stn.fadeAt + 1 } } else s
    let t := s.sampleInstant
    let (smp, s) := s.signals b 0 16
    let s := s.forRange (fun q s => s.setBay q ((s.bay q).take (smp.drop (8 * q)))) 0 2
    let s := s.forRange (fun z s => if zcEn b z then s.setZdet z ((s.zdet z).take (stn40 b 5) (smp.getD z ⟨0, 1⟩) t) else s) 0 16
    let mark := bitAt (s.bit Reg.STN_STATUS 1) 32 + (smp.zipIdx.map fun a =>
      bitAt (fld a.1.flags 0 1 = 1) a.2 + bitAt (fld a.1.flags 1 1 = 1) (16 + a.2)).foldl (· + ·) 0
    let marks := s.stn.marks.filter fun e => decide (t < 1000000000 + e.1)
    let s := { s with stn := { s.stn with
      lastT := t
      firstT := some (s.stn.firstT.getD t)
      marks := if mark = 0 then marks else (t, mark) :: marks } }
    s.capTake smp t

/-- STN_OUTPUT_SAMPLE; `errs` is what the checker of the banks and filter memories finds. -/
def execStnOutputSample (mdat : List (BitVec 24)) (errs : Tbl MemErr) (s : State) : Host.Outcome State Fault Refusal :=
  running (withErrs errs (stnOutputSample mdat)) s

/-! ## The local synchrophasor source (R304 to R306) -/

/-- The PROTO 3 stream record of a SOURCES body. -/
def localStream (b : List Byte) : Option Nat := (List.range (wf b 0 0 15)).find? fun n => fld (strWord b n 0) 0 2 = 3

/-- The window of the local source, ns: its cycles at the tracked frequency of PMU_BAY. -/
def State.pmuWindow (s : State) (b : List Byte) : Nat :=
  let f0 : Int := if wf b 1 2 1 = 1 then 60 else 50
  let f := 2 ^ 28 * f0 + sInt 40 (s.rn (Reg.STN_FREQ (wf b 1 1 1)))
  let c := if wf b 1 0 1 = 0 then 1 else wf b 1 8 4
  if f ≤ 0 then 0 else ((2 ^ 28 * (1000000000 * c) : Nat) : Int).toNat / f.toNat

/-- Signals that go into a lane of the item (R305). -/
def pmuSignals (b : List Byte) (lane : Nat) : List Nat :=
  if lane < 16 then
    let q := 8 * (lane / 8)
    let k := lane % 8
    if k < 3 then [q + k] else if k = 3 then [q, q + 1, q + 2] else if k < 7 then [q + k] else [q + 4, q + 5, q + 6]
  else if lane < 18 then (let q := 8 * wf b 1 1 1; [q, q + 1, q + 2])
  else if lane < 22 then (let q := 8 * ((lane - 18) / 2); [q, q + 1, q + 2, q + 4, q + 5, q + 6])
  else [8 * (lane - 22) + 3]

/-- What marked a sample at instants from `a` to `e`. -/
def State.windowMarks (s : State) (a e : Nat) : Nat :=
  s.stn.marks.foldl (fun m x => if a ≤ x.1 && x.1 ≤ e then m ||| x.2 else m) 0

/-- The item's payload from what the chain measured: 16 phasors, FREQ, ROCOF, and the magnitudes of VN; `w` its source word, `marks` what
marked a sample in its window. -/
def State.pmuPayload (s : State) (b : List Byte) (w : Nat) (m : LocalItem) (marks : Nat) : Payload :=
  let ph := (List.range 16).map fun k => (⟨m.vals.getD (2 * k) 0, m.vals.getD (2 * k + 1) 0⟩ : Phasor)
  let pw := fun (q k : Nat) =>
    let v := ph.getD (8 * q + k) ⟨0, 0⟩
    let i := ph.getD (8 * q + 4 + k) ⟨0, 0⟩
    ((ext30 (v.re * i.re + v.im * i.im), ext30 (v.im * i.re - v.re * i.im)) : Int × Int)
  let sum := fun (l : List Int) => sat39 (l.foldl (· + ·) 0)
  let tot := fun (q : Nat) => [sum ([0, 1, 2].map fun k => (pw q k).1), sum ([0, 1, 2].map fun k => (pw q k).2)]
  let inv := ((List.range 24).map fun l => bitAt ((pmuSignals b l).any fun z => fld marks z 1 = 1) l).foldl (· + ·) 0
  let sat := (List.range 24).any fun l => (pmuSignals b l).any fun z => fld marks (16 + z) 1 = 1
  let dg := s.rn Reg.STN_RANGE % 256 + bitAt (s.thruBit Reg.STN_NOLOAD 3) 8 + bitAt (s.thruBit Reg.STN_NOLOAD 7) 9 + s.rf Reg.STN_STATUS 10 2 * 1024
  let q := bitAt (fld marks 32 2 ≠ 0) 0 + bitAt (s.disc ≠ 2) 2 + s.pmuTq * 128 + s.unlockCode * 1024 + 65536 * (s.rn Reg.TIME_QUAL % 16)
  { ph := ph, freq := m.vals.getD 32 0, rocof := m.vals.getD 33 0
    an := tot 0 ++ tot 1 ++ [m.vals.getD 34 0, m.vals.getD 35 0], dg := [dg, 0, 0, 0]
    qual := qualWord w q sat false, invalid := inv }

/-- The local item of the latest reporting instant whose window has left the chain enters crossing 1. -/
def localPmuItem (m : LocalItem) (s : State) : State :=
  let b := s.pat 14
  let sb := s.pat 4
  match localStream sb with
  | none => s
  | some n =>
    let rate := fld (strWord sb n 2) 24 8
    let w := s.pmuWindow b
    let i := latestInst rate ((s.nowNs : Int) - (w / 2 : Nat) - 1944444).toNat
    let t0 := instT0 rate i
    let old := match s.stn.pmuT with
      | some p => decide (t0 ≤ p)
      | none => false
    let begun := match s.stn.firstT with
      | some f => decide (f + w / 2 ≤ t0)
      | none => false
    if !s.bit Reg.STN_STATUS 0 || !s.measuring || rate = 0 || w = 0 || old || !begun then s
    else
      let a := t0 - w / 2
      let src := fld (strWord sb n 1) 16 14
      let y := s.pmuPayload b (srcWord sb src 0) m (s.windowMarks a (t0 + w / 2))
      let s := ({ s with stn := { s.stn with pmuT := some t0 } }).setReg (Reg.DEC_SRC_Q src) y.qual
      s.pushItem true { src := src, sec := i / rate, n := i % rate, rate := rate, arr := s.nowT80, epoch := s.epoch, payload := y }

/-- LOCAL_PMU_ITEM: the item crosses the bridge. -/
def execLocalPmuItem (m : LocalItem) (err : MemErr) (s : State) : Host.Outcome State Fault Refusal :=
  live (fun s => localPmuItem m (s.crossing 0 err)) s

/-! ## Pulse outputs (R310) -/

/-- Pulse output `p` is enabled by the image in force. -/
def State.epoOn (s : State) (b : List Byte) (p : Nat) : Bool := s.img.inForce && s.feat 52 && fld (epoWord b p 0) 0 1 = 1

/-- An owed pulse begins on output `p`, after WIDTH × 10 µs inactive. -/
def epoPulseStart (p : Nat) (s : State) : State :=
  let b := s.pat 14
  let x := s.epo p
  if s.epoOn b p && !x.active && s.rn (Reg.STN_EPO_OWED p) ≠ 0 && x.since + fld (epoWord b p 0) 16 16 * 2500 ≤ s.time.ticks then
    ((s.setEpo p { x with active := true, since := s.time.ticks }).setReg (Reg.STN_EPO_OWED p)
      (s.rn (Reg.STN_EPO_OWED p) - 1)).count (Reg.STN_EPO_CNT p)
  else s

/-- EPO_PULSE_START. -/
def execEpoPulseStart (pin : Fin 4) (s : State) : Host.Outcome State Fault Refusal := running (epoPulseStart pin.val) s

/-- A pulse that has lasted WIDTH × 10 µs, or whose output is no longer enabled, ends. -/
def epoPulseEnd (p : Nat) (s : State) : State :=
  let b := s.pat 14
  let x := s.epo p
  if x.active && (!s.epoOn b p || x.since + fld (epoWord b p 0) 16 16 * 2500 ≤ s.time.ticks) then
    s.setEpo p { x with active := false, since := s.time.ticks }
  else s

/-- EPO_PULSE_END. -/
def execEpoPulseEnd (pin : Fin 4) (s : State) : Host.Outcome State Fault Refusal := running (epoPulseEnd pin.val) s

/-- The level of pin EPO[p]. -/
def State.epoPin (s : State) (p : Nat) : Bool := (s.bit (Reg.STN_EPO_CFG p) 7) == ((s.epo p).active && s.epoOn (s.pat 14) p)

/-! ## Saves (R311 to R313) -/

/-- Kinds of a save. -/
abbrev savePeriodic : Nat := 0
abbrev saveWarning : Nat := 1
abbrev saveHold : Nat := 2
abbrev saveClear : Nat := 3

/-- The content a save of kind `kind` latches now. -/
def State.snapshot (s : State) (kind : Nat) : Save :=
  { acc := s.stn.acc, residues := (List.range 4).map fun p => (s.epo p).residue, t := s.nowT80
    seq := (s.rn Reg.STN_SAVE_SEQ + 1) % 2 ^ 32, kind := kind }

/-- A save started in the slot that is not valid. -/
def State.beginSave (s : State) (kind : Nat) : State :=
  let slot := if s.bit Reg.STN_SAVE_STATE 0 then 1 - s.rf Reg.STN_SAVE_STATE 1 1 else 0
  ({ s with stn := { s.stn with save := some (slot, s.snapshot kind) } }).setF Reg.STN_SAVE_STATE 4 1 1

/-- A trigger of a save (R312). -/
def State.trigSave (s : State) (kind : Nat) : State :=
  match s.stn.save with
  | none => s.beginSave kind
  | some (_, x) =>
    if x.kind = savePeriodic then (if kind = savePeriodic then s else s.beginSave kind)
    else s.count Reg.STN_SAVE_MISS_CNT

/-- Each bay's running cycle closed at its last sample, with Q and S of its last complete cycle (R311). -/
def State.closeCycles (s : State) : State :=
  s.forRange (fun q s =>
    let x := s.bay q
    if x.n = 0 then s else (s.energyBay (s.pat 14) q x x.q x.s).setBay q { q := x.q, s := x.s }) 0 2

/-- The periodic save is due. -/
def periodicSave (s : State) : State :=
  let per := s.rn Reg.STN_SAVE_PERIOD
  if per ≠ 0 && s.feat 52 && s.stn.saveAt + 250000000 * per ≤ s.time.ticks then
    ({ s with stn := { s.stn with saveAt := s.time.ticks } }).trigSave savePeriodic
  else s

/-- PERIODIC_SAVE. -/
def execPeriodicSave (s : State) : Host.Outcome State Fault Refusal := running periodicSave s

/-- The running save has written its last word: its slot is the valid one. -/
def saveComplete (s : State) : State :=
  match s.stn.save with
  | none => s
  | some (k, x) =>
    let s := { s with stn := { s.stn with
      save := none, slot0 := if k = 0 then x else s.stn.slot0, slot1 := if k = 0 then s.stn.slot1 else x } }
    let s := s.setReg Reg.STN_SAVE_STATE (1 + 2 * k + 4 * x.kind + s.rf Reg.STN_SAVE_STATE 5 1 * 32)
    let s := ((s.setReg Reg.STN_SAVE_T0 x.t).setReg Reg.STN_SAVE_SEQ x.seq).count Reg.STN_SAVE_CNT
    if x.kind = saveWarning then s.raise 68 else s

/-- SAVE_COMPLETE. -/
def execSaveComplete (s : State) : Host.Outcome State Fault Refusal := running saveComplete s

/-- Accumulators and residues set, and shown. -/
def State.setEnergy (s : State) (acc : Tbl Nat) (residues : List Nat) : State :=
  let s := { s with stn := { s.stn with acc := acc } }
  let s := s.forRange (fun i s => s.setReg (Reg.STN_E (i / 32) (i / 8 % 4) (i % 8)) (Tbl.get acc i 0 / 2 ^ 32)) 0 64
  s.forRange (fun p s => s.setEpo p { s.epo p with residue := residues.getD p 0 }) 0 4

/-- A write of STN_ECLR inside its authorisation (R309). -/
def stnEclr (w : Word) (s : State) : State :=
  match s.key.statsAt with
  | none => s
  | some a =>
    if !w.getLsbD 31 || !s.feat 52 || !a.energy || 250000000 + a.since ≤ s.time.ticks then s
    else
      let s := { s with key := { s.key with statsAt := if a.firn then some { a with energy := false } else none } }
      let s := (s.setEnergy [] []).forRange (fun q s => s.setReg (Reg.STN_EWRAP q) 0) 0 2
      s.trigSave saveClear

/-- STN_ECLR. -/
def execStnEclr (who : Party) (w : Word) (s : State) : Host.Outcome State Fault Refusal :=
  live (written who Reg.STN_ECLR w (stnEclr w)) s

/-- The valid slot loaded at POR (R313); a save found incomplete is counted. -/
def State.restoreEnergy (s : State) : State :=
  let s := if s.stn.save.isSome then ({ s with stn := { s.stn with save := none } }).count Reg.STN_SAVE_FAIL_CNT else s
  if s.bit Reg.STN_SAVE_STATE 0 then
    let k := s.rf Reg.STN_SAVE_STATE 1 1
    let x := if k = 0 then s.stn.slot0 else s.stn.slot1
    (((s.setEnergy x.acc x.residues).setReg Reg.STN_SAVE_STATE (1 + 2 * k + 4 * x.kind + 32)).setReg Reg.STN_SAVE_T0 x.t).setReg
      Reg.STN_SAVE_SEQ x.seq
  else (s.setEnergy [] []).setReg Reg.STN_SAVE_STATE 0

/-! ## Image (R299, R301, R309) -/

/-- The station inputs' part of a full image applied. -/
def State.applyStn (s : State) : State :=
  let b := s.pat 14
  let on := s.feat 48 && b ≠ []
  let old := s.stn
  let s := { s with stn := {
    acc := old.acc, epo := old.epo, slot0 := old.slot0, slot1 := old.slot1, save := old.save, saveAt := s.time.ticks } }
  let s := s.forRange (fun z s => s.setZdet z { s.zdet z with since := s.time.ticks }) 0 16
  let s := s.setReg Reg.STN_CFG (wf b 0 0 9 + wf b 0 12 4 * 2 ^ 12 + 2 ^ 16 * wf b 1 0 2)
  let s := s.setReg Reg.STN_STATUS (bitAt on 0 + wf b 2 12 2 * 8)
  let s := ((s.setThru Reg.STN_MOD_LOSS 0).setReg Reg.STN_RANGE 0).setReg Reg.STN_ZC_LOST 0
  let s := s.setReg Reg.STN_SAVE_PERIOD (wf b 2 0 8)
  let s := s.forRange (fun i s => s.setReg (Reg.STN_BANK (i / 256) (i % 256)) (word b (112 + i))) 0 1024
  s.forRange (fun p s => s.setReg (Reg.STN_EPO_CFG p) (epoWord b p 0)) 0 4

end Sys2Proof.Machine
end

