-- ==== Sys2Proof/Machine/Ranges.lean ====
section
/-! DEFINITION. The field ranges of an image's patterns (R26 to R28, R30, checks 9 and 10 of R31): shared tests, and TIME, PORTS, SOURCES
and GROUPS. -/
namespace Sys2Proof.Machine
open Sys2Proof

/-- A field of a record: word, first bit, width, and the least and greatest value. -/
structure Fr where
  w : Nat
  lo : Nat
  len : Nat
  min : Nat
  max : Nat
deriving DecidableEq, Repr

/-- A field with a range. -/
def fr (w lo len mn mx : Nat) : Fr := ⟨w, lo, len, mn, mx⟩
/-- A field that takes any value. -/
def fa (w lo len : Nat) : Fr := ⟨w, lo, len, 0, 2 ^ len - 1⟩

/-- The bits of word `i` that fields cover. -/
def frMask (fs : List Fr) (i : Nat) : Nat := fs.foldl (fun m f => if f.w = i then m ||| (2 ^ f.len - 1) * 2 ^ f.lo else m) 0

/-- The record of `n` words at byte `o`: every field within its range, and every other bit, reserved, zero. -/
def recOk (b : List Byte) (o n : Nat) (fs : List Fr) : Bool :=
  (fs.all fun f => f.min ≤ fld (numAt b (o + 4 * f.w) 4) f.lo f.len && fld (numAt b (o + 4 * f.w) 4) f.lo f.len ≤ f.max) &&
    (List.range n).all fun i => numAt b (o + 4 * i) 4 &&& frMask fs i = numAt b (o + 4 * i) 4

/-- The field of 40 bits over two words from word `i` of the record at byte `o` lies in a range; its second word's upper bits are
reserved. -/
def in40 (b : List Byte) (o i : Nat) (lo hi : Int) : Bool :=
  lo ≤ p40At b (o + 4 * i) && p40At b (o + 4 * i) ≤ hi && numAt b (o + 4 * i + 5) 3 = 0

/-- The two words of a 40-bit field, for the reserved bits of its record. -/
def f40 (i : Nat) : List Fr := [fa i 0 32, fa (i + 1) 0 8]

/-- A feature is in REQ_FEAT. -/
def inReq (req n : Nat) : Bool := fld req n 1 = 1

/-- `p` implies `q`. -/
def imp (p q : Bool) : Bool := !p || q

/-- Every number below `n` satisfies `p`. -/
def allTo (n : Nat) (p : Nat → Bool) : Bool := (List.range n).all p

/-- Some number below `n` satisfies `p`. -/
def anyTo (n : Nat) (p : Nat → Bool) : Bool := (List.range n).any p

/-- No two elements of a list are equal. -/
def distinct (l : List Nat) : Bool :=
  match l with
  | [] => true
  | a :: t => !t.contains a && distinct t

/-- No two of the ranges (first, length) overlap. -/
def disjoint (l : List (Nat × Nat)) : Bool :=
  match l with
  | [] => true
  | (a, n) :: t => (t.all fun e => a + n ≤ e.1 || e.1 + e.2 ≤ a || n = 0 || e.2 = 0) && disjoint t

/-- The reporting rates of R4. -/
def rates : List Nat := (List.range 241).filter fun r => r ≠ 0 && (240 % r = 0 || 200 % r = 0)

/-- The bodies of an image by TYPE, as the device would hold them. -/
abbrev Bodies := Nat → List Byte

/-- Binding `kb` of KEYUSE has use `use` (R404). -/
def bindOk (p : Bodies) (kb use : Nat) : Bool := kb < wf (p 20) 0 0 9 && fld (word (p 20) (4 + kb)) 16 3 = use

/-! ## TIME (R81, R82) -/

/-- Tack `k` of a TIME body. -/
def tackRangeOk (b : List Byte) (req k : Nat) : Bool :=
  let o := 32 + 32 * k
  let w := fun i => numAt b (o + 4 * i) 4
  let base := fld (w 0) 1 1
  let act := fld (w 0) 4 3
  recOk b o 8 [fa 0 0 4, fr 0 4 3 0 4, fa 0 16 16, fa 1 0 32, fa 2 0 32, fa 3 0 32, fa 4 0 16, fa 5 0 32, fa 6 0 16] &&
    imp (base = 0) (w 2 ≤ 999999999) && imp (base = 1) (w 4 = 0 && inReq req 49) &&
    imp (fld (w 0) 2 1 = 1)
      (if base = 0 then 1000 ≤ w 5 + 2 ^ 32 * fld (w 6) 0 16 else 0x4000000 ≤ w 5 || fld (w 6) 0 16 ≠ 0) &&
    imp (act = 1) (fld (w 1) 8 24 ≠ 0 && fld (w 1) 4 3 = 0) && imp (act = 2) (w 1 < 32 && inReq req 53) &&
    imp (act = 3) (w 1 < 64 && inReq req 56) && imp (act = 4) (fld (w 1) 10 6 = 0)

/-- The TIME body. DESIGN CHOICE (log 104): MODE 0 needs no feature 32, whose absence only leaves PTP unserved (R44); R82 ties no feature to
a mode, and MODE 2 is held to the feature of the reference it names. -/
def timeRangeOk (req : Nat) (p : Bodies) : Bool :=
  let b := p 3
  let mode := wf b 0 0 2
  let n := wf b 4 0 7
  recOk b 0 8 [fr 0 0 2 0 2, fa 0 2 3, fa 0 8 4, fa 0 16 8, fr 1 0 32 50 1000000000, fr 2 0 16 10 60000, fr 2 16 16 1 65535, fa 3 0 4,
      fr 3 8 8 5 50, fr 4 0 7 0 64] &&
    b.length = 32 + 32 * n && imp (mode ≠ 1) (wf b 0 8 4 ≠ 0) && imp (mode = 2) (inReq req 32) && imp (mode ≠ 0) (inReq req 34) &&
    imp (wf b 0 3 1 = 1) (inReq req 33) && imp (n ≠ 0) (inReq req 36) && allTo n (tackRangeOk b req)

/-! ## PORTS (R92, R98 to R100) -/

/-- Rule record `k` of a PORTS body. -/
def ruleRangeOk (b : List Byte) (req k : Nat) : Bool :=
  let o := 128 + 32 * k
  let w := fun i => numAt b (o + 4 * i) 4
  let cls := fld (w 0) 4 2
  let tgt := fld (w 0) 6 3
  let en := fun i => fld (w 0) i 1 = 1
  recOk b o 8 [fr 0 0 4 1 15, fa 0 4 2, fa 0 6 3, fa 0 9 8, fa 1 0 16, fa 1 16 12, fa 1 28 1, fa 2 0 8, fa 2 8 5, fa 3 0 32, fa 4 0 32,
      fa 5 0 32, fa 6 0 16] &&
    cls ≠ 2 && imp (cls = 0) (tgt ≤ 2 && inReq req (if tgt = 0 then 1 else if tgt = 1 then 3 else 4) && en 12 &&
      fld (w 2) 0 8 = (if tgt = 1 then 6 else 17)) &&
    imp (en 13) (fld (w 2) 8 5 < wf b 3 24 6) && fld (w 3) 0 16 ≤ fld (w 3) 16 16 && fld (w 4) 0 16 ≤ fld (w 4) 16 16 &&
    imp (en 11 && fld (w 1) 28 1 = 1) (inReq req 8)

/-- The PORTS body. -/
def portsRangeOk (req : Nat) (p : Bodies) : Bool :=
  let b := p 2
  let en := fun i => wf b 0 i 1 = 1
  let speed := fun i => wf b 0 (4 + 2 * i) 2
  let mac := fun i => word2 b (8 + 2 * i)
  let rules := wf b 3 16 8
  let addrs := wf b 3 24 6
  recOk b 0 32 ([fa 0 0 4, fr 0 4 2 0 2, fr 0 6 2 0 2, fa 0 8 8, fa 0 16 2, fa 0 20 4, fr 1 0 14 1518 9216, fr 1 16 16 10 10000,
      fr 2 0 16 100 10000, fr 2 16 16 1 65535, fr 3 0 16 1 65535, fr 3 16 8 1 128, fr 3 24 6 0 32, fr 4 0 10 1 1023, fr 4 16 10 1 1023,
      fr 5 0 10 1 1023, fr 5 16 10 1 1023, fr 6 0 16 1 65535, fa 7 0 3, fr 7 4 4 1 8, fr 7 16 16 10 10000] ++
      (List.range 4).flatMap fun i => [fa (8 + 2 * i) 0 32, fa (9 + 2 * i) 0 16]) &&
    decide (b.length = 128 + 32 * (rules + addrs)) &&
    allTo 2 (fun i => imp (speed i ≠ 0) (inReq req 11 && !en (20 + i))) && allTo 4 (fun i => mac i % 2 = 0) &&
    imp (en 10) (inReq req 9 && en 0 && en 1 && speed 0 = speed 1 && mac 0 = mac 1) &&
    imp (en 11) (inReq req 9 && en 2 && en 3 && mac 2 = mac 3) &&
    imp (wf b 0 12 4 ≠ 0) (inReq req 35) && imp (wf b 0 20 4 ≠ 0) (inReq req 10) && allTo rules (ruleRangeOk b req) &&
    allTo addrs (fun k => recOk b (128 + 32 * (rules + k)) 8 [fa 0 0 1, fa 1 0 32, fa 2 0 32, fa 3 0 32, fa 4 0 32] &&
      imp (wf b (32 + 8 * (rules + k)) 0 1 = 1) (inReq req 8))

/-- ADDR_CNT. -/
def addrCnt (p : Bodies) : Nat := wf (p 2) 3 24 6

/-! ## SOURCES (R118 to R121) -/

/-- STREAM_CNT. -/
def strCnt (b : List Byte) : Nat := wf b 0 0 15
/-- SRC_CNT. -/
def srcCnt (b : List Byte) : Nat := wf b 1 0 15

/-- Sources of stream `n`: the first and how many. -/
def strSpan (b : List Byte) (n : Nat) : Nat × Nat := (fld (strWord b n 1) 16 14, fld (strWord b n 0) 8 8)

/-- The stream of source `k`. -/
def strOf (b : List Byte) (k : Nat) : Option Nat :=
  (List.range (strCnt b)).find? fun n => (strSpan b n).1 ≤ k && k < (strSpan b n).1 + (strSpan b n).2

/-- Phasor, analog and digital lanes of source `k` (R120, R305). -/
def srcLanes (b : List Byte) (k : Nat) : Nat × Nat × Nat :=
  match strOf b k with
  | some n =>
    if fld (strWord b n 0) 0 2 = 3 then (16, 6, 4)
    else (fld (srcWord b k 1) 24 5, fld (srcWord b k 1) 29 3, Nat.min 4 (fld (srcWord b k 1) 16 8))
  | none => (0, 0, 0)

/-- Octets of source `k`'s block in a data frame (R119). -/
def srcBlockLen (b : List Byte) (k : Nat) : Nat :=
  let f := srcWord b k 0
  let n := srcWord b k 1
  2 + fld n 0 8 * (if fld f 1 1 = 1 then 8 else 4) + (if fld f 3 1 = 1 then 8 else 4) + fld n 8 8 * (if fld f 2 1 = 1 then 4 else 2) +
    2 * fld n 16 8

/-- The key of stream `n` (R119): PROTO, CONN for TCP, and IDCODE or APPID. -/
def strKey (b : List Byte) (n : Nat) : Nat :=
  let w := strWord b n 0
  2 ^ 32 * fld w 0 2 + (if fld w 0 2 = 1 then 2 ^ 16 * fld (strWord b n 3) 16 12 else 0) + fld w 16 16

/-- Stream record `n`. -/
def strRangeOk (p : Bodies) (req n : Nat) : Bool :=
  let b := p 4
  let o := 64 + 32 * n
  let w := strWord b n
  let proto := fld (w 0) 0 2
  let c37 := decide (proto ≤ 1)
  let cnt := fld (w 0) 8 8
  recOk b o 8 [fa 0 0 4, fr 0 8 8 1 (if proto = 2 then 8 else if proto = 3 then 1 else 255), fa 0 16 16,
      (if c37 then fr 1 0 16 18 2048 else fr 1 0 16 0 0), fa 1 16 14, (if c37 then fr 2 0 24 1 16777215 else fr 2 0 24 0 0), fr 2 24 8 1 240,
      fr 3 0 10 1 1000, fa 3 16 12, fa 4 0 5, fa 4 8 8, fa 4 16 2, fa 5 0 11] &&
    inReq req (if proto = 0 then 1 else if proto = 1 then 3 else if proto = 2 then 4 else 48) &&
    imp (fld (w 0) 2 1 = 1) (fld (w 4) 0 5 < addrCnt p) &&
    imp (proto = 2 && fld (w 4) 16 2 ≠ 0) (inReq req (if fld (w 4) 16 2 = 3 then 6 else 5) && bindOk p (fld (w 4) 8 8) 1) &&
    (fld (w 5) 0 11 = 0x7FF || fld (w 5) 0 11 < wf b 2 0 11) &&
    imp c37 (fld (w 1) 0 16 = 16 + ((List.range cnt).map fun i => srcBlockLen b (fld (w 1) 16 14 + i)).foldl (· + ·) 0) &&
    allTo cnt fun i => match groupOfSrc (p 5) (fld (w 1) 16 14 + i) with
      | some g => grpRate (p 5) g = fld (w 2) 24 8
      | none => false

/-- Source record `k`. -/
def srcRangeOk (b : List Byte) (k : Nat) : Bool :=
  let o := 64 + 32 * strCnt b + 256 * k
  let w := srcWord b k
  match strOf b k with
  | none => false
  | some n =>
    let proto := fld (strWord b n 0) 0 2
    let ph := fld (w 1) 24 5
    let an := fld (w 1) 29 3
    let dg := fld (w 1) 16 8
    decide (fld (w 0) 7 3 ≠ 0) && (decide (proto = 3) ||
      (recOk b o 64 ([fa 0 0 12, fa 1 0 24, fr 1 24 5 0 16, fr 1 29 3 0 6, fa 2 0 32, fa 3 0 32] ++
        (List.range 16).flatMap (fun i => [fa (4 + 3 * i) 0 14, fa (5 + 3 * i) 0 32, fa (6 + 3 * i) 0 32]) ++
        (List.range 6).flatMap fun j => [fa (52 + 2 * j) 0 14, fa (53 + 2 * j) 0 32]) &&
      imp (proto = 2) (fld (w 0) 0 4 = 15 && dg = 0) &&
      allTo ph (fun i => fld (w (4 + 3 * i)) 0 8 < fld (w 1) 0 8 && w (5 + 3 * i) ≠ 0) &&
      allTo an (fun j => fld (w (52 + 2 * j)) 0 8 < fld (w 1) 8 8 && w (53 + 2 * j) ≠ 0) &&
      allTo (Nat.min 4 dg) (fun i => fld (w 2) (8 * i) 8 < dg)))

/-- The SOURCES body. -/
def sourcesRangeOk (req : Nat) (p : Bodies) : Bool :=
  let b := p 4
  let n := strCnt b
  let m := srcCnt b
  let t := wf b 2 0 11
  recOk b 0 16 [fr 0 0 15 1 16384, fr 1 0 15 1 16384, fr 2 0 11 0 1024, fa 3 0 3, fa 3 8 8] && 64 + 32 * n + 256 * m + 64 * t ≤ b.length &&
    distinct (((List.range n).filter fun i => fld (strWord b i 0) 0 2 ≠ 3).map (strKey b)) && disjoint ((List.range n).map (strSpan b)) &&
    ((List.range n).map fun i => (strSpan b i).2).foldl (· + ·) 0 = m && allTo m (fun k => (strOf b k).isSome) &&
    allTo n (strRangeOk p req) && allTo m (srcRangeOk b) &&
    allTo t fun k => recOk b (64 + 32 * n + 256 * m + 64 * k) 16 [fr 0 0 4 1 15, fa 0 4 16, fr 0 24 5 0 (addrCnt p - 1), fa 1 0 32, fa 2 0 32,
      fa 3 0 16, fr 4 0 5 0 (addrCnt p - 1)] && addrCnt p ≠ 0

/-! ## GROUPS (R142 to R144) -/

/-- Group record `g`. -/
def grpRangeOk (p : Bodies) (req g : Nat) : Bool :=
  let b := p 5
  let o := 64 + 64 * g
  let w := grpWord b g
  let rate := fld (w 0) 0 8
  let top := Nat.min (8 * 1000000000 / rate) 4294967295
  recOk b o 16 [fa 0 0 13, fa 1 0 14, fr 1 16 15 1 16384, fr 2 0 15 1 (fld (w 1) 16 15), fr 3 0 32 50000 top, fr 4 0 32 50000 (w 5),
      fr 5 0 32 (w 4) top, fr 6 0 32 (w 4) (w 5), fr 7 0 32 0 (w 5), fr 8 0 10 512 1023, fa 8 12 4, fr 8 16 4 8 15, fr 8 20 8 16 255,
      fr 9 0 32 0 (w 5), fa 10 0 16, fr 10 16 8 1 255] &&
    rates.contains rate && (decide (10 ≤ fld (w 8) 12 4) || decide (fld (w 8) 12 4 ≤ 4)) &&
    imp (fld (w 0) 8 1 = 1) (inReq req 24 && (members b g).any fun m => fld m 15 1 = 0) && imp (fld (w 0) 9 1 = 1) (inReq req 23) &&
    imp (fld (w 0) 10 1 = 1) (inReq req 25) && imp (fld (w 0) 11 1 = 1) (wf b 0 9 1 = 1) &&
    decide (fld (w 1) 0 14 + fld (w 1) 16 15 ≤ srcCnt (p 4))

/-- The GROUPS body. -/
def groupsRangeOk (req : Nat) (p : Bodies) : Bool :=
  let b := p 5
  let n := grpCnt b
  let m := srcCnt (p 4)
  recOk b 0 16 [fr 0 0 9 1 256, fa 0 9 2, fr 1 0 16 1 65535, fr 1 16 16 1 65535, fr 2 0 16 1 65535, fr 2 16 16 1 65535, fr 3 0 16 1 65535,
      fr 3 16 16 1 65535, fa 4 0 32, fa 5 0 32, fa 6 0 17, fa 7 0 32] &&
    decide (64 + 64 * n + 4 * m ≤ b.length) && imp (wf b 0 9 1 = 1) (inReq req 59 && 64 ≤ wf b 6 0 17 && wf b 6 0 17 ≤ 65408) &&
    decide (word2 b 4 % 2 ^ 20 = 0) && decide (word b 7 % 64 = 0) && allTo n (grpRangeOk p req) &&
    disjoint ((List.range n).map fun g => (fld (grpWord b g 1) 0 14, fld (grpWord b g 1) 16 15)) &&
    allTo m (fun k => memRec b k < 65536 && fld (memRec b k) 0 14 < m) &&
    distinct ((List.range n).flatMap (memSources b)) && decide (((List.range n).flatMap (memSources b)).length = m)

/-- The regions of DDR5 that the patterns place (R142, R325, R349), as (base, size) in bytes: history, spill and trace ring. -/
def ddrRegions (p : Bodies) : List (Nat × Nat) :=
  (if wf (p 5) 0 9 1 = 1 then [(word2 (p 5) 4, 2 ^ 20 * wf (p 5) 6 0 17)] else []) ++
    (if wf (p 16) 4 0 17 ≠ 0 then [(word2 (p 16) 2, 2 ^ 20 * wf (p 16) 4 0 17)] else []) ++
    (if wf (p 17) 4 0 1 = 1 then [(word2 (p 17) 2, 2 ^ 20)] else [])

/-- They overlap neither one another nor the staging area, and lie in installed memory of `size` bytes. -/
def regionsFit (size : Nat) (p : Bodies) : Bool :=
  disjoint ((0, 134217728) :: ddrRegions p) && (ddrRegions p).all fun e => e.1 + e.2 ≤ size

/-- The rate of a source's group. -/
def srcRate (p : Bodies) (k : Nat) : Option Nat := (groupOfSrc (p 5) k).map (grpRate (p 5))

/-- Installed DDR5 in bytes (R455). -/
def State.ddrSize (s : State) : Nat := 2 ^ 28 * (s.pwr.size0 + s.pwr.size1)

end Sys2Proof.Machine
end

