-- ==== Sys2Proof/Machine/RangesEng.lean ====
section
/-! DEFINITION. The field ranges and capacities of the engines' patterns: FABRIC, TOPOLOGY, FACTOR, COHERENCE, THRESHOLDS, BANDS, ALARMS
and UPSTREAM. -/
namespace Sys2Proof.Machine
open Sys2Proof

/-! ## FABRIC (R179, R183, R189, R191 to R194) -/

/-- ROLE and INST of panel record `k`. -/
def pnlRole (b : List Byte) (k : Nat) : Nat := fld (pnlWord b k 0) 0 3
/-- INST of panel record `k`. -/
def pnlInstOf (b : List Byte) (k : Nat) : Nat := fld (pnlWord b k 0) 4 2

/-- Group `g` is in panel record `k`'s GRPMASK. -/
def pnlTakes (b : List Byte) (k g : Nat) : Bool := fld (pnlWord b k (1 + g / 32)) (g % 32) 1 = 1

/-- The panel records of instance `e` of role `r`. -/
def instPnls (b : List Byte) (r e : Nat) : List Nat := (List.range 16).filter fun k => pnlRole b k = r && pnlInstOf b k = e

/-- The instances of role `r` that panel records define. -/
def instsOf (b : List Byte) (r : Nat) : List Nat := (List.range 4).filter fun e => !(instPnls b r e).isEmpty

/-- A source's group is consumed by instance `e` of role `r`. -/
def inMask (p : Bodies) (r e src : Nat) : Bool :=
  match instPnls (p 1) r e, groupOfSrc (p 5) src with
  | k :: _, some g => pnlTakes (p 1) k g
  | _, _ => false

/-- The estimator instance with the GRPMASK of instance `e` of role `r`, where exactly one has it (R226). -/
def pairOf (b : List Byte) (r e : Nat) : Option Nat :=
  match instPnls b r e with
  | [] => none
  | k :: _ =>
    match (instsOf b 1).filter fun d => (instPnls b 1 d).any fun q => (List.range 8).all fun i => pnlWord b q (1 + i) = pnlWord b k (1 + i) with
    | [d] => some d
    | _ => none

/-- Feature that a panel role needs (R193). -/
def roleFeat (r : Nat) : Nat :=
  if r = 1 then 16 else if r = 2 then 19 else if r = 3 then 20 else if r = 4 then 22 else if r = 5 then 12 else 18

/-- Microcode word `i` of tile `t` of a FABRIC body. -/
def ucWord (b : List Byte) (t i : Nat) : Nat := numAt b (word b 2 + 8192 * t + 8 * i) 8

/-- CLASS and OP of a microcode word are defined, and a background tile sends no ALARM, DONE or CNT (R179, R193). -/
def ucOk (bg : Bool) (w : Nat) : Bool :=
  let c := fld w 60 4
  let o := fld w 56 4
  decide (c ≤ 6) && decide (o ≤ [6, 14, 3, 3, 5, 5, 3].getD c 0) && !(bg && c = 5 && 2 ≤ o && o ≤ 4)

/-- The initialisation extents from byte `o` with `left` bytes to go; at most `fuel` of them. -/
def extentsOk (b : List Byte) (o left : Nat) : Nat → Bool
  | 0 => left = 0
  | k + 1 =>
    if left = 0 then true
    else
      let h := numAt b o 8
      let n := 8 + 8 * fld h 23 16
      decide (h < 2 ^ 39) && decide (fld h 8 15 + fld h 23 16 ≤ 32768) && decide (n ≤ left) && extentsOk b (o + n) (left - n) k

/-- Panel record `k`. -/
def pnlRangeOk (p : Bodies) (req k : Nat) : Bool :=
  let b := p 1
  let w := pnlWord b k
  let r := pnlRole b k
  let n := fld (w 10) 0 15
  let peers := instPnls b r (pnlInstOf b k)
  recOk b (64 + 128 * k) 32 ([fr 0 0 3 0 6, fa 0 3 3, fa 9 0 18, fr 10 0 15 0 16384, fa 11 0 32, fa 12 0 16, fa 12 16 10] ++
      (List.range 8).map (fun i => fa (1 + i) 0 32) ++ (List.range 4).map fun i => fa (16 + i) 0 32) &&
    imp (r ≠ 0) (inReq req (roleFeat r) && (peers.filter fun q => fld (pnlWord b q 0) 3 1 = 1).length = 1 &&
      (peers.all fun q => (List.range 8).all fun i => pnlWord b q (1 + i) = w (1 + i)) &&
      word2 b (16 + 32 * k + 16) + 512 ≤ b.length && word2 b (16 + 32 * k + 18) + 2048 ≤ b.length &&
      allTo 64 (fun c => recOk b (w 16 + 8 * c) 2 [fa 0 0 32, fa 1 0 14]) &&
      allTo 256 (fun c => recOk b (w 18 + 8 * c) 2 [fr 0 0 19 1 (2 ^ 19 - 1), fa 0 19 11, fa 1 0 10, fr 1 10 2 0 2, fr 1 12 16 0 52420])) &&
    imp (1 ≤ r && r ≤ 5) ((List.range 256).any (pnlTakes b k)) && allTo 256 (fun g => imp (pnlTakes b k g) (g < grpCnt (p 5))) &&
    imp (r = 0 || r = 6) ((List.range 8).all fun i => w (1 + i) = 0) && imp (r = 6) (n = 0) &&
    imp (n ≠ 0) (fld (w 9) 0 18 + n ≤ wf b 0 0 20)

/-- The FABRIC body; `opl` gives its operand-list entries. -/
def fabricRangeOk (opl : Nat → Nat × Nat) (req : Nat) (p : Bodies) : Bool :=
  let b := p 1
  recOk b 0 16 [fr 0 0 20 0 262144, fr 1 0 12 1 3600, fa 2 0 32, fa 3 0 32, fr 4 0 32 0 83886080] &&
    decide (word b 2 % 16 = 0) && decide (word b 3 % 16 = 0) && decide (word b 4 % 8 = 0) && decide (2097152 + word b 2 ≤ b.length) &&
    decide (word b 3 + word b 4 ≤ b.length) && allTo 16 (pnlRangeOk p req) &&
    allTo (wf b 0 0 20) (fun i => (opl i).2 < 2 ^ 26 && fld (opl i).2 0 24 ≠ 0) &&
    allTo 256 (fun t => allTo 1024 fun i => ucOk (pnlRole b (t / 16) = 6) (ucWord b t i)) &&
    extentsOk b (word b 3) (word b 4) (word b 4)

/-- Least common multiple of two rates: the reporting instants of both are multiples of its interval. -/
def rateLcm (a b : Nat) : Nat := a * b / Nat.gcd a b

/-- The shortest spacing, in ns, of the instants of the groups a panel consumes (R19). -/
def spacing (p : Bodies) (k : Nat) : Nat :=
  let rs := ((List.range (grpCnt (p 5))).filter (pnlTakes (p 1) k)).map (grpRate (p 5))
  let m := rs.foldl (fun m a => rs.foldl (fun m b => Nat.max m (rateLcm a b)) m) 1
  1000000000 / m

/-- Capacities of FABRIC (R193, R250): operand loads and spans, an oscillation instance's of at most 60 µs; what the device finds of SRAM-port cycles and matching stores is not stated
as a computation, so it is free. -/
def fabricFits (opl : Nat → Nat × Nat) (p : Bodies) : Bool :=
  let b := p 1
  Config.fabricFits b && allTo 16 fun k =>
    pnlRole b k = 0 || pnlRole b k = 6 ||
      (decide (((List.range (fld (pnlWord b k 10) 0 15)).map fun i =>
        5 * (laneCount (fld (opl (fld (pnlWord b k 9) 0 18 + i)).2 0 24) + 1)).foldl (· + ·) 0 ≤ 163840) &&
      decide (10000 + pnlWord b k 11 ≤ spacing p k) && imp (pnlRole b k = 3) (pnlWord b k 11 ≤ 60000))

/-- A list of instance numbers rises strictly. -/
def risingList (l : List Nat) : Bool :=
  match l with
  | a :: c :: t => decide (a < c) && risingList (c :: t)
  | _ => true

/-! ## TOPOLOGY (R204 to R208) -/

/-- Byte offsets of the sections of TOPOLOGY from byte `o`, with their content. -/
def topoOfs (b : List Byte) (o : Nat) : Nat → List (Nat × Topo)
  | 0 => []
  | k + 1 => (o, (topoAt b o).1) :: topoOfs b (topoAt b o).2 k

/-- A column's run words from byte `o`: each of at least one row, ascending, apart, and at or above row `from`. -/
def runsOk (b : List Byte) (o n from_ : Nat) : Nat → Bool
  | 0 => true
  | k + 1 =>
    let w := numAt b o 4
    let a := fld w 0 14
    let l := fld w 14 14
    decide (w < 2 ^ 28) && decide (1 ≤ l) && decide (from_ ≤ a) && decide (a + l ≤ n) && runsOk b (o + 4) n (a + l) k

/-- The columns `j, …` of `n` of the structure section, from byte `o`. -/
def colsOk (b : List Byte) (n j o : Nat) : Nat → Bool
  | 0 => true
  | k + 1 =>
    let h := numAt b o 4
    let runs := fld h 16 16
    decide (fld h 14 2 = 0) && runsOk b (o + 4) n (j + 1) runs &&
      decide (fld h 0 14 = if runs = 0 then 0x3FFF else fld (numAt b (o + 4) 4) 0 14) && colsOk b n (j + 1) (o + 4 + 4 * runs) k

/-- The union of two ascending lists without repeats, as one. -/
def unionRows (a b : List Nat) : List Nat := (b.filter fun x => !a.contains x) ++ a

/-- The symbolic factor lies in the structure, columns `j, …`: `inh` holds, by column, rows that its children hand up. -/
def symbolicOk (t : Topo) (adj : Nat → List Nat) (inh : Tbl (List Nat)) (j : Nat) : Nat → Bool
  | 0 => true
  | k + 1 =>
    let rows := unionRows (adj j) (Tbl.get inh j [])
    let rest := fun (q : Nat) => rows.filter (· ≠ q)
    (rows.all fun r => (t.rows.getD j []).contains r) &&
      symbolicOk t adj (match rows.foldl (fun m r => match m with
        | some x => some (Nat.min x r)
        | none => some r) none with
      | some q => Tbl.set inh q (unionRows (rest q) (Tbl.get inh q [])) []
      | none => inh) (j + 1) k

/-- The rows below `j` that a channel joins to bus `j` in G': those of its channels whose coefficients at both buses are not zero. -/
def adjRows (t : Topo) (j : Nat) : List Nat :=
  (t.chans.filterMap fun c =>
    if c.current && c.a ≠ c.b && c.ha ≠ ⟨0, 0⟩ && c.hb ≠ ⟨0, 0⟩ && Nat.min c.a c.b = j then some (Nat.max c.a c.b) else none).eraseDups

/-- The section of TOPOLOGY at byte `o` (R204 to R208), its sources and every status source within the instance's GRPMASK (R503). -/
def topoSecOk (p : Bodies) (o : Nat) (t : Topo) : Bool :=
  let b := p 6
  let n := t.buses.length
  let br := t.brs.length
  let brO := o + 64 + 32 * n
  let chO := brO + 16 * br
  let inst := fld (numAt b o 4) 0 2
  recOk b o 16 ([fa 0 0 2, fr 1 0 14 1 12288, fr 2 0 18 1 131072, fr 3 0 15 0 32767, fr 8 0 8 1 255, fr 8 8 8 1 255, fr 8 16 8 1 255,
      fr 9 0 10 1 1023, fa 10 0 32, fr 11 0 22 1024 2000000, fr 12 0 22 n 4000000] ++ f40 4 ++ f40 6) &&
    decide (2 ^ 10 ≤ t.sigma) && decide (10 * t.sigma ≤ 2 ^ 30) && decide (2 * 2 ^ 30 ≤ t.lambda) && decide (t.lambda ≤ 20 * 2 ^ 30) &&
    decide (numAt b (o + 40) 4 % 8 = 0) && decide (o + numAt b (o + 40) 4 ≤ b.length) &&
    allTo n (fun j => recOk b (o + 64 + 32 * j) 8 (f40 0 ++ f40 2 ++ f40 4 ++ [fr 6 0 32 0 0x7FFFFFFF, fa 7 0 1]) &&
      (t.buses.getD j ⟨0, ⟨0, 0⟩, 0, false⟩).s > 0 &&
      imp (t.buses.getD j ⟨0, ⟨0, 0⟩, 0, false⟩).use ((t.buses.getD j ⟨0, ⟨0, 0⟩, 0, false⟩).psw ≠ 0)) &&
    allTo br (fun j => recOk b (brO + 16 * j) 4 [fr 0 0 14 0 (n - 1), fr 0 16 14 0 (n - 1), fa 0 31 1, fa 1 0 21] &&
      inMask p 1 inst (fld (numAt b (brO + 16 * j + 4) 4) 0 14)) &&
    allTo t.chans.length (fun i =>
      let q := chO + 48 * i
      recOk b q 12 ([fa 0 0 19, fr 1 0 14 0 (n - 1), fr 1 16 14 0 (n - 1), fa 2 0 16, fr 11 0 32 1 0x400000] ++ f40 3 ++ f40 5 ++ f40 7 ++
          f40 9) &&
        decide (fld (numAt b q 4) 14 4 < (srcLanes (p 4) (fld (numAt b q 4) 0 14)).1) && inMask p 1 inst (fld (numAt b q 4) 0 14) &&
        (fld (numAt b (q + 8) 4) 0 16 = 0xFFFF || fld (numAt b (q + 8) 4) 0 16 < br) &&
        imp (fld (numAt b q 4) 18 1 = 0) (numAt b (q + 4) 2 = numAt b (q + 6) 2 && p40At b (q + 28) = 0 && p40At b (q + 36) = 0)) &&
    colsOk b n 0 (o + numAt b (o + 40) 4) n && decide (t.fact = n + (t.rows.map List.length).foldl (· + ·) 0) &&
    symbolicOk t (adjRows t) [] 0 n

/-- The TOPOLOGY body. -/
def topologyRangeOk (p : Bodies) : Bool :=
  let b := p 6
  let n := wf b 0 0 3
  recOk b 0 4 [fr 0 0 3 1 4] && risingList ((topoSecs b 16 n).map Prod.fst) && ((topoOfs b 16 n).all fun e => topoSecOk p e.1 e.2) &&
    decide ((topoSecs b 16 n).map Prod.fst = instsOf (p 1) 1)

/-- Tile SRAM that a section's factor takes: 10 bytes an entry and 4 a run (R203). -/
def Topo.sram (t : Topo) : Nat := 10 * t.fact + 4 * (t.struct.length / 4 - t.buses.length)

/-- Capacities of TOPOLOGY and FACTOR (R203, R217): a factor lies in the tile SRAM of its instance's panels, and every DINV is above 0. -/
def topologyFits (p : Bodies) : Bool :=
  let secs := topoSecs (p 6) 16 (wf (p 6) 0 0 3)
  let ts := secs.map Prod.snd
  let sum := fun (f : Topo → Nat) => (ts.map f).foldl (· + ·) 0
  decide (sum (fun t => t.buses.length) ≤ 12288) && decide (sum (fun t => t.chans.length) ≤ 131072) && decide (sum Topo.fact ≤ 4000000) &&
    (secs.all fun et => decide (et.2.sram ≤ 262144 * ((instPnls (p 1) 1 et.1).length * 16)) &&
      (((factOf (p 6) (p 7) et.1).map Prod.fst).getD []).all fun c => 0 < c.2.dinv) &&
    ts.all fun t => allTo t.chans.length (fun i => poolNeed t (changeSet t [i]) ≤ t.pool) &&
      allTo t.brs.length fun k => poolNeed t (changeSet t ((List.range t.chans.length).filter fun i =>
        (t.chans[i]?).any fun c => c.branch = k)) ≤ t.pool

/-! ## FACTOR (R209) -/

/-- `k` column records from byte `o`: reserved bits, columns ascending from `lo`. -/
def factColsOk (t : Topo) (b : List Byte) (o lo : Nat) : Nat → Bool
  | 0 => true
  | k + 1 =>
    let j := fld (numAt b o 4) 0 14
    let n := (t.rows.getD j []).length
    decide (numAt b o 4 < 2 ^ 14) && decide (numAt b (o + 9) 3 = 0) && decide (lo ≤ j) &&
      decide (j < t.buses.length) && decide (o + 12 + 10 * n ≤ b.length) && factColsOk t b (o + (12 + 10 * n + 7) / 8 * 8) (j + 1) k

/-- The sections of FACTOR from byte `o`: of instances `es` in order; a full image carries every column. -/
def factSecsOk (full : Bool) (tb b : List Byte) (o : Nat) : List Nat → Bool
  | [] => true
  | e :: es =>
    match topoOf tb e with
    | none => false
    | some t =>
      let cols := numAt b (o + 4) 4
      let r := factAt t b o
      decide (numAt b o 4 = e) && decide (cols < 2 ^ 14) && imp full (cols = t.buses.length) && factColsOk t b (o + 8) 0 cols &&
        (r.2.1.all fun v => v = 0 || (2 ^ 30 ≤ v)) && decide (r.2.2 ≤ b.length) && factSecsOk full tb b r.2.2 es

/-- The FACTOR body. -/
def factorRangeOk (full : Bool) (p : Bodies) : Bool :=
  recOk (p 7) 0 4 [fr 0 0 3 1 4] && decide (wf (p 7) 0 0 3 = wf (p 6) 0 0 3) &&
    factSecsOk full (p 6) (p 7) 16 ((topoSecs (p 6) 16 (wf (p 6) 0 0 3)).map Prod.fst)

/-- What a partial TOPOLOGY and FACTOR must keep and carry against the ones in force `old` (R209). -/
def topoPartialOk (old p : Bodies) : Bool :=
  let a := topoSecs (old 6) 16 (wf (old 6) 0 0 3)
  let c := topoSecs (p 6) 16 (wf (p 6) 0 0 3)
  decide (a.map Prod.fst = c.map Prod.fst) && (a.zip c).all fun (e, g) =>
    let o := e.2
    let t := g.2
    let cols := ((factOf (p 6) (p 7) g.1).map fun f => f.1.map Prod.fst).getD []
    let touched := (List.range (Nat.max o.chans.length t.chans.length)).filter fun i => decide (o.chans[i]? ≠ t.chans[i]?)
    let buses := touched.flatMap fun i => [o.chans[i]?, t.chans[i]?].flatMap fun x => (x.map fun c => [c.a, c.b]).getD []
    decide (o.buses.map BusRec.s = t.buses.map BusRec.s) && decide (o.struct = t.struct) &&
      buses.all fun j => (pathOf t j t.buses.length).all fun q => cols.contains q

/-- Pool entries that a partial image needs of instance `e` (R219). -/
def partialNeed (p : Bodies) (e : Nat) : Nat :=
  match topoOf (p 6) e, factOf (p 6) (p 7) e with
  | some t, some f => poolNeed t (f.1.map Prod.fst)
  | _, _ => 0

/-! ## COHERENCE (R226 to R228) -/

/-- Byte offsets of the sections of COHERENCE from byte `o`, with their content. -/
def cohOfs (b : List Byte) (o : Nat) : Nat → List (Nat × Coh)
  | 0 => []
  | k + 1 => (o, (cohAt b o).1) :: cohOfs b (cohAt b o).2 k

/-- CLASS_CNT. -/
def classCnt (p : Bodies) : Nat := wf (p 11) 0 0 9

/-- BUS_CNT of an estimator instance. -/
def busCnt (p : Bodies) (e : Nat) : Nat := ((topoOf (p 6) e).map fun t => t.buses.length).getD 0

/-- The section of COHERENCE at byte `o`. -/
def cohSecOk (p : Bodies) (o : Nat) (c : Coh) : Bool :=
  let b := p 8
  let e := fld (numAt b o 4) 0 2
  let n := c.nodes.length
  let ref := fun r => r = 0x3FFF || r < n
  let nO := o + 64 + 16 * c.sets.length
  recOk b o 16 [fa 0 0 2, fr 0 2 5 1 16, fr 1 0 15 1 16384, fr 2 0 17 1 65536, fr 3 0 14 0 (n - 1), fa 3 16 14, fa 4 0 14, fa 4 16 14,
      fr 5 0 8 1 255, fr 5 8 8 1 255, fa 5 16 8, fr 6 0 15 1 16384, fr 7 0 8 0 (classCnt p - 1), fr 7 8 8 0 (classCnt p - 1)] &&
    (c.refs.drop 1).all (fun r => ref r) &&
    allTo c.sets.length (fun k => in40 b (o + 64 + 16 * k) 0 0 (2047 * 2 ^ 28) && in40 b (o + 64 + 16 * k) 2 0 (2047 * 2 ^ 28)) &&
    allTo n (fun k => recOk b (nO + 8 * k) 2 [fa 0 0 14, fa 0 16 14]) &&
    allTo c.edges.length (fun k => recOk b (nO + 8 * n + 8 * k) 2 [fa 0 0 14, fa 0 16 14, fr 1 0 4 0 (c.sets.length - 1), fa 1 4 1]) &&
    (match pairOf (p 1) 2 e with
      | some d => c.nodes.all fun x => inMask p 2 e x.1 && x.2 < busCnt p d
      | none => false) &&
    (c.edges.all fun x => x.1 < x.2.1 && x.2.1 < n) && distinct (c.edges.map fun x => 16384 * x.1 + x.2.1)

/-- The COHERENCE body. -/
def coherenceRangeOk (p : Bodies) : Bool :=
  let b := p 8
  recOk b 0 4 [fr 0 0 3 1 4] && risingList ((cohSecs b 16 (wf b 0 0 3)).map Prod.fst) &&
    ((cohOfs b 16 (wf b 0 0 3)).all fun e => cohSecOk p e.1 e.2) && decide ((cohSecs b 16 (wf b 0 0 3)).map Prod.fst = instsOf (p 1) 2)

/-- Capacities of COHERENCE (R226). -/
def coherenceFits (p : Bodies) : Bool :=
  let cs := (cohSecs (p 8) 16 (wf (p 8) 0 0 3)).map Prod.snd
  decide ((cs.map fun c => c.nodes.length).foldl (· + ·) 0 ≤ 16384) && decide ((cs.map fun c => c.edges.length).foldl (· + ·) 0 ≤ 65536)

/-! ## THRESHOLDS (R239 to R241) -/

/-- FMT of limit set `k`. -/
def limFmt (b : List Byte) (k : Nat) : Nat := fld (numAt b (16 + 32 * k) 4) 2 2

/-- Word 1 of a monitor record: LSET with its FMT, CLASS. -/
def monOk (p : Bodies) (fmt w : Nat) : Bool :=
  fld w 0 10 < wf (p 10) 1 0 11 && limFmt (p 10) (fld w 0 10) = fmt && fld w 16 8 < classCnt p && fld w 10 6 = 0 && fld w 24 8 = 0

/-- The section of THRESHOLDS of instance `e`. -/
def thrSecOk (req : Nat) (p : Bodies) (e : Nat) (x : ThrSec) : Bool :=
  let n := (pairOf (p 1) 4 e).map (busCnt p)
  let bus := fun k => k < n.getD 0
  imp (!x.mon2.isEmpty || !x.pairs.isEmpty) (n.isSome && inReq req 16) &&
    (x.mon1.all fun m => m.1 < 2 ^ 17 && fld m.1 14 2 = 0 && inMask p 4 e (fld m.1 0 14) && monOk p 2 m.2) &&
    (x.mon2.all fun m => m.1 < 2 ^ 14 && bus m.1 && monOk p 0 m.2) &&
    x.pairs.all fun m => m.1 < 2 ^ 30 && fld m.1 14 2 = 0 && bus (fld m.1 0 14) && bus (fld m.1 16 14) &&
      fld m.1 0 14 ≠ fld m.1 16 14 && monOk p 1 m.2

/-- Bytes of the section headers of THRESHOLDS from byte `o`. -/
def thrHeadsOk (b : List Byte) (o : Nat) : Nat → Bool
  | 0 => true
  | k + 1 =>
    recOk b o 4 [fa 0 0 2, fa 1 0 17, fa 2 0 15, fa 3 0 17] &&
      thrHeadsOk b (o + 16 + 8 * (numAt b (o + 4) 4 + numAt b (o + 8) 4 + numAt b (o + 12) 4)) k

/-- The THRESHOLDS body. -/
def thresholdsRangeOk (req : Nat) (p : Bodies) : Bool :=
  let b := p 10
  let ls := wf b 1 0 11
  recOk b 0 4 [fr 0 0 3 1 4, fr 1 0 11 1 1024] && risingList ((thrAll b).map Prod.fst) &&
    allTo ls (fun k => recOk b (16 + 32 * k) 8 ([fr 0 0 2 0 2, fr 0 2 2 0 2, fr 0 8 8 1 255, fr 0 16 8 1 255] ++ f40 1 ++ f40 3) &&
      imp (fld (numAt b (16 + 32 * k) 4) 0 2 = 2) (0 ≤ p40At b (20 + 32 * k)) && decide (0 ≤ p40At b (28 + 32 * k))) &&
    thrHeadsOk b (16 + 32 * ls) (wf b 0 0 3) && ((thrAll b).all fun e => thrSecOk req p e.1 e.2) &&
    decide ((thrAll b).map Prod.fst = instsOf (p 1) 4)

/-- Capacities of THRESHOLDS (R239). -/
def thresholdsFit (p : Bodies) : Bool :=
  let xs := (thrAll (p 10)).map Prod.snd
  let sum := fun (f : ThrSec → List (Nat × Nat)) => (xs.map fun x => (f x).length).foldl (· + ·) 0
  decide (sum ThrSec.mon1 ≤ 65536) && decide (sum ThrSec.mon2 ≤ 24576) && decide (sum ThrSec.pairs ≤ 65536)

/-! ## BANDS (R250, R252 to R256) -/

/-- Band record `k` of a signal group of rate `rate / 2^dec`: its ranges, and the frequency rules of R256. -/
def bandRangeOk (p : Bodies) (req k rate dec : Nat) : Bool :=
  let b := p 9
  let o := bandOfs b k
  let r := bandRec b k
  let f := r.inc * rate
  let w := (r.bw * 2 ^ (12 + dec) : Int).toNat
  recOk b o 32 ([fr 0 0 8 0 (classCnt p - 1), fr 0 8 8 1 255, fr 0 16 8 1 255] ++ (List.range 10).flatMap fun i => f40 (1 + 2 * i)) &&
    decide (1 ≤ r.inc) && decide (r.inc ≤ 0x6AAAAAAAAA) && decide (1 ≤ r.a) && decide (r.a ≤ 2 ^ 38) && decide (0 < r.bw) && decide (w ≤ f) &&
    decide (0 ≤ r.eMin) && decide (0 ≤ r.qMin) && decide (0 ≤ r.zHyst) && decide (0 ≤ r.aMin) && decide (r.aMin ≤ r.aMax) &&
    decide (0 ≤ r.aHyst) && decide (r.aHyst ≤ r.aMin) && decide (2 ^ (40 + dec) ≤ 100 * f) && decide (12 * (f + w) ≤ 2 ^ 40 * (5 * rate)) &&
    imp (5 * 2 ^ (40 + dec) < f + w) (inReq req 21 && rate = 240 * 2 ^ dec)

/-- Signal record `k`, whose GAIN is above 0 as a signed Q40 value, of a signal group of instance `e` and rate `rate`. -/
def sigRangeOk (p : Bodies) (e rate k : Nat) : Bool :=
  let b := p 9
  let o := sigOfs b k
  let r := sigRec b k
  let l := srcLanes (p 4) r.src
  recOk b o 4 [fa 0 0 14, fr 0 14 3 0 4, fa 0 17 8, fa 1 0 18, fr 2 0 32 1 (2 ^ 31 - 1), fr 3 0 5 0 20] && inMask p 3 e r.src &&
    srcRate p r.src = some rate && imp (r.kind = 0 || r.kind = 1 || r.kind = 4) (r.lane < l.1) && imp (r.kind = 3) (r.lane < l.2.1) &&
    imp (r.kind = 4) (r.lane2 < l.1) &&
    imp (r.kind = 1) (inMask p 3 e r.asrc && srcRate p r.asrc = some rate && r.alane < (srcLanes (p 4) r.asrc).1)

/-- The BANDS body. -/
def bandsRangeOk (req : Nat) (p : Bodies) : Bool :=
  let b := p 9
  let gs := (List.range (sgCnt b)).map (sgRec b)
  recOk b 0 4 [fr 0 0 3 1 4, fr 1 0 9 1 256, fr 2 0 13 1 4096, fr 3 0 13 1 4096] &&
    decide (16 + 64 * sgCnt b + 128 * bandCnt b + 16 * sigCnt b ≤ b.length) &&
    allTo (sgCnt b) (fun k =>
      let g := sgRec b k
      recOk b (sgOfs k) 16 [fa 0 0 2, fa 0 8 8, fa 0 16 2, fa 1 0 16, fr 2 0 13 0 (sigCnt b - 1), fr 3 0 13 1 4096,
          fr 4 0 12 0 (bandCnt b - 1), fr 4 16 7 1 64, fr 5 0 13 g.firstSig (g.firstSig + g.nSig - 1), fr 6 0 5 4 24, fr 6 8 5 2 20,
          fa 7 0 16, fr 7 16 8 1 255] &&
        rates.contains g.rate && (List.range g.nSig).all (fun i => sigRangeOk p g.inst g.rate (g.firstSig + i)) &&
        (List.range g.nBand).all fun i => bandRangeOk p req (g.firstBand + i) g.rate g.dec) &&
    distinct (gs.map SgRec.id) && disjoint (gs.map fun g => (g.firstSig, g.nSig)) && disjoint (gs.map fun g => (g.firstBand, g.nBand)) &&
    (gs.all fun g => g.firstSig + g.nSig ≤ sigCnt b && g.firstBand + g.nBand ≤ bandCnt b) &&
    decide ((gs.map SgRec.nSig).foldl (· + ·) 0 = sigCnt b) && decide ((gs.map SgRec.nBand).foldl (· + ·) 0 = bandCnt b)

/-- Capacity of BANDS (R250): signal-band pairs; the other limits are the header's ranges. -/
def bandsFit (p : Bodies) : Bool :=
  decide ((((List.range (sgCnt (p 9))).map (sgRec (p 9))).map fun g => g.nSig * g.nBand).foldl (· + ·) 0 ≤ 262144)

/-! ## ALARMS (R278, R279) -/

/-- A VisibleString of `n` octets, then zeros up to `m`. -/
def visibleOk (l : List Byte) (n m : Nat) : Bool :=
  ((l.take n).all fun c => 0x20 ≤ c.toNat && c.toNat ≤ 0x7E) && ((l.take m).drop n).all (· = 0)

/-- GOOSE template `k`. -/
def tmplRangeOk (p : Bodies) (k : Nat) : Bool :=
  let b := p 11
  let w := goTmpl b k
  let n := fld (w 6) 24 6
  recOk b (tmplOfs b k) 128 ([fr 0 0 4 1 15, fa 0 4 18, fa 1 0 24, fa 2 0 32, fa 3 0 16, fr 4 0 16 1 1000, fr 4 16 16 (fld (w 4) 0 16) 60000,
      fa 5 0 32, fr 6 0 8 1 128, fr 6 8 8 1 128, fr 6 16 7 1 64, fr 6 24 6 1 32] ++ (List.range 80).map (fun i => fa (16 + i) 0 32) ++
      (List.range 32).flatMap fun m => [fa (96 + m) 0 2, (if m < n then fr (96 + m) 8 8 0 (classCnt p - 1) else fa (96 + m) 8 8)]) &&
    visibleOk (b.drop (tmplOfs b k + 64)) (fld (w 6) 0 8) 128 && visibleOk (b.drop (tmplOfs b k + 192)) (fld (w 6) 8 8) 128 &&
    visibleOk (b.drop (tmplOfs b k + 320)) (fld (w 6) 16 7) 64 && fld (w 2) 0 1 = 1 && imp (fld (w 0) 21 1 = 1) (bindOk p (fld (w 1) 16 8) 1)

/-- The ALARMS body. -/
def alarmsRangeOk (req : Nat) (p : Bodies) : Bool :=
  let b := p 11
  let t := wf b 0 16 7
  let defined := fun i => instsOf (p 1) (if i < 4 then 2 else if i < 8 then 4 else 3) |>.contains (i % 4)
  recOk b 0 16 [fr 0 0 9 1 256, fr 0 16 7 0 64, fa 1 0 12, fr 2 0 16 10 65535, fr 3 0 16 1 65535] && imp (t ≠ 0) (inReq req 7) &&
    decide (64 + 16 * classCnt p + 512 * t ≤ b.length) && allTo 12 (fun i => imp (wf b 1 i 1 = 1) (defined i)) &&
    allTo (classCnt p) (fun c => recOk b (64 + 16 * c) 4 [fa 0 0 9, fr 0 9 2 0 2, fa 1 0 16]) && allTo t (tmplRangeOk p)

/-- Octets of a BER element with `n` octets of content. -/
def tlvLen (n : Nat) : Nat := 1 + (berLen n).length + n

/-- The largest frame of GOOSE template `k`, FCS included, is within FRAME_MAX (R279, R284). -/
def tmplFits (p : Bodies) (k : Nat) : Bool :=
  let w := goTmpl (p 11) k
  let num := fun v => tlvLen (berNat v).length
  let mem := ((List.range (fld (w 6) 24 6)).map fun m => [3, 5, 5, 10].getD (fld (w (96 + m)) 0 2) 0).foldl (· + ·) 0
  let pdu := tlvLen (fld (w 6) 0 8) + tlvLen (fld (w 6) 8 8) + tlvLen (fld (w 6) 16 7) + num (2 * fld (w 4) 16 16) + tlvLen 8 +
    2 * num (2 ^ 32 - 1) + 3 + num (w 5) + 3 + num (fld (w 6) 24 6) + tlvLen mem
  decide (14 + (if fld (w 0) 16 1 = 1 then 4 else 0) + 8 + tlvLen pdu + (if fld (w 0) 21 1 = 1 then 16 else 0) + 4 ≤ wf (p 2) 1 0 14)

/-! ## UPSTREAM (R134) -/

/-- The place of an item within its block: 0 phasors, 1 frequency seen, 2 ROCOF seen, 3 both, 4 analogs, 5 digital words. -/
def blockNext (st kind : Nat) : Option Nat :=
  if kind ≤ 1 then (if st = 0 then some 0 else none)
  else if kind = 2 then (if st = 0 then some 1 else if st = 2 then some 3 else none)
  else if kind = 3 then (if st = 0 then some 2 else if st = 1 then some 3 else none)
  else if kind = 4 then (if st = 3 || st = 4 then some 4 else none)
  else if st = 3 || st = 4 || st = 5 then some 5 else none

/-- The items of a stream as (NEWBLOCK, KIND) run in blocks; `st` is the place in the block that runs, none before the first. -/
def blocksOk (st : Option Nat) : List (Bool × Nat) → Bool
  | [] => (match st with
    | some x => decide (3 ≤ x)
    | none => false)
  | (nb, k) :: t =>
    match st, nb with
    | none, false => false
    | none, true => (match blockNext 0 k with
      | some x => blocksOk (some x) t
      | none => false)
    | some x, true => decide (3 ≤ x) && (match blockNext 0 k with
      | some y => blocksOk (some y) t
      | none => false)
    | some x, false => (match blockNext x k with
      | some y => blocksOk (some y) t
      | none => false)

/-- Item record `k` of a stream with rate `rate`. A source has one frequency and one ROCOF lane, lane 0 (DEDUCED, log 106). -/
def upItemOk (req : Nat) (p : Bodies) (rate k : Nat) : Bool :=
  let b := p 12
  let w := upItem b k
  let kind := fld (w 0) 0 4
  let idx := fld (w 1) 0 14
  let lane := fld (w 1) 16 4
  let e := fld (w 1) 20 2
  let l := srcLanes (p 4) idx
  let divides := fun (r : Option Nat) => match r with
    | some r => r % rate = 0
    | none => false
  recOk b (16 + 64 * wf b 0 0 5 + 16 * k) 4 [fr 0 0 4 0 5, fa 0 4 1, fa 1 0 14, fa 1 16 6, fa 2 0 32, fa 3 0 6] &&
    (if kind = 1 then inReq req 16 && decide (idx < busCnt p e) && (instsOf (p 1) 1).contains e &&
        ((List.range 256).all fun g => imp ((instPnls (p 1) 1 e).any fun q => pnlTakes (p 1) q g) (grpRate (p 5) g % rate = 0))
      else e = 0 && divides (srcRate p idx) && imp (kind = 0) (lane < l.1) && imp (kind = 2 || kind = 3) (lane = 0) && imp (kind = 4) (lane < l.2.1) && imp (kind = 5) (lane < l.2.2))

/-- Stream record `n`. -/
def upStreamOk (req : Nat) (p : Bodies) (n : Nat) : Bool :=
  let b := p 12
  let w := upWord b n
  let items := upItems b n
  let kn := items.map fun k => (decide (fld (upItem b k 0) 4 1 = 1), fld (upItem b k 0) 0 4)
  recOk b (16 + 64 * n) 16 [fr 0 0 4 1 15, fa 0 4 4, fr 0 8 8 1 255, fa 0 16 16, fr 1 0 8 1 255, fr 1 8 24 1 16777215, fa 2 0 5, fa 2 16 16,
      fa 3 0 32, fa 4 0 32, fa 5 0 16, fa 6 0 17, fr 6 17 12 1 4095, fa 7 0 4] &&
    decide (fld (w 6) 0 17 + fld (w 6) 17 12 ≤ wf b 1 0 17) && items.all (upItemOk req p (fld (w 1) 0 8)) && blocksOk none kn &&
    decide ((kn.filter Prod.fst).length = fld (w 0) 8 8) && imp (fld (w 7) 0 1 = 0) (fld (w 2) 0 5 < addrCnt p)

/-- The UPSTREAM body. -/
def upstreamRangeOk (req : Nat) (p : Bodies) : Bool :=
  let b := p 12
  recOk b 0 4 [fr 0 0 5 0 16, fr 1 0 17 0 65536] && decide (16 + 64 * wf b 0 0 5 + 16 * wf b 1 0 17 ≤ b.length) &&
    allTo (wf b 0 0 5) (upStreamOk req p)

/-- Octets of stream `n`'s frame on the wire, headers and FCS included. -/
def upFrameLen (p : Bodies) (n : Nat) : Nat :=
  let b := p 12
  let f := fld (upWord b n 0) 4 4
  let v6 := wf (p 2) (32 + 8 * (wf (p 2) 3 16 8 + fld (upWord b n 2) 0 5)) 0 1 = 1
  let body := ((upItems b n).map fun k =>
    let kind := fld (upItem b k 0) 0 4
    (if fld (upItem b k 0) 4 1 = 1 then 2 else 0) +
      (if kind ≤ 1 then (if fld f 1 1 = 1 then 8 else 4) else if kind ≤ 3 then (if fld f 3 1 = 1 then 4 else 2)
        else if kind = 4 then (if fld f 2 1 = 1 then 4 else 2) else 2)).foldl (· + ·) 0
  16 + body + 8 + (if v6 then 40 else 20) + 18 + (if fld (upWord b n 3) 28 1 = 1 then 4 else 0)

end Sys2Proof.Machine
end

