-- ==== Sys2Proof/Machine/RangesSys.lean ====
section
/-! DEFINITION. The field ranges and capacities of WINDOWS, STATION, AUXSEQ, RECORD, DISPATCH, NODUKO, RADIO and KEYUSE, and checks 9
and 10 of R31 as a whole. -/
namespace Sys2Proof.Machine
open Sys2Proof

/-! ## WINDOWS (R40, R41) -/

/-- A window's value as R41 compares it: unsigned for U32, signed for S32 and the 40-bit formats. -/
def winCmp (fmt v : Nat) : Int := if fmt = 4 then ((v % 2 ^ 32 : Nat) : Int) else if fmt = 5 then sInt 32 v else sInt 40 v

/-- The feature whose engine a window's TARGET names (R43, R204, R229, R242, R257): the base for a group's parameter. -/
def targetFeature (t : Nat) : Nat :=
  if t < 0x5000 then 0 else if t < 0x5800 then 16 else if t < 0x6000 then 19 else if t < 0x7000 then 22 else 20

/-- The WINDOWS body. -/
def windowsRangeOk (req : Nat) (p : Bodies) : Bool :=
  let ds := Config.windowDecls (p 13)
  ds.all (fun d =>
    let (n, v, lo, hi, desc) := d
    let f := fld desc 0 4
    decide (n < 4096) && decide (f ≤ 5) && decide (fld desc 5 2 ≠ 0) && inReq req (targetFeature (fld desc 16 16)) && decide (winCmp f lo ≤ winCmp f hi) &&
      decide (winCmp f lo ≤ winCmp f v) && decide (winCmp f v ≤ winCmp f hi)) &&
    distinct (ds.map fun d => d.1) && distinct (ds.map fun d => fld d.2.2.2.2 16 16)

/-! ## STATION (R304, R315 to R317) -/

/-- M_CYC that R304 gives for a rate; it names none for 80 frames/s. -/
def mCycOk (rate c : Nat) : Bool :=
  if rate ≤ 10 then c = 12 else if 12 ≤ rate && rate ≤ 30 then c = 6 else if 40 ≤ rate && rate ≤ 60 then c = 4
  else if 100 ≤ rate then c = 2 else true

/-- The rates of the PROTO 3 streams. -/
def localRates (p : Bodies) : List Nat :=
  ((List.range (strCnt (p 4))).filter fun n => fld (strWord (p 4) n 0) 0 2 = 3).map fun n => fld (strWord (p 4) n 2) 24 8

/-- Channel record `c`. -/
def chanRangeOk (p : Bodies) (req c : Nat) : Bool :=
  let b := p 14
  let w := chanWord b c
  let d := fld w 4 2
  let j := c % 12
  recOk b (64 + 16 * c) 4 [fa 0 0 4, fr 0 4 2 0 2, fa 0 6 2] && imp (fld w 0 1 = 1) (fld (wf b 0 12 4) (fld w 1 2) 1 = 1) &&
    imp (d ≠ 0) (inReq req 50) && imp (fld w 7 1 = 1) (inReq req 51) && imp (4 ≤ j && j < 8) (fld (chanWord b (c + 4)) 4 2 = d)

/-- Bank `k`. -/
def bankRangeOk (b : List Byte) (k : Nat) : Bool :=
  let o := 448 + 1024 * k
  allTo 64 (fun i => decide (numAt b (o + 4 * i) 4 < 2 ^ 24)) && allTo 24 fun c =>
    recOk b (o + 256 + 32 * c) 8 (f40 0 ++ f40 2 ++ [fa 4 0 9]) && decide (0 < p40At b (o + 256 + 32 * c)) &&
      decide (fld (numAt b (o + 272 + 32 * c) 4) 0 9 ≠ 256)

/-- The STATION body. -/
def stationRangeOk (req : Nat) (p : Bodies) : Bool :=
  let b := p 14
  let in39 := fun (o : Nat) (lo hi : Nat) => decide ((2 ^ 39 * lo : Nat) ≤ 100 * p40At b o) && decide (100 * p40At b o ≤ (2 ^ 39 * hi : Nat))
  recOk b 0 16 ([fr 0 0 9 87 434, fa 0 12 12, fa 1 0 3, fa 1 8 4, fr 2 0 8 1 60, fr 2 8 4 4 12, fa 2 12 2, fr 2 16 16 32 4096,
      fr 11 0 16 10 1000, fr 11 16 16 1 65535] ++ f40 3 ++ f40 5 ++ f40 7 ++ f40 9) &&
    decide (4608 ≤ b.length) && in40 b 0 3 0 (2 ^ 30) && in40 b 0 5 0 (2 ^ 29) && in39 28 50 99 && in39 36 10 90 &&
    decide (wf b 1 2 1 = wf (p 3) 3 3 1) &&
    ((localRates p).all fun r => rates.contains r && imp (wf b 1 0 1 = 1) (mCycOk r (wf b 1 8 4))) &&
    allTo 24 (chanRangeOk p req) && allTo 4 (bankRangeOk b) &&
    allTo 4 fun k => recOk b (4544 + 16 * k) 4 [fa 0 0 8, fr 0 16 16 1 65535, fa 1 0 32, fa 2 0 32] &&
      decide (numAt b (4548 + 16 * k) 8 ≠ 0) && imp (fld (epoWord b k 0) 0 1 = 1) (inReq req 52)

/-! ## AUXSEQ (R318) -/

/-- The AUXSEQ body. -/
def auxseqRangeOk (p : Bodies) : Bool :=
  let b := p 15
  let n := wf b 0 0 6
  recOk b 0 4 [fr 0 0 6 1 32, fa 1 0 21] && decide (16 + 8 * n ≤ b.length) && allTo n fun e =>
    recOk b (16 + 8 * e) 2 [fa 0 0 7, fa 0 8 6, fa 1 0 32] && decide (fld (auxWord b e 1) 0 16 ≤ fld (auxWord b e 1) 16 16)

/-! ## RECORD (R325, R326, R329, R335) -/

/-- Bytes of a record of plan `n` with its PRE and POST rows (R326, R332). -/
def planLen (p : Bodies) (n : Nat) : Nat :=
  let b := p 16
  let w := planWord b n
  let seam := fld (w 0) 1 1 = 1
  let red := fld (w 1) 0 9
  let items := (List.range (fld (w 6) 0 7)).map fun i => fld (itemWord b (fld (w 6) 8 10 + i)) 14 5
  let sigs := ((List.range 16).filter fun z => fld (w 0) (16 + z) 1 = 1).length
  let elems := if seam then (items.map fun l => if l < 16 then 2 else 1).foldl (· + ·) 0 else sigs
  let row := if seam then 8 * (1 + elems) else 8 * sigs * (if 1 < red then 2 else 1)
  64 + (fld (w 4) 0 24 + fld (w 5) 0 24) * row + 24 * elems

/-- Plan record `n`. -/
def planRangeOk (p : Bodies) (n : Nat) : Bool :=
  let b := p 16
  let w := planWord b n
  let seam := decide (fld (w 0) 1 1 = 1)
  let cnt := fld (w 3) 0 13
  let per := fld (w 3) 16 13
  let first := fld (w 6) 8 10
  recOk b (64 + 32 * n) 8 [fa 0 0 12, fa 0 16 16, fr 1 0 9 1 256, fa 2 0 12, fr 3 0 13 2 4096, fr 3 16 13 1 2048, fa 4 0 24,
      fr 5 0 24 1 16777215, (if seam then fr 6 0 7 1 64 else fa 6 0 7), fa 6 8 10] &&
    imp seam (fld (w 0) 4 8 < grpCnt (p 5) && fld (w 1) 0 9 = 1 && first + fld (w 6) 0 7 ≤ itemCnt b &&
      (List.range (fld (w 6) 0 7)).all fun i => (memSources (p 5) (fld (w 0) 4 8)).contains (fld (itemWord b (first + i)) 0 14)) &&
    imp (!seam) (fld (w 0) 16 16 ≠ 0) && cnt % per = 0 && decide (2 * per ≤ cnt) && decide (fld (w 2) 0 12 + cnt ≤ 4096) &&
    imp (fld (w 0) 3 1 = 1) (wf b 4 0 17 ≠ 0)

/-- Trigger record `k`. -/
def trigRangeOk (p : Bodies) (k : Nat) : Bool :=
  let b := p 16
  let w := trigWord b k
  let kind := fld (w 0) 1 2
  let o := 64 + 32 * planCnt b + 16 * k
  recOk b o 4 ([fa 0 0 1, fr 0 1 2 0 2, fa 0 3 1, fr 0 4 4 0 (planCnt b - 1), fa 0 8 4, fr 0 12 2 0 2, fa 0 16 8] ++ f40 1) &&
    decide (planCnt b ≠ 0) && imp (kind = 2) (fld (w 0) 16 8 < classCnt p) && imp (fld (w 0) 12 2 = 2) (0 ≤ p40At b (o + 4)) &&
    !(kind = 0 && fld (w 0) 3 1 = 0)

/-- Watch record `k`; a station quantity is one of feature 48. -/
def watchRangeOk (req : Nat) (p : Bodies) (k : Nat) : Bool :=
  let b := p 16
  let (kind, ix, _) := watchKey b k
  recOk b (64 + 32 * planCnt b + 16 * trigCnt b + 8 * itemCnt b + 16 * k) 4 ([fr 0 0 3 0 5, fa 0 3 14, fr 0 17 5 0 23, fr 3 0 6 0 39] ++ f40 1) &&
    (if kind = 0 then ix < srcCnt (p 4) else if kind = 1 then ix / 64 < 2 && ix % 64 ≤ 30 && inReq req 48 else if kind = 2 then ix < grpCnt (p 5)
      else if kind = 4 then ix < 16 else true)

/-- The RECORD body. -/
def recordRangeOk (req : Nat) (p : Bodies) : Bool :=
  let b := p 16
  let size := wf b 4 0 17
  recOk b 0 16 [fr 0 0 5 0 16, fr 0 8 7 0 64, fr 0 16 11 0 1024, fr 1 0 11 0 1024, fa 2 0 32, fa 3 0 32, fr 4 0 17 0 65408,
      fr 5 0 16 1 65535] &&
    decide (64 + 32 * planCnt b + 16 * trigCnt b + 8 * itemCnt b + 16 * watchCnt b ≤ b.length) && decide (word2 b 2 % 2 ^ 20 = 0) &&
    imp (size ≠ 0) (16 ≤ size && inReq req 57) && imp (planCnt b ≠ 0) (inReq req 56) && imp (watchCnt b ≠ 0) (inReq req 58) &&
    allTo (planCnt b) (planRangeOk p) && disjoint ((List.range (planCnt b)).map fun n => (fld (planWord b n 2) 0 12, fld (planWord b n 3) 0 13)) &&
    allTo (trigCnt b) (trigRangeOk p) &&
    allTo (itemCnt b) (fun k => recOk b (64 + 32 * planCnt b + 16 * trigCnt b + 8 * k) 2 [fa 0 0 14, fr 0 14 5 0 23]) &&
    allTo (watchCnt b) (watchRangeOk req p)

/-- Capacity of RECORD (R326). -/
def recordFits (p : Bodies) : Bool :=
  allTo (planCnt (p 16)) fun n => planLen p n ≤ fld (planWord (p 16) n 3) 16 13 * 2048

/-! ## DISPATCH (R349, R350) -/

/-- The DISPATCH body. -/
def dispatchRangeOk (req : Nat) (p : Bodies) : Bool :=
  let b := p 17
  let n := thrCnt b
  let m := jobCnt b
  let arg := word b 1
  recOk b 0 16 [fr 0 0 11 1 1024, fr 0 16 9 0 256, fa 1 0 32, fa 2 0 32, fa 3 0 32, fa 4 0 1, fr 4 16 16 1 65535, fa 5 0 16] &&
    decide (64 + 16 * n + 8 * m + 576 ≤ b.length) && decide (arg % 256 = 0) && decide (0x10000000 ≤ arg) &&
    decide (arg + 256 * n ≤ 0x10400000) && decide (word2 b 2 % 2 ^ 20 = 0) && imp (wf b 4 0 1 = 1) (inReq req 88) &&
    allTo n (fun t =>
      let w := thrWord b t
      recOk b (64 + 16 * t) 4 [fa 0 0 7, fr 0 7 3 1 4, fr 0 10 8 1 255, fa 0 18 1, fa 1 0 32, fa 2 0 9] && w 1 % 2 = 0 &&
        ((0x100000 ≤ w 1 && w 1 < 0x110000) || (0x10000000 ≤ w 1 && w 1 < 0x10400000)) && imp (fld (w 2) 8 1 = 1) (fld (w 2) 0 8 < m)) &&
    allTo m (fun j =>
      let w := jobWord b j
      recOk b (64 + 16 * n + 8 * j) 2 [fa 0 0 16, fr 0 16 10 0 (n - 1), fa 0 26 2, fa 1 0 16] &&
        decide (fld (w 0) 26 2 < thrNtok b (fld (w 0) 16 10))) &&
    allTo 288 fun i =>
      let e := noticeEntry b i
      decide (e < 512) && imp (fld e 8 1 = 1) (fld e 0 8 < m && i < 281)

/-! ## NODUKO (R365) -/

/-- The NODUKO body. -/
def nodukoRangeOk (req : Nat) (p : Bodies) : Bool :=
  let b := p 18
  let n := wf b 4 16 11
  let dev := wf b 0 0 3
  recOk b 0 8 [fa 0 0 4, fr 0 4 6 1 63, fa 0 10 1, fr 0 11 2 0 2, fa 0 13 11, fr 1 0 16 5 1000, fr 1 16 16 10 10000, fr 2 0 16 5 1000,
      fr 2 16 4 1 15, fr 2 20 12 1 4000, fr 3 0 16 100 65535, fr 3 16 16 10 10000, fr 4 0 10 1 1000, fr 4 16 11 0 1024] &&
    decide (32 + 8 * n ≤ b.length) && decide (wf b 0 13 3 ≠ dev) && imp (wf b 0 10 1 = 1) (inReq req 66 && bindOk p (wf b 0 16 8) 2) &&
    imp (wf b 0 11 2 ≠ 0) (inReq req 65) && allTo n fun k =>
      recOk b (32 + 8 * k) 2 [fa 0 0 14, fr 0 14 15 1 16384, fa 1 0 8] && fld (wf b (9 + 2 * k) 0 8) dev 1 = 0 &&
        decide (wf b (8 + 2 * k) 0 14 + wf b (8 + 2 * k) 14 15 ≤ srcCnt (p 4))

/-- Capacity of NODUKO (R365): forwarded items per second, and 1 % more. -/
def nodukoFits (p : Bodies) : Bool :=
  let b := p 18
  decide ((((List.range (wf b 4 16 11)).flatMap fun k =>
    (List.range (wf b (8 + 2 * k) 14 15)).map fun i => (srcRate p (wf b (8 + 2 * k) 0 14 + i)).getD 0).foldl (· + ·) 0) * 101 ≤ 450000000)

/-! ## RADIO (R378, R396) -/

/-- The channel that centres on `f` kHz, `sp` kHz wide, lies within the band. -/
def inBand (band f sp : Nat) : Bool :=
  decide (2 * (if band = 0 then 863000 else 902000) + sp ≤ 2 * f) && decide (2 * f + sp ≤ 2 * (if band = 0 then 876000 else 928000))

/-- The RADIO body. -/
def radioRangeOk (req : Nat) (p : Bodies) : Bool :=
  let b := p 19
  let band := wf b 0 0 1
  let mode := wf b 0 1 2
  let sp := if mode = 0 then 200 else 400
  let f := fun c => wf b 1 0 20 + c * sp
  let n := snsCnt b
  let slots := wf b 4 0 11
  let lg := fun k => fld (snsWord b k 2) 11 3
  let ph := fun k => fld (snsWord b k 2) 14 7
  recOk b 0 16 [fa 0 0 5, fa 0 8 8, fr 0 16 9 1 256, fr 1 0 20 863000 928000, fr 2 0 10 4 1000, fr 2 10 11 9 2047, fr 3 0 26 100000 60000000,
      fr 4 0 11 2 1024, fa 5 0 26, fr 6 0 16 100 (wf b 5 0 26 - 1), fr 6 16 14 10 10000, fr 7 0 4 0 8, fr 7 4 8 1 255, fr 7 12 4 1 15,
      fa 7 16 8, fr 8 0 16 100 50000, fr 8 16 7 1 100, fa 8 23 1, fr 9 0 5 0 28, fr 9 8 10 1 1000, fa 9 24 8, fa 10 0 16, fr 10 16 16 1 65535,
      fa 11 0 32, fa 12 0 32] &&
    decide (64 + 32 * n ≤ b.length) && inReq req (72 + band) && imp (2 ≤ mode) (band = 1) && inBand band (f (wf b 0 8 8)) sp &&
    inBand band (f (wf b 7 16 8)) sp && decide (60000000 % wf b 3 0 26 = 0) && decide (wf b 5 0 26 = wf b 3 0 26 / slots) &&
    bindOk p (wf b 9 24 8) 3 &&
    allTo n (fun k => recOk b (64 + 32 * k) 8 [fa 0 0 32, fa 1 0 32, fa 2 0 1, fr 2 1 10 1 (slots - 1), fa 2 11 3,
        fr 2 14 7 0 (2 ^ lg k - 1), fr 2 21 3 5 7, fa 2 24 1, fa 3 0 8, fr 3 8 24 1 (2 ^ 24 - 1)] &&
      imp (fld (snsWord b k 2) 24 1 = 1) (inReq req 74) && imp (snsOn b k) (bindOk p (snsBind b k) 3)) &&
    distinct ((List.range n).map (snsAddr b)) && distinct ((List.range n).map fun k => fld (snsWord b k 3) 8 24) &&
    allTo n fun i => allTo i fun j => !(snsOn b i && snsOn b j && snsSlot b i = snsSlot b j &&
      ph i % 2 ^ Nat.min (lg i) (lg j) = ph j % 2 ^ Nat.min (lg i) (lg j))

/-- Octets of the longest acknowledgement the device sends (R387): that of `ackFrame` with the longest MIC and an FCS. -/
def ackLen (b : List Byte) (k : Nat) : Nat := 23 + 2 ^ (snsLevel b k - 3) + (if wf b 0 4 1 = 1 then 4 else 2)

/-- Capacity of RADIO (R396): a slot holds a frame of MAXLEN and its acknowledgement. -/
def radioFits (p : Bodies) : Bool :=
  let b := p 19
  let ack := (sensorsOf b).foldl (fun m k => Nat.max m (airtime b (ackLen b k))) 0
  decide (wf b 6 0 16 + wf b 6 16 14 + airtime b (wf b 2 10 11) + 1000 + ack + 2000 ≤ wf b 5 0 26)

/-! ## KEYUSE (R404) -/

/-- Features of which one makes a binding's USE usable (R43, R404): PTP authentication; R-SV authentication or GOOSE, whose KBIND names a
binding of use SV; Noduko AES-GCM; radio; attestation. -/
def useFeatures (use : Nat) : List Nat :=
  if use = 0 then [33] else if use = 1 then [5, 6, 7] else if use = 2 then [66] else if use = 3 then [72, 73] else [80]

/-- The KEYUSE body. -/
def keyuseRangeOk (req : Nat) (p : Bodies) : Bool :=
  let b := p 20
  let n := wf b 0 0 9
  recOk b 0 4 [fr 0 0 9 0 256] && decide (16 + 4 * n ≤ b.length) && allTo n fun k =>
    let w := word b (4 + k)
    decide (w < 2 ^ 19) && decide (1 ≤ fld w 0 8) && decide (fld w 0 8 ≤ 63) && (fld w 8 8 = 0xFF || (1 ≤ fld w 8 8 && fld w 8 8 ≤ 63)) &&
      decide (fld w 0 8 ≠ fld w 8 8) && decide (fld w 16 3 ≤ 4) && (useFeatures (fld w 16 3)).any (inReq req)

/-! ## Checks 9 and 10 of R31 -/

/-- Features of which one lets an image carry pattern TYPE `t` (R30); none for the required patterns. -/
def presence (t : Nat) : List Nat :=
  if t = 6 || t = 7 then [16] else if t = 8 then [19] else if t = 9 then [20] else if t = 10 then [22] else if t = 12 then [12]
  else if t = 14 then [48] else if t = 15 then [53] else if t = 16 then [56, 58] else if t = 18 then [64] else if t = 19 then [72, 73] else []

/-- The required patterns (R30). -/
def required : List Nat := [1, 2, 3, 4, 5, 11, 13, 17, 20]

/-- Fields of pattern TYPE `t` within their ranges (check 9): `full` for a full image. -/
def patRangeOk (full : Bool) (req : Nat) (p : Bodies) (t : Nat) : Bool :=
  if t = 1 then fabricRangeOk (oplOf (p 1)) req p else if t = 2 then portsRangeOk req p else if t = 3 then timeRangeOk req p
  else if t = 4 then sourcesRangeOk req p else if t = 5 then groupsRangeOk req p else if t = 6 then topologyRangeOk p
  else if t = 7 then factorRangeOk full p else if t = 8 then coherenceRangeOk p else if t = 9 then bandsRangeOk req p
  else if t = 10 then thresholdsRangeOk req p else if t = 11 then alarmsRangeOk req p else if t = 12 then upstreamRangeOk req p
  else if t = 13 then windowsRangeOk req p else if t = 14 then stationRangeOk req p else if t = 15 then auxseqRangeOk p
  else if t = 16 then recordRangeOk req p else if t = 17 then dispatchRangeOk req p else if t = 18 then nodukoRangeOk req p
  else if t = 19 then radioRangeOk req p else if t = 20 then keyuseRangeOk req p else false

/-- Capacities of the patterns an image has (check 10); `size` is the installed DDR5. -/
def capacitiesOk (size : Nat) (p : Bodies) : Bool :=
  let has : Nat → Bool := fun t => !(p t).isEmpty
  fabricFits (oplOf (p 1)) p && imp (has 6) (topologyFits p) && imp (has 8) (coherenceFits p) && imp (has 9) (bandsFit p) &&
    imp (has 10) (thresholdsFit p) && imp (has 16) (recordFits p) && imp (has 18) (nodukoFits p) && imp (has 19) (radioFits p) &&
    regionsFit size p && allTo (wf (p 11) 0 16 7) (tmplFits p) &&
    imp (has 12) (allTo (wf (p 12) 0 0 5) fun n => upFrameLen p n ≤ wf (p 2) 1 0 14)

end Sys2Proof.Machine
end

