-- ==== Sys2Proof/Machine/Load.lean ====
section
/-! DEFINITION. An image in the device (R30 to R47): its header and table, the checks of R31, application, unloading, activation and
release. -/
namespace Sys2Proof.Machine
open Sys2Proof

/-! ## Header and table (R26 to R29) -/

/-- Bytes of the signature block. -/
def sigLen : Nat := 4640

/-- Entry `k` of the pattern table: TYPE, OFFSET and LENGTH. -/
def tblEntry (m : List Byte) (k : Nat) : Nat × Nat × Nat := (numAt m (128 + 16 * k) 1, numAt m (132 + 16 * k) 4, numAt m (136 + 16 * k) 4)

/-- The pattern table. -/
def tblOf (m : List Byte) : List (Nat × Nat × Nat) := (List.range (wf m 3 0 8)).map (tblEntry m)

/-- REQ_FEAT. -/
def reqFeat (m : List Byte) : Nat := numAt m 40 32

/-- The image is partial. -/
def isPartial (m : List Byte) : Bool := wf m 3 16 1 = 1

/-- The bodies an image carries, by TYPE. -/
def imgBodies (m : List Byte) : Tbl (List Byte) := (tblOf m).foldl (fun t e => Tbl.set t e.1 (slice m e.2.1 e.2.2) []) []

/-- The offered set as a number. -/
def offerSet : Nat := (List.range 8).foldl (fun v k => v + featOffer.getD k 0 * 2 ^ (32 * k)) 0

/-- Table entries ascend in TYPE, lie in order without overlap, and end before the signature block (R27, R28). -/
def tableOk (m : List Byte) (stop : Nat) (lastType from_ k : Nat) : Nat → Bool
  | 0 => true
  | n + 1 =>
    let e := tblEntry m k
    recOk m (128 + 16 * k) 4 [fr 0 0 8 1 20, fa 1 0 32, fr 2 0 32 16 100663296, fr 3 0 16 1 1] && decide (lastType < e.1) &&
      decide (e.2.1 % 16 = 0) && decide (e.2.2 % 16 = 0) && decide (from_ ≤ e.2.1) && decide (e.2.1 + e.2.2 ≤ stop) &&
      tableOk m stop e.1 (e.2.1 + e.2.2) (k + 1) n

/-- The header's ranges (R26), and the table (R27, R28). -/
def headerOk (m : List Byte) : Bool :=
  let n := wf m 3 0 8
  recOk m 0 32 ([fa 0 0 32, fa 1 0 32, fr 2 0 32 4800 134217728, fr 3 0 8 1 32, fr 3 8 8 0 63, fa 3 16 3, fr 4 0 32 1 (2 ^ 32 - 1),
      fa 5 0 32, fa 6 0 32, fa 7 0 32, fa 8 0 32, fr 9 0 16 0 600] ++ (List.range 8).map fun k => fa (10 + k) 0 32) &&
    decide (word m 2 % 16 = 0) && decide (word2 m 5 ≠ 0) && imp (!isPartial m) (word2 m 7 = 0) &&
    decide (reqFeat m &&& offerSet = reqFeat m) && tableOk m (word m 2 - sigLen) 0 (128 + 16 * n) 0 n

/-- The patterns of class S (R30). -/
def classS : List Nat := [4, 5, 6, 7, 8, 9, 10, 11, 12, 15, 16]

/-! ## Negotiation (R43, R45) -/

/-- What a feature needs: one of these (R43); nothing for the base. -/
def needs (n : Nat) : List Nat :=
  if n = 0 then []
  else if n = 2 || n = 3 || n = 12 then [1]
  else if n = 5 || n = 6 then [4]
  else if n = 17 || n = 18 || n = 19 then [16]
  else if n = 21 then [20]
  else if n = 33 then [32]
  else if n = 49 || n = 50 || n = 51 || n = 52 then [48]
  else if n = 57 then [56]
  else if n = 65 || n = 66 then [64]
  else if n = 74 then [72, 73]
  else [0]

/-- A feature set less those that lack what they need, once. -/
def pruneOnce (v : Nat) : Nat :=
  (List.range 96).foldl (fun w n => w + bitAt (inReq v n && (n = 0 || (needs n).any (inReq v))) n) 0

/-- The accepted set that a requested set gives (R45): repeated until nothing more is removed. -/
def acceptSet (req : Nat) : Nat := pruneOnce (pruneOnce (pruneOnce (pruneOnce ((req &&& offerSet) ||| 1))))

/-- FEAT_ACC as a number. -/
def State.accSet (s : State) : Nat := leNat ((s.words (Reg.FEAT_ACC 0) 8).flatMap (leBytes 4))

/-- FEAT_ACC written. -/
def State.setAcc (s : State) (v : Nat) : State := s.setWords (Reg.FEAT_ACC 0) ((List.range 8).map fun k => fld v (32 * k) 32)

/-! ## The checks of R31 -/

/-- Fail codes of FEAT_IMG_STATE (R49). -/
abbrev imgOk : Nat := 0
abbrev imgBadHeader : Nat := 1
abbrev imgLifecycle : Nat := 2
abbrev imgKeySlot : Nat := 3
abbrev imgSignature : Nat := 4
abbrev imgRollback : Nat := 5
abbrev imgFeature : Nat := 6
abbrev imgBase : Nat := 7
abbrev imgBusy : Nat := 8
abbrev imgClass : Nat := 9
abbrev imgPatternRange : Nat := 10
abbrev imgCapacity : Nat := 11
abbrev imgActLate : Nat := 12

/-- The bodies that the device would hold with an image in force. -/
def State.bodiesWith (s : State) (m : List Byte) : Bodies := fun t =>
  match (imgBodies m).lookup t with
  | some b => b
  | none => if isPartial m then s.pat t else []

/-- The features the fields of pattern `t` may use: REQ_FEAT of the image that carries it; for a pattern in force, the accepted set. -/
def State.reqFor (s : State) (m : List Byte) (t : Nat) : Nat := if ((imgBodies m).lookup t).isSome then reqFeat m else s.accSet

/-- TCP_RING of a PORTS pattern with hardware TCP receive names a firmware-owned ring (R98, R108). -/
def State.tcpRingOk (s : State) (m : List Byte) : Bool :=
  match (imgBodies m).lookup 2 with
  | some b => imp (inReq (reqFeat m) 3) (s.bit (Reg.ETH_HRX_CFG (wf b 7 0 3)) 16)
  | none => true

/-- Check 9: table, presence and ranges (R27, R28, R30, R98). -/
def State.check9 (s : State) (m : List Byte) : Bool :=
  let ts := (tblOf m).map Prod.fst
  let p := s.bodiesWith m
  headerOk m && imp (!isPartial m) (required.all ts.contains) && s.tcpRingOk m &&
    (ts.all fun t => (presence t).isEmpty || (presence t).any (inReq (reqFeat m))) &&
    imp (isPartial m) (ts.contains 6 = ts.contains 7) && imp (isPartial m && ts.contains 6) (topoPartialOk s.pat p) &&
    (List.range 21).all fun t => (p t).isEmpty || (t = 7 && !ts.contains 7) || patRangeOk (!isPartial m) (s.reqFor m t) p t

/-- Check 10: capacities, and the pool that a partial image's columns need (R219). -/
def State.check10 (s : State) (m : List Byte) : Bool :=
  let p := s.bodiesWith m
  capacitiesOk s.ddrSize p && imp (isPartial m && ((imgBodies m).lookup 7).isSome) ((List.range 4).all fun e =>
    let x := s.seI e
    partialNeed p e + x.retired + (if x.refac = 1 || x.refac = 2 then 0 else x.used) ≤ s.rn (Reg.SE_POOL e))

/-- `ns` is a reporting instant of a rate. -/
def isInstant (r ns : Nat) : Bool := instT0 r (latestInst r ns) = ns

/-- The activation instant of a partial image that gives `act` (R36), where it is valid (R162): every group whose rate it changes has an
instant there at both rates. -/
def State.activation (s : State) (m : List Byte) (act : Nat) : Option Nat :=
  let soon := 10000000 + s.nowNs
  let a := if act = 0 then 25000000 * ((24999999 + soon) / 25000000) else act
  let old := s.pat 5
  let new := s.bodiesWith m 5
  if a < soon then none
  else if (List.range (Nat.min (grpCnt old) (grpCnt new))).all fun g =>
      grpRate old g = grpRate new g || (isInstant (grpRate old g) a && isInstant (grpRate new g) a) then some a
  else none

/-- The staged image. -/
def State.stagedImage (s : State) (l : Load) : List Byte := Memory.read s.ddr 0 l.staged

/-- Checks 3 and 4 (R29, R419): the key, then the signature. -/
def State.imageSig (s : State) (m : List Byte) (pk : List Byte) : Nat × State :=
  let len := word m 2
  let k := wf m 3 8 8
  if 63 < k then (imgKeySlot, s)
  else
    let (r, s) := s.verifySig k 5 pk (Config.sha3_512 (m.take (len - sigLen))) (slice m (len - sigLen) 4627)
    if r = krSlotUnusable || r = krDigest then (imgKeySlot, s)
    else if r ≠ krOk || (slice m (len - 13) 13).any (· ≠ 0) then (imgSignature, s)
    else (imgOk, s)

/-- The checks of R31 in order: the fail code, and the activation instant of a partial image that passes. -/
def State.checkImage (s : State) (l : Load) : Nat × Nat × State :=
  let m := s.stagedImage l
  if word m 0 ≠ 0x46494E57 || word m 1 ≠ 0x00800001 || l.staged < word m 2 then (imgBadHeader, 0, s)
  else if s.lc = lcRetired then (imgLifecycle, 0, s)
  else
    let (r, s) := s.imageSig m l.pk
    if r ≠ imgOk then (r, 0, s)
    else if word m 4 < s.rn Reg.FEAT_IMG_FLOOR then (imgRollback, 0, s)
    else if reqFeat m &&& s.accSet ≠ reqFeat m then (imgFeature, 0, s)
    else if isPartial m && (!s.img.inForce || word2 m 7 ≠ s.rn Reg.FEAT_IMG_SERIAL) then (imgBase, 0, s)
    else if isPartial m && s.pend then (imgBusy, 0, s)
    else if isPartial m && !((tblOf m).all fun e => classS.contains e.1) then (imgClass, 0, s)
    else if !s.check9 m then (imgPatternRange, 0, s)
    else if !s.check10 m then (imgCapacity, 0, s)
    else if isPartial m then
      match s.activation m l.act with
      | some a => (imgOk, a, s)
      | none => (imgActLate, 0, s)
    else (imgOk, 0, s)

/-! ## Application (R32, R33, R40, R42) -/

/-- The image serial, version and anti-rollback floor of an image that takes force (R34, R38). -/
def State.takeSerial (s : State) (serial version : Nat) (raise : Bool) : State :=
  let s := (s.setReg Reg.FEAT_IMG_SERIAL serial).setReg Reg.FEAT_IMG_VERSION version
  if raise then s.setReg Reg.FEAT_IMG_FLOOR (max (s.rn Reg.FEAT_IMG_FLOOR) version) else s

/-- The parameter windows of the WINDOWS pattern, at their defaults (R40). -/
def State.applyWindows (s : State) : State :=
  let ds := if s.img.inForce then Config.windowDecls (s.pat 13) else []
  let s := s.clearRegs (Reg.FAB_PWIN_VAL 0) (Reg.FAB_PWIN_VAL 4096)
  let s := { s with img := { s.img with winOf := ds.foldl (fun (t : Tbl Nat) (d : Nat × Nat × Nat × Nat × Nat) => Tbl.set t (fld d.2.2.2.2 16 16) (d.1 + 1) 0) [] } }
  s.forEach (fun d s =>
    let (n, v, lo, hi, desc) := d
    (((s.setReg (Reg.FAB_PWIN_VAL n) (v % 2 ^ 40)).setReg (Reg.FAB_PWIN_MIN n) (lo % 2 ^ 40)).setReg (Reg.FAB_PWIN_MAX n) (hi % 2 ^ 40)).setReg
      (Reg.FAB_PWIN_DESC n) (desc % 2 ^ 32)) ds

/-- Every pattern of the image in force applied. -/
def State.applyPatterns (s : State) : State :=
  let s := s.applyWindows.applyTime.applyPorts
  let s := (s.applySources true).applyGroups.applyFabric
  let s := s.applySe.applyFloe.applyThr.applyOsc
  let s := if s.feat 64 then s.applyNdk else s
  let s := s.applyKeyUse.applyAlarms.applyStn
  let s := s.resetAux.showAuxCfg
  let s := s.applyCap.applyFirn.applyDisp
  s.applyRadio.upRestart

/-- Items in the ingress and bridge crossings admitted, at most `n`. -/
def State.drainItems (s : State) : Nat → State
  | 0 => s
  | n + 1 => (seamItemAdmit s).drainItems n

/-- Frames in the measurement queue decoded and their items admitted (R32 step 1), at most `n` frames. -/
def State.drainFrames (s : State) : Nat → State
  | 0 => s.drainItems (s.seam.ingress.length + s.seam.bridge.length)
  | n + 1 =>
    let s := decodeFrame false .ok s
    (s.drainItems (s.seam.ingress.length + s.seam.bridge.length)).drainFrames n

/-- Every frame and item that ingest has taken reaches its seam. -/
def State.drain (s : State) : State := s.drainFrames s.eth.mq.length

/-- No panel holds an instant. -/
def State.enginesIdle (s : State) : Bool := s.fab.panels.all fun (e : Nat × Panel) => e.2.taken.isNone

/-- Open seams discarded without a token, counted at `cnt` (R32 step 3, R444). -/
def State.discardSeams (s : State) (cnt : Nat) : State :=
  let s := s.countBy cnt s.allOpen
  let shut := fun (l : Tbl (Option Group)) => l.map fun (e : Nat × Option Group) => (e.1, e.2.map fun x => { x with ways := x.dropped })
  let s := { s with seam := { s.seam with groups := shut s.seam.groups, next := shut s.seam.next } }
  s.forEach (fun (e : Nat × Option Group) (s : State) => s.showGroup e.1) s.seam.groups

/-- FEAT_IMG_STATE given a state; PEND goes where `keep` does not hold. -/
def State.setImgState (s : State) (st : Nat) (keep : Bool) : State :=
  let s := s.setF Reg.FEAT_IMG_STATE 0 3 st
  if keep then s else ((s.setF Reg.FEAT_IMG_STATE 16 1 0).setReg Reg.FEAT_IMG_PEND 0)

/-- Every pattern cleared: no image is in force (R34, R35). -/
def State.clearImage (s : State) : State :=
  let s := { s with img := { parity := s.img.parity, hello := s.img.hello, heldCmd := s.img.heldCmd } }
  let s := ((s.takeSerial 0 0 false).setImgState 0 false).applyPatterns
  s.dropNdk.dropRadio.almPins

/-- UNLOAD completes once the engines have finished: open seams go, then the patterns (R35). DESIGN CHOICE (log 19): FEAT_IMG_STATE.FAIL
shows 0 (OK) after it. -/
def State.tryUnload (s : State) : State :=
  if s.img.unload && s.enginesIdle then ((s.drain.skipUps.discardSeams Reg.FEAT_RELOAD_DISC).setF Reg.FEAT_IMG_STATE 8 8 imgOk).clearImage else s

/-- The full image applied (R32 steps 3 to 6, R33). -/
def State.applyImage (s : State) (l : Load) : State :=
  let m := l.image
  let s := s.drain.skipUps.discardSeams Reg.FEAT_RELOAD_DISC
  let s := { s with img := {
    bodies := imgBodies m, inForce := true, parity := s.img.parity, auto := l.autonomous, hello := s.img.hello, heldCmd := s.img.heldCmd } }
  let s := (s.setImgState 2 false).setF Reg.FEAT_IMG_STATE 8 8 imgOk
  let s := s.takeSerial (word2 m 5) (word m 4) (wf m 3 18 1 = 1)
  s.applyPatterns.raise 93

/-- A partial image accepted (R36, R38): pending, with its activation instant. -/
def State.acceptPartial (s : State) (m : List Byte) (a : Nat) : State :=
  let bs := imgBodies m
  let s := { s with img := { s.img with
    idle := bs, activated := false, pendSerial := word2 m 5, pendVersion := word m 4, pendRaise := wf m 3 18 1 = 1, load := none } }
  let s := (s.setF Reg.FEAT_IMG_STATE 8 8 imgOk).setF Reg.FEAT_IMG_STATE 0 3 2
  let s := (s.setF Reg.FEAT_IMG_STATE 16 1 1).setReg Reg.FEAT_IMG_ACT (t80OfNs a)
  let s := s.setReg Reg.FEAT_IMG_PEND (bs.foldl (fun v e => v + 2 ^ e.1) 0)
  let s := if (bs.lookup 5).isSome then s.acceptGroups else s
  match bs.lookup 6, bs.lookup 7 with
  | some tb, some fb => s.acceptSe tb fb a
  | _, _ => s

/-- An image refused (R35). -/
def State.refuseImage (s : State) (l : Load) (code : Nat) : State :=
  let s := { s with img := { s.img with load := none } }
  ((s.setF Reg.FEAT_IMG_STATE 8 8 code).setF Reg.FEAT_IMG_STATE 0 3 (if l.before = .loaded then 2 else 3)).raise 94

/-! ## Activation and release (R37 to R39) -/

/-- The pending partial image replaces the pattern of TYPE `t` (R36). -/
def State.replaces (s : State) (t : Nat) : Bool := s.bit Reg.FEAT_IMG_PEND t

/-- A reached: what takes over then and there (R37, R39). -/
def activationInstant (s : State) : State :=
  if s.pend && !s.img.activated && s.actNs ≤ s.nowNs then
    let s := { s with img := { s.img with activated := true } }
    let s := if s.replaces 4 || s.replaces 5 then s.activateLearners else s
    let s := if s.replaces 4 then s.applySources false else s
    let s := if s.replaces 12 then { s with dec := { s.dec with upAt := some s.time.ticks } } else s
    let s := if s.replaces 15 then
        let b := Tbl.get s.img.idle 15 []
        s.resetAux.setReg Reg.AUX_CFG (auxCnt b + wf b 1 0 16 * 256)
      else s
    if s.replaces 16 then
      let s := s.wipeFirn.setReg Reg.FIRN_CFG (watchCnt s.recBody)
      (s.setReg Reg.CAP_CFG (planCnt s.recBody + trigCnt s.recBody * 256)).restartCap
    else s
  else s

/-- Some instant before `a` is still undecided: in a group, a crossing, a panel or the alarm path (R38). -/
def State.undecidedBefore (s : State) (a : Nat) : Bool :=
  (s.seam.groups.any fun (e : Nat × Option Group) => (e.2.map fun x =>
    let r := grpRate (s.pat 5) e.1
    decide (r ≠ 0) && decide (instT0 r x.lo < a)).getD false) ||
  (s.seam.tokens.any fun (e : Nat × List Token) => e.2.any fun t => t.t0 < a) ||
  (s.fab.panels.any fun (e : Nat × Panel) =>
    (e.2.asm.any fun x => x.t0 < a) || (e.2.queue.any fun x => x.t0 < a) || (e.2.taken.any fun x => x.t0 < a)) ||
  (s.seam.alarms.any fun x => x.t0 < a) || (s.alm.instants.any fun x => x.t0 < a)

/-- The old banks released once the last instant before A is decided (R38). -/
def State.releaseCheck (s : State) : State :=
  if s.pend && s.img.activated && !s.undecidedBefore s.actNs then
    let t := s
    let s := s.releaseFloe.releaseThr
    let s := if t.replaces 12 then s.upRelease else s
    let bodies := s.img.idle.foldl (fun (t : Tbl (List Byte)) e => Tbl.set t e.1 e.2 []) s.img.bodies
    let i := s.img
    let gone := t.replaces 5
    let i' : Img := { i with
      bodies := bodies, idle := [], activated := false, parity := (i.parity + 1) % 2
      oldGroups := if gone then t.pat 5 else i.oldGroups
      oldUntil := if gone then t.actNs else i.oldUntil }
    let s := { s with img := i' }
    let s := (s.setF Reg.FEAT_IMG_STATE 16 1 0).setReg Reg.FEAT_IMG_PEND 0
    let s := s.takeSerial i.pendSerial i.pendVersion i.pendRaise
    let s := if t.replaces 5 then s.releaseGroups else s
    let s := { s with alm := { s.alm with
      onNew := false, kept := if t.replaces 11 && !t.alm.onNew then some t.almBody else s.alm.kept } }
    s.raise 95
  else s

end Sys2Proof.Machine
end

