-- ==== Sys2Proof/Machine/Image.lean ====
section
/-! DEFINITION. The Fledal mailbox (R45 to R47, R461 to R466), image loads, and the commands that can end the last instant before an
activation. -/
namespace Sys2Proof.Machine
open Sys2Proof

/-! ## The mailbox (R461, R462) -/

/-- Status codes (R462). -/
abbrev fsOk : Nat := 0
abbrev fsUnsupported : Nat := 1
abbrev fsNoSession : Nat := 2
abbrev fsAlready : Nat := 3
abbrev fsVersion : Nat := 4
abbrev fsBadCmd : Nat := 5
abbrev fsBadLen : Nat := 6
abbrev fsImageFail : Nat := 7
abbrev fsStageOrder : Nat := 8
abbrev fsRecovery : Nat := 9

/-- Octets as words, the last padded with zeros. -/
def toWords (b : List Byte) : List Nat := (List.range ((b.length + 3) / 4)).map (word b)

/-- The request buffer holds a command (R462). -/
def State.fldlRequest (s : State) (cmd tag : Nat) (payload : List Byte) : State :=
  s.setWords (Reg.FLDL_REQ 0) ((cmd + 65536 * tag) :: (payload.length % 2 ^ 17) :: toWords (payload.take 65528))

/-- The response buffer holds the answer to the command in progress (R462). -/
def State.fldlRespond (s : State) (status : Nat) (ws : List Nat) : State :=
  s.setWords (Reg.FLDL_RSP 0) ((s.fldl.cmd + status * 256 + 65536 * s.fldl.tag) :: (4 * ws.length) :: ws)

/-- SESSION of FLDL_STATUS. -/
def State.session (s : State) : Bool := s.bit Reg.FLDL_STATUS 2

/-- Two words of a 64-bit value. -/
def words64 (v : Nat) : List Nat := [v % 2 ^ 32, v / 2 ^ 32 % 2 ^ 32]

/-- Three words of a T80 value. -/
def words80 (v : Nat) : List Nat := [v % 2 ^ 32, v / 2 ^ 32 % 2 ^ 32, v / 2 ^ 64]

/-- HELLO (R463, R464). -/
def answerHello (payload : List Byte) (s : State) : State :=
  if payload.length < 4 then s.fldlRespond fsBadLen []
  else if wf payload 0 8 8 ≠ 1 then s.fldlRespond fsVersion [0x100]
  else
    let s := s.setF Reg.FLDL_STATUS 2 1 1
    s.fldlRespond fsOk ([0x100, s.rn Reg.FEAT_IMG_STATE] ++ words64 (s.rn Reg.FEAT_IMG_SERIAL) ++
      [bitAt (s.rf Reg.DISP_BOOT 0 4 = 4) 0 + bitAt (s.img.auto && s.img.inForce) 1])

/-- FEATURES (R464). -/
def answerFeatures (s : State) : State := s.fldlRespond fsOk (s.words (Reg.FEAT_OFFER 0) 16)

/-- NEGOTIATE (R45). -/
def answerNegotiate (payload : List Byte) (s : State) : State :=
  if payload.length < 32 then s.fldlRespond fsBadLen []
  else if s.imgState = 0 || s.imgState = 3 then
    let s := s.setAcc (acceptSet (leNat (payload.take 32)))
    s.fldlRespond fsOk (s.words (Reg.FEAT_ACC 0) 8)
  else s.fldlRespond fsAlready (s.words (Reg.FEAT_ACC 0) 8)

/-- One chunk staged by the ordering rule of R465: its status, and the new staged count where it is written. -/
def stageRule (payload : List Byte) (staged room : Nat) : Nat × Nat :=
  let n := payload.length - 4
  let ofs := word payload 0
  if payload.length < 4 || n % 16 ≠ 0 then (fsBadLen, staged)
  else if ofs ≠ 0 && ofs ≠ staged then (fsStageOrder, staged)
  else if room < ofs + n then (fsBadLen, staged)
  else (fsOk, ofs + n)

/-- IMAGE_STAGE (R465). -/
def answerImageStage (payload : List Byte) (s : State) : State :=
  let r := stageRule payload (s.rn Reg.FLDL_STAGED) 134217728
  if r.1 = fsOk then ((s.ddrWrite (word payload 0) (payload.drop 4)).setReg Reg.FLDL_STAGED r.2).fldlRespond fsOk [r.2]
  else s.fldlRespond r.1 (if r.1 = fsStageOrder then [r.2] else [])

/-- The image state that a load starts from (R35). -/
def State.imgBefore (s : State) : ImgBefore := if s.imgState = 2 then .loaded else if s.imgState = 3 then .failed else .none

/-- A load begins: VERIFY, with the staged bytes and the signer's public key as they stand (R31, R419). -/
def State.beginLoad (s : State) (staged act : Nat) (auto : Bool) : State :=
  let l : Load := {
    before := s.imgBefore, act := act, autonomous := auto, staged := staged
    pk := (s.coreBytes (s.rn Reg.KEY_IMG_PK) 2592).getD [] }
  ({ s with img := { s.img with load := some l } }).setF Reg.FEAT_IMG_STATE 0 3 1

/-- IMAGE_COMMIT (R31, R35, R36): answered when the checks end. -/
def answerImageCommit (payload : List Byte) (s : State) : State :=
  if payload.length < 12 then s.fldlRespond fsBadLen []
  else (s.beginLoad (s.rn Reg.FLDL_STAGED) (nsOfT80 (leNat (payload.take 12) % 2 ^ 80)) false).setReg Reg.FLDL_STAGED 0

/-- IMAGE_STATUS (R464). -/
def answerImageStatus (s : State) : State :=
  s.fldlRespond fsOk ([s.rn Reg.FEAT_IMG_STATE, s.rn Reg.FEAT_IMG_PEND] ++ words80 (s.rn Reg.FEAT_IMG_ACT))

/-- BYE (R463). -/
def answerBye (s : State) : State := (s.setF Reg.FLDL_STATUS 2 1 0).fldlRespond fsOk []

/-- TIME_OF_DAY (R464): a command of feature 34; firmware keeps the seconds it gives (R70). -/
def answerTimeOfDay (payload : List Byte) (s : State) : State :=
  if !s.feat 34 then s.fldlRespond fsUnsupported []
  else if payload.length < 8 then s.fldlRespond fsBadLen []
  else s.fldlRespond fsOk []

/-- FW_STAGE in recovery (R466). -/
def answerFwStage (payload : List Byte) (s : State) : State :=
  let r := stageRule payload s.fldl.fwStaged (3145728 + 7488)
  if r.1 = fsOk then
    (({ s with fldl := { s.fldl with fwStaged := r.2 } }).sramWrite (0xC0000 + word payload 0) (payload.drop 4)).setReg Reg.FLDL_STAGED r.2
      |>.fldlRespond fsOk [r.2]
  else s.fldlRespond r.1 (if r.1 = fsStageOrder then [r.2] else [])

/-- A section of the staged object lands on its staged bytes. -/
def fwOverlaps (o : List Byte) : Bool :=
  (List.range (wf o 6 0 4)).any fun k =>
    let x := fwSection o k
    decide (x.1 < 0x100C0000 + o.length) && decide (0x100C0000 < x.1 + x.2.1)

/-- FW_BOOT in recovery (R466): R347 step 6. -/
def answerFwBoot (s : State) : State :=
  let o := Memory.read s.sram 0xC0000 s.fldl.fwStaged
  let s := s.bootLine 5 (s.rf Reg.DISP_BOOT 8 8)
  let r := if fwOverlaps o then (2, s) else s.fwBoot o
  if r.1 = 0 then ((r.2.setF Reg.FLDL_STATUS 3 1 0).bootLine 6 0).fldlRespond fsOk []
  else ((r.2.setReg Reg.DISP_BOOT (4 + r.1 * 256)).bootLine 4 r.1).fldlRespond fsImageFail [r.1]

/-- Firmware, or in recovery the boot ROM, answers a command. -/
def fldlAnswer (i : Instr) (s : State) : State :=
  let recovery := s.rf Reg.DISP_BOOT 0 4 = 4
  let inSession := fun (f : State → State) => if recovery then s.fldlRespond fsRecovery [] else if s.session then f s else s.fldlRespond fsNoSession []
  let fw := fun (f : State → State) => if recovery then f s else if s.session then s.fldlRespond fsBadCmd [] else s.fldlRespond fsNoSession []
  let sized := fun (p : List Byte) (f : State → State) (s : State) => if 65528 < p.length then s.fldlRespond fsBadLen [] else f s
  match i with
  | .hello _ p => sized p (answerHello p) s
  | .features _ p => inSession (sized p answerFeatures)
  | .negotiate _ p => inSession (sized p (answerNegotiate p))
  | .imageStage _ p => inSession (sized p (answerImageStage p))
  | .imageCommit _ p => inSession (sized p (answerImageCommit p))
  | .imageStatus _ p => inSession (sized p answerImageStatus)
  | .bye _ p => inSession (sized p answerBye)
  | .timeOfDay _ p => inSession (sized p (answerTimeOfDay p))
  | .fwStage _ p => fw (sized p (answerFwStage p))
  | .fwBoot _ p => fw (sized p answerFwBoot)
  | _ => inSession fun s => s.fldlRespond fsBadCmd []

/-- A command must wait (R442, R461, R465): the cores do not run, or it stages or commits an image while an autonomous load runs. -/
def State.fldlWaits (s : State) (i : Instr) : Bool :=
  let auto := (s.img.load.map Load.autonomous).getD false
  s.pwr.state ≠ .run || (s.rf Reg.DISP_BOOT 0 4 ≠ 4 && s.rf Reg.DISP_BOOT 0 4 ≠ 6) ||
    (match i with
      | .imageStage _ _ => auto
      | .imageCommit _ _ => auto || s.img.load.isSome || s.img.unload
      | _ => false)

/-- A held command answered once it need not wait. -/
def State.answerHeld (s : State) : State :=
  match s.img.heldCmd with
  | some i => if s.fldlWaits i then s else fldlAnswer i { s with img := { s.img with heldCmd := none } }
  | none => s

/-- The doorbell of the command in the request buffer (R461): ignored while BUSY is 1; otherwise BUSY, MSIP of the mailbox's core, and the
answer. -/
def fldlRing (cmd : Nat) (i : Instr) (tag : Nat) (s : State) : State :=
  if s.bit Reg.FLDL_STATUS 0 then s.count Reg.FLDL_DB_IGN_CNT
  else
    let s := s.setF Reg.FLDL_STATUS 0 1 1
    let k := s.rf Reg.FLDL_CFG 0 3
    let s := s.setCore k { s.core k with msip := true }
    let s := { s with fldl := { s.fldl with cmd := cmd, tag := tag }, img := { s.img with
      hello := s.img.hello || cmd = 1, heldCmd := some i } }
    s.answerHeld

/-- A request and its doorbell. -/
def fldlPost (cmd : Nat) (i : Instr) (tag : BitVec 16) (payload : List Byte) (s : State) : State :=
  fldlRing cmd i tag.toNat (s.fldlRequest cmd tag.toNat payload)

/-- HELLO. -/
def execHello (tag : BitVec 16) (payload : List Byte) (s : State) : Host.Outcome State Fault Refusal :=
  live (fldlPost 0x01 (.hello tag payload) tag payload) s
/-- FEATURES. -/
def execFeatures (tag : BitVec 16) (payload : List Byte) (s : State) : Host.Outcome State Fault Refusal :=
  live (fldlPost 0x02 (.features tag payload) tag payload) s
/-- NEGOTIATE. -/
def execNegotiate (tag : BitVec 16) (payload : List Byte) (s : State) : Host.Outcome State Fault Refusal :=
  live (fldlPost 0x03 (.negotiate tag payload) tag payload) s
/-- IMAGE_STAGE. -/
def execImageStage (tag : BitVec 16) (payload : List Byte) (s : State) : Host.Outcome State Fault Refusal :=
  live (fldlPost 0x04 (.imageStage tag payload) tag payload) s
/-- IMAGE_COMMIT. -/
def execImageCommit (tag : BitVec 16) (payload : List Byte) (s : State) : Host.Outcome State Fault Refusal :=
  live (fldlPost 0x05 (.imageCommit tag payload) tag payload) s
/-- IMAGE_STATUS. -/
def execImageStatus (tag : BitVec 16) (payload : List Byte) (s : State) : Host.Outcome State Fault Refusal :=
  live (fldlPost 0x06 (.imageStatus tag payload) tag payload) s
/-- BYE. -/
def execBye (tag : BitVec 16) (payload : List Byte) (s : State) : Host.Outcome State Fault Refusal :=
  live (fldlPost 0x07 (.bye tag payload) tag payload) s
/-- TIME_OF_DAY. -/
def execTimeOfDay (tag : BitVec 16) (payload : List Byte) (s : State) : Host.Outcome State Fault Refusal :=
  live (fldlPost 0x08 (.timeOfDay tag payload) tag payload) s
/-- FW_STAGE. -/
def execFwStage (tag : BitVec 16) (payload : List Byte) (s : State) : Host.Outcome State Fault Refusal :=
  live (fldlPost 0x10 (.fwStage tag payload) tag payload) s
/-- FW_BOOT. -/
def execFwBoot (tag : BitVec 16) (payload : List Byte) (s : State) : Host.Outcome State Fault Refusal :=
  live (fldlPost 0x11 (.fwBoot tag payload) tag payload) s

/-- A write of FLDL_RESP (R461): the running command ends. -/
def fldlResp (w : Word) (s : State) : State :=
  if w.getLsbD 31 && s.bit Reg.FLDL_STATUS 0 then
    let s := { s with img := { s.img with heldCmd := none } }
    (s.setF Reg.FLDL_STATUS 0 2 2).count Reg.FLDL_CMD_CNT
  else s

/-- FLDL_RESP. -/
def execFldlResp (who : Party) (w : Word) (s : State) : Host.Outcome State Fault Refusal :=
  live (written who Reg.FLDL_RESP w (fldlResp w)) s

/-- BOOT_COMPLETE: FLDL_STATUS shows recovery, and a command that waited for the boot is answered. -/
def execBootComplete (object : List Byte) (s : State) : Host.Outcome State Fault Refusal :=
  coring (fun s =>
    let s := bootComplete object s
    (if s.rf Reg.DISP_BOOT 0 4 = 4 then s.setF Reg.FLDL_STATUS 3 1 1 else s).answerHeld) s

/-! ## Loads (R31, R32, R46) -/

/-- A held request for another operating state, made once nothing holds it (R442). -/
def State.releasePower (s : State) : State :=
  match s.pwr.held with
  | some p => (({ s with pwr := { s.pwr with held := none } }).requestPower p).showPower
  | none => s

/-- What waited for a load's end: a held request for another operating state, and a held mailbox command. -/
def State.afterLoad (s : State) : State := s.releasePower.answerHeld

/-- The grace period of an image, GRACE × 100 ms from the release of a reset that cleared the image, has ended (R46). -/
def State.graceOver (s : State) (image : List Byte) : Bool :=
  s.img.grace.any fun t => decide (t + 25000000 * wf image 9 0 16 ≤ s.time.ticks)

/-- The grace period ends with no HELLO registered (R46): the accepted set is formed from REQ_FEAT and the image loads. -/
def autonomousLoad (image : List Byte) (s : State) : State :=
  if s.imgState = 0 && !s.img.hello && s.rf Reg.DISP_BOOT 0 4 = 6 && wf image 3 17 1 = 1 && s.graceOver image then
    let s := { s with img := { s.img with grace := none } }
    ((s.setAcc (acceptSet (reqFeat image))).ddrWrite 0 (image.take 134217728)).beginLoad (Nat.min image.length 134217728) 0 true
  else s

/-- AUTONOMOUS_LOAD. -/
def execAutonomousLoad (image : List Byte) (s : State) : Host.Outcome State Fault Refusal := coring (autonomousLoad image) s

/-- The checks of a staged image end (R31, R35). -/
def imageVerifyEnd (s : State) : State :=
  match s.img.load with
  | none => s
  | some l =>
    if l.passed then s
    else
      let m := s.stagedImage l
      let (code, a, s) := s.checkImage l
      if code ≠ imgOk then
        let s := s.refuseImage l code
        (if l.autonomous then s else s.fldlRespond fsImageFail [code, 0, 0, 0]).afterLoad
      else if isPartial m then
        let s := s.acceptPartial m a
        (if l.autonomous then s else s.fldlRespond fsOk (0 :: words80 (t80OfNs a))).afterLoad
      else
        let s := { s with img := { s.img with load := some { l with passed := true, image := m } } }
        if l.autonomous then s else s.fldlRespond fsOk [0, 0, 0, 0]

/-- IMAGE_VERIFY_END. -/
def execImageVerifyEnd (s : State) : Host.Outcome State Fault Refusal := coring imageVerifyEnd s

/-- A full image that passed is applied once the engines have finished (R32, R33). -/
def fullImageApply (s : State) : State :=
  match s.img.load with
  | some l => if l.passed && s.enginesIdle then (s.applyImage l).afterLoad else s
  | none => s

/-- FULL_IMAGE_APPLY. -/
def execFullImageApply (s : State) : Host.Outcome State Fault Refusal := coring fullImageApply s

/-- ACTIVATION_INSTANT. -/
def execActivationInstant (s : State) : Host.Outcome State Fault Refusal := live (fun s => (activationInstant s).releaseCheck) s

/-! ## Commands that can end the last instant before A (R38): openings and admissions that close seams, closes, tokens dropped, merges -/

/-- SEAM_OPEN_TIME; `errs` is what the checks of slots read at a forced close find. -/
def execSeamOpenTime (group : Fin 256) (errs : Tbl MemErr) (s : State) : Host.Outcome State Fault Refusal :=
  live (fun s => (withErrs errs (seamOpenTime group.val) s).releaseCheck) s

/-- SEAM_ITEM_ADMIT; `errs` as for SEAM_OPEN_TIME. -/
def execSeamItemAdmit (errs : Tbl MemErr) (s : State) : Host.Outcome State Fault Refusal :=
  live (fun s => (withErrs errs seamItemAdmit s).releaseCheck) s

/-- PANEL_TOKEN_RECEIVE. -/
def execPanelTokenReceive (panel : Fin 16) (s : State) : Host.Outcome State Fault Refusal :=
  live (fun s => (panelTokenReceive panel.val s).releaseCheck) s

/-- ALARM_ENTRY_RECEIVE. -/
def execAlarmEntryReceive (s : State) : Host.Outcome State Fault Refusal := live (fun s => (alarmEntryReceive s).releaseCheck) s

/-- SEAM_CLOSE; `errs` is what the checks of the slots read at the close find. -/
def execSeamClose (group : Fin 256) (errs : Tbl MemErr) (s : State) : Host.Outcome State Fault Refusal :=
  live (fun s => (withErrs errs (seamClose group.val) s).releaseCheck) s

/-- ALARM_MERGE; `errs` is what the checkers of the class states and of the key store find. -/
def execAlarmMerge (errs : Tbl MemErr) (s : State) : Host.Outcome State Fault Refusal :=
  live (fun s => (withErrs errs alarmMerge s).releaseCheck) s

end Sys2Proof.Machine
end

