-- ==== Sys2Proof/Machine/EngineCmd.lean ====
section
/-! DEFINITION. Start and end of an engine instant (R188, R190): the instant's decision by the engine of the panel's role. -/
namespace Sys2Proof.Machine
open Sys2Proof

/-- The oscillation instance that band `k` of a BANDS body belongs to: that of its signal group (R252, R253). -/
def bandOwner (b : List Byte) (k : Nat) : Option Nat :=
  (((List.range (sgCnt b)).map (sgRec b)).find? fun r => r.firstBand ≤ k && k < r.firstBand + r.nBand).map SgRec.inst

/-- The windows on parameters of role `r`'s instance `e` lose PEND: the engine starts an instant, at `t0` (R42, R204, R229, R242, R257). -/
def State.takeWindows (s : State) (r e t0 : Nat) : State :=
  s.forEach (fun t s =>
    let mine := (r = 1 && 0x5000 + 16 * e ≤ t && t < 0x5010 + 16 * e) || (r = 2 && 0x5800 + 64 * e ≤ t && t < 0x5840 + 64 * e) ||
      (r = 3 && 0x7000 ≤ t && t < 0xF000 && bandOwner (s.patAt 9 t0) ((t - 0x7000) / 8) = some e) || (r = 4 && 0x6000 ≤ t && t < 0x7000)
    if mine then s.windowTaken t else s) (s.img.winOf.map Prod.fst)

/-- What the panels of an instance loaded, a source that several loaded once with all its lanes. -/
def joinLoaded (l : List Loaded) : List Loaded :=
  l.foldl (fun a x => if a.any (fun y => y.src = x.src) then
      a.map fun y => if y.src = x.src then { y with lanes := y.lanes ||| x.lanes } else y
    else a ++ [x]) []

/-- Every panel of `p`'s instance runs the instant at `t0`. -/
def State.allRun (s : State) (p t0 : Nat) : Bool :=
  (s.instancePanels p).all fun q => (s.panel q).started && (s.panel q).taken.any fun x => x.t0 = t0

/-- Pass 1 of a threshold instance whose panels all run (R20 step 6): it begins at the start and waits for no estimate. -/
def State.startPass1 (s : State) (p t0 : Nat) : State :=
  if s.role p = 4 && s.allRun p t0 then
    let ls := joinLoaded ((s.instancePanels p).flatMap fun q => (s.panel q).loaded)
    let t := ({ s with img := { s.img with held := some (s.panel ((s.leadOf 4 (s.pnlInst p)).getD p)).wins } }).thrPass1 (s.pnlInst p) t0 ls
    { t with img := { t.img with held := none } }
  else s

/-- A panel starts the instant it has loaded, with the committed window values of that moment; the lead of an estimator first lets a waiting
factor swap take place (R188, R218). -/
def engineStart (p : Nat) (s : State) : State :=
  match (s.panel p).taken with
  | some x =>
    if s.measuring && s.mayStart p then
      let s := (if s.role p = 1 && s.isLead p then s.seStart (s.pnlInst p) x.t0 else s).startPanel p
      let s := if s.isLead p then s.takeWindows (s.role p) (s.pnlInst p) x.t0 else s
      s.startPass1 p x.t0
    else s
  | none => s

/-- ENGINE_START. -/
def execEngineStart (panel : Fin 16) (s : State) : Host.Outcome State Fault Refusal := live (engineStart panel.val) s

/-- The decision of an instance's instant by its role (R20): nothing where the estimate it needs is still to come. -/
def State.decideInstant (s : State) (p : Nat) (x : Pending) (ls : List Loaded) (voids : List Nat) : Option State :=
  let e := s.pnlInst p
  let est := match s.pairedSe p with
    | some d => s.estimate d x.t0
    | none => none
  match s.role p with
  | 1 => some (s.seDecide e x ls voids)
  | 2 => est.map fun v => s.floeDecide e x.t0 ls v
  | 3 => some (s.oscDecide e x.t0 ls)
  | 4 => if s.thrNeedsEst e x.t0 then est.map fun v => s.thrDecide e x.t0 ls (some v) else some (s.thrDecide e x.t0 ls none)
  | 5 => some s
  | _ => none

/-- Every panel of the instance ends the instant (R190), with its span offered to the firn recorder (R335). -/
def State.endInstance (s : State) (p t0 : Nat) : State :=
  s.forEach (fun q s =>
    let s := s.endPanel q
    s.firnNs 4 q (t80OfNs t0) (s.rn (Reg.FAB_PNL_SPAN_LAST q))) (s.instancePanels p)

/-- The lead panel's DONE arrives: the instant is decided. `voids` names buses whose estimate is VOID. -/
def engineInstantEnd (p : Nat) (voids : List Nat) (s : State) : State :=
  match (s.panel p).taken with
  | some x =>
    if s.measuring && s.isLead p && (s.panel p).doneSent && s.allRun p x.t0 then
      let ls := joinLoaded ((s.instancePanels p).flatMap fun q => (s.panel q).loaded)
      let t := { s with img := { s.img with held := some (s.panel p).wins } }
      match t.decideInstant p x ls voids with
      | none => s
      | some t =>
        let t := { t with img := { t.img with held := none } }
        let t := (t.endInstance p x.t0).pushNote (.engine (t.role p) (t.pnlInst p))
        t.releaseCheck.tryUnload.answerHeld
    else s
  | none => s

/-- ENGINE_INSTANT_END. -/
def execEngineInstantEnd (panel : Fin 16) (voids : List Nat) (s : State) : Host.Outcome State Fault Refusal :=
  live (engineInstantEnd panel.val voids) s

end Sys2Proof.Machine
end

