-- ==== Sys2Proof/Machine/Priv.lean ====
section
/-! DEFINITION. Privileged commands (R412, R413, R420 to R422) and tamper (R414, R415). -/
namespace Sys2Proof.Machine
open Sys2Proof

/-! ## The command block (R420, R421) -/

/-- PARAM of the block in mailbox `m`. -/
def State.privParam (s : State) (m : Nat) : Nat := s.mbx m 13

/-- The checks of R421 before the code's own: NONCE, UID, then R417. -/
def State.privChecks (s : State) (m : Nat) (nonce : Option (List Byte × Nat)) : Nat × State :=
  let fresh := nonce.any fun x => s.time.ticks < 15000000000 + x.2 && s.mbxBytes m 20 32 = x.1
  if !fresh then (krNonce, s)
  else if leNat (s.mbxBytes m 4 16) ≠ Config.uid.toNat then (krUid, s)
  else s.verifySig (fld (s.mbx m 0) 8 6) 6 (s.mbxBytes m 128 2592) (Config.sha3_512 (s.mbxBytes m 0 128)) (s.mbxBytes m 2720 4627)

/-- PRIV_EXEC of a block whose CODE is `code` (R421, R424): ignored where the mailbox or `ok` does not allow it. `f` gives the code's own
result and effect; no result leaves the command running. -/
def State.privGo (s : State) (code m : Nat) (who : Party) (ok : Bool) (inHand : Nat) (f : State → Option Nat × State) : State :=
  if mbxParty m who && fld (s.mbx m 0) 0 8 = code && ok && !s.bit (Reg.KEY_MBX_STATUS m) 0 then
    let nonce := Tbl.get s.key.nonces m none
    let s := ((s.setNonce m none).count Reg.KEY_PRIV_CNT).raise 116
    let r : Option Nat × State :=
      if s.key.migr.isSome then (some krBusy, s)
      else
        let c := s.privChecks m nonce
        if c.1 = krOk then f c.2 else (some c.1, c.2)
    match r.1 with
    | some x =>
      let t := if x = krOk then r.2 else r.2.count Reg.KEY_PRIV_FAIL_CNT
      ((s.withdraw t inHand).showSlots).keyEnd m x
    | none => r.2.setReg (Reg.KEY_MBX_STATUS m) 1
  else s

/-! ## The codes (R422) -/

/-- TIME_REARM: the window for one write of TIME_CTRL.REARM opens. -/
def privTimeRearm (m : Nat) (who : Party) (s : State) : State :=
  s.privGo 1 m who true 0 fun s => (some krOk, { s with key := { s.key with rearmAt := some s.time.ticks } })

/-- TIME_REARM. -/
def execTimeRearm (mbx : Fin 2) (who : Party) (s : State) : Host.Outcome State Fault Refusal := live (privTimeRearm mbx.val who) s

/-- CLEAR_STATS: the window for one write of FIRN_CLR and, with ENERGY, one of STN_ECLR opens. -/
def privClearStats (m : Nat) (who : Party) (s : State) : State :=
  s.privGo 2 m who true 0 fun s =>
    let p := s.privParam m
    let w : StatsWindow := { since := s.time.ticks, periods := fld p 0 3, firn := true, energy := fld p 3 1 = 1 }
    (some krOk, { s with key := { s.key with statsAt := some w } })

/-- CLEAR_STATS. -/
def execClearStats (mbx : Fin 2) (who : Party) (s : State) : Host.Outcome State Fault Refusal := live (privClearStats mbx.val who) s

/-- The transitions of R412, with the verifying slot each needs. -/
def transitionOk (lc target slot : Nat) : Bool :=
  (lc = lcManufacture && target = lcProvisioned) || (lc = lcProvisioned && target = lcDeployed) ||
    ((lc = lcProvisioned || lc = lcDeployed) && target = lcReturned && slot = 0) ||
    (lc ≠ lcRetired && target = lcRetired)

/-- LIFECYCLE: a transition of R412 starts (R413 step 1) where SUPMON stands above the warning level. -/
def privLifecycle (m : Nat) (who : Party) (s : State) : State :=
  s.privGo 3 m who true 0 fun s =>
    let target := fld (s.privParam m) 0 3
    if !transitionOk s.lc target (fld (s.mbx m 0) 8 6) then (some krTransition, s)
    else if s.pwr.supLow then (some krBusy, s)
    else
      let s := if target < 4 then s.fillRoot target else s
      let g : Migration := { target := target, mbx := m, since := s.time.ticks }
      (none, ({ s with key := { s.key with migr := some g } }).setF Reg.KEY_STATUS 3 1 1)

/-- LIFECYCLE. -/
def execLifecycle (mbx : Fin 2) (who : Party) (s : State) : Host.Outcome State Fault Refusal := live (privLifecycle mbx.val who) s

/-- UNLOAD (R35): measurement stops, and the patterns are cleared once the engines have finished. -/
def privUnload (m : Nat) (who : Party) (s : State) : State :=
  s.privGo 4 m who true 0 fun s =>
    (some krOk, if s.imgState = 2 then ({ s with img := { s.img with unload := true } }).tryUnload else s)

/-- UNLOAD. -/
def execUnload (mbx : Fin 2) (who : Party) (s : State) : Host.Outcome State Fault Refusal := live (privUnload mbx.val who) s

/-- Header word 0 of the slot an INSTALL_PK block asks for: KIND 4 with its USE and LCMASK. -/
def pkHeader (param : Nat) : Nat := putFld (putFld (putFld 0 1 3 4) 4 9 (fld param 6 9)) 13 4 (fld param 15 4)

/-- INSTALL_PK: a KIND 4 slot written with DIGEST. -/
def privInstallPk (m : Nat) (who : Party) (inHand : Nat) (s : State) : State :=
  let slot := fld (s.privParam m) 0 6
  s.privGo 5 m who (slot ≠ 0 && s.lc ≠ lcRetired) inHand fun s =>
    let use := fld (s.privParam m) 6 9
    if !hdrOk (pkHeader (s.privParam m)) || use ≠ fld use 5 2 * 32 then (some krParam, s)
    else (some krOk, s.writeSlot slot (pkHeader (s.privParam m)) (s.mbx m 15) (s.mbxBytes m 64 64))

/-- INSTALL_PK. -/
def execInstallPk (mbx : Fin 2) (who : Party) (inHand : BitVec 7) (s : State) : Host.Outcome State Fault Refusal :=
  live (privInstallPk mbx.val who inHand.toNat) s

/-! ## Tamper (R414, R415) -/

/-- The battery domain's clock as read now (R427): its 32.768 kHz ticks are a clock of their own. -/
def State.batTicks (s : State) : State := (s.setReg Reg.KEY_BAT_TICKS (s.draw 48).toNat).drawn

/-- Everything of Survives B at its reset value but the life-cycle state (R415, R448). -/
def State.clearBattery (s : State) : State :=
  let lc := s.lc
  let s := (s.resetRegs fun v => v = .b).setF Reg.KEY_STATUS 0 3 lc
  { s with
    key := { s.key with slots := [], roots := [] }
    stn := { s.stn with slot0 := {}, slot1 := {}, save := none }
    firn := { s.firn with clrSeq := 0 } }

/-- The battery domain reacts to tamper source `cause` (R414). -/
def State.tamperSeen (s : State) (cause : Nat) : Bool :=
  if cause < 2 then s.bit Reg.KEY_TAMP_CFG cause else s.lc ≠ lcManufacture

/-- What the battery domain does at a tamper (R415). -/
def State.zeroize (s : State) (cause : Nat) : State :=
  let old := s.rn Reg.KEY_TAMP_CAUSE
  let n := s.rn Reg.KEY_TAMP_CNT
  let s := s.batTicks
  let ticks := s.rn Reg.KEY_BAT_TICKS
  let s := s.clearBattery
  let s := ((s.setReg Reg.KEY_TAMP_CAUSE old).setF Reg.KEY_TAMP_CAUSE cause 1 1).setF Reg.KEY_STATUS 5 1 1
  (s.setReg Reg.KEY_TAMP_TICKS ticks).setReg Reg.KEY_TAMP_CNT (Nat.min (n + 1) 0xFFFF)

/-- A tamper source is detected. -/
def keyTamper (cause inHand : Nat) (s : State) : State :=
  if s.tamperSeen cause then
    let t := s.zeroize cause
    if s.alive then ((s.withdraw t inHand).showSlots).raise 117
    else { t with key := { t.key with tamperDue := true } }
  else s

/-- KEY_TAMPER. -/
def execKeyTamper (cause : Fin 6) (inHand : BitVec 7) (s : State) : Host.Outcome State Fault Refusal :=
  done (keyTamper cause.val inHand.toNat) s

end Sys2Proof.Machine
end

