-- ==== Sys2Proof/Machine/Hq.lean ====
section
/-! DEFINITION. The host interface beyond the Fledal mailbox: PCI Express, the host rings, the DDR5 window, flash, I2C, UART and JTAG
(R452 to R460, R467 to R472). -/
namespace Sys2Proof.Machine
open Sys2Proof

/-! ## The endpoint (R452, R454) -/

/-- HQ_PCIE_STATUS shows the link and the configuration; SPEED and WIDTH stay while the link is up. -/
def State.showPcie (s : State) : State :=
  let h := s.hq
  let trained := if h.linkUp then s.rf Reg.HQ_PCIE_STATUS 1 6 * 2 else 0
  s.setReg Reg.HQ_PCIE_STATUS (bitAt h.linkUp 0 + trained + bitAt h.bme 7 + bitAt h.msixEn 8 + (if h.d3hot then 3 * 2 ^ 9 else 0))

/-- The link comes up, at a speed and width that training settles (R452). -/
def State.linkTrained (s : State) : State :=
  if s.hq.linkUp then s
  else
    let speed := (s.draw 2).toNat + 1
    let s := s.drawn
    let width := 2 ^ ((s.draw 2).toNat % 3)
    let s := s.drawn
    ({ s with hq := { s.hq with linkUp := true } }).setReg Reg.HQ_PCIE_STATUS (1 + speed * 2 + width * 16)

/-- A configuration write (R454). -/
def pcieConfigWrite (bme d3hot msix : Bool) (s : State) : State :=
  let s := s.linkTrained
  ({ s with hq := { s.hq with bme := bme, d3hot := d3hot, msixEn := msix } }).showPcie

/-- PCIE_CONFIG_WRITE. -/
def execPcieConfigWrite (bme d3hot msix : Bool) (s : State) : Host.Outcome State Fault Refusal := live (pcieConfigWrite bme d3hot msix) s

/-- The link goes down without a hot reset. -/
def pcieLinkDown (s : State) : State := ({ s with hq := { s.hq with linkUp := false } }).showPcie

/-- PCIE_LINK_DOWN. -/
def execPcieLinkDown (s : State) : Host.Outcome State Fault Refusal := live pcieLinkDown s

/-- Host DMA resumes: with Bus Master Enable set and in D0, the link is up again. -/
def dmaResume (s : State) : State := if s.hq.bme && !s.hq.d3hot then s.linkTrained.showPcie else s

/-- DMA_RESUME. -/
def execDmaResume (s : State) : Host.Outcome State Fault Refusal := live dmaResume s

/-! ## Host completion rings (R457 to R460) -/

/-- Ring `q` beyond its registers. -/
def State.hring (s : State) (q : Nat) : HostRing := if q = 0 then s.hq.ring0 else s.hq.ring1

/-- Ring `q` beyond its registers, set. -/
def State.setHring (s : State) (q : Nat) (h : HostRing) : State :=
  { s with hq := if q = 0 then { s.hq with ring0 := h } else { s.hq with ring1 := h } }

/-- EN of ring `q`. -/
def State.hringOn (s : State) (q : Nat) : Bool := s.bit (Reg.HQ_RING_CFG q) 8

/-- HEAD of ring `q` written to host memory. -/
def State.hringBack (s : State) (q : Nat) : State :=
  if s.dmaOn then s.emit (.dma (s.hring q).wb (leBytes 4 (s.rn (Reg.HQ_RING_HEAD q)))) else s

/-- A write of HQ_RING_CFG[q] (R457). -/
def hringCfg (q : Nat) (w : Word) (s : State) : State :=
  let was := s.hringOn q
  let v := w.toNat &&& 0x11F
  let t := s.setReg (Reg.HQ_RING_CFG q) v
  if fld v 8 1 = 1 && !was then
    let h : HostRing := { t.hring q with
      base := s.rn (Reg.HQ_RING_BASE_LO q) + 2 ^ 32 * s.rn (Reg.HQ_RING_BASE_HI q), log2n := fld v 0 5,
      wb := s.rn (Reg.HQ_RING_WB_LO q) + 2 ^ 32 * s.rn (Reg.HQ_RING_WB_HI q) }
    ((t.setReg (Reg.HQ_RING_HEAD q) 0).setReg (Reg.HQ_RING_TAIL q) 0).setHring q h
  else if fld v 8 1 = 0 && was then t.hringBack q
  else t

/-- HQ_RING_ENABLE. -/
def execHqRingEnable (who : Party) (q : Fin 2) (w : Word) (s : State) : Host.Outcome State Fault Refusal :=
  live (written who (Reg.HQ_RING_CFG q.val) w (fun s => if w.getLsbD 8 then hringCfg q.val w s else s)) s

/-- HQ_RING_DISABLE. -/
def execHqRingDisable (who : Party) (q : Fin 2) (w : Word) (s : State) : Host.Outcome State Fault Refusal :=
  live (written who (Reg.HQ_RING_CFG q.val) w (fun s => if w.getLsbD 8 then s else hringCfg q.val w s)) s

/-- The next entry of ring `q`'s device queue, taken from it (R458 to R460). -/
def State.takeEntry (s : State) (q : Nat) : Option (List Byte) × State :=
  if q = 0 then
    match s.alm.queue with
    | e :: t => (some e, { s with alm := { s.alm with queue := t }, hq := { s.hq with almWatch := s.watchRead } })
    | [] => (none, s)
  else
    match s.hq.seamQ with
    | e :: t => (some e, { s with hq := { s.hq with seamQ := t, seamWatch := s.watchRead } })
    | [] => (none, s)

/-- Ring `q` has room and may be written (R457, R458). -/
def State.hringRoom (s : State) (q : Nat) : Bool :=
  s.hringOn q && s.dmaOn && (s.rn (Reg.HQ_RING_HEAD q) + 1) % 2 ^ (s.hring q).log2n ≠ s.rn (Reg.HQ_RING_TAIL q)

/-- One more entry of ring `q` counts toward its interrupt (R457). -/
def State.hringCount (s : State) (q : Nat) : State :=
  let h := s.hring q
  let h : HostRing := { h with since := h.since + 1, firstAt := if h.since = 0 then s.time.ticks else h.firstAt }
  let s := s.setHring q h
  let n := s.rf (Reg.HQ_RING_IRQ q) 0 16
  if n ≠ 0 && decide (n ≤ h.since) then s.setF Reg.HQ_RING_PEND q 1 1 else s

/-- An entry moves from its device queue to ring `q`, followed by HEAD (R457, R458). -/
def hqRingWrite (q : Nat) (s : State) : State :=
  if s.hringRoom q then
    match s.takeEntry q with
    | (none, _) => s
    | (some e, t) =>
      let h := t.hring q
      let head := t.rn (Reg.HQ_RING_HEAD q)
      let t := t.emit (.dma (h.base + (if q = 0 then 64 else 32) * head) e)
      let t := (t.setReg (Reg.HQ_RING_HEAD q) ((head + 1) % 2 ^ h.log2n)).count (Reg.HQ_DMA_CNT q)
      (t.hringBack q).hringCount q
  else s

/-- HQ_RING_WRITE. -/
def execHqRingWrite (q : Fin 2) (s : State) : Host.Outcome State Fault Refusal := live (hqRingWrite q.val) s

/-- TIME µs after the first entry since the pending bit was cleared (R457). -/
def hqRingIrqTimer (q : Nat) (s : State) : State :=
  let irq := s.rn (Reg.HQ_RING_IRQ q)
  if (s.hring q).since ≠ 0 && fld irq 0 16 ≠ 0 && decide ((s.hring q).firstAt + fld irq 16 16 * 250 ≤ s.time.ticks) then
    s.setF Reg.HQ_RING_PEND q 1 1
  else s

/-- HQ_RING_IRQ_TIMER. -/
def execHqRingIrqTimer (q : Fin 2) (s : State) : Host.Outcome State Fault Refusal := live (hqRingIrqTimer q.val) s

/-- A clear of HQ_RING_PEND: the entries of each ring cleared count anew (R457). -/
def ringPendClear (w : Word) (s : State) : State :=
  s.forRange (fun q s => if w.getLsbD q then (s.setF Reg.HQ_RING_PEND q 1 0).setHring q { s.hring q with since := 0 } else s) 0 2

/-! ## The DDR5 window (R455) -/

/-- The channel that serves a DDR5 address; none beyond installed DDR5. -/
def State.ddrChannel (s : State) (a : Nat) : Option Nat :=
  if a < 2 ^ 28 * s.pwr.size0 then some 0 else if a < s.ddrSize then some 1 else none

/-- A DDR5 address is served: installed, in a channel in service. -/
def State.ddrServed (s : State) (a : Nat) : Bool :=
  match s.ddrChannel a with
  | some 0 => s.pwr.ddr0
  | some _ => s.pwr.ddr1
  | none => false

/-- One check of DDR5 at address `a` by its channel's checker. -/
def State.ddrCheck (s : State) (a : Nat) (err : MemErr) : MemErr × State :=
  s.check (if s.ddrChannel a = some 0 then 32 else 33) (a / 4096) err

/-- DDR5 address of a BAR2 offset. -/
def State.winAddr (s : State) (off : Nat) : Nat := 2 ^ 28 * s.rf Reg.HQ_DDR_WIN 0 8 + off

/-- A BAR2 read: bytes not served read as zero. In PARK, DDR5 rests in self-refresh and the spec states no data. -/
def bar2Read (off len : Nat) (err : MemErr) (s : State) : State :=
  let a := s.winAddr off
  let data := (List.range len).map fun i => if s.ddrServed (a + i) then Memory.byte s.ddr (a + i) else 0
  if !s.ddrServed a then s.emit (.completion data false)
  else if s.pwr.state ≠ .run then s.drawn.emit (.completion (leBytes len (s.draw (8 * len)).toNat) false)
  else
    let (e, s) := s.ddrCheck a err
    (if e = .ue then s.count Reg.HQ_BAR2_POISON_CNT else s).emit (.completion data (e = .ue))

/-- BAR2_READ. -/
def execBar2Read (off : BitVec 32) (len : BitVec 13) (err : MemErr) (s : State) : Host.Outcome State Fault Refusal :=
  live (bar2Read off.toNat len.toNat err) s

/-- A BAR2 write: bytes not served are ignored; one narrower than 8 bytes reads its word first, and writes nothing where that read is
uncorrectable. -/
def bar2Write (off : Nat) (data : List Byte) (err : MemErr) (s : State) : State :=
  let a := s.winAddr off
  let put := fun (s : State) =>
    let m := (List.range data.length).foldl
      (fun (m : List Host.Cell) i => if s.ddrServed (a + i) then Memory.setByte m (a + i) (data.getD i 0) else m) s.ddr
    { s with ddr := m }
  if s.pwr.state ≠ .run then s
  else if data.length < 8 && s.ddrServed a then
    let (e, s) := s.ddrCheck a err
    if e = .ue then s else put s
  else put s

/-- BAR2_WRITE. -/
def execBar2Write (off : BitVec 32) (data : List Byte) (err : MemErr) (s : State) : Host.Outcome State Fault Refusal :=
  live (bar2Write off.toNat data err) s

/-! ## Flash (R467, R472) -/

/-- Bytes of HQ_QSPI_BUF. -/
def State.qspiBytes (s : State) (n : Nat) : List Byte := ((s.words (Reg.HQ_QSPI_BUF 0) 64).flatMap (leBytes 4)).take n

/-- LEN of a value of HQ_QSPI_CTRL. -/
def qspiLen (c : Nat) : Nat := Nat.min (fld c 16 9) 256

/-- A write of HQ_QSPI_CTRL: its fields are stored, and its GO is ignored while BUSY; the host has no flash path, so only a core's GO
issues a command. -/
def qspiCommand (who : Party) (w : Word) (s : State) : State :=
  let c := w.toNat &&& 0x21FFFFFF
  let s := s.setReg Reg.HQ_QSPI_CTRL (bitAt s.hq.qspiBusy 30 + c)
  if s.hq.qspiBusy || !w.getLsbD 31 || who = .host then s
  else
    let n := if fld c 8 1 = 1 then 4 else fld c 9 3
    let data := if fld c 29 1 = 1 then s.qspiBytes (qspiLen c) else []
    let s := s.emit (.flash (fld c 0 8) n (s.rn Reg.HQ_QSPI_ADDR % 2 ^ (8 * n)) (fld c 12 4) (qspiLen c) data)
    ({ s with hq := { s.hq with qspiBusy := true, qspiCtrl := c } }).setF Reg.HQ_QSPI_CTRL 30 1 1

/-- QSPI_COMMAND. -/
def execQspiCommand (who : Party) (w : Word) (s : State) : Host.Outcome State Fault Refusal := live (qspiCommand who w) s

/-- A firmware flash command finishes; a read leaves its data in HQ_QSPI_BUF. -/
def qspiDone (data : List Byte) (s : State) : State :=
  if s.hq.qspiBusy then
    let s := ({ s with hq := { s.hq with qspiBusy := false } }).setF Reg.HQ_QSPI_CTRL 30 1 0
    if fld s.hq.qspiCtrl 29 1 = 1 then s
    else
      let got := data.take (qspiLen s.hq.qspiCtrl)
      s.setWords (Reg.HQ_QSPI_BUF 0) (wordsOf (got ++ (s.qspiBytes 256).drop got.length) 64)
  else s

/-- QSPI_DONE. -/
def execQspiDone (data : List Byte) (s : State) : Host.Outcome State Fault Refusal := live (qspiDone data) s

/-! ## I2C (R468) -/

/-- The registers of the I2C target, by index. -/
def i2cRegs : List Nat := [
  Reg.FEAT_ID, Reg.PWR_STATE, Reg.PWR_RESET_CAUSE, Reg.PWR_TEMP, Reg.FLT_STICKY 0, Reg.FLT_STICKY 1, Reg.FLT_STICKY 2, Reg.FLT_FIRST,
  Reg.KEY_UID 0, Reg.KEY_UID 1, Reg.KEY_UID 2, Reg.KEY_UID 3, Reg.KEY_STATUS, Reg.FEAT_IMG_STATE, Reg.TIME_STATE, Reg.ALM_PINS,
  Reg.DISP_BOOT]

/-- The register at an index; zero above the last. -/
def State.i2cWord (s : State) (i : Nat) : Nat :=
  match i2cRegs[i]? with
  | some a => s.rn a
  | none => 0

/-- An index written, then `count` bytes read. -/
def i2cRead (index count : Nat) (s : State) : State :=
  let bytes := (List.range ((count + 3) / 4)).flatMap fun k => leBytes 4 (s.i2cWord ((index + k) % 2 ^ 16))
  ({ s with hq := { s.hq with i2cIndex := (index + count / 4) % 2 ^ 16 } }).emit (.i2c (bytes.take count))

/-- I2C_READ. -/
def execI2cRead (index : BitVec 16) (count : BitVec 8) (s : State) : Host.Outcome State Fault Refusal :=
  live (i2cRead index.toNat count.toNat) s

/-! ## UART (R469) -/

/-- HQ_UART_STATUS shows the depths. -/
def State.showUart (s : State) : State := s.setReg Reg.HQ_UART_STATUS (s.hq.uartRx.length + s.hq.uartTx.length * 256)

/-- A byte received. -/
def uartRx (b : Byte) (s : State) : State :=
  if s.hq.uartRx.length < 64 then ({ s with hq := { s.hq with uartRx := s.hq.uartRx ++ [b] } }).showUart
  else s.count Reg.HQ_UART_LOST_CNT

/-- UART_RX. -/
def execUartRx (b : Byte) (s : State) : Host.Outcome State Fault Refusal := live (uartRx b) s

/-- A write of HQ_UART_DATA: the byte is queued where there is room. -/
def uartDataWrite (w : Word) (s : State) : State :=
  if s.hq.uartTx.length < 64 then ({ s with hq := { s.hq with uartTx := s.hq.uartTx ++ [w.setWidth 8] } }).showUart else s

/-- UART_DATA_WRITE. -/
def execUartDataWrite (_who : Party) (w : Word) (s : State) : Host.Outcome State Fault Refusal := live (uartDataWrite w) s

/-- A read of HQ_UART_DATA: the oldest byte received, 0 when there is none. -/
def uartDataRead (s : State) : State :=
  match s.hq.uartRx with
  | b :: t => (({ s with hq := { s.hq with uartRx := t } }).showUart).emit (.read (b.setWidth 64))
  | [] => s.emit (.read 0)

/-- UART_DATA_READ. -/
def execUartDataRead (_who : Party) (s : State) : Host.Outcome State Fault Refusal := live uartDataRead s

/-- A byte leaves the transmit FIFO on UTXD. -/
def uartTx (s : State) : State :=
  match s.hq.uartTx with
  | b :: t => (({ s with hq := { s.hq with uartTx := t } }).showUart).emit (.uart b)
  | [] => s

/-- UART_TX. -/
def execUartTx (s : State) : Host.Outcome State Fault Refusal := live uartTx s

/-! ## JTAG (R470) -/

/-- JTAG works while the compute die has power. -/
def tap (f : State → State) (s : State) : Host.Outcome State Fault Refusal := done (fun s => if s.pwr.state ≠ .hold then f s else s) s

/-- A JTAG instruction in force, with the bits that leave on TDO as `tdi` shifts through a register holding `reg`. -/
def State.jtag (s : State) (ir : JtagIr) (reg tdi : List Bool) : State :=
  ({ s with hq := { s.hq with jtagIr := ir } }).emit (.tdo ((reg ++ tdi).take tdi.length))

/-- The boundary register captured from the pins, shifted by `tdi` and updated. -/
def State.boundaryScan (s : State) (ir : JtagIr) (pins tdi : List Bool) : State :=
  let s := s.jtag ir pins tdi
  { s with hq := { s.hq with boundary := (pins ++ tdi).drop tdi.length } }

/-- The bits of IDCODE 0x1916_0553, least significant first. -/
def idcodeBits : List Bool := (List.range 32).map fun i => (0x19160553#32).getLsbD i

/-- BYPASS. -/
def execBypass (tdi : List Bool) (s : State) : Host.Outcome State Fault Refusal := tap (fun s => s.jtag .bypass [false] tdi) s
/-- IDCODE. -/
def execIdcode (s : State) : Host.Outcome State Fault Refusal := tap (fun s => s.jtag .idcode idcodeBits (List.replicate 32 false)) s
/-- SAMPLE/PRELOAD: the pins are sampled without being driven. -/
def execSamplePreload (pins tdi : List Bool) (s : State) : Host.Outcome State Fault Refusal :=
  tap (fun s => s.boundaryScan .samplePreload pins tdi) s
/-- EXTEST: the boundary register drives the pins. -/
def execExtest (pins tdi : List Bool) (s : State) : Host.Outcome State Fault Refusal := tap (fun s => s.boundaryScan .extest pins tdi) s
/-- CLAMP: the boundary register drives the pins, through the bypass register's path. -/
def execClamp (tdi : List Bool) (s : State) : Host.Outcome State Fault Refusal := tap (fun s => s.jtag .clamp [false] tdi) s
/-- HIGHZ: every output pin stops driving. -/
def execHighz (tdi : List Bool) (s : State) : Host.Outcome State Fault Refusal := tap (fun s => s.jtag .highz [false] tdi) s

/-- The level JTAG puts on boundary cell `i` (R470): that of the boundary register under EXTEST and CLAMP, none under HIGHZ, and the
core's own otherwise. -/
def State.cellLevel (s : State) (i : Nat) (core : Bool) : Option Bool :=
  match s.hq.jtagIr with
  | .extest => some (s.hq.boundary.getD i false)
  | .clamp => some (s.hq.boundary.getD i false)
  | .highz => none
  | _ => some core

/-- A debug access to a core, which it may halt (R470). -/
def coreDebugAccess (core : Nat) (halt : Bool) (s : State) : State :=
  if s.lc = lcManufacture || s.lc = lcProvisioned || s.lc = lcReturned then
    let rest := s.hq.halted.filter fun k => k ≠ core
    { s with hq := { s.hq with halted := if halt then rest ++ [core] else rest } }
  else s

/-- CORE_DEBUG_ACCESS. -/
def execCoreDebugAccess (core : Fin 8) (halt : Bool) (s : State) : Host.Outcome State Fault Refusal :=
  live (coreDebugAccess core.val halt) s

end Sys2Proof.Machine
end

