-- ==== Sys2Proof/Machine/Sched.lean ====
section
/-! DEFINITION. What the counter's time brings to several blocks at once: servo samples (R56 to R67), tacks (R77 to R79) and stale FIFO
tails (R166). -/
namespace Sys2Proof.Machine
open Sys2Proof

/-! ## Steps of the counter (R67) -/

/-- What a step of the counter does outside the time domain: station-input sampling moves back to its grid (R295), superframes skip
(R381), and on leaving UNSET every group and upstream stream begins at the new time (R151). -/
def State.afterStep (s : State) (wasUnset : Bool) : State :=
  let s := s.stnStep.radioStep
  if wasUnset then (s.countBy Reg.SEAM_RESET_DISC_CNT s.allOpen).beginAll.upRestart.releaseCheck else s

/-- A waiting sample taken on the tick, with what a step of the counter brings outside the time domain. -/
def State.sampleTick (s : State) (x : Sample) : State :=
  let t := s.takeSample x
  if t.rn Reg.TIME_STEP_CNT ≠ s.rn Reg.TIME_STEP_CNT then t.afterStep (s.disc = stUnset) else t

/-- What waits for a tick, in the order of R65: the source change, then the samples posted since the last tick, in order (R56). -/
def State.disciplineTick (s : State) : State :=
  let xs := s.time.samples
  ({ s.srcTick with time := { s.srcTick.time with samples := [] } }).forEach (fun x s => s.sampleTick x) xs

/-! ## Tacks (R77 to R79) -/

/-- The action of a tack with ACTION `a` and ARG `g` (R79, R81). What WDT, SOFT and LINK resets stop takes no request. -/
def State.tackAct (s : State) (a g : Nat) : State :=
  match a with
  | 1 => s.tpoPulse (fld g 0 3) (fld g 8 24 * (if fld g 7 1 = 1 then 250 else 1)) (fld g 3 1 = 1)
  | 2 => s.auxStart (fld g 0 5)
  | 3 => if s.alive && s.feat 56 && s.img.inForce then s.capArm (fld g 0 6) else s
  | 4 => if s.alive then s.intakePush { thread := fld g 0 10, port := 0, value := fld g 16 16, src := 1 } else s
  | _ => s

/-- How far past its due value a tack that is due stands: it is enabled, not exhausted, and its base counter has reached the value. -/
def State.tackDue (s : State) (k : Nat) : Option Nat :=
  if s.feat 36 && (s.tack k).live && s.bit (Reg.TACK_ENTRY k 0) 0 then s.tackPast k else none

/-- Tack `k` fires where it is due: its action, its event, then its schedule. -/
def State.fireTack (s : State) (k : Nat) : State :=
  match s.tackDue k with
  | some past => ((s.tackAct (s.rf (Reg.TACK_ENTRY k 0) 4 3) (s.rn (Reg.TACK_ENTRY k 1))).tackEvent k).tackNext k past
  | none => s

/-- Every tack due in this tick fires in it, in ascending number (R79). -/
def State.fireTacks (s : State) : State := s.forRange (fun k s => s.fireTack k) 0 64

/-- Tack `k` falls due: it fires, and with it every tack due in the same tick (R77, R79). -/
def tackFire (k : Nat) (s : State) : State := if (s.tackDue k).isSome then s.fireTacks else s

/-- TACK_FIRE. -/
def execTackFire (k : Fin 64) (s : State) : Host.Outcome State Fault Refusal := running (tackFire k.val) s

/-- A write of a tack's control word (R76): an entry whose old content falls due in this tick fires with it first (R77). -/
def tackCommit (k : Fin 64) (w : Word) (s : State) : State :=
  if s.feat 36 then (tackFire k.val s).commitTack k.val ((w.toNat &&& 0xFFFF007F) :: ((s.tack k.val).staged.drop 1)) else s

/-- TACK_COMMIT. -/
def execTackCommit (who : Party) (k : Fin 64) (w : Word) (s : State) : Host.Outcome State Fault Refusal :=
  live (written who (Reg.TACK_ENTRY k.val 0) w (tackCommit k w)) s

/-! ## Stale tails (R166, R167) -/

/-- The watch of a FIFO, whether it is empty, and its stale time in µs. -/
def State.fifoView (s : State) (f : Fifo) : Watch × Bool × Nat :=
  let g := s.pat 5
  match f with
  | .crossing k =>
    let empty := match k.val with
      | 0 => s.seam.ingress.isEmpty
      | 1 => s.seam.bridge.isEmpty
      | 3 => s.seam.alarms.isEmpty
      | 4 => s.seam.notes.isEmpty
      | _ => true
    (s.xWatch k.val, empty, wf g (1 + k.val / 2) (16 * (k.val % 2)) 16)
  | .panel p => (s.xWatch (16 + p.val), (Tbl.get s.seam.tokens p.val []).isEmpty, wf g 2 0 16)
  | .mend => (s.xWatch 5, s.seam.mendCount = 0, wf g 3 16 16)
  | .measurement => (s.eth.mqWatch, s.eth.mq.isEmpty, wf (s.pat 2) 2 16 16)
  | .time => (s.eth.tqWatch, s.eth.tqCount = 0, wf (s.pat 2) 3 0 16)
  | .txts => (s.time.txtsWatch, s.time.txts.isEmpty, wf (s.pat 3) 2 16 16)
  | .seamHost => (s.hq.seamWatch, s.hq.seamQ.isEmpty, s.rn Reg.HQ_SEAM_CFG)
  | .hostAlarm => (s.hq.almWatch, s.alm.queue.isEmpty, wf (s.pat 11) 3 0 16)
  | .radioRx => (s.radio.watch, s.radio.rxCount = 0, wf (s.pat 19) 10 16 16)
  | .intake => (s.disp.watch, s.disp.intake.isEmpty, wf (s.pat 17) 4 16 16)
  | .firn => (s.firn.watch, s.firn.queue.isEmpty, wf (s.pat 16) 5 0 16)

/-- A stale tail counted and raised, and its watch spent until the next read. -/
def State.fifoReport (s : State) (f : Fifo) : State :=
  let w : Watch := { (s.fifoView f).1 with raised := true }
  match f with
  | .crossing k => ((s.setXWatch k.val w).count (Reg.SEAM_FIFO_STALE_CNT k.val)).raise 41
  | .panel p => ((s.setXWatch (16 + p.val) w).count (Reg.SEAM_FIFO_STALE_CNT 2)).raise 41
  | .mend => ((s.setXWatch 5 w).count (Reg.SEAM_FIFO_STALE_CNT 5)).raise 39
  | .measurement => (({ s with eth := { s.eth with mqWatch := w } }).count Reg.ETH_MQ_STALE_CNT).raise 21
  | .time => (({ s with eth := { s.eth with tqWatch := w } }).count Reg.ETH_TQ_STALE_CNT).raise 23
  | .txts => (({ s with time := { s.time with txtsWatch := w } }).count Reg.TIME_TXTS_STALE_CNT).raise 10
  | .seamHost => (({ s with hq := { s.hq with seamWatch := w } }).count Reg.HQ_SEAM_STALE_CNT).setF Reg.HQ_ATTN 2 1 1
  | .hostAlarm => (({ s with hq := { s.hq with almWatch := w } }).count Reg.HQ_ALM_STALE_CNT).setF Reg.HQ_ATTN 0 1 1
  | .radioRx => (({ s with radio := { s.radio with watch := w } }).count Reg.RADIO_RXQ_STALE_CNT).raise 106
  | .intake => (({ s with disp := { s.disp with watch := w } }).count Reg.DISP_XQ_STALE_CNT).raise 86
  | .firn => ({ s with firn := { s.firn with watch := w } }).raise 77

/-- A non-empty FIFO has gone unread for its stale time: reported once. -/
def fifoStale (f : Fifo) (s : State) : State :=
  let v := s.fifoView f
  if !v.2.1 && v.2.2 ≠ 0 && s.staleDue v.1 v.2.2 then s.fifoReport f else s

/-- FIFO_STALE. -/
def execFifoStale (fifo : Fifo) (s : State) : Host.Outcome State Fault Refusal := live (fifoStale fifo) s

end Sys2Proof.Machine
end

