-- ==== Sys2Proof/Machine/RegWrite.lean ====
section
/-! DEFINITION. Register reads and writes by address (R6 to R9, R40, R41): what a 32-bit write does to the register it names, in every
block but the power registers, and what a read returns. -/
namespace Sys2Proof.Machine
open Sys2Proof

/-- The index of `a` in an array of `n` registers from `base` on. -/
def arrIx (a base stride n : Nat) : Option Nat :=
  if base ≤ a && (a - base) % stride = 0 && (a - base) / stride < n then some ((a - base) / stride) else none

/-! ## Pairs (R7) -/

/-- The held LO write of party `who` for the pair at `off`. -/
def State.loHeld (s : State) (who : Party) (off : Nat) : Option Nat := Tbl.get s.heldLo (off * 16 + who.num) none

/-- The held LO write of party `who` for the pair at `off`, set. -/
def State.setLoHeld (s : State) (who : Party) (off : Nat) (v : Option Nat) : State :=
  { s with heldLo := Tbl.set s.heldLo (off * 16 + who.num) v none }

/-- The value that a write `hi` of a pair's HI word commits: the held LO word, or the committed one where none is held. -/
def State.pairValue (s : State) (who : Party) (off hi : Nat) : Nat := (s.loHeld who off).getD (s.rn off % 2 ^ 32) + 2 ^ 32 * hi

/-- The window at `off` takes value `v` from `who` (R41): it is declared, WHO names the party, and the value lies within the bounds. -/
def State.winTakes (s : State) (who : Party) (n v : Nat) : Bool :=
  let d := s.rn (Reg.FAB_PWIN_DESC n)
  let fmt := fld d 0 4
  let lo := s.rn (Reg.FAB_PWIN_MIN n)
  let hi := s.rn (Reg.FAB_PWIN_MAX n)
  let within :=
    if fmt = 4 then decide (lo % 2 ^ 32 ≤ v) && decide (v ≤ hi % 2 ^ 32)
    else if fmt = 5 then decide (sInt 32 lo ≤ sInt 32 v) && decide (sInt 32 v ≤ sInt 32 hi)
    else decide (sInt 40 lo ≤ sInt 40 v) && decide (sInt 40 v ≤ sInt 40 hi)
  let bit := match who with
    | .host => 5
    | .core _ => 6
  fld d bit 1 = 1 && within

/-- A write of FAB_PWIN_VAL_HI[n] (R40 to R42). -/
def pwinCommit (who : Party) (n : Nat) (hi : Word) (s : State) : State :=
  let off := Reg.FAB_PWIN_VAL n
  let narrow := 4 ≤ s.rf (Reg.FAB_PWIN_DESC n) 0 4
  let v := s.pairValue who off (if narrow then 0 else hi.toNat % 256)
  let s := s.setLoHeld who off none
  if s.winTakes who n v then
    let s := s.setReg off v
    if s.bit (Reg.FAB_PWIN_DESC n) 4 then s.setReg (Reg.FAB_PWIN_PEND n) 1 else s
  else s

/-- A write of a pair's HI word commits both halves (R7). A slew increment is clamped as R53 gives. -/
def pairCommit (who : Party) (off : Nat) (mask : Nat) (hi : Word) (s : State) : State :=
  let v := s.pairValue who off (hi.toNat &&& mask / 2 ^ 32)
  let s := s.setLoHeld who off none
  if off = Reg.TIME_SLEW_INC then (if clampInc v = v then s else s.setF Reg.TIME_STATE 9 1 1).setReg off (clampInc v)
  else s.setReg off v

/-! ## Stores (R8, R9) -/

/-- A value held between two bounds. -/
def hold (lo hi v : Nat) : Nat := max lo (min hi v)

/-- What a register takes of a written value that its own limits change (R83, R88, R115, R199, R322, R397, R446, R472). -/
def regClamp (a v : Nat) : Nat :=
  if a = Reg.TIME_HOLD_DRIFT then hold 0 100000 v
  else if (arrIx a (Reg.ETH_LPI_CTRL 0) 0x10000 4).isSome then putFld v 16 10 (hold 1 1023 (fld v 16 10))
  else if (arrIx a (Reg.ETH_LPI_IDLE 0) 0x10000 4).isSome then hold 1 65535 v
  else if a = Reg.ETH_TQ_BASE then v / 64 * 64
  else if a = Reg.FAB_SCRUB_SWEEP then hold 1 3600 v
  else if (arrIx a (Reg.FAB_PNL_SPAN_MAX 0) 0x1000 16).isSome then 0
  else if a = Reg.STN_SAVE_PERIOD then hold 1 60 v
  else if a = Reg.RADIO_TX_PWR then hold 0 28 v
  else if a = Reg.HQ_SEAM_CFG then hold 1 65535 v
  else if a = Reg.HQ_UART_CFG then hold 5 65535 v
  else if a = Reg.PWR_SUPMON_CFG then putFld v 16 10 (hold 0 (fld v 0 10 - 50) (fld v 16 10))
  else v

/-- The word `i` of a connection entry that software writes (R105). -/
def connMask (i : Nat) : Nat := if i = 0 then 0x1F3F else if i = 8 then 0xFFFF else if i = 9 || 10 ≤ i then 0 else 0xFFFFFFFF

/-- A register locked against writes now (R299, R416). -/
def State.locked (s : State) (a : Nat) : Bool :=
  if a = Reg.KEY_TAMP_CFG then decide (1 < s.lc)
  else if Reg.STN_BANK 0 0 ≤ a && a < Reg.STN_BANK 4 0 then
    let b := (a - Reg.STN_BANK 0 0) / 0x400
    decide (b = s.activeBank) || (s.bit Reg.STN_STATUS 2 && decide (b = s.rf Reg.STN_STATUS 5 2))
  else false

/-- Writable and write-1-to-clear bits applied to 32-bit word `i` of the register at `off` (R8, R9). -/
def State.store (s : State) (off i rw w1c : Nat) (w : Word) : State :=
  let old := s.rf off (32 * i) 32
  let v := (old &&& (0xFFFFFFFF ^^^ rw)) ||| (w.toNat &&& rw)
  let v := if rw = 0 then v else regClamp off v
  s.setF off (32 * i) 32 (v &&& (0xFFFFFFFF ^^^ (w.toNat &&& w1c)))

/-- A write of a register by its access code: held or committed for a pair (R7), else stored. -/
def regStore (who : Party) (a : Nat) (w : Word) (s : State) : State :=
  match rowOf a with
  | none => s
  | some (r, i) =>
    let off := a - 4 * i
    if s.locked a then s
    else if r.pair && decide (r.words = 2) && decide (r.rw ≠ 0) then
      if i = 0 then s.setLoHeld who off (some w.toNat) else pairCommit who off r.rw w s
    else s.store off i (r.rw / 2 ^ (32 * i) % 2 ^ 32) (r.w1c / 2 ^ (32 * i) % 2 ^ 32) w

/-! ## Writes by block -/

/-- A write within the DEC ranges: a bit cleared in DEC_CFGCHG_MAP is the stream's one CFGCHG bit (R126, R139). -/
def decWrite (who : Party) (a : Nat) (w : Word) (s : State) : State :=
  if a = Reg.DEC_CMD then decCmd w s
  else if a = Reg.DEC_REINJ_GO then reinjGo w s
  else
    let s := regStore who a w s
    match arrIx a (Reg.DEC_CFGCHG_MAP 0) 4 512 with
    | some k => s.forRange (fun i s => if w.getLsbD i then s.setF (Reg.DEC_STREAM_FLAGS (32 * k + i)) 1 1 0 else s) 0 32
    | none => s

/-- Words 1 to 6 of a tack entry wait for its control word; word 7 is read-only (R81). -/
def tackWrite (a : Nat) (w : Word) (s : State) : State :=
  let d := a - Reg.TACK_ENTRY 0 0
  let i := d % 32 / 4
  if h : d / 32 < 64 then
    if i = 0 then tackCommit ⟨d / 32, h⟩ w s
    else if i = 7 then s
    else
      let t := s.tack (d / 32)
      let v := if i = 4 || i = 6 then w.toNat % 2 ^ 16 else w.toNat
      { s with time := { s.time with tacks := Tbl.set s.time.tacks (d / 32) { t with staged := t.staged.set i v } {} } }
  else s

/-- A write within the TIME and TACK ranges. -/
def timeWrite (who : Party) (a : Nat) (w : Word) (s : State) : State :=
  if a = Reg.TIME_INC then s.setLoHeld who a (if s.disc = stRefused then none else some w.toNat)
  else if a = Reg.TIME_INC + 4 then timeIncWrite who w s
  else if a = Reg.TIME_SLEW_TICKS then timeSlewTicksWrite w s
  else if a = Reg.TIME_SVO_POST then servoSamplePost w s
  else if a = Reg.TIME_SRC then timeSrcWrite w s
  else if a = Reg.TIME_CTRL then rearm w s
  else if a = Reg.TIME_UTCOFS then utcofsWrite w s
  else if Reg.TACK_ENTRY 0 0 ≤ a && a < Reg.TACK_ENTRY 64 0 then tackWrite a w s
  else regStore who a w s

/-- A connection entry written (R105): an entry that becomes valid or invalid starts without hardware state. -/
def connWrite (n i : Nat) (w : Word) (s : State) : State :=
  let was := s.bit (Reg.ETH_TCP_CONN n 0) 0
  let s := (s.store (Reg.ETH_TCP_CONN n i) 0 (connMask i) 0 w).showSw n
  if s.bit (Reg.ETH_TCP_CONN n 0) 0 = was then s else s.setTcpHw n {}

/-- A write within the ETH ranges. -/
def ethWrite (who : Party) (a : Nat) (w : Word) (s : State) : State :=
  if a = Reg.ETH_TQ_POP then tqPop w s
  else if a = Reg.ETH_HRX_PEND then hrxPendClear w s
  else if Reg.ETH_TCP_CONN 0 0 ≤ a && a < Reg.ETH_TCP_CONN 4096 0 then
    connWrite ((a - Reg.ETH_TCP_CONN 0 0) / 0x40) ((a - Reg.ETH_TCP_CONN 0 0) % 0x40 / 4) w s
  else
    let ring := fun (base : Nat) => (arrIx a base 0x40 8).map fun n => (BitVec.ofNat 3 n).toFin
    match ring (Reg.ETH_HRX_CFG 0), ring (Reg.ETH_HRX_TAIL 0) with
    | some r, _ => hrxRingEnable r w s
    | none, some r => hrxTailWrite r w s
    | none, none => regStore who a w s

/-- A write within the SEAM range. -/
def seamWrite (who : Party) (a : Nat) (w : Word) (s : State) : State :=
  if a = Reg.SEAM_LRN_RESET then seamLrnReset w s
  else if a = Reg.SEAM_MEND_POP then seamMendPop w s
  else if a = Reg.SEAM_SLOT_SEL then seamSlotSel w s
  else if a = Reg.SEAM_LRN_SEL then (regStore who a w s).showBins
  else regStore who a w s

/-- A write within the fabric's windows. -/
def windowWrite (who : Party) (a : Nat) (w : Word) (s : State) : State :=
  let n := (a - Reg.FAB_PWIN_VAL 0) / 32
  if a = Reg.FAB_PWIN_VAL n then s.setLoHeld who a (some w.toNat)
  else if a = Reg.FAB_PWIN_VAL n + 4 then pwinCommit who n w s
  else s

/-- A write within the estimator, oscillation and threshold ranges: each instance has its own control and selection registers. -/
def engineWrite (a : Nat) (w : Word) (s : State) : State :=
  let se := fun (base : Nat) => arrIx a base 0x10000 4
  let eng := fun (base : Nat) => arrIx a base 0x1000 4
  match se (Reg.SE_REFAC_CTRL 0), se (Reg.SE_BUS_SEL 0), se (Reg.SE_CHAN_SEL 0), eng (Reg.THR_MON_SEL 0), eng (Reg.OSC_PAIR_SEL 0) with
  | some e, _, _, _, _ => refacGo e w s
  | none, some e, _, _, _ => seBusSel e w s
  | none, none, some e, _, _ => seChanSel e w s
  | none, none, none, some e, _ => thrMonSel e w s
  | none, none, none, none, some e => oscPairSel e w s
  | none, none, none, none, none => s

/-- A write within the STN and AUX ranges. -/
def stationWrite (who : Party) (a : Nat) (w : Word) (s : State) : State :=
  if a = Reg.STN_BANK_SWAP then stnBankSwap w s
  else if a = Reg.STN_ECLR then stnEclr w s
  else if a = Reg.AUX_CTRL then auxCtrlStart w s
  else if a = Reg.AUX_URGENT then auxUrgent w s
  else regStore who a w s

/-- A write within the CAP and FIRN ranges. -/
def captureWrite (who : Party) (a : Nat) (w : Word) (s : State) : State :=
  if a = Reg.CAP_PLAN_CTRL then capRearm w (capStop w s)
  else if a = Reg.CAP_TRIG_ARM then capTrigArm w s
  else if a = Reg.CAP_TRIG_FIRE then capTrigFire w s
  else if a = Reg.CAP_SPILL_RPTR_LO then s.setLoHeld who a (some w.toNat)
  else if a = Reg.CAP_SPILL_RPTR_HI then capSpillRptrWrite who w s
  else if a = Reg.FIRN_CLR then firnClr w s
  else regStore who a w s

/-- A write within the DISP range. -/
def dispWrite (who : Party) (a : Nat) (w : Word) (s : State) : State :=
  if a = Reg.DISP_CORE_RUN then coreRelease w s
  else if a = Reg.DISP_POST then dispPost w s
  else if a = Reg.DISP_CANCEL then s.cancel (w.toNat % 1024)
  else if a = Reg.DISP_JOB_DEC then s.jobDec (w.toNat % 256)
  else regStore who a w s

/-- A write within the NDK and RADIO ranges. -/
def linkWrite (who : Party) (a : Nat) (w : Word) (s : State) : State :=
  if a = Reg.NDK_MIRROR_CTRL then ndkMirrorTake w s
  else if a = Reg.RADIO_TXQ_CTRL then radioTxqCtrl w s
  else if a = Reg.RADIO_RXQ_POP then radioRxqPop w s
  else regStore who a w s

/-- A write of FLDL_DOORBELL with GO: the command in the request buffer (R461, R462). -/
def doorbell (who : Party) (w : Word) (s : State) : State :=
  if !w.getLsbD 31 then s
  else
    let w0 := s.rn (Reg.FLDL_REQ 0)
    let len := s.rn (Reg.FLDL_REQ 1) % 2 ^ 17
    let tag := w0 / 2 ^ 16
    let t := BitVec.ofNat 16 tag
    let p := padTo len (((s.words (Reg.FLDL_REQ 2) 16382).flatMap (leBytes 4)).take len)
    let i : Instr := match w0 % 256 with
      | 0x01 => .hello t p
      | 0x02 => .features t p
      | 0x03 => .negotiate t p
      | 0x04 => .imageStage t p
      | 0x05 => .imageCommit t p
      | 0x06 => .imageStatus t p
      | 0x07 => .bye t p
      | 0x08 => .timeOfDay t p
      | 0x10 => .fwStage t p
      | 0x11 => .fwBoot t p
      | _ => .registerWrite who (BitVec.ofNat 26 Reg.FLDL_DOORBELL) .b4 (w.zeroExtend 64)
    fldlRing (w0 % 256) i tag s

/-- A write of KEY_MBX_CTRL[m] with GO (R424, R425); which engines have an operation in hand is open. -/
def mailboxGo (who : Party) (m : Nat) (w : Word) (s : State) : State :=
  if !w.getLsbD 31 then s
  else
    let hand := (s.draw 7).toNat
    let s := s.drawn
    match w.toNat % 256 with
    | 0x01 => keyStatus m who s
    | 0x02 => keyGenerate m who hand s
    | 0x03 => keyImportPlain m who hand s
    | 0x04 => keyImportWrapped m who hand s
    | 0x05 => keyDerive m who hand s
    | 0x06 => keyRevoke m who hand s
    | 0x07 => keyBindSet m who s
    | 0x08 => keyBindRoll m who s
    | 0x09 => keyVerify m who s
    | 0x0A => keyAttest m who s
    | 0x0B => keyPrivNonce m who s
    | 0x0C =>
      (match fld (s.mbx m 0) 0 8 with
      | 1 => privTimeRearm m who s
      | 2 => privClearStats m who s
      | 3 => privLifecycle m who s
      | 4 => privUnload m who s
      | 5 => privInstallPk m who hand s
      | c => s.privGo c m who true hand fun s => (some krParam, s))
    | _ => s

/-- A write within the FLDL, KEY, FLT and HQ ranges. -/
def serviceWrite (who : Party) (a : Nat) (w : Word) (s : State) : State :=
  let hq := fun (base : Nat) => arrIx a base 0x40 2
  if a = Reg.FLDL_DOORBELL then doorbell who w s
  else if a = Reg.FLDL_RESP then fldlResp w s
  else if a = Reg.KEY_MBX_CTRL 0 then mailboxGo who 0 w s
  else if a = Reg.KEY_MBX_CTRL 1 then mailboxGo who 1 w s
  else if a = Reg.FLT_STICKY 0 then faultClear 0 w s
  else if a = Reg.FLT_STICKY 1 then faultClear 1 w s
  else if a = Reg.FLT_STICKY 2 then faultClear 2 w s
  else if a = Reg.FLT_INJ then faultInject w s
  else if a = Reg.FLT_EVT_PEND 0 then eventClear 0 w s
  else if a = Reg.FLT_EVT_PEND 1 then eventClear 1 w s
  else if a = Reg.FLT_EVT_PEND 2 then eventClear 2 w s
  else if a = Reg.FLT_EVT_PEND 3 then eventClear 3 w s
  else if a = Reg.HQ_RING_PEND then ringPendClear w s
  else if a = Reg.HQ_UART_DATA then uartDataWrite w s
  else if a = Reg.HQ_QSPI_CTRL then qspiCommand who w s
  else
    match hq (Reg.HQ_RING_CFG 0) with
    | some q => hringCfg q w s
    | none => regStore who a w s

/-- The effect of a 32-bit write at `a`, outside the PWR range. -/
def regWriteAt (who : Party) (a : Nat) (w : Word) (s : State) : State :=
  if a < 0x100000 then serviceWrite who a w s
  else if a < 0x200000 then timeWrite who a w s
  else if a < 0x300000 then ethWrite who a w s
  else if a < 0x400000 then decWrite who a w s
  else if a < 0x800000 then seamWrite who a w s
  else if a < 0x900000 then (if a = Reg.FAB_TWIN_SEL then fabTwinSel w s else regStore who a w s)
  else if a < 0xC00000 then windowWrite who a w s
  else if a < 0xE00000 then engineWrite a w s
  else if a < 0x1000000 then (if a = Reg.ALM_ACK then almAck w s else if a = Reg.ALM_PIN_FORCE then almPinForce w s else regStore who a w s)
  else if a < 0x1200000 then stationWrite who a w s
  else if a < 0x1400000 then captureWrite who a w s
  else if a < 0x1500000 then dispWrite who a w s
  else if a < 0x1700000 then linkWrite who a w s
  else serviceWrite who a w s

/-- Writes held while PARK gated their blocks take effect at the return to RUN (R453). -/
def State.unpark (s : State) : State :=
  ({ s with hq := { s.hq with parked := [] } }).forEach (fun (x : ParkedWrite) s => regWriteAt x.who x.addr x.value s) s.hq.parked

/-! ## Reads (R6, R7) -/

/-- The value at `a` of the record shown in FIRN_REC[r] for the quantity of FIRN_QSEL (R341), of as many words as its field has (R337). -/
def State.firnValue (s : State) (a : Nat) : Nat :=
  let d := a - Reg.FIRN_REC 0 0
  let ws := (Tbl.get s.firn.recs (s.rn Reg.FIRN_QSEL * 6 + d / 0x200) {}).words.drop (d % 0x200 / 4)
  leNat ((ws.take (match rowOf a with
    | some (r, _) => r.words
    | none => 1)).flatMap (leBytes 4))

/-- Bits of an entry of the transmit timestamp FIFO latched by `who`, from bit `lo` of its T80 value (R83). -/
def State.txtsBits (s : State) (who : Party) (lo w : Nat) : Nat :=
  match Tbl.get s.time.txtsLatch who.num none with
  | some e => e.time / 2 ^ lo % 2 ^ w
  | none => 0

/-- The value of the register whose first word lies at `off`, as a read by `who` finds it (R83, R340, R341, R471). -/
def State.readValue (s : State) (who : Party) (off : Nat) : Nat :=
  let l := Tbl.get s.time.now who.num {}
  if off = Reg.TIME_NOW_NS then s.time.ns.toNat
  else if off = Reg.TIME_NOW_SEC_LO then l.sec.toNat % 2 ^ 32
  else if off = Reg.TIME_NOW_SEC_HI then l.sec.toNat / 2 ^ 32 % 2 ^ 16
  else if off = Reg.TIME_NOW_FRAC then l.frac.toNat
  else if off = Reg.TIME_NOW_MANG then l.mang.toNat
  else if off = Reg.TIME_TXTS_INFO then txtsInfo s.time.txts.head?
  else if off = Reg.TIME_TXTS_NS then s.txtsBits who 0 32
  else if off = Reg.TIME_TXTS_SEC_LO then s.txtsBits who 32 32
  else if off = Reg.TIME_TXTS_SEC_HI then s.txtsBits who 64 16
  else if off = Reg.HQ_UART_DATA then (s.hq.uartRx.head?.getD 0).toNat
  else if off = Reg.HQ_MSIX_PBA then s.hq.pba.toNat
  else if Reg.FIRN_REC 0 0 ≤ off && off < Reg.FIRN_REC 6 0 then s.firnValue off
  else if Reg.CAP_WIN 0 ≤ off && off < Reg.CAP_WIN 131072 then
    leNat (Memory.read s.cap.mem ((s.rn Reg.CAP_WIN_BASE * 2048 + (off - Reg.CAP_WIN 0)) % 2 ^ 23) 4)
  else s.rn off

/-- What reading the word at `w` does beside returning it, where a register has such an effect (R69, R83, R199, R320, R471). -/
def State.readEffect (s : State) (who : Party) (w : Nat) : State :=
  let t :=
    if w = Reg.TIME_NOW_NS then timeNowRead who s
    else if w = Reg.TIME_TXTS_INFO then txtsInfoRead who s
    else if w = Reg.TIME_TXTS_SEC_HI then txtsPop who s
    else if w = Reg.AUX_URG_RESULT then auxUrgRead s
    else if w = Reg.FAB_UE_ADDR then fabUeAddrRead s
    else if w = Reg.HQ_UART_DATA then uartDataRead s
    else s
  { t with out := s.out }

/-- The 32-bit word at `a` as `who` reads it: of a pair or a longer value, words above the first come from the holding register. -/
def State.readWord (s : State) (who : Party) (a : Nat) : Nat :=
  match rowOf (a / 4 * 4) with
  | none => 0
  | some (r, i) =>
    let off := a / 4 * 4 - 4 * i
    if r.pair && decide (i ≠ 0) then Tbl.get s.hold (off * 16 + who.num) 0 / 2 ^ (32 * (i - 1)) % 2 ^ 32
    else s.readValue who off / 2 ^ (32 * i) % 2 ^ 32

/-- A read of the 32-bit word at `a`: the first word of a pair or longer value latches the rest (R7). -/
def State.latch (s : State) (who : Party) (a : Nat) : State :=
  match rowOf (a / 4 * 4) with
  | some (r, 0) =>
    if r.pair then { s with hold := Tbl.set s.hold (a / 4 * 4 * 16 + who.num) (s.readValue who (a / 4 * 4) / 2 ^ 32) 0 }
    else s.readEffect who (a / 4 * 4)
  | _ => s

/-- Bytes of an access. -/
def AccessSize.bytes : AccessSize → Nat
  | .b1 => 1
  | .b2 => 2
  | .b4 => 4
  | .b8 => 8

/-- An access that R6 serves: aligned to 4 bytes, or narrower and within one word. -/
def served (a : Nat) (size : AccessSize) : Bool :=
  match size with
  | .b4 | .b8 => a % 4 = 0
  | .b1 => true
  | .b2 => decide (a % 4 ≤ 2)

/-- A 32-bit read of the word at `a`, a multiple of 4: what it returns, zero under the silent rule, and its effects. -/
def State.read32 (s : State) (who : Party) (a : Nat) : Nat × State :=
  if !s.regOpen who a then (0, s)
  else
    let s := s.accessCrossing a
    let s := if a = Reg.KEY_BAT_TICKS then s.batTicks else s
    (s.readWord who a, s.latch who a)

/-- A read of `size` at `a` (R6, R7): the bytes addressed, or zero under the silent rule. A 64-bit read is two, the lower address first. -/
def pairLoRead (who : Party) (a : Nat) (size : AccessSize) (s : State) : State :=
  if !served a size then s.emit (.read 0)
  else
    let lo := s.read32 who (a / 4 * 4)
    match size with
    | .b8 =>
      let hi := lo.2.read32 who (a + 4)
      hi.2.emit (.read (BitVec.ofNat 64 (lo.1 + 2 ^ 32 * hi.1)))
    | .b4 => lo.2.emit (.read (BitVec.ofNat 64 lo.1))
    | .b2 => lo.2.emit (.read (BitVec.ofNat 64 (lo.1 / 2 ^ (8 * (a % 4)) % 2 ^ 16)))
    | .b1 => lo.2.emit (.read (BitVec.ofNat 64 (lo.1 / 2 ^ (8 * (a % 4)) % 2 ^ 8)))

end Sys2Proof.Machine
end

