-- ==== Sys2Proof/Machine/Power.lean ====
section
/-! DEFINITION. Resets, operating states, the watchdog, the supply monitor and the end of a life-cycle migration (R413, R438 to R450). -/
namespace Sys2Proof.Machine
open Sys2Proof

/-! ## What survives (R10, R441) -/

/-- The number of a reset kind, which is its rank (R438). -/
def resetRank : ResetKind → Nat
  | .por => 0
  | .pin => 1
  | .wdt => 2
  | .soft => 3
  | .link => 4

/-- Everything outside the battery domain lost (R441, R448). -/
def State.powerDown (s : State) : State :=
  let t := s.resetRegs fun v => v ≠ .b
  { regs := t.regs
    key := { slots := s.key.slots, roots := s.key.roots, migr := s.key.migr, tamperDue := s.key.tamperDue }
    stn := { slot0 := s.stn.slot0, slot1 := s.stn.slot1, save := s.stn.save }
    firn := { clrSeq := s.firn.clrSeq }
    pwr := { state := .hold }
    out := s.out, draws := s.draws, pending := s.pending }

/-- A migration met at POR (R413): it resumes where the new state's fuse pair is blown, and is undone otherwise. The pair is blown within
1 ms of the start; before that the spec leaves it open. -/
def State.migrationAtPor (s : State) : State :=
  match s.key.migr with
  | none => s
  | some g =>
    if 250000 + g.since ≤ s.time.ticks then s
    else
      let blown := (s.draw 1).toNat = 1
      let s := s.drawn
      if blown then s
      else
        let s := if g.target < 4 then s.setRoot g.target 0 else s
        ({ s with key := { s.key with migr := none } }).setF Reg.KEY_STATUS 3 1 0

/-- The battery domain has lost its supply: its content is gone, and BATLOSS records it (R415). -/
def State.batteryLost (s : State) : State :=
  let t := s.clearBattery
  ({ t with key := { t.key with migr := none, tamperDue := false, batDue := true } }).setF Reg.KEY_STATUS 4 1 1

/-- The device as a POR finds it: memories zeroed, energy restored from the valid save (R313, R441). -/
def State.coldStart (s : State) (batLost : Bool) : State :=
  let s := s.migrationAtPor.powerDown
  let s := if batLost then s.batteryLost else s
  let s := s.restoreEnergy.wipeFirn
  { s with pwr := { s.pwr with state := .run } }

/-- What a PIN reset keeps beside the registers of Survives B and P (R441). -/
def State.pinStart (s : State) : State :=
  let c := (s.clearFabric false).resetSe.resetFloe
  let t := s.resetRegs fun v => v = .w || v = .n
  {
    regs := t.regs
    key := { slots := s.key.slots, roots := s.key.roots, migr := s.key.migr, tamperDue := s.key.tamperDue, sweptAt := s.key.sweptAt }
    stn := {
      acc := s.stn.acc, slot0 := s.stn.slot0, slot1 := s.stn.slot1, save := s.stn.save
      epo := s.stn.epo.map fun (e : Nat × Epo) => (e.1, { residue := e.2.residue }) }
    firn := { recs := s.firn.recs, vol := s.firn.vol, clrSeq := s.firn.clrSeq }
    cap := { mem := s.cap.mem }
    seam := { store := s.seam.store }
    fab := c.fab, se := c.se, floe := c.floe, thr := s.thr, osc := s.osc
    ddr := s.ddr
    time := { ticks := s.time.ticks }
    pwr := { supLow := s.pwr.supLow }
    out := s.out, draws := s.draws, pending := s.pending }

/-- The parts that ran through a reset show their state again, once its sequence has ended: links, mains angle, modulators and energy (R441),
the supply monitor, the panels' roles, and the streams' SILENT bits. Their registers survive no reset (R10). -/
def State.showRunning (s : State) : State :=
  let s := s.forEach (fun e s => s.setReg e.1 e.2) s.pwr.thru
  let s := s.setF Reg.PWR_STATE 2 1 (bitAt s.pwr.supLow 0)
  let s := s.forRange (fun p s => (s.setF Reg.FAB_PANEL_STATUS (16 + p) 1 (bitAt (s.role p ≠ 0) 0)).showPanel p) 0 16
  s.forRange (fun n s => if s.bit (Reg.DEC_STREAM_FLAGS n) 0 then s.setF (Reg.DEC_SILENT_MAP (n / 32)) (n % 32) 1 1 else s) 0
    (wf (s.pat 4) 0 0 15)

/-- The state a load abandoned by a reset goes back to (R35). -/
def State.abandonLoad (s : State) : State :=
  match s.img.load with
  | none => s
  | some l =>
    ({ s with img := { s.img with load := none } }).setF Reg.FEAT_IMG_STATE 0 3
      (match l.before with
        | .none => 0
        | .loaded => 2
        | .failed => 3)

/-- Queues and state outside the kept blocks as a WDT, SOFT or LINK reset leaves them (R441). -/
def State.loseQueues (s : State) : State :=
  { s with
    hold := [], heldLo := [], fldl := {}
    img := { s.img with hello := false, heldCmd := none, held := none, grace := none }
    time := { s.time with txts := [], txtsWatch := {}, txtsLatch := [], now := [] }
    flt := { s.flt with inject := none }
    pwr := { s.pwr with state := .run, moving := none, held := none, wdtTicks := 0 }
    eth := { nodes := s.eth.nodes, prpSeq := s.eth.prpSeq, supSeq := s.eth.supSeq, supAt := s.eth.supAt, lastRct := s.eth.lastRct
             idleSince := s.eth.idleSince }
    dec := { s.dec with cmds := [], cmdAt := none, reinj := none, heldGo := none }
    seam := { s.seam with ingress := [], bridge := [], tokens := [], alarms := [], notes := [], watch := [], mendHead := 0, mendCount := 0
                          hist := [], slotSel := none }
    firn := { s.firn with queue := [], watch := {} }
    hq := { jtagIr := s.hq.jtagIr, boundary := s.hq.boundary }
    key := { s.key with nonces := [], fwDigest := [], late := [], rearmAt := none, statsAt := none }
    disp := { ilm := s.disp.ilm, dlm := s.disp.dlm } }

/-- A WDT, SOFT or LINK reset (R441): the image, its state and the time domain stay; queues, matching stores, threads and cores do not. -/
def State.warmStart (s : State) : State :=
  let s := s.abandonLoad.countBy Reg.SEAM_RESET_DISC_CNT s.allOpen
  let s := s.blankMend s.seam.mendHead s.seam.mendCount
  let s := (s.resetRegs fun v => v = .n).loseQueues.levelEnd 28
  let s := (s.clearFabric false).resetSe.resetFloe
  let s := s.resetAlarms.resetDisp.restartCap.resetAux.resetNdk.resetRadio
  let s := s.beginAll.showSlots.showBins
  s.tryUnload

/-! ## Resets (R438, R439) -/

/-- A reset of kind `k` enters PWR_RESET_CAUSE, with `more` further bits. -/
def State.causeOf (s : State) (k : ResetKind) (more : Nat) (fresh : Bool) : State :=
  let old := if fresh then 0 else s.rn Reg.PWR_RESET_CAUSE
  (s.setReg Reg.PWR_RESET_CAUSE (old ||| more)).setF Reg.PWR_RESET_CAUSE (resetRank k) 1 1

/-- The effect of a reset of kind `k`. -/
def State.resetAs (s : State) (k : ResetKind) (batLost : Bool) : State :=
  let t := match k with
    | .por => s.coldStart batLost
    | .pin => s.pinStart
    | _ => s.warmStart
  { t with pwr := { t.pwr with seq := some k } }

/-- A reset of kind `k` (R438): it starts its sequence, restarts a sequence of lower rank, or is only recorded in one of its rank or
higher. -/
def State.startReset (s : State) (k : ResetKind) (more : Nat) (batLost : Bool) : State :=
  match s.pwr.seq with
  | none => (s.resetAs k batLost).causeOf k more true
  | some j =>
    if resetRank k < resetRank j then
      let cause := s.rn Reg.PWR_RESET_CAUSE
      ((s.resetAs k batLost).setReg Reg.PWR_RESET_CAUSE cause).causeOf k more false
    else s.causeOf k more false

/-- A POR: `supply` where SUPMON fell below its reset level, whose running save the battery domain completes (R447); from HOLD it is
recorded as such (R445). -/
def por (supply batLost : Bool) (s : State) : State :=
  let held := s.pwr.state = .hold
  let s := if supply then saveComplete s else s
  let more := bitAt supply 5 + bitAt held 6
  if held then (s.resetAs .por batLost).causeOf .por more true else s.startReset .por more batLost

/-- POR. -/
def execPor (supply batLost : Bool) (s : State) : Host.Outcome State Fault Refusal := done (por supply batLost) s

/-- RESET_N low for 1 µs: in HOLD, a POR (R445). -/
def pinReset (s : State) : State := if s.pwr.state = .hold then por false false s else s.startReset .pin 0 false

/-- PIN_RESET. -/
def execPinReset (s : State) : Host.Outcome State Fault Refusal := done pinReset s

/-- A write of PWR_RESET with its key. -/
def softReset (w : Word) (s : State) : State := if w.extractLsb' 16 16 = 0xA5C3 then s.startReset .soft 0 false else s

/-- SOFT_RESET. -/
def execSoftReset (_who : Party) (w : Word) (s : State) : Host.Outcome State Fault Refusal := live (softReset w) s

/-- The PCIe core and the host queues reset (R438). -/
def State.resetPcie (s : State) : State :=
  let s := { s with
    hq := { s.hq with linkUp := false, bme := false, d3hot := false, msixEn := false, pba := 0, ring0 := {}, ring1 := {}, seamQ := []
                      seamWatch := {}, almWatch := {} }
    alm := { s.alm with queue := [] } }
  let s := s.forEach (fun a s => s.clearRegs a (a + 4))
    ([Reg.HQ_PCIE_STATUS, Reg.HQ_IRQ_EN, Reg.HQ_ATTN, Reg.HQ_RING_PEND] ++ (List.range 8).map Reg.HQ_SEAM_MASK)
  let s := s.forRange (fun q s => s.clearRegs (Reg.HQ_RING_BASE_LO q) (Reg.HQ_DMA_CNT q)) 0 2
  s.clearRegs (Reg.HQ_MSIX_TABLE 0) (Reg.HQ_MSIX_TABLE 272)

/-- A hot reset: a LINK reset, or with LINK_MODE one of the PCIe core and the host queues alone. -/
def linkReset (s : State) : State :=
  if s.pwr.state = .hold then s
  else if s.bit Reg.PWR_CFG 0 && s.pwr.seq = none then s.resetPcie
  else s.startReset .link 0 false

/-- LINK_RESET. -/
def execLinkReset (s : State) : Host.Outcome State Fault Refusal := done linkReset s

/-- HQ_DDR_SIZE shows the channels in service (R472). -/
def State.showDdr (s : State) : State :=
  s.setReg Reg.HQ_DDR_SIZE ((if s.pwr.ddr0 then s.pwr.size0 else 0) + 2 ^ 16 * (if s.pwr.ddr1 then s.pwr.size1 else 0))

/-- The reset sequence ends (R439): event RESET, and the reset performed counts (R438); after a POR the tags have been verified and the
battery domain's records are raised. -/
def resetSequenceEnd (s : State) : State :=
  match s.pwr.seq with
  | none => s
  | some k =>
    let s := (({ s with pwr := { s.pwr with seq := none } }).count (Reg.PWR_RST_CNT (resetRank k))).raise 126
    let s := s.showDdr.showSlots.showRunning
    let s := if k = .por || k = .pin then { s with img := { s.img with grace := some s.time.ticks } } else s
    if k = .por then
      let s := s.verifyTags.setF Reg.SEAM_STORE_STATE 0 1 1
      let s := if s.key.tamperDue then ({ s with key := { s.key with tamperDue := false } }).raise 117 else s
      if s.key.batDue then ({ s with key := { s.key with batDue := false } }).raise 118 else s
    else s.releaseCheck

/-- RESET_SEQUENCE_END. -/
def execResetSequenceEnd (s : State) : Host.Outcome State Fault Refusal := done resetSequenceEnd s

/-- DDR5 training of a channel ends (R439): installed size in units of 256 MiB. -/
def ddrTrained (ch : Nat) (ok : Bool) (size : Nat) (s : State) : State :=
  if ch = 0 then
    if s.pwr.ddr0 then s
    else
      let s := ({ s with pwr := { s.pwr with ddr0 := ok, size0 := size } }).showDdr
      if ok then s else s.levelOnset 34 0 false
  else if s.pwr.ddr1 then s
  else
    let s := ({ s with pwr := { s.pwr with ddr1 := ok, size1 := size } }).showDdr
    if ok then s else s.levelOnset 34 1 false

/-- DDR_TRAINED. -/
def execDdrTrained (ch : Fin 2) (ok : Bool) (size : BitVec 8) (s : State) : Host.Outcome State Fault Refusal :=
  live (ddrTrained ch.val ok size.toNat) s

/-! ## The watchdog (R440) -/

/-- A write of PWR_WDT_CFG: ignored once started; a start needs a period. -/
def wdtStart (w : Word) (s : State) : State :=
  let v := w.toNat &&& 0x8000FFFF
  if s.bit Reg.PWR_WDT_CFG 31 || v = 0x80000000 then s
  else
    let s := s.setReg Reg.PWR_WDT_CFG v
    if w.getLsbD 31 then
      (({ s with pwr := { s.pwr with wdtTicks := 0 } }).setReg Reg.PWR_WDT_STATE 1).showWdt
    else s

/-- WDT_START. -/
def execWdtStart (_who : Party) (w : Word) (s : State) : Host.Outcome State Fault Refusal := live (wdtStart w) s

/-- A write of PWR_WDT_KICK. -/
def wdtKick (w : Word) (s : State) : State :=
  if w.extractLsb' 0 16 = 0x4B1D && s.bit Reg.PWR_WDT_CFG 31 then
    ((({ s with pwr := { s.pwr with wdtTicks := 0 } }).setF Reg.PWR_WDT_STATE 1 1 0).showWdt).levelEnd 28
  else s

/-- WDT_KICK. -/
def execWdtKick (_who : Party) (w : Word) (s : State) : Host.Outcome State Fault Refusal := live (wdtKick w) s

/-- The watchdog's period in ticks. -/
def State.wdtPeriod (s : State) : Nat := 250000 * s.rf Reg.PWR_WDT_CFG 0 16

/-- The watchdog's period has run out, in a tick that has passed without a kick: one in the same tick still counts. -/
def State.wdtExpired (s : State) : Bool := s.bit Reg.PWR_WDT_CFG 31 && s.wdtPeriod < s.pwr.wdtTicks

/-- The first expiry: the period restarts where it ran out. -/
def wdtWarn (s : State) : State :=
  if s.wdtExpired && !s.bit Reg.PWR_WDT_STATE 1 then
    let s := (({ s with pwr := { s.pwr with wdtTicks := s.pwr.wdtTicks - s.wdtPeriod } }).setF Reg.PWR_WDT_STATE 1 1 1).showWdt
    ((s.count Reg.PWR_WDT_WARN_CNT).levelOnset 28 0 false).raise 124
  else s

/-- WDT_WARN. -/
def execWdtWarn (s : State) : Host.Outcome State Fault Refusal := live wdtWarn s

/-- The second expiry. -/
def wdtReset (s : State) : State := if s.wdtExpired && s.bit Reg.PWR_WDT_STATE 1 then s.startReset .wdt 0 false else s

/-- WDT_RESET. -/
def execWdtReset (s : State) : Host.Outcome State Fault Refusal := live wdtReset s

/-! ## Operating states (R442 to R445) -/

/-- A write of PWR_STATE_CTRL names target `t` with its key. -/
def powerKey (w : Word) (t : Nat) : Bool := w.extractLsb' 16 16 = 0x9A7E && fld w.toNat 0 2 = t

/-- Measurement stops before PARK or HOLD (R444 steps 1 to 3). -/
def State.stopMeasuring (s : State) : State := s.drain.discardSeams Reg.PWR_PARK_DISC_CNT

/-- HOLD entered (R445): the energy save completes, then every domain but the battery domain loses its power. -/
def State.enterHold (s : State) : State :=
  let s := if s.pwr.state = .run then s.stopMeasuring else s
  (saveComplete (s.closeCycles.trigSave saveHold)).powerDown

/-- The move in progress made, once the engines hold no instant (R444, R445). -/
def pwrState (s : State) : State :=
  match s.pwr.moving with
  | none => s
  | some .park =>
    if s.enginesIdle then
      let s := s.stopMeasuring
      ((({ s with pwr := { s.pwr with state := .park, moving := none } }).showPower).raise 125).releaseCheck
    else s
  | some .run =>
    let s := (({ s with pwr := { s.pwr with state := .run, moving := none } }).showPower).raise 125
    s.beginAll.unpark.answerHeld
  | some .hold => if s.enginesIdle then s.enterHold else s

/-- PWR_STATE. -/
def execPwrState (s : State) : Host.Outcome State Fault Refusal := live pwrState s

/-- PARK_REQUEST. -/
def execParkRequest (_who : Party) (w : Word) (s : State) : Host.Outcome State Fault Refusal :=
  live (fun s => if powerKey w 1 then s.requestPower .park else s) s

/-- RUN_REQUEST. -/
def execRunRequest (_who : Party) (w : Word) (s : State) : Host.Outcome State Fault Refusal :=
  live (fun s => if powerKey w 0 then s.requestPower .run else s) s

/-- A request for HOLD, entered at once where the engines hold no instant. -/
def holdRequest (w : Word) (s : State) : State :=
  if powerKey w 2 then
    let s := s.requestPower .hold
    if s.pwr.moving = some .hold then pwrState s else s
  else s

/-- HOLD_REQUEST. -/
def execHoldRequest (_who : Party) (w : Word) (s : State) : Host.Outcome State Fault Refusal := live (holdRequest w) s

/-- MIGRATION_COMPLETE: a held request for another operating state is then made. The battery domain works on its own supply. -/
def execMigrationComplete (inHand : BitVec 7) (s : State) : Host.Outcome State Fault Refusal :=
  done (fun s => (migrationComplete inHand.toNat s).releasePower) s

/-! ## The supply monitor and the temperature (R446, R447) -/

/-- SUPWARN set to `x`, and shown in PWR_STATE. -/
def State.setSupLow (s : State) (x : Bool) : State :=
  ({ s with pwr := { s.pwr with supLow := x } }).setF Reg.PWR_STATE 2 1 (bitAt x 0)

/-- SUPMON stands at `mv` millivolts, below the warning level. -/
def supplyWarn (mv : Nat) (s : State) : State :=
  if mv < s.rf Reg.PWR_SUPMON_CFG 0 10 && !s.pwr.supLow && s.pwr.state ≠ .hold && s.pwr.seq ≠ some .por then
    let s := ((s.setSupLow true).count Reg.PWR_SUPPLY_WARN_CNT).raise 121
    s.closeCycles.trigSave saveWarning
  else s

/-- SUPPLY_WARN. -/
def execSupplyWarn (mv : BitVec 12) (s : State) : Host.Outcome State Fault Refusal := done (supplyWarn mv.toNat) s

/-- SUPMON has risen above the warning level and its hysteresis. -/
def supplyDip (mv : Nat) (s : State) : State :=
  if s.rf Reg.PWR_SUPMON_CFG 0 10 + 20 < mv && s.pwr.supLow && s.pwr.state ≠ .hold && s.pwr.seq ≠ some .por then
    ((s.setSupLow false).count Reg.PWR_SUPPLY_DIP_CNT).raise 122
  else s

/-- SUPPLY_DIP. -/
def execSupplyDip (mv : BitVec 12) (s : State) : Host.Outcome State Fault Refusal := done (supplyDip mv.toNat) s

/-- The junction temperature measured, in units of 0.25 °C. -/
def thermal (temp : BitVec 12) (s : State) : State :=
  let hot := decide (sInt 12 (s.rn Reg.PWR_TEMP_WARN) < temp.toInt)
  let crit := decide (sInt 12 (s.rn Reg.PWR_TEMP_CRIT) < temp.toInt)
  let t := s.setReg Reg.PWR_TEMP temp.toNat
  let t := if hot && !s.pwr.hot then (t.raise 123).count Reg.PWR_THERM_CNT else t
  let t := { t with pwr := { t.pwr with hot := hot } }
  if crit then t.levelOnset 42 temp.toNat false else t.levelEnd 42

/-- THERMAL. -/
def execThermal (temp : BitVec 12) (s : State) : Host.Outcome State Fault Refusal := running (thermal temp) s

end Sys2Proof.Machine
end

