-- ==== Sys2Proof/Machine/RegCmd.lean ====
section
/-! DEFINITION. The register commands (R6 to R9, R41): a write of any register, and the reads and writes of pairs. -/
namespace Sys2Proof.Machine
open Sys2Proof

/-- A write of PWR_STATE_CTRL (R442). -/
def stateCtrl (w : Word) (s : State) : State :=
  if powerKey w 2 then holdRequest w s
  else if powerKey w 1 then s.requestPower .park
  else if powerKey w 0 then s.requestPower .run
  else s

/-- A 32-bit write of any register, past the silent rule and the gating of PARK. -/
def regWrite (who : Party) (a : Nat) (w : Word) (s : State) : State :=
  written who a w (fun s =>
    if a = Reg.PWR_STATE_CTRL then stateCtrl w s
    else if a = Reg.PWR_RESET then softReset w s
    else if a = Reg.PWR_WDT_CFG then wdtStart w s
    else if a = Reg.PWR_WDT_KICK then wdtKick w s
    else regWriteAt who a w s) s

/-- The word of a pair or longer value that address `a` names: 0 for LO. -/
def pairWord (a : Nat) : Option Nat :=
  if a = Reg.CAP_SPILL_RPTR_LO then some 0
  else if a = Reg.CAP_SPILL_RPTR_HI then some 1
  else
    match rowOf a with
    | some (r, i) => if r.pair then some i else none
    | none => none

/-- A write of `size` at `a` (R6): narrower writes and misaligned ones are ignored; a 64-bit write is two, lower address first. -/
def registerWrite (who : Party) (a : Nat) (size : AccessSize) (v : BitVec 64) (s : State) : State :=
  if a % 4 ≠ 0 then s
  else
    match size with
    | .b1 => s
    | .b2 => s
    | .b4 => regWrite who a (v.extractLsb' 0 32) s
    | .b8 => regWrite who (a + 4) (v.extractLsb' 32 32) (regWrite who a (v.extractLsb' 0 32) s)

/-- REGISTER_WRITE. -/
def execRegisterWrite (who : Party) (addr : BitVec 26) (size : AccessSize) (v : BitVec 64) (s : State) :
    Host.Outcome State Fault Refusal := live (registerWrite who addr.toNat size v) s

/-- PAIR_LO_READ. -/
def execPairLoRead (who : Party) (addr : BitVec 26) (size : AccessSize) (s : State) : Host.Outcome State Fault Refusal :=
  live (pairLoRead who addr.toNat size) s

/-- PAIR_LO_WRITE: of an address that names the LO word of a pair. -/
def execPairLoWrite (who : Party) (addr : BitVec 26) (w : Word) (s : State) : Host.Outcome State Fault Refusal :=
  live (fun s => if pairWord addr.toNat = some 0 then regWrite who addr.toNat w s else s) s

/-- PAIR_HI_WRITE: of an address that names the HI word of a pair. -/
def execPairHiWrite (who : Party) (addr : BitVec 26) (w : Word) (s : State) : Host.Outcome State Fault Refusal :=
  live (fun s => if pairWord addr.toNat = some 1 then regWrite who addr.toNat w s else s) s

/-- PWIN_COMMIT. -/
def execPwinCommit (who : Party) (n : Fin 4096) (hi : Word) (s : State) : Host.Outcome State Fault Refusal :=
  live (written who (Reg.FAB_PWIN_VAL n.val + 4) hi (pwinCommit who n.val hi)) s

end Sys2Proof.Machine
end

