-- ==== Sys2Proof/Machine/Tick.lean ====
section
/-! DEFINITION. The tick of the time domain. -/
namespace Sys2Proof.Machine
open Sys2Proof

/-- One tick: the counter advances, where a UTC second of it brings TIME_EST_ERR to the firn recorder; then what waited for the tick is
taken (R56, R58, R65). -/
def tick (s : State) : State :=
  let t := timeTick s
  (if t.time.sec = s.time.sec then t else t.firnSecond).disciplineTick

/-- A tick of the time domain; during a PIN reset only the ticks since POR count on, which `time` returns (R54, R345). -/
def anyTick (s : State) : State :=
  if s.ticking then tick s
  else if s.pwr.state ≠ Power.hold && s.pwr.seq = some .pin then { s with time := { s.time with ticks := s.time.ticks + 1 } }
  else s

/-- TIME_TICK. -/
def execTimeTick (s : State) : Host.Outcome State Fault Refusal := done anyTick s

end Sys2Proof.Machine
end

