-- ==== Sys2Proof/Machine/Dispatch.lean ====
section
/-! DEFINITION. One arm for each command: each calls its meaning, which ends in one of the three outcomes of a step. -/
namespace Sys2Proof.Machine
open Sys2Proof

/-- The effect of a command on everything but the queue. -/
def exec (i : Instr) (s : State) : Host.Outcome State Fault Refusal :=
  match i with
  | .registerWrite who addr size v => Sys2Proof.Machine.execRegisterWrite who addr size v s
  | .pairLoRead who addr size => Sys2Proof.Machine.execPairLoRead who addr size s
  | .pairLoWrite who addr w => Sys2Proof.Machine.execPairLoWrite who addr w s
  | .pairHiWrite who addr w => Sys2Proof.Machine.execPairHiWrite who addr w s
  | .hello tag payload => Sys2Proof.Machine.execHello tag payload s
  | .features tag payload => Sys2Proof.Machine.execFeatures tag payload s
  | .negotiate tag payload => Sys2Proof.Machine.execNegotiate tag payload s
  | .imageStage tag payload => Sys2Proof.Machine.execImageStage tag payload s
  | .imageCommit tag payload => Sys2Proof.Machine.execImageCommit tag payload s
  | .imageStatus tag payload => Sys2Proof.Machine.execImageStatus tag payload s
  | .bye tag payload => Sys2Proof.Machine.execBye tag payload s
  | .timeOfDay tag payload => Sys2Proof.Machine.execTimeOfDay tag payload s
  | .fwStage tag payload => Sys2Proof.Machine.execFwStage tag payload s
  | .fwBoot tag payload => Sys2Proof.Machine.execFwBoot tag payload s
  | .fldlResp who w => Sys2Proof.Machine.execFldlResp who w s
  | .autonomousLoad image => Sys2Proof.Machine.execAutonomousLoad image s
  | .imageVerifyEnd => Sys2Proof.Machine.execImageVerifyEnd s
  | .fullImageApply => Sys2Proof.Machine.execFullImageApply s
  | .activationInstant => Sys2Proof.Machine.execActivationInstant s
  | .pwinCommit who n hi => Sys2Proof.Machine.execPwinCommit who n hi s
  | .servoSamplePost who w => Sys2Proof.Machine.execServoSamplePost who w s
  | .timeIncWrite who hi => Sys2Proof.Machine.execTimeIncWrite who hi s
  | .timeSlewTicksWrite who w => Sys2Proof.Machine.execTimeSlewTicksWrite who w s
  | .slewEnd => Sys2Proof.Machine.execSlewEnd s
  | .timeSrcWrite who w => Sys2Proof.Machine.execTimeSrcWrite who w s
  | .rearm who w => Sys2Proof.Machine.execRearm who w s
  | .holdTimeout => Sys2Proof.Machine.execHoldTimeout s
  | .errLimit => Sys2Proof.Machine.execErrLimit s
  | .utcofsWrite who w => Sys2Proof.Machine.execUtcofsWrite who w s
  | .leapApplied => Sys2Proof.Machine.execLeapApplied s
  | .ppsEdge rising half => Sys2Proof.Machine.execPpsEdge rising half s
  | .ppsMissing => Sys2Proof.Machine.execPpsMissing s
  | .timeNowRead who => Sys2Proof.Machine.execTimeNowRead who s
  | .txtsInfoRead who => Sys2Proof.Machine.execTxtsInfoRead who s
  | .txtsPop who => Sys2Proof.Machine.execTxtsPop who s
  | .mangUpdate inc freq err => Sys2Proof.Machine.execMangUpdate inc freq err s
  | .mangLock => Sys2Proof.Machine.execMangLock s
  | .mangUnlock => Sys2Proof.Machine.execMangUnlock s
  | .mangReacquire => Sys2Proof.Machine.execMangReacquire s
  | .tackCommit who k w => Sys2Proof.Machine.execTackCommit who k w s
  | .tackFire k => Sys2Proof.Machine.execTackFire k s
  | .tpoPulseEnd pin => Sys2Proof.Machine.execTpoPulseEnd pin s
  | .linkUp port => Sys2Proof.Machine.execLinkUp port s
  | .linkDown port => Sys2Proof.Machine.execLinkDown port s
  | .frameReceive port rx errs => Sys2Proof.Machine.execFrameReceive port rx errs s
  | .tcpAckTimer conn => Sys2Proof.Machine.execTcpAckTimer conn s
  | .hostRingWrite ring bufs => Sys2Proof.Machine.execHostRingWrite ring bufs s
  | .hrxRingEnable who ring w => Sys2Proof.Machine.execHrxRingEnable who ring w s
  | .hrxTailWrite who ring w => Sys2Proof.Machine.execHrxTailWrite who ring w s
  | .hrxIrqTimer ring => Sys2Proof.Machine.execHrxIrqTimer ring s
  | .tqPop who w => Sys2Proof.Machine.execTqPop who w s
  | .prpLanFail port => Sys2Proof.Machine.execPrpLanFail port s
  | .prpSupervision pair => Sys2Proof.Machine.execPrpSupervision pair s
  | .frameTransmit port given => Sys2Proof.Machine.execFrameTransmit port given s
  | .lpiTxEnter port => Sys2Proof.Machine.execLpiTxEnter port s
  | .lpiRx port enter => Sys2Proof.Machine.execLpiRx port enter s
  | .decodeFrame reinj err errs => Sys2Proof.Machine.execDecodeFrame reinj err errs s
  | .streamSilent stream => Sys2Proof.Machine.execStreamSilent stream s
  | .commandResend stream => Sys2Proof.Machine.execCommandResend stream s
  | .decCmd who w => Sys2Proof.Machine.execDecCmd who w s
  | .decCmdSend => Sys2Proof.Machine.execDecCmdSend s
  | .reinjGo who w => Sys2Proof.Machine.execReinjGo who w s
  | .upstreamFrameBuild stream errs => Sys2Proof.Machine.execUpstreamFrameBuild stream errs s
  | .seamItemAdmit errs => Sys2Proof.Machine.execSeamItemAdmit errs s
  | .seamOpenTime group errs => Sys2Proof.Machine.execSeamOpenTime group errs s
  | .seamDeadline group => Sys2Proof.Machine.execSeamDeadline group s
  | .seamClose group errs => Sys2Proof.Machine.execSeamClose group errs s
  | .histRecordWrite errs => Sys2Proof.Machine.execHistRecordWrite errs s
  | .seamLrnReset who w => Sys2Proof.Machine.execSeamLrnReset who w s
  | .seamMendPop who w => Sys2Proof.Machine.execSeamMendPop who w s
  | .seamSlotSel who w => Sys2Proof.Machine.execSeamSlotSel who w s
  | .slotSnapshotReady err => Sys2Proof.Machine.execSlotSnapshotReady err s
  | .fifoStale fifo => Sys2Proof.Machine.execFifoStale fifo s
  | .panelTokenReceive panel => Sys2Proof.Machine.execPanelTokenReceive panel s
  | .operandLoad panel errs => Sys2Proof.Machine.execOperandLoad panel errs s
  | .engineStart panel => Sys2Proof.Machine.execEngineStart panel s
  | .tokenArrive tile err => Sys2Proof.Machine.execTokenArrive tile err s
  | .depCounterFire panel k => Sys2Proof.Machine.execDepCounterFire panel k s
  | .ringBlockWrite panel err => Sys2Proof.Machine.execRingBlockWrite panel err s
  | .engineInstantEnd panel voids => Sys2Proof.Machine.execEngineInstantEnd panel voids s
  | .scrubWord tile err => Sys2Proof.Machine.execScrubWord tile err s
  | .fabTwinSel who w => Sys2Proof.Machine.execFabTwinSel who w s
  | .twinReady err => Sys2Proof.Machine.execTwinReady err s
  | .mul t f => Sys2Proof.Machine.execMul t f s
  | .macc t f => Sys2Proof.Machine.execMacc t f s
  | .msub t f => Sys2Proof.Machine.execMsub t f s
  | .cmac t f => Sys2Proof.Machine.execCmac t f s
  | .extr t f => Sys2Proof.Machine.execExtr t f s
  | .clr t f => Sys2Proof.Machine.execClr t f s
  | .accadd t f => Sys2Proof.Machine.execAccadd t f s
  | .add t f => Sys2Proof.Machine.execAdd t f s
  | .sub t f => Sys2Proof.Machine.execSub t f s
  | .neg t f => Sys2Proof.Machine.execNeg t f s
  | .abs t f => Sys2Proof.Machine.execAbs t f s
  | .min t f => Sys2Proof.Machine.execMin t f s
  | .max t f => Sys2Proof.Machine.execMax t f s
  | .cmplt t f => Sys2Proof.Machine.execCmplt t f s
  | .cmpge t f => Sys2Proof.Machine.execCmpge t f s
  | .and t f => Sys2Proof.Machine.execAnd t f s
  | .or t f => Sys2Proof.Machine.execOr t f s
  | .xor t f => Sys2Proof.Machine.execXor t f s
  | .shl t f => Sys2Proof.Machine.execShl t f s
  | .shra t f => Sys2Proof.Machine.execShra t f s
  | .sel t f => Sys2Proof.Machine.execSel t f s
  | .movi t f => Sys2Proof.Machine.execMovi t f s
  | .rot t f => Sys2Proof.Machine.execRot t f s
  | .vec t f => Sys2Proof.Machine.execVec t f s
  | .sincos t f => Sys2Proof.Machine.execSincos t f s
  | .atan2 t f => Sys2Proof.Machine.execAtan2 t f s
  | .div t f => Sys2Proof.Machine.execDiv t f s
  | .recip t f => Sys2Proof.Machine.execRecip t f s
  | .sqrt t f => Sys2Proof.Machine.execSqrt t f s
  | .rsqrt t f => Sys2Proof.Machine.execRsqrt t f s
  | .ld40 t f => Sys2Proof.Machine.execLd40 t f s
  | .ld64 t f => Sys2Proof.Machine.execLd64 t f s
  | .st40 t f => Sys2Proof.Machine.execSt40 t f s
  | .st64 t f => Sys2Proof.Machine.execSt64 t f s
  | .ldx40 t f => Sys2Proof.Machine.execLdx40 t f s
  | .stx40 t f => Sys2Proof.Machine.execStx40 t f s
  | .sendLocal t f => Sys2Proof.Machine.execSendLocal t f s
  | .sendRing t f => Sys2Proof.Machine.execSendRing t f s
  | .sendCnt t f => Sys2Proof.Machine.execSendCnt t f s
  | .sendAlarm t f => Sys2Proof.Machine.execSendAlarm t f s
  | .sendDone t f => Sys2Proof.Machine.execSendDone t f s
  | .sendBlock t f => Sys2Proof.Machine.execSendBlock t f s
  | .nop t f => Sys2Proof.Machine.execNop t f s
  | .loopTok t f => Sys2Proof.Machine.execLoopTok t f s
  | .endSeq t f => Sys2Proof.Machine.execEndSeq t f s
  | .trap t f => Sys2Proof.Machine.execTrap t f s
  | .refacGo who inst w => Sys2Proof.Machine.execRefacGo who inst w s
  | .refacReady inst => Sys2Proof.Machine.execRefacReady inst s
  | .seBusSel who inst w => Sys2Proof.Machine.execSeBusSel who inst w s
  | .seChanSel who inst w => Sys2Proof.Machine.execSeChanSel who inst w s
  | .thrMonSel who inst w => Sys2Proof.Machine.execThrMonSel who inst w s
  | .oscPairSel who inst w => Sys2Proof.Machine.execOscPairSel who inst w s
  | .alarmEntryReceive => Sys2Proof.Machine.execAlarmEntryReceive s
  | .mergeTimeout => Sys2Proof.Machine.execMergeTimeout s
  | .alarmMerge errs => Sys2Proof.Machine.execAlarmMerge errs s
  | .gooseRepeat tmpl => Sys2Proof.Machine.execGooseRepeat tmpl s
  | .classHoldExpiry cls => Sys2Proof.Machine.execClassHoldExpiry cls s
  | .almAck who w => Sys2Proof.Machine.execAlmAck who w s
  | .almPinForce who w => Sys2Proof.Machine.execAlmPinForce who w s
  | .modLoss ch => Sys2Proof.Machine.execModLoss ch s
  | .stnBankSwap who w => Sys2Proof.Machine.execStnBankSwap who w s
  | .stnBankDone => Sys2Proof.Machine.execStnBankDone s
  | .rephaseEnd => Sys2Proof.Machine.execRephaseEnd s
  | .rangeSwitch cur high => Sys2Proof.Machine.execRangeSwitch cur high s
  | .bayCycleEnd bay m => Sys2Proof.Machine.execBayCycleEnd bay m s
  | .zeroCrossing z => Sys2Proof.Machine.execZeroCrossing z s
  | .zcTimeout z => Sys2Proof.Machine.execZcTimeout z s
  | .localPmuItem m err => Sys2Proof.Machine.execLocalPmuItem m err s
  | .epoPulseStart pin => Sys2Proof.Machine.execEpoPulseStart pin s
  | .epoPulseEnd pin => Sys2Proof.Machine.execEpoPulseEnd pin s
  | .periodicSave => Sys2Proof.Machine.execPeriodicSave s
  | .saveComplete => Sys2Proof.Machine.execSaveComplete s
  | .stnEclr who w => Sys2Proof.Machine.execStnEclr who w s
  | .auxCtrlStart who w => Sys2Proof.Machine.execAuxCtrlStart who w s
  | .auxContStart => Sys2Proof.Machine.execAuxContStart s
  | .auxConversionEnd code err => Sys2Proof.Machine.execAuxConversionEnd code err s
  | .auxUrgent who w => Sys2Proof.Machine.execAuxUrgent who w s
  | .auxUrgentEnd code err => Sys2Proof.Machine.execAuxUrgentEnd code err s
  | .auxUrgRead who => Sys2Proof.Machine.execAuxUrgRead who s
  | .capTrigArm who w => Sys2Proof.Machine.execCapTrigArm who w s
  | .capTrigFire who w => Sys2Proof.Machine.execCapTrigFire who w s
  | .levelTrigger trig => Sys2Proof.Machine.execLevelTrigger trig s
  | .capStop who w => Sys2Proof.Machine.execCapStop who w s
  | .capRearm who w => Sys2Proof.Machine.execCapRearm who w s
  | .capSeamRow plan => Sys2Proof.Machine.execCapSeamRow plan s
  | .capDone plan err errAt => Sys2Proof.Machine.execCapDone plan err errAt s
  | .capSpillCopy => Sys2Proof.Machine.execCapSpillCopy s
  | .capSpillRptrWrite who hi => Sys2Proof.Machine.execCapSpillRptrWrite who hi s
  | .firnUpdate err => Sys2Proof.Machine.execFirnUpdate err s
  | .firnPeriod period => Sys2Proof.Machine.execFirnPeriod period s
  | .firnClr who w => Sys2Proof.Machine.execFirnClr who w s
  | .bootComplete object => Sys2Proof.Machine.execBootComplete object s
  | .coreRelease who w => Sys2Proof.Machine.execCoreRelease who w s
  | .dtake core => Sys2Proof.Machine.execDtake core s
  | .ddone core v => Sys2Proof.Machine.execDdone core v s
  | .dpost core v => Sys2Proof.Machine.execDpost core v s
  | .dcancel core v => Sys2Proof.Machine.execDcancel core v s
  | .djob core v => Sys2Proof.Machine.execDjob core v s
  | .dipi core v => Sys2Proof.Machine.execDipi core v s
  | .mtickcmpWrite core v => Sys2Proof.Machine.execMtickcmpWrite core v s
  | .mtimerExpiry core => Sys2Proof.Machine.execMtimerExpiry core s
  | .dispPost who w => Sys2Proof.Machine.execDispPost who w s
  | .dispCancel who w => Sys2Proof.Machine.execDispCancel who w s
  | .dispJobDec who w => Sys2Proof.Machine.execDispJobDec who w s
  | .noticeTake => Sys2Proof.Machine.execNoticeTake s
  | .jobFire job errs => Sys2Proof.Machine.execJobFire job errs s
  | .tokenFile errs => Sys2Proof.Machine.execTokenFile errs s
  | .slotFill core => Sys2Proof.Machine.execSlotFill core s
  | .slotValid core errs => Sys2Proof.Machine.execSlotValid core errs s
  | .traceWrite => Sys2Proof.Machine.execTraceWrite s
  | .ndkLinkUp lane => Sys2Proof.Machine.execNdkLinkUp lane s
  | .ndkLinkDown lane => Sys2Proof.Machine.execNdkLinkDown lane s
  | .ndkCellReceive lane cell errs => Sys2Proof.Machine.execNdkCellReceive lane cell errs s
  | .ndkPollLost => Sys2Proof.Machine.execNdkPollLost s
  | .ndkMaster => Sys2Proof.Machine.execNdkMaster s
  | .ndkAckTimer dev => Sys2Proof.Machine.execNdkAckTimer dev s
  | .ndkRetransmit errs => Sys2Proof.Machine.execNdkRetransmit errs s
  | .ndkTimeSend => Sys2Proof.Machine.execNdkTimeSend s
  | .ndkHopEcho lane delay => Sys2Proof.Machine.execNdkHopEcho lane delay s
  | .ndkUnwrap lane => Sys2Proof.Machine.execNdkUnwrap lane s
  | .mirrorTimeout => Sys2Proof.Machine.execMirrorTimeout s
  | .ndkMirrorTake who w => Sys2Proof.Machine.execNdkMirrorTake who w s
  | .superframeStart => Sys2Proof.Machine.execSuperframeStart s
  | .radioFrameReceive rx err errs => Sys2Proof.Machine.execRadioFrameReceive rx err errs s
  | .radioAckSend => Sys2Proof.Machine.execRadioAckSend s
  | .slotMiss sensor => Sys2Proof.Machine.execSlotMiss sensor s
  | .radioWake sensor => Sys2Proof.Machine.execRadioWake sensor s
  | .radioDownlinkSend => Sys2Proof.Machine.execRadioDownlinkSend s
  | .downlinkAckTimeout => Sys2Proof.Machine.execDownlinkAckTimeout s
  | .radioTxqCtrl who w => Sys2Proof.Machine.execRadioTxqCtrl who w s
  | .radioRxqPop who w => Sys2Proof.Machine.execRadioRxqPop who w s
  | .dutyHourEnd => Sys2Proof.Machine.execDutyHourEnd s
  | .status mbx who => Sys2Proof.Machine.execStatus mbx who s
  | .generate mbx who inHand => Sys2Proof.Machine.execGenerate mbx who inHand s
  | .importPlain mbx who inHand => Sys2Proof.Machine.execImportPlain mbx who inHand s
  | .importWrapped mbx who inHand => Sys2Proof.Machine.execImportWrapped mbx who inHand s
  | .derive mbx who inHand => Sys2Proof.Machine.execDerive mbx who inHand s
  | .revoke mbx who inHand => Sys2Proof.Machine.execRevoke mbx who inHand s
  | .bindSet mbx who => Sys2Proof.Machine.execBindSet mbx who s
  | .bindRoll mbx who => Sys2Proof.Machine.execBindRoll mbx who s
  | .verify mbx who => Sys2Proof.Machine.execVerify mbx who s
  | .attest mbx who => Sys2Proof.Machine.execAttest mbx who s
  | .privNonce mbx who => Sys2Proof.Machine.execPrivNonce mbx who s
  | .timeRearm mbx who => Sys2Proof.Machine.execTimeRearm mbx who s
  | .clearStats mbx who => Sys2Proof.Machine.execClearStats mbx who s
  | .lifecycle mbx who => Sys2Proof.Machine.execLifecycle mbx who s
  | .unload mbx who => Sys2Proof.Machine.execUnload mbx who s
  | .installPk mbx who inHand => Sys2Proof.Machine.execInstallPk mbx who inHand s
  | .authWindowExpiry stats => Sys2Proof.Machine.execAuthWindowExpiry stats s
  | .nonceLapse mbx => Sys2Proof.Machine.execNonceLapse mbx s
  | .migrationComplete inHand => Sys2Proof.Machine.execMigrationComplete inHand s
  | .tagVerifySweep damaged inHand => Sys2Proof.Machine.execTagVerifySweep damaged inHand s
  | .keyTamper cause inHand => Sys2Proof.Machine.execKeyTamper cause inHand s
  | .levelFaultOnset src info noRec => Sys2Proof.Machine.execLevelFaultOnset src info noRec s
  | .faultClear who k w => Sys2Proof.Machine.execFaultClear who k w s
  | .faultInject who w => Sys2Proof.Machine.execFaultInject who w s
  | .eventClear who k w => Sys2Proof.Machine.execEventClear who k w s
  | .por supply batLost => Sys2Proof.Machine.execPor supply batLost s
  | .pinReset => Sys2Proof.Machine.execPinReset s
  | .softReset who w => Sys2Proof.Machine.execSoftReset who w s
  | .linkReset => Sys2Proof.Machine.execLinkReset s
  | .resetSequenceEnd => Sys2Proof.Machine.execResetSequenceEnd s
  | .ddrTrained ch ok size => Sys2Proof.Machine.execDdrTrained ch ok size s
  | .wdtStart who w => Sys2Proof.Machine.execWdtStart who w s
  | .wdtKick who w => Sys2Proof.Machine.execWdtKick who w s
  | .wdtWarn => Sys2Proof.Machine.execWdtWarn s
  | .wdtReset => Sys2Proof.Machine.execWdtReset s
  | .parkRequest who w => Sys2Proof.Machine.execParkRequest who w s
  | .runRequest who w => Sys2Proof.Machine.execRunRequest who w s
  | .holdRequest who w => Sys2Proof.Machine.execHoldRequest who w s
  | .pwrState => Sys2Proof.Machine.execPwrState s
  | .supplyWarn mv => Sys2Proof.Machine.execSupplyWarn mv s
  | .supplyDip mv => Sys2Proof.Machine.execSupplyDip mv s
  | .thermal temp => Sys2Proof.Machine.execThermal temp s
  | .hqRingEnable who q w => Sys2Proof.Machine.execHqRingEnable who q w s
  | .hqRingDisable who q w => Sys2Proof.Machine.execHqRingDisable who q w s
  | .hqRingWrite q => Sys2Proof.Machine.execHqRingWrite q s
  | .hqRingIrqTimer q => Sys2Proof.Machine.execHqRingIrqTimer q s
  | .dmaResume => Sys2Proof.Machine.execDmaResume s
  | .bar2Read off len err => Sys2Proof.Machine.execBar2Read off len err s
  | .bar2Write off data err => Sys2Proof.Machine.execBar2Write off data err s
  | .qspiCommand who w => Sys2Proof.Machine.execQspiCommand who w s
  | .qspiDone data => Sys2Proof.Machine.execQspiDone data s
  | .i2cRead index count => Sys2Proof.Machine.execI2cRead index count s
  | .uartRx b => Sys2Proof.Machine.execUartRx b s
  | .uartDataWrite who w => Sys2Proof.Machine.execUartDataWrite who w s
  | .uartDataRead who => Sys2Proof.Machine.execUartDataRead who s
  | .bypass tdi => Sys2Proof.Machine.execBypass tdi s
  | .idcode => Sys2Proof.Machine.execIdcode s
  | .samplePreload pins tdi => Sys2Proof.Machine.execSamplePreload pins tdi s
  | .extest pins tdi => Sys2Proof.Machine.execExtest pins tdi s
  | .clamp tdi => Sys2Proof.Machine.execClamp tdi s
  | .highz tdi => Sys2Proof.Machine.execHighz tdi s
  | .timeTick => Sys2Proof.Machine.execTimeTick s
  | .fabUeAddrRead who => Sys2Proof.Machine.execFabUeAddrRead who s
  | .seBusReady inst => Sys2Proof.Machine.execSeBusReady inst s
  | .seChanReady inst => Sys2Proof.Machine.execSeChanReady inst s
  | .thrMonReady inst => Sys2Proof.Machine.execThrMonReady inst s
  | .oscPairReady inst => Sys2Proof.Machine.execOscPairReady inst s
  | .stnOutputSample mdat errs => Sys2Proof.Machine.execStnOutputSample mdat errs s
  | .bayTrackerLock bay locked => Sys2Proof.Machine.execBayTrackerLock bay locked s
  | .firnScrub qty period half err => Sys2Proof.Machine.execFirnScrub qty period half err s
  | .levelConditionEnd src => Sys2Proof.Machine.execLevelConditionEnd src s
  | .pcieConfigWrite bme d3hot msix => Sys2Proof.Machine.execPcieConfigWrite bme d3hot msix s
  | .pcieLinkDown => Sys2Proof.Machine.execPcieLinkDown s
  | .uartTx => Sys2Proof.Machine.execUartTx s
  | .coreDebugAccess core halt => Sys2Proof.Machine.execCoreDebugAccess core halt s

end Sys2Proof.Machine
end

