-- ==== Sys2Proof/Safety.lean ====
section
/-! DEFINITION. What the statements speak of: the canonical form of the memories, the soundness of the MSI-X pending-bit array, how a
command completes, when a register write has its effect, and what a command leaves alone. -/
namespace Sys2Proof.Machine
open Sys2Proof

/-- The block's memories are in canonical form. -/
def State.memWf (s : State) : Bool :=
  Memory.wf s.ddr && Memory.wf s.sram && Memory.wf s.cap.mem && Memory.wf s.disp.ilm && Memory.wf s.disp.dlm

/-- A bit of the pending-bit array stands only for a vector whose condition holds and whose message may not be sent now (R437, R456). -/
def State.pbaSound (s : State) : Prop :=
  ∀ v, v < 68 → s.hq.pba.getLsbD v = true → s.msixInUse = true ∧ s.vector v = true ∧ s.msixOpen v = false

/-- A command completes: it ends in a next state. -/
def Completes (i : Instr) (s : State) : Prop := ∃ t, exec i s = .next t

/-- Command `i` at `s` completes with exactly the effect that makes `t`: the next state is `t` with the interrupt messages that follow from
the command (R437, R456). -/
def Ends (i : Instr) (s t : State) : Prop := exec i s = .next (settle s t)

/-- Command `i` at `s` completes in a state that `p` holds of. -/
def Gives (i : Instr) (s : State) (p : State → Prop) : Prop := ∃ t, exec i s = .next t ∧ p t

/-- An injection is armed on source `n` (R435). -/
def State.injects (s : State) (n : Nat) : Bool :=
  match s.flt.inject with
  | some i => i.source = n
  | none => false

/-- A 32-bit write at `a` by `who` has its effect at once and no other: the compute die works, the silent rule does not cover the register
(R51), PARK does not gate its block (R453), and no injection meets it on the bridge (R12). -/
def State.takes (s : State) (who : Party) (a : Nat) : Bool :=
  s.alive && s.regOpen who a && !(s.pwr.state = .park && parkGated a) && !(bridged a && s.injects 4)

/-- The cores and the dispatcher run: the compute die works and the device is in RUN (R443). -/
def State.coresRun (s : State) : Bool := s.alive && decide (s.pwr.state = Power.run)

/-- Every register but those of `p` reads as before. -/
def RegsBut (p : Nat → Prop) (s t : State) : Prop := ∀ a, ¬ p a → t.rn a = s.rn a

/-- Every byte of DDR5, shared SRAM and capture memory reads as before. -/
def MemKept (s t : State) : Prop := ∀ a, Memory.byte t.ddr a = Memory.byte s.ddr a ∧ Memory.byte t.sram a = Memory.byte s.sram a ∧
  Memory.byte t.cap.mem a = Memory.byte s.cap.mem a

/-- The mailbox takes a doorbell (R461): the compute die works in RUN, firmware runs, and no command is in progress. -/
def State.mailboxFree (s : State) : Bool :=
  s.coresRun && decide (s.rf Reg.DISP_BOOT 0 4 = 6) && !s.bit Reg.FLDL_STATUS 0

/-- The mailbox takes a doorbell while the boot ROM stands in recovery (R466). -/
def State.mailboxRecovery (s : State) : Bool :=
  s.coresRun && decide (s.rf Reg.DISP_BOOT 0 4 = 4) && !s.bit Reg.FLDL_STATUS 0

/-- A request posted with its doorbell (R461): the request in the buffer, BUSY, MSIP of the mailbox's core, and the command in progress. -/
def State.posted (s : State) (cmd : Nat) (tag : BitVec 16) (payload : List Byte) : State :=
  let b := (s.fldlRequest cmd tag.toNat payload).setF Reg.FLDL_STATUS 0 1 1
  let k := b.rf Reg.FLDL_CFG 0 3
  let m := b.setCore k { b.core k with msip := true }
  { m with fldl := { m.fldl with cmd := cmd, tag := tag.toNat }, img := { m.img with hello := m.img.hello || cmd = 1, heldCmd := none } }

/-- Node `f` of tile `t`, of CLASS `cls` and OP `op`, is ready to fire: the measurement path works, the tile has a role, every port of its
entry holds its token and its turn to issue has come, its word is sound and not poisoned, and no injection is armed. `x` is the firing and `u` the state with the entry
freed (R172, R176, R177). -/
def State.fires (s : State) (t : Fin 256) (f : Firing) (cls op : Nat) (x : Fire) (u : State) : Prop :=
  s.alive = true ∧ s.measuring = true ∧ s.role (t.val / 16) ≠ 0 ∧ s.ucode t.val f.node / 2 ^ 60 % 16 = cls ∧
    s.ucode t.val f.node / 2 ^ 56 % 16 = op ∧ s.quiet.takeFire t.val f = some (x, u) ∧ f.uerr = .ok ∧ s.flt.inject = none ∧
    (s.tile t.val).poison.contains f.node = false

/-- The state after a firing: the free values that its operands could take are spent. -/
def State.fired (u : State) : State := { u with draws := u.draws + 8 }

end Sys2Proof.Machine
end

