-- ==== Sys2Proof/Certificates/Slice0/Obligations.lean ====
section
/-! DEFINITION. The statements for the provers. `Ends` gives the whole next state of a command, so that what it leaves alone is stated with what
it changes; a statement about a next state that several operations make names those operations. -/
open Sys2Proof Sys2Proof.Machine

/-- For every command c and state s, a step at s with c at the front of its queue is exec of c at s with the queue's rest. With no command
waiting a step answers the same state (the model's choice, log entry 2). -/
def Obligations.StepRunsFront : Prop :=
  (∀ (c : Instr) (rest : List Instr) (s : State), step { s with pending := c :: rest } = exec c { s with pending := rest }) ∧
  (∀ s : State, s.pending = [] → step s = .next s)

/-- Right after a POR is recognised: the POR sequence runs, no command waits, every memory lists nothing and is in canonical form, the
pending-bit array is zero and sound, the reset cause is POR, no image is in force (FEAT_IMG_STATE NONE), the increments are exactly 4 ns
per tick, TIME_STATE and TIME_SVO_ERR stand at their reset values, every event is unmasked of any route and none pends, and FAULT_N is
low. -/
def Obligations.ResetLeaves : Prop :=
  State.reset.pwr.seq = some .por ∧ State.reset.pending = [] ∧ State.reset.memWf = true ∧ State.reset.ddr = [] ∧ State.reset.sram = [] ∧
  State.reset.pbaSound ∧ State.reset.rn Reg.PWR_RESET_CAUSE = 1 ∧ State.reset.imgState = 0 ∧ State.reset.img.inForce = false ∧
  State.reset.rn Reg.TIME_INC = 4 * 2 ^ 32 ∧ State.reset.rn Reg.TIME_SLEW_INC = 4 * 2 ^ 32 ∧ State.reset.rn Reg.TIME_INC_RUN = 4 * 2 ^ 32 ∧
  State.reset.rn Reg.TIME_STATE = 0 ∧ State.reset.rn Reg.TIME_SVO_ERR = 2 ^ 32 - 1 ∧
  (∀ e : Fin 128, State.reset.rn (Reg.FLT_EVT_ROUTE e.val) = 0 ∧ State.reset.evPending e.val = false) ∧ State.reset.faultLow = true

/-- In every state that a step from a state with a sound pending-bit array reaches, the array is sound: a pending bit stands only for a
vector whose condition holds while MSI-X is in use, and whose message may not be sent now. -/
def Obligations.PbaSoundKept : Prop :=
 ∀ s t : State, s.pbaSound → step s = .next t → t.pbaSound

/-- No command of the table faults or is refused in any state: an access the device does not serve falls under the silent rule. -/
def Obligations.EveryCommandCompletes : Prop :=
 ∀ (c : Instr) (s : State), Completes c s

/-- REGISTER_WRITE and PAIR_LO_READ while the compute die works. A write that is not aligned to 4 bytes or is narrower than 32 bits has no
effect; a 32-bit write has its register's effect; a 64-bit write is two 32-bit writes, the lower address first. A write that the silent
rule covers has no effect, and a 32-bit read that it covers is zero without effect. A misaligned read, or one that spans two words,
returns zero; a 64-bit read is two 32-bit reads, the lower address first, each with its own effects; a narrower read returns its bytes of
the 32-bit read. PAIR_LO_WRITE and PAIR_HI_WRITE are 32-bit writes of an address that names the LO or the HI word of a pair, and nothing
at any other address. What the spec leaves open in it the model reads as log entries 11, 12 and 13 say. -/
def Obligations.RegisterAccessForms : Prop :=
  ∀ (s : State) (who : Party) (a : BitVec 26) (size : AccessSize) (v : BitVec 64) (w : Word), s.alive = true →
    (a.toNat % 4 ≠ 0 ∨ size = .b1 ∨ size = .b2 → Ends (.registerWrite who a size v) s s.quiet) ∧
    (a.toNat % 4 = 0 → Ends (.registerWrite who a .b4 v) s (regWrite who a.toNat (v.extractLsb' 0 32) s.quiet)) ∧
    (a.toNat % 4 = 0 → Ends (.registerWrite who a .b8 v) s
      (regWrite who (a.toNat + 4) (v.extractLsb' 32 32) (regWrite who a.toNat (v.extractLsb' 0 32) s.quiet))) ∧
    (s.regOpen who a.toNat = false → regWrite who a.toNat w s = s) ∧
    (∀ b : Nat, s.regOpen who b = false → s.read32 who b = (0, s)) ∧
    (served a.toNat size = false → Ends (.pairLoRead who a size) s (s.quiet.emit (.read 0))) ∧
    (served a.toNat size = true →
      let lo := s.quiet.read32 who (a.toNat / 4 * 4)
      let hi := lo.2.read32 who (a.toNat + 4)
      Ends (.pairLoRead who a size) s (match size with
        | .b8 => hi.2.emit (.read (BitVec.ofNat 64 (lo.1 + 2 ^ 32 * hi.1)))
        | .b4 => lo.2.emit (.read (BitVec.ofNat 64 lo.1))
        | .b2 => lo.2.emit (.read (BitVec.ofNat 64 (lo.1 / 2 ^ (8 * (a.toNat % 4)) % 2 ^ 16)))
        | .b1 => lo.2.emit (.read (BitVec.ofNat 64 (lo.1 / 2 ^ (8 * (a.toNat % 4)) % 2 ^ 8))))) ∧
    (pairWord a.toNat = some 0 → Ends (.pairLoWrite who a w) s (regWrite who a.toNat w s.quiet)) ∧
    (pairWord a.toNat ≠ some 0 → Ends (.pairLoWrite who a w) s s.quiet) ∧
    (pairWord a.toNat = some 1 → Ends (.pairHiWrite who a w) s (regWrite who a.toNat w s.quiet)) ∧
    (pairWord a.toNat ≠ some 1 → Ends (.pairHiWrite who a w) s s.quiet)

/-- PAIR_LO_READ of a register value of several words by the latching rule: a 32-bit read of its first word returns the value's low 32
bits and latches the rest in the reading party's holding register; a 32-bit read of its second word returns what the party's holding
register has; and no other party's holding register and no register changes. KEY_BAT_TICKS, whose value is open, and a read that an
injection meets on the bridge are left out. What the spec leaves open in it the model reads as log entry 12 says. PAIR_LO_WRITE and
PAIR_HI_WRITE of TIME_SVO_OFS, a pair with no limit of its own: a LO write changes no register and is held for the writing party alone; a
HI write commits the held LO word, or the committed one where that party holds none, with the new HI word, and the party then holds none.
What other parties hold and every other register stay as they are. What the spec leaves open in it the model reads as log entry 13 says.
-/
def Obligations.RegisterPairs : Prop :=
  (∀ (s : State) (who : Party) (a : BitVec 26) (r : RegRow), s.alive = true → s.regOpen who a.toNat = true → r.pair = true → a.toNat % 4 = 0 →
     a.toNat ≠ Reg.KEY_BAT_TICKS → (bridged a.toNat && s.injects 4) = false →
     (rowOf a.toNat = some (r, 0) → Gives (.pairLoRead who a .b4) s fun t =>
       Output.read (BitVec.ofNat 64 (s.readValue who a.toNat % 2 ^ 32)) ∈ t.out ∧
       Tbl.get t.hold (a.toNat * 16 + who.num) 0 = s.readValue who a.toNat / 2 ^ 32 ∧
       (∀ (b : Nat) (p : Party), b ≠ a.toNat ∨ p ≠ who → Tbl.get t.hold (b * 16 + p.num) 0 = Tbl.get s.hold (b * 16 + p.num) 0) ∧
       t.regs = s.regs ∧ t.heldLo = s.heldLo ∧ MemKept s t) ∧
     (rowOf a.toNat = some (r, 1) → Gives (.pairLoRead who a .b4) s fun t =>
       Output.read (BitVec.ofNat 64 (Tbl.get s.hold ((a.toNat - 4) * 16 + who.num) 0 % 2 ^ 32)) ∈ t.out ∧
       t.hold = s.hold ∧ t.regs = s.regs ∧ t.heldLo = s.heldLo ∧ MemKept s t)) ∧
  (∀ (s : State) (who : Party) (w : Word), s.takes who Reg.TIME_SVO_OFS = true →
     Ends (.pairLoWrite who (BitVec.ofNat 26 Reg.TIME_SVO_OFS) w) s (s.quiet.setLoHeld who Reg.TIME_SVO_OFS (some w.toNat)) ∧
     (s.takes who (Reg.TIME_SVO_OFS + 4) = true → Ends (.pairHiWrite who (BitVec.ofNat 26 (Reg.TIME_SVO_OFS + 4)) w) s
       ((s.quiet.setLoHeld who Reg.TIME_SVO_OFS none).setReg Reg.TIME_SVO_OFS
         ((s.loHeld who Reg.TIME_SVO_OFS).getD (s.rn Reg.TIME_SVO_OFS % 2 ^ 32) + 2 ^ 32 * w.toNat))) ∧
     (∀ (p : Party) (off : Nat) (x : Option Nat), p ≠ who ∨ off ≠ Reg.TIME_SVO_OFS →
       (s.setLoHeld who Reg.TIME_SVO_OFS x).loHeld p off = s.loHeld p off) ∧
     (∀ x : Option Nat, (s.setLoHeld who Reg.TIME_SVO_OFS x).loHeld who Reg.TIME_SVO_OFS = x))

/-- REGISTER_WRITE of FLT_EVT_ROUTE[e], for every event e: the writable bits take the value written, the other bits keep theirs, and every
other register, held write and memory byte stays as it is. What the spec leaves open in it the model reads as log entry 13 says.
REGISTER_WRITE of 32 bits in PARK, at a register of a block whose clock PARK gates: the write joins those held, oldest first, with no
other effect. Which blocks are gated is the model's reading (log entry 3). What every register write command does before its effect: where
the silent rule covers the register it does nothing; in PARK, at a gated block, it joins the held writes; otherwise it has its effect, and
a register of the mixed-signal die is reached over the bridge, whose check an armed injection alters. What the spec leaves open in it the
model reads as log entry 3 says. -/
def Obligations.RegisterWrites : Prop :=
  (∀ (s : State) (who : Party) (e : Fin 128) (v : BitVec 64), s.takes who (Reg.FLT_EVT_ROUTE e.val) = true →
     Gives (.registerWrite who (BitVec.ofNat 26 (Reg.FLT_EVT_ROUTE e.val)) .b4 v) s fun t =>
       (∀ i, i < 32 → (t.rn (Reg.FLT_EVT_ROUTE e.val)).testBit i =
         if (0x3F1F : Nat).testBit i then v.getLsbD i else (s.rn (Reg.FLT_EVT_ROUTE e.val)).testBit i) ∧
       RegsBut (· = Reg.FLT_EVT_ROUTE e.val) s t ∧ MemKept s t ∧ t.hold = s.hold ∧ t.heldLo = s.heldLo) ∧
  (∀ (s : State) (who : Party) (a : BitVec 26) (v : BitVec 64), s.alive = true → s.regOpen who a.toNat = true → a.toNat % 4 = 0 →
     s.pwr.state = .park → parkGated a.toNat = true →
     Ends (.registerWrite who a .b4 v) s { s.quiet with hq := { s.hq with parked := s.hq.parked ++
       [{ who := who, addr := a.toNat, value := v.extractLsb' 0 32 }] } }) ∧
  (∀ (s : State) (who : Party) (a : Nat) (w : Word) (f : State → State),
     let held := decide (s.pwr.state = .park) && parkGated a
     (s.regOpen who a = false → written who a w f s = s) ∧
     (s.regOpen who a = true → held = true →
       written who a w f s = { s with hq := { s.hq with parked := s.hq.parked ++ [{ who := who, addr := a, value := w }] } }) ∧
     (s.regOpen who a = true → held = false → bridged a = false → written who a w f s = f s) ∧
     (s.regOpen who a = true → held = false → bridged a = true → written who a w f s = f (s.check 4 1 .ok).2))

/-- PWIN_COMMIT. The value written is the held LO word, or the committed one where none is held, below bits [7:0] of the HI word; for U32
and S32 the HI word is ignored. Where WHO names the party and MIN ≤ value ≤ MAX (unsigned for U32, signed otherwise) the window takes it,
and a seam-boundary window shows it pending; otherwise the last committed value stays. Either way the party then holds no LO word, and
nothing else changes. What the spec leaves open in it the model reads as log entries 14 and 16 say. -/
def Obligations.WindowCommit : Prop :=
  ∀ (s : State) (who : Party) (n : Fin 4096) (hi : Word), s.takes who (Reg.FAB_PWIN_VAL n.val + 4) = true →
    let off := Reg.FAB_PWIN_VAL n.val
    let d := s.rn (Reg.FAB_PWIN_DESC n.val)
    let fmt := d % 16
    let v := (s.loHeld who off).getD (s.rn off % 2 ^ 32) + 2 ^ 32 * (if fmt < 4 then hi.toNat % 256 else 0)
    let lo := s.rn (Reg.FAB_PWIN_MIN n.val)
    let up := s.rn (Reg.FAB_PWIN_MAX n.val)
    let within := if fmt = 4 then lo % 2 ^ 32 ≤ v ∧ v ≤ up % 2 ^ 32
      else if fmt = 5 then sInt 32 lo ≤ sInt 32 v ∧ sInt 32 v ≤ sInt 32 up
      else sInt 40 lo ≤ sInt 40 v ∧ sInt 40 v ≤ sInt 40 up
    let named := d.testBit (if who = .host then 5 else 6)
    (named = true ∧ within → Ends (.pwinCommit who n hi) s
      (let t := (s.quiet.setLoHeld who off none).setReg off v
       if d.testBit 4 then t.setReg (Reg.FAB_PWIN_PEND n.val) 1 else t)) ∧
    (named = false ∨ ¬ within → Ends (.pwinCommit who n hi) s (s.quiet.setLoHeld who off none))

/-- HELLO, FEATURES, NEGOTIATE, IMAGE_STATUS, BYE and TIME_OF_DAY posted while firmware serves the mailbox, with a payload of 65,528 bytes
at most. The request stands in the buffer with BUSY set, MSIP of the mailbox's core pends, and the response holds the command's code, its
status and tag, its length and its words. A HELLO of major version 1 opens the session; of another it answers VERSION and opens none; too
short it answers BAD_LEN. In a session FEATURES answers both sets, NEGOTIATE forms FEAT_ACC where the image state is NONE or FAILED and
answers ALREADY otherwise, IMAGE_STATUS answers the image state, BYE closes the session, and TIME_OF_DAY answers OK where feature 34 is
accepted. Outside a session each of the five answers NO_SESSION. Nothing else changes. What the spec leaves open in it the model reads as
log entry 17 says. -/
def Obligations.FledalSession : Prop :=
  ∀ (s : State) (tag : BitVec 16) (p : List Byte), s.mailboxFree = true → p.length ≤ 65528 →
    (4 ≤ p.length → (word p 0 / 256 % 256 = 1 → Ends (.hello tag p) s (
        let b := (s.quiet.posted 1 tag p).setF Reg.FLDL_STATUS 2 1 1
        b.fldlRespond 0 ([0x100, s.rn Reg.FEAT_IMG_STATE] ++ words64 (s.rn Reg.FEAT_IMG_SERIAL) ++ [bitAt (s.img.auto && s.img.inForce) 1]))) ∧
      (word p 0 / 256 % 256 ≠ 1 → Ends (.hello tag p) s ((s.quiet.posted 1 tag p).fldlRespond 4 [0x100]))) ∧
    (p.length < 4 → Ends (.hello tag p) s ((s.quiet.posted 1 tag p).fldlRespond 6 [])) ∧
    (s.session = true →
      Ends (.features tag p) s (let b := s.quiet.posted 2 tag p; b.fldlRespond 0 (s.words (Reg.FEAT_OFFER 0) 16)) ∧
      (32 ≤ p.length → s.imgState = 0 ∨ s.imgState = 3 → Ends (.negotiate tag p) s (
        let b := (s.quiet.posted 3 tag p).setAcc (acceptSet (leNat (p.take 32)))
        b.fldlRespond 0 (b.words (Reg.FEAT_ACC 0) 8))) ∧
      (32 ≤ p.length → s.imgState ≠ 0 ∧ s.imgState ≠ 3 → Ends (.negotiate tag p) s (
        (s.quiet.posted 3 tag p).fldlRespond 3 (s.words (Reg.FEAT_ACC 0) 8))) ∧
      Ends (.imageStatus tag p) s ((s.quiet.posted 6 tag p).fldlRespond 0
        ([s.rn Reg.FEAT_IMG_STATE, s.rn Reg.FEAT_IMG_PEND] ++ words80 (s.rn Reg.FEAT_IMG_ACT))) ∧
      Ends (.bye tag p) s (((s.quiet.posted 7 tag p).setF Reg.FLDL_STATUS 2 1 0).fldlRespond 0 []) ∧
      (s.feat 34 = true → 8 ≤ p.length → Ends (.timeOfDay tag p) s ((s.quiet.posted 8 tag p).fldlRespond 0 [])) ∧
      (s.feat 34 = false → Ends (.timeOfDay tag p) s ((s.quiet.posted 8 tag p).fldlRespond 1 []))) ∧
    (s.session = false →
      Ends (.features tag p) s ((s.quiet.posted 2 tag p).fldlRespond 2 []) ∧
      Ends (.negotiate tag p) s ((s.quiet.posted 3 tag p).fldlRespond 2 []) ∧
      Ends (.imageStatus tag p) s ((s.quiet.posted 6 tag p).fldlRespond 2 []) ∧
      Ends (.bye tag p) s ((s.quiet.posted 7 tag p).fldlRespond 2 []) ∧
      Ends (.timeOfDay tag p) s ((s.quiet.posted 8 tag p).fldlRespond 2 []))

/-- IMAGE_STAGE in a session, of a whole number of 16-byte units at offset 0 or at the staged count and within the 128 MiB staging area:
the data stands in DDR5 from that offset and the staged count is the offset plus its length; at another offset it answers STAGE_ORDER and
writes nothing. IMAGE_COMMIT with its activation instant, with no load, unloading or held command, starts the checks on the staged bytes:
the image state is VERIFY, the staged count 0, and the answer waits for IMAGE_VERIFY_END. FW_STAGE in recovery stages into shared SRAM
from byte 0xC0000 by the same rule. A command that waits is not answered while a doorbell arrives: the doorbell is ignored and counted.
FLDL_RESP with GO while a command runs clears BUSY, sets DONE, and counts the command. What the spec leaves open in it the model reads as
log entries 17 and 18 say. A Fledal command posted while BUSY is 1: its request stands in the buffer, FLDL_DB_IGN_CNT rises by 1, and
nothing else happens. HELLO, IMAGE_STATUS and BYE stand for the ten. FW_BOOT in recovery. Where the staged object overlaps a section's
place its result is 2; otherwise the boot ROM's verification gives the result. Result 0: recovery ends and the answer is OK. Another
result: DISP_BOOT shows recovery with it and the answer is IMAGE_FAIL with it. The boot lines of stages 5 and 6, or 5 and 4, go out. -/
def Obligations.FledalStaging : Prop :=
  (∀ (s : State) (tag : BitVec 16) (p : List Byte), p.length ≤ 65528 →
     (let n := p.length - 4
      let ofs := word p 0
      let staged := s.rn Reg.FLDL_STAGED
      (s.mailboxFree = true → s.session = true → s.img.load = none → 4 ≤ p.length → n % 16 = 0 →
        (ofs = 0 ∨ ofs = staged → ofs + n ≤ 2 ^ 27 → Ends (.imageStage tag p) s (
          (((s.quiet.posted 4 tag p).ddrWrite ofs (p.drop 4)).setReg Reg.FLDL_STAGED (ofs + n)).fldlRespond 0 [ofs + n])) ∧
        (ofs ≠ 0 ∧ ofs ≠ staged → Ends (.imageStage tag p) s ((s.quiet.posted 4 tag p).fldlRespond 8 [staged]))) ∧
      (s.mailboxRecovery = true → 4 ≤ p.length → n % 16 = 0 → ofs = 0 ∨ ofs = s.fldl.fwStaged →
        ofs + n ≤ 3145728 + 7488 → Gives (.fwStage tag p) s fun t =>
          t.rn Reg.FLDL_STAGED = ofs + n ∧ t.fldl.fwStaged = ofs + n ∧
          (∀ a, Memory.byte t.sram a = Memory.byte (s.sramWrite (0xC0000 + ofs) (p.drop 4)).sram a) ∧ t.ddr = s.ddr ∧
          t.rn (Reg.FLDL_RSP 0) = 0x10 + 2 ^ 16 * tag.toNat)) ∧
     (s.mailboxFree = true → s.session = true → s.img.load = none → s.img.unload = false → 12 ≤ p.length →
       Ends (.imageCommit tag p) s (((s.quiet.posted 5 tag p).beginLoad (s.rn Reg.FLDL_STAGED) (nsOfT80 (leNat (p.take 12) % 2 ^ 80)) false).setReg
         Reg.FLDL_STAGED 0)) ∧
     (∀ (who : Party) (w : Word), s.takes who Reg.FLDL_RESP = true →
       (w.getLsbD 31 = true → s.bit Reg.FLDL_STATUS 0 = true → Ends (.fldlResp who w) s (
         let t := { s.quiet with img := { s.img with heldCmd := none } }
         (t.setF Reg.FLDL_STATUS 0 2 2).count Reg.FLDL_CMD_CNT)) ∧
       (w.getLsbD 31 = false ∨ s.bit Reg.FLDL_STATUS 0 = false → Ends (.fldlResp who w) s s.quiet))) ∧
  (∀ (s : State) (tag : BitVec 16) (p : List Byte), s.alive = true → s.bit Reg.FLDL_STATUS 0 = true →
     Ends (.hello tag p) s ((s.quiet.fldlRequest 1 tag.toNat p).count Reg.FLDL_DB_IGN_CNT) ∧
     Ends (.imageStatus tag p) s ((s.quiet.fldlRequest 6 tag.toNat p).count Reg.FLDL_DB_IGN_CNT) ∧
     Ends (.bye tag p) s ((s.quiet.fldlRequest 7 tag.toNat p).count Reg.FLDL_DB_IGN_CNT)) ∧
  (∀ (s : State) (tag : BitVec 16) (p : List Byte), s.mailboxRecovery = true → p.length ≤ 65528 →
     let b := s.quiet.posted 0x11 tag p
     let o := Memory.read s.sram 0xC0000 s.fldl.fwStaged
     let c := b.bootLine 5 (b.rf Reg.DISP_BOOT 8 8)
     let r := if fwOverlaps o then (2, c) else c.fwBoot o
     (r.1 = 0 → Ends (.fwBoot tag p) s (((r.2.setF Reg.FLDL_STATUS 3 1 0).bootLine 6 0).fldlRespond 0 [])) ∧
     (r.1 ≠ 0 → Ends (.fwBoot tag p) s (((r.2.setReg Reg.DISP_BOOT (4 + r.1 * 256)).bootLine 4 r.1).fldlRespond 7 [r.1])))

/-- AUTONOMOUS_LOAD while the cores run, of an image with AUTONOMOUS = 1, with no HELLO since the reset and image state NONE: FEAT_ACC is
what NEGOTIATE would form from REQ_FEAT, the image stands in the staging area and the checks start. IMAGE_VERIFY_END of a load whose
checks run: an image that fails shows its fail code, the image state goes back to LOADED or to FAILED, event 94 is raised, and the command
answers IMAGE_FAIL; a partial image that passes is pending with its activation instant, and the command answers OK with it; a full image
that passes waits for the engines, and the command answers OK. FULL_IMAGE_APPLY applies that image once no panel holds an instant.
ACTIVATION_INSTANT before A, or with no partial image pending, changes nothing; from A on it marks the image activated (where the image
replaces SOURCES, GROUPS, UPSTREAM, AUXSEQ or RECORD, their part takes over too), and the old banks are released once no instant before A
is undecided. What the spec leaves open in it the model reads as log entries 17, 18, 19 and 20 say. The checks of an image in their order,
up to the signature: a wrong magic or format word, or fewer bytes staged than the image's length, is BAD_HEADER; else life cycle RETIRED
is LIFECYCLE; else a key-slot or signature failure is its code; else a version below the floor is ROLLBACK; else a required feature that
is not accepted is FEATURE. A refused image leaves the patterns in force as they are. What the spec leaves open in it the model reads as
log entries 22, 23 and 24 say. -/
def Obligations.ImageLoads : Prop :=
  (∀ s : State, s.coresRun = true →
     (∀ image : List Byte, s.imgState = 0 → s.img.hello = false → s.rf Reg.DISP_BOOT 0 4 = 6 → word image 3 / 2 ^ 17 % 2 = 1 →
       image.length ≤ 2 ^ 27 → Ends (.autonomousLoad image) s
         (((s.quiet.setAcc (acceptSet (reqFeat image))).ddrWrite 0 image).beginLoad image.length 0 true)) ∧
     (∀ l : Load, s.img.load = some l → l.passed = false → ∀ (code a : Nat) (u : State), s.quiet.checkImage l = (code, a, u) →
       (code ≠ 0 → Ends .imageVerifyEnd s (
         let t := u.refuseImage l code
         (if l.autonomous then t else t.fldlRespond 7 [code, 0, 0, 0]).afterLoad)) ∧
       (code = 0 → isPartial (s.stagedImage l) = true → Ends .imageVerifyEnd s (
         let t := u.acceptPartial (s.stagedImage l) a
         (if l.autonomous then t else t.fldlRespond 0 (0 :: words80 (t80OfNs a))).afterLoad)) ∧
       (code = 0 → isPartial (s.stagedImage l) = false → Ends .imageVerifyEnd s (
         let t := { u with img := { u.img with load := some { l with passed := true } } }
         if l.autonomous then t else t.fldlRespond 0 [0, 0, 0, 0]))) ∧
     (∀ l : Load, s.img.load = some l → l.passed = true → s.enginesIdle = true →
       Ends .fullImageApply s (s.quiet.applyImage l).afterLoad) ∧
     Ends .activationInstant s (activationInstant s.quiet).releaseCheck ∧
     (s.pend = true → s.img.activated = false → s.actNs ≤ s.nowNs → (∀ t ∈ [4, 5, 12, 15, 16], s.replaces t = false) →
       activationInstant s.quiet = { s.quiet with img := { s.img with activated := true } }) ∧
     (s.pend = false ∨ s.nowNs < s.actNs ∧ s.img.activated = false → Ends .activationInstant s s.quiet)) ∧
  (∀ (s : State) (l : Load),
     let m := s.stagedImage l
     let k := s.imageSig m l.pk
     (word m 0 ≠ 0x46494E57 ∨ word m 1 ≠ 0x00800001 ∨ l.staged < word m 2 → s.checkImage l = (1, 0, s)) ∧
     (word m 0 = 0x46494E57 → word m 1 = 0x00800001 → word m 2 ≤ l.staged →
       (s.lc = 4 → s.checkImage l = (2, 0, s)) ∧
       (s.lc ≠ 4 → k.1 ≠ 0 → s.checkImage l = (k.1, 0, k.2)) ∧
       (s.lc ≠ 4 → k.1 = 0 → word m 4 < k.2.rn Reg.FEAT_IMG_FLOOR → s.checkImage l = (5, 0, k.2)) ∧
       (s.lc ≠ 4 → k.1 = 0 → k.2.rn Reg.FEAT_IMG_FLOOR ≤ word m 4 → reqFeat m &&& k.2.accSet ≠ reqFeat m →
         s.checkImage l = (6, 0, k.2))) ∧
     ∀ code, (s.refuseImage l code).img.bodies = s.img.bodies ∧ (s.refuseImage l code).img.inForce = s.img.inForce)

/-- TIME_TICK while the time domain runs and no waiting sample asks for a step, with the nanoseconds below 10^9 and a 40-bit increment in
force: {ns, frac} takes the increment in 32.32 fixed point; at 10^9 ns or more it loses 10^9 and the 48-bit seconds rise by one, and
otherwise the seconds stay. The nanoseconds stay below 10^9. -/
def Obligations.TickAdvancesCounter : Prop :=
  ∀ s : State, s.ticking = true → (∀ x ∈ s.time.samples, x.step = false) → s.time.ns.toNat < 1000000000 → s.incRun < 2 ^ 40 →
   Gives .timeTick s fun t =>
    let v := 2 ^ 32 * s.time.ns.toNat + s.time.frac.toNat + s.incRun
    t.time.ns.toNat < 1000000000 ∧
    (v < 1000000000 * 2 ^ 32 → 2 ^ 32 * t.time.ns.toNat + t.time.frac.toNat = v ∧ t.time.sec = s.time.sec) ∧
    (1000000000 * 2 ^ 32 ≤ v → 2 ^ 32 * t.time.ns.toNat + t.time.frac.toNat = v - 1000000000 * 2 ^ 32 ∧ t.time.sec = s.time.sec + 1)

/-- The increment in force is the slew increment while a slew has ticks left and TIME_INC otherwise. TIME_TICK advances the counter, tells
the firn recorder of a new second, and takes what waited for the tick. With no sample waiting it takes one tick off a running slew,
advances the mains angle by its increment where it is not OFF and leaves it otherwise, counts the tick, and shows the increment in force;
in a PIN reset it only counts the tick, and in a POR or in HOLD it does nothing. The step of the clock by an offset o, on a tick that has
added the increment in force: the counter, in units of 2^-32 ns and modulo its 48-bit seconds, becomes itself less o; no slew runs after
it; EPOCH rises by one modulo 4; TIME_LAST_STEP holds −o; STEP_CNT rises by one; TIME_STEP pends. -/
def Obligations.TickRates : Prop :=
  (∀ s : State,
     (s.slewing = true → s.incRun = (s.time.slewInc.getD 0).toNat) ∧ (s.slewing = false → s.incRun = s.rn Reg.TIME_INC) ∧
     (s.ticking = true →
       let t := timeTick s.quiet
       Ends .timeTick s (if t.time.sec = s.time.sec then t else t.firnSecond).disciplineTick) ∧
     (s.ticking = true → s.time.samples = [] → Gives .timeTick s fun t =>
       t.time.ticks = s.time.ticks + 1 ∧ (s.slewing = true → t.rn Reg.TIME_SLEW_TICKS = (s.rn Reg.TIME_SLEW_TICKS - 1) % 2 ^ 80) ∧
       (s.thru Reg.TIME_MANG_STATE = 0 → t.time.mang = s.time.mang) ∧
       (s.thru Reg.TIME_MANG_STATE ≠ 0 → t.time.mang = s.time.mang + s.time.mangInc.zeroExtend 96) ∧
       t.rn Reg.TIME_INC = s.rn Reg.TIME_INC ∧ t.ddr = s.ddr ∧ t.sram = s.sram) ∧
     (s.pwr.state ≠ .hold → s.pwr.seq = some .pin →
       Ends .timeTick s { s.quiet with time := { s.time with ticks := s.time.ticks + 1 } }) ∧
     (s.pwr.state = .hold ∨ s.pwr.seq = some .por → Ends .timeTick s s.quiet)) ∧
  (∀ (s : State) (o : Int),
     let m : Int := ((2 ^ 48 * 1000000000 * 2 ^ 32 : Nat) : Int)
     let t := s.stepClock o
     (t.time.fine : Int) = ((s.time.fine : Int) - 2 ^ 32 * o) % m ∧ t.time.ns.toNat < 1000000000 ∧
     t.slewing = false ∧ t.epoch = (s.epoch + 1) % 4 ∧ t.rn Reg.TIME_LAST_STEP = uNat 64 (-o) ∧
     t.rn Reg.TIME_STEP_CNT = (s.rn Reg.TIME_STEP_CNT + 1) % 2 ^ 48 ∧ t.evPending 0 = true ∧ t.disc = s.disc)

/-- SERVO_SAMPLE_POST before any image has been loaded has no effect; otherwise the sample, with the offset written, waits for the next
tick, which takes the samples in order after a source change. One from another source than TIME_SRC only counts as stale. A sample that
passes is recorded in TIME_LAST_OFS, and with offset o: in UNSET or ARMED one with STEP steps the clock, is accepted, locks and raises
TIME_STEP and TIME_LOCKED, and one without does nothing more; in LOCKED or HOLDOVER an offset within TIME_JUMP_THR is accepted and locks
(from HOLDOVER with TIME_LOCKED, and with the master change counted and raised where its cause is SOURCE), and a larger one ends the slew,
is counted, and leaves the state REFUSED with TIME_REFUSED; in REFUSED nothing more happens. A step brings its effects outside the time
domain. What the spec leaves open in it the model reads as log entries 30, 33 and 110 say. TIME_INC_WRITE outside REFUSED commits the HI
word with the held LO word, or the committed one where none is held: within the bounds of ±500 ppm as it is, outside them at the nearer
bound with CLAMP set. TIME_SLEW_TICKS_WRITE outside REFUSED starts or restarts a slew at TIME_SLEW_INC for the ticks written, and with
zero ends it. Both only count a rejected write in REFUSED. SLEW_END with the slew's ticks spent ends it. Each shows the increment in
force. What the spec leaves open in it the model reads as log entry 15 says. -/
def Obligations.SamplesAndRates : Prop :=
  (∀ (s : State) (who : Party) (w : Word) (x : Sample),
     (s.takes who Reg.TIME_SVO_POST = true →
       (s.time.everLoaded = false → Ends (.servoSamplePost who w) s s.quiet) ∧
       (s.time.everLoaded = true → Ends (.servoSamplePost who w) s { s.quiet with time := { s.time with samples := s.time.samples ++
         [{ id := w.toNat % 2 ^ 16, ty := w.toNat / 2 ^ 16 % 4, step := w.getLsbD 31, ofs := s.rn Reg.TIME_SVO_OFS }] } })) ∧
     (s.time.samples = [] → s.disciplineTick = s.srcTick) ∧
     (s.time.samples = [x] →
       s.disciplineTick = ({ s.srcTick with time := { s.srcTick.time with samples := [] } } : State).sampleTick x) ∧
     ((s.takeSample x).rn Reg.TIME_STEP_CNT = s.rn Reg.TIME_STEP_CNT → s.sampleTick x = s.takeSample x) ∧
     ((s.takeSample x).rn Reg.TIME_STEP_CNT ≠ s.rn Reg.TIME_STEP_CNT → s.sampleTick x = (s.takeSample x).afterStep (s.disc = stUnset)) ∧
     (let o := sInt 64 x.ofs
      let u := s.setReg Reg.TIME_LAST_OFS x.ofs
      let mine := x.ty ≠ 3 ∧ s.rn Reg.TIME_SRC = x.id + 2 ^ 16 * x.ty
      (¬ mine → s.takeSample x = s.count Reg.TIME_STALE_CNT) ∧
      (mine → s.disc = stUnset ∨ s.disc = stArmed → x.step = true →
        s.takeSample x = ((((u.stepClock o).accept).setDisc stLocked 0).raise 1).publish) ∧
      (mine → s.disc = stUnset ∨ s.disc = stArmed → x.step = false → s.takeSample x = u) ∧
      (mine → s.disc = stLocked → o.natAbs ≤ s.rn Reg.TIME_JUMP_THR → s.takeSample x = (u.accept.setDisc stLocked 0).publish) ∧
      (mine → s.disc = stHoldover → o.natAbs ≤ s.rn Reg.TIME_JUMP_THR → s.rf Reg.TIME_STATE 4 3 ≠ 2 →
        s.takeSample x = ((u.accept.raise 1).setDisc stLocked 0).publish) ∧
      (mine → s.disc = stHoldover → o.natAbs ≤ s.rn Reg.TIME_JUMP_THR → s.rf Reg.TIME_STATE 4 3 = 2 →
        s.takeSample x = (((((u.accept.count Reg.TIME_MCHG_CNT).raise 5).raise 1).setDisc stLocked 0)).publish) ∧
      (mine → s.disc = stLocked ∨ s.disc = stHoldover → s.rn Reg.TIME_JUMP_THR < o.natAbs →
        s.takeSample x = (((u.endSlew.count Reg.TIME_REFUSE_CNT).setDisc stRefused 0).raise 3).publish) ∧
      (mine → s.disc = stRefused → s.takeSample x = u))) ∧
  (∀ (s : State) (who : Party) (w : Word),
     (s.takes who (Reg.TIME_INC + 4) = true →
       let key := Reg.TIME_INC * 16 + who.num
       let v := 2 ^ 32 * (w.toNat % 2 ^ 8) + (Tbl.get s.heldLo key none).getD (s.rn Reg.TIME_INC % 2 ^ 32)
       let u := { s.quiet with heldLo := Tbl.set s.heldLo key none none }
       (s.disc ≠ stRefused → 0x03FF7CED91 ≤ v → v ≤ 0x040083126F → Ends (.timeIncWrite who w) s (u.setReg Reg.TIME_INC v).showInc) ∧
       (s.disc ≠ stRefused → v < 0x03FF7CED91 → Ends (.timeIncWrite who w) s
         ((u.setF Reg.TIME_STATE 9 1 1).setReg Reg.TIME_INC 0x03FF7CED91).showInc) ∧
       (s.disc ≠ stRefused → 0x040083126F < v → Ends (.timeIncWrite who w) s
         ((u.setF Reg.TIME_STATE 9 1 1).setReg Reg.TIME_INC 0x040083126F).showInc) ∧
       (s.disc = stRefused → Ends (.timeIncWrite who w) s (s.quiet.count Reg.TIME_RATE_REJ_CNT))) ∧
     (s.takes who Reg.TIME_SLEW_TICKS = true →
       let off := { s.quiet with time := { s.time with slewInc := none } }
       let run := { s.quiet with time := { s.time with slewInc := some (BitVec.ofNat 40 (s.rn Reg.TIME_SLEW_INC)) } }
       (s.disc ≠ stRefused → w = 0 → Ends (.timeSlewTicksWrite who w) s (off.setReg Reg.TIME_SLEW_TICKS 0).showInc) ∧
       (s.disc ≠ stRefused → w ≠ 0 → Ends (.timeSlewTicksWrite who w) s (run.setReg Reg.TIME_SLEW_TICKS w.toNat).showInc) ∧
       (s.disc = stRefused → Ends (.timeSlewTicksWrite who w) s (s.quiet.count Reg.TIME_RATE_REJ_CNT))) ∧
     (s.ticking = true →
       (s.time.slewInc.isSome = true → s.rn Reg.TIME_SLEW_TICKS = 0 → Ends .slewEnd s
         (({ s.quiet with time := { s.time with slewInc := none } } : State).setReg Reg.TIME_SLEW_TICKS 0).showInc) ∧
       (s.time.slewInc = none ∨ s.rn Reg.TIME_SLEW_TICKS ≠ 0 → Ends .slewEnd s s.quiet)))

/-- REARM. A write of 1 to TIME_CTRL.REARM in LOCKED, HOLDOVER or REFUSED, within 1 s (250,000,000 ticks) after the key store verified a
TIME_REARM command, moves the state to ARMED with cause 0, raises TIME_ARMED and spends the authorisation, so that a second write has no
effect. Outside the authorisation it has no effect, nor has it in UNSET or ARMED. -/
def Obligations.RearmOnce : Prop :=
  ∀ (s : State) (who : Party) (w : Word), s.takes who Reg.TIME_CTRL = true → w.getLsbD 0 = true →
    (∀ at_ : Nat, s.key.rearmAt = some at_ → s.time.ticks < 250000000 + at_ → s.disc = stLocked ∨ s.disc = stHoldover ∨ s.disc = stRefused →
      Ends (.rearm who w) s
        (((({ s.quiet with key := { s.key with rearmAt := none } } : State).setDisc stArmed 0)).raise 4).publish ∧
      Gives (.rearm who w) s fun t => t.disc = stArmed ∧ t.key.rearmAt = none ∧ t.evPending 4 = true) ∧
    (s.key.rearmAt = none → Ends (.rearm who w) s s.quiet) ∧
    (∀ at_ : Nat, s.key.rearmAt = some at_ → 250000000 + at_ ≤ s.time.ticks → Ends (.rearm who w) s s.quiet) ∧
    (s.disc = stUnset ∨ s.disc = stArmed → Ends (.rearm who w) s s.quiet)

/-- TIME_SRC_WRITE takes the source and type, and a different value waits for the tick: the tick then enters HOLDOVER from LOCKED with
cause SOURCE and TIME_HOLDOVER, in HOLDOVER sets that cause, and elsewhere does nothing. HOLD_TIMEOUT in LOCKED, TIME_HOLD_TMO ms after
the last accepted sample, enters HOLDOVER with cause TIMEOUT and TIME_HOLDOVER, and does nothing before. ERR_LIMIT with TIME_EST_ERR risen
above TIME_ERR_LIMIT raises its event, once. What the spec leaves open in it the model reads as log entries 31, 32 and 33 say. -/
def Obligations.DisciplineEvents : Prop :=
  ∀ (s : State) (who : Party) (w : Word),
    (s.takes who Reg.TIME_SRC = true →
      let v := w.toNat % 2 ^ 18
      let u := s.quiet.setReg Reg.TIME_SRC v
      (s.rn Reg.TIME_SRC ≠ v → Ends (.timeSrcWrite who w) s { u with time := { u.time with srcNew := true } }) ∧
      (s.rn Reg.TIME_SRC = v → Ends (.timeSrcWrite who w) s u)) ∧
    (let t : State := { s with time := { s.time with srcNew := false } }
     (s.time.srcNew = true → s.disc = stLocked → s.srcTick = ((t.setDisc stHoldover 2).raise 2).publish) ∧
     (s.time.srcNew = true → s.disc = stHoldover → s.srcTick = t.setDisc stHoldover 2) ∧
     (s.time.srcNew = true → s.disc ≠ stLocked → s.disc ≠ stHoldover → s.srcTick = t) ∧
     (s.time.srcNew = false → s.srcTick = s)) ∧
    (s.ticking = true →
      (s.disc = stLocked → s.time.everLoaded = true → 250000 * s.rn Reg.TIME_HOLD_TMO ≤ s.time.sinceAccept →
        Ends .holdTimeout s ((s.quiet.setDisc stHoldover 1).raise 2).publish) ∧
      (s.disc ≠ stLocked ∨ s.time.sinceAccept < 250000 * s.rn Reg.TIME_HOLD_TMO → Ends .holdTimeout s s.quiet) ∧
      (s.rn Reg.TIME_ERR_LIMIT < s.rn Reg.TIME_EST_ERR → s.time.errAbove = false →
        Ends .errLimit s (({ s.quiet with time := { s.time with errAbove := true } } : State).raise 6)) ∧
      (s.rn Reg.TIME_EST_ERR ≤ s.rn Reg.TIME_ERR_LIMIT ∨ s.time.errAbove = true → Ends .errLimit s s.quiet))

/-- UTCOFS_WRITE takes the offset and the leap bits, neither of them where both are written, with the leap due from the next UTC midnight.
LEAP_APPLIED from that midnight on, with a leap bit set, changes the offset by +1 or −1 s, clears both bits and raises LEAP_APPLIED. An
accepted PPS_EDGE (feature 34, an image in force, the selected edge, 500 ms after the last) records its time less TIME_PPS_DLY and shows
PPS present; another edge does nothing. PPS_MISSING 1,100 ms after the last edge counts and raises it, once, and shows PPS absent. What
the spec leaves open in it the model reads as log entries 34 and 38 say. TIME_NOW_READ returns the nanoseconds and latches seconds,
fraction and mains angle of the same tick for the party. TXTS_INFO_READ returns and latches the head entry of the transmit timestamp FIFO,
the blank item (zero) when it is empty. TXTS_POP returns the latched entry's upper seconds, zero where none is latched, and removes the
head (the model's choice where the head is another entry, log entry 37); a read of the empty FIFO moves nothing. MANG_UPDATE crosses the
bridge, and in ACQUIRE or LOCKED takes the tracker's increment and frequency where both lie in its range; MANG_LOCK moves ACQUIRE to
LOCKED with its event; MANG_UNLOCK moves LOCKED to FREERUN, counted, with its event; MANG_REACQUIRE moves FREERUN to ACQUIRE; from any
other state each does nothing. What the spec leaves open in it the model reads as log entry 104 says. -/
def Obligations.TimeInputsAndReads : Prop :=
  (∀ (s : State) (who : Party) (w : Word) (rising : Bool) (half : Fin 8),
     (s.takes who Reg.TIME_UTCOFS = true →
       (w.getLsbD 16 = true → w.getLsbD 17 = true → Gives (.utcofsWrite who w) s fun t => t.rn Reg.TIME_UTCOFS = w.toNat % 2 ^ 16 ∧
         RegsBut (· = Reg.TIME_UTCOFS) s t ∧ MemKept s t) ∧
       (w.getLsbD 16 = false ∨ w.getLsbD 17 = false → Gives (.utcofsWrite who w) s fun t => t.rn Reg.TIME_UTCOFS = w.toNat % 2 ^ 18 ∧
         t.time.leapDay = t.utcDay + 1 ∧ RegsBut (· = Reg.TIME_UTCOFS) s t ∧ MemKept s t)) ∧
     (s.ticking = true →
       (s.bit Reg.TIME_UTCOFS 16 = true → s.time.leapDay ≤ s.utcDay → Ends .leapApplied s
         ((({ s.quiet with time := { s.time with leapAt := some s.time.ticks, leapDel := false } } : State).setReg Reg.TIME_UTCOFS
           (uNat 16 (s.utcOfs + 1))).raise 15)) ∧
       (s.bit Reg.TIME_UTCOFS 16 = false → s.bit Reg.TIME_UTCOFS 17 = true → s.time.leapDay ≤ s.utcDay → Ends .leapApplied s
         ((({ s.quiet with time := { s.time with leapAt := some s.time.ticks, leapDel := true } } : State).setReg Reg.TIME_UTCOFS
           (uNat 16 (s.utcOfs - 1))).raise 15)) ∧
       (s.feat 34 = true → s.img.inForce = true → rising = !(wf (s.pat 3) 0 4 1 = 1) → (∀ t, s.time.ppsAt = some t → 125000000 + t ≤ s.time.ticks) →
         Ends (.ppsEdge rising half) s
           (let d : Int := ((s.nowNs * 16 + half.val * 8 : Nat) : Int) - sInt 32 (s.rn Reg.TIME_PPS_DLY)
            let u := (s.quiet.setReg Reg.TIME_PPS_LAST (t80OfNs (roundDiv d 16).toNat)).setF Reg.TIME_STATE 8 1 1
            { u with time := { u.time with ppsAt := some s.time.ticks, ppsMissed := false } })) ∧
       (s.feat 34 = false ∨ s.img.inForce = false → Ends (.ppsEdge rising half) s s.quiet) ∧
       (∀ t, s.time.ppsAt = some t → s.time.ppsMissed = false → 275000000 + t ≤ s.time.ticks → Ends .ppsMissing s
         (let u := (s.quiet.count Reg.TIME_PPS_MISS_CNT).setF Reg.TIME_STATE 8 1 0
          ({ u with time := { u.time with ppsMissed := true } } : State).raise 7)) ∧
       (s.time.ppsAt = none ∨ s.time.ppsMissed = true → Ends .ppsMissing s s.quiet))) ∧
  (∀ (s : State) (who : Party) (inc : BitVec 64) (f : Fix40) (err : MemErr),
     (s.alive = true →
       Ends (.timeNowRead who) s (
         let l : NowLatch := { sec := s.time.sec, frac := s.time.frac, mang := s.time.mang.extractLsb' 32 64 }
         ({ s.quiet with time := { s.time with now := Tbl.set s.time.now who.num l {} } } : State).emit (.read (s.time.ns.zeroExtend 64))) ∧
       (s.time.txts = [] → Ends (.txtsInfoRead who) s
         (({ s.quiet with time := { s.time with txtsLatch := Tbl.set s.time.txtsLatch who.num none none } } : State).emit (.read 0))) ∧
       (∀ e rest, s.time.txts = e :: rest → Ends (.txtsInfoRead who) s
         (({ s.quiet with time := { s.time with txtsLatch := Tbl.set s.time.txtsLatch who.num (some e) none } } : State).emit
           (.read (BitVec.ofNat 64 (2 ^ 31 + (e.seqId % 2 ^ 16 + 2 ^ 16 * (e.msgType % 16) + 2 ^ 20 * (e.port % 4) + 2 ^ 22 * (e.epoch % 4))))))) ∧
       (let v := match Tbl.get s.time.txtsLatch who.num none with
         | some e => e.time / 2 ^ 64 % 2 ^ 16
         | none => 0
        (∀ x rest, s.time.txts = x :: rest → Ends (.txtsPop who) s
          (({ s.quiet with time := { s.time with txts := rest, txtsWatch := { since := s.time.ticks } } } : State).emit
            (.read (BitVec.ofNat 64 v)))) ∧
        (s.time.txts = [] → Ends (.txtsPop who) s (s.quiet.emit (.read (BitVec.ofNat 64 v)))))) ∧
     (s.ticking = true →
       (s.thru Reg.TIME_MANG_STATE = 1 ∨ s.thru Reg.TIME_MANG_STATE = 2 → s.injects 4 = false → s.mangInRange inc f = true →
         Ends (.mangUpdate inc f .ok) s
           (({ s.quiet with time := { s.time with mangInc := inc } } : State).setReg Reg.TIME_MANG_FREQ f.toNat)) ∧
       (Ends (.mangUpdate inc f err) s (mangUpdate inc f (s.quiet.crossing 0 err))) ∧
       (s.thru Reg.TIME_MANG_STATE ≠ 1 → s.thru Reg.TIME_MANG_STATE ≠ 2 → mangUpdate inc f s = s) ∧
       (s.mangInRange inc f = false → mangUpdate inc f s = s) ∧
       (s.thru Reg.TIME_MANG_STATE = 1 → Ends .mangLock s ((s.quiet.setThru Reg.TIME_MANG_STATE 2).raise 11)) ∧
       (s.thru Reg.TIME_MANG_STATE ≠ 1 → Ends .mangLock s s.quiet) ∧
       (s.thru Reg.TIME_MANG_STATE = 2 → Ends .mangUnlock s
         (((s.quiet.setThru Reg.TIME_MANG_STATE 3).count Reg.TIME_MANG_UNLOCK_CNT).raise 12)) ∧
       (s.thru Reg.TIME_MANG_STATE ≠ 2 → Ends .mangUnlock s s.quiet) ∧
       (s.thru Reg.TIME_MANG_STATE = 3 → Ends .mangReacquire s (s.quiet.setThru Reg.TIME_MANG_STATE 1)) ∧
       (s.thru Reg.TIME_MANG_STATE ≠ 3 → Ends .mangReacquire s s.quiet)))

/-- TACK_COMMIT with feature 36 lets an entry whose old content is due fire, and commits the control word with the six words held, EN
cleared where a periodic entry's period is below its minimum; the entry is due at START and pending while EN. TACK_FIRE of a pending,
enabled tack whose base counter has reached its due value fires every tack so due, in ascending number, each with its action, its event
and its schedule, and does nothing before. A TPO pulse runs to the latest end asked for, and TPO_PULSE_END ends it then. FIFO_STALE of a
non-empty FIFO with a stale time, unread and unreported for that time, reports it once; of an empty one it does nothing. What the spec
leaves open in it the model reads as log entries 36 and 56 say. -/
def Obligations.TacksAndStaleTails : Prop :=
  ∀ (s : State) (who : Party) (k : Fin 64) (w : Word) (pin : Fin 8) (f : Fifo),
    (s.takes who (Reg.TACK_ENTRY k.val 0) = true → s.feat 36 = true →
      Ends (.tackCommit who k w) s ((tackFire k.val s.quiet).commitTack k.val
        ((w.toNat &&& 0xFFFF007F) :: (s.tack k.val).staged.drop 1))) ∧
    (∀ ws : List Nat, tackShort ws = false →
      (s.commitTack k.val ws).tack k.val = {
        staged := ws.getD 0 0 :: ws.drop 1, due := tackStart ws, fired := 0, live := (ws.getD 0 0) % 2 = 1, free := false,
        since := s.time.ticks }) ∧
    (∀ ws : List Nat, tackShort ws = true → ((s.commitTack k.val ws).tack k.val).live = false) ∧
    (s.ticking = true →
      (s.tackDue k.val ≠ none → Ends (.tackFire k) s (s.quiet.forRange (fun j u => u.fireTack j) 0 64)) ∧
      (s.tackDue k.val = none → Ends (.tackFire k) s s.quiet) ∧
      ((Tbl.get s.time.tpo pin.val (0, false)).1 ≤ s.time.ticks → Ends (.tpoPulseEnd pin) s
        { s.quiet with time := { s.time with tpo := Tbl.set s.time.tpo pin.val (0, (Tbl.get s.time.tpo pin.val (0, false)).2) (0, false) } }) ∧
      (s.time.ticks < (Tbl.get s.time.tpo pin.val (0, false)).1 → Ends (.tpoPulseEnd pin) s s.quiet)) ∧
    (∀ past, s.feat 36 = true → (s.tack k.val).live = true → s.bit (Reg.TACK_ENTRY k.val 0) 0 = true → s.tackPast k.val = some past →
      s.fireTack k.val =
        ((s.tackAct (s.rf (Reg.TACK_ENTRY k.val 0) 4 3) (s.rn (Reg.TACK_ENTRY k.val 1))).tackEvent k.val).tackNext k.val past) ∧
    (s.feat 36 = false ∨ s.tackPast k.val = none ∨ (s.tack k.val).live = false ∨ s.bit (Reg.TACK_ENTRY k.val 0) 0 = false →
      s.tackDue k.val = none ∧ s.fireTack k.val = s) ∧
    (∀ width pol, (Tbl.get (s.tpoPulse pin.val width pol).time.tpo pin.val (0, false)).1 =
      max (s.time.ticks + width) (Tbl.get s.time.tpo pin.val (0, false)).1) ∧
    (s.alive = true →
      ((s.fifoView f).2.1 = false → (s.fifoView f).2.2 ≠ 0 → s.staleDue (s.fifoView f).1 (s.fifoView f).2.2 = true →
        Ends (.fifoStale f) s (s.quiet.fifoReport f)) ∧
      ((s.fifoView f).2.1 = true ∨ s.staleDue (s.fifoView f).1 (s.fifoView f).2.2 = false → Ends (.fifoStale f) s s.quiet))

/-- FRAME_RECEIVE, with what the checkers of the tables it reads find. A closed port takes nothing. A frame to another unicast address is
counted and dropped. Any other adds to the one counter of its size or error condition, ends its port's silence where it is valid and
carries a trailer, and then, by its class: a MAC control frame counts as a pause where it is sound and is dropped; a drop-class frame is
dropped; a sound time-class frame of at most 512 octets that passes authentication enters the time queue, and an unsound one is dropped; a
sound measurement frame over UDP without PRP, header errors or fragments enters the measurement queue in RUN, and one that is unsound is
dropped; a sound host-class frame without PRP or header errors is staged for its ring; an unmatched one is counted, and staged for ring 0
or dropped as the pattern says. What the spec leaves open in it the model reads as log entries 39 and 45 say. -/
def Obligations.FrameReception : Prop :=
  ∀ (s : State) (port : Fin 4) (rx : RxFrame) (errs : List (Nat × MemErr)),
    let p := port.val
    let n := rx.octets.length
    let f := rx.octets.take (n - 4)
    let q := parse f
    let c := s.rxCond rx
    let u := if c.clean && !(s.classify p f q = .time && 512 < n) then (s.countRx p n c).rctSeen p f q else s.countRx p n c
    let host := fun (ring rule : Nat) (un : Bool) (o : List Byte) (flen : Nat) => HostFrame.mk o ring p (rxFlags c false false un false) u.epoch
      rule q.vid q.tagged q.pcp (u.rxStamp p rx.skew) flen
    (s.alive = true → Ends (.frameReceive port rx errs) s (withErrs errs (frameReceive port rx) s.quiet)) ∧
    (s.rxOpen p = false → frameReceive port rx s = s) ∧
    (s.rxOpen p = true → s.addrOk p rx.octets = false → frameReceive port rx s =
      ((s.count (Reg.ETH_RX_ADDR_FILT p)).count (Reg.ETH_RX_DROP p))) ∧
    (s.rxOpen p = true → s.addrOk p rx.octets = true →
      (s.classify p f q = .macControl → frameReceive port rx s =
        ((if c.clean then u.count (Reg.ETH_RX_PAUSE p) else u).count (Reg.ETH_RX_DROP p))) ∧
      (s.classify p f q = .drop → frameReceive port rx s = (u.count (Reg.ETH_RX_DROP p))) ∧
      (s.classify p f q = .time → c.clean = false → frameReceive port rx s = (u.count (Reg.ETH_RX_DROP p))) ∧
      (s.classify p f q = .time → c.clean = true → 512 < n → frameReceive port rx s =
        ((u.count (Reg.ETH_RX_TIME_LONG p)).count (Reg.ETH_RX_DROP p))) ∧
      (s.classify p f q = .time → c.clean = true → n ≤ 512 → (u.ptpPass f).1 = true → frameReceive port rx s =
        ((u.ptpPass f).2.tqPush p f ((u.ptpPass f).2.rxStamp p rx.skew))) ∧
      (∀ t r, s.classify p f q = .measurement t r → c.clean = false ∨ s.pwr.state ≠ .run ∨ s.stopping = true →
        frameReceive port rx s = (u.count (Reg.ETH_RX_DROP p))) ∧
      (∀ t r, s.classify p f q = .measurement t r → t ≠ 1 → c.clean = true → s.pwr.state = .run → s.stopping = false → s.prpOn p = false →
        q.frag = false → q.ipErr = false → q.l4Err = false → frameReceive port rx s =
          ((u.mqPush (MqFrame.mk ((f.take q.stop).drop (q.l4off + 8)) t p q.v6 q.saddr q.daddr (q.ports.getD (0, 0)).1 (q.ports.getD (0, 0)).2 0
            (u.rxStamp p rx.skew) u.epoch (host 0 r false f (min 65535 n)))).count (Reg.ETH_RX_MEAS p))) ∧
      (∀ ring r, s.classify p f q = .host ring r → c.clean = true → s.prpOn p = false → q.ipErr = false → q.l4Err = false →
        frameReceive port rx s = (u.stage (host ring r false f (min 65535 n)))) ∧
      (s.classify p f q = .unmatched → wf (s.pat 2) 0 16 1 = 1 → c.clean = true → s.prpOn p = false → q.ipErr = false → q.l4Err = false →
        frameReceive port rx s = ((u.count (Reg.ETH_RX_UNMATCHED p)).stage (host 0 0 true f (min 65535 n)))) ∧
      (s.classify p f q = .unmatched → wf (s.pat 2) 0 16 1 ≠ 1 → frameReceive port rx s =
        ((u.count (Reg.ETH_RX_UNMATCHED p)).count (Reg.ETH_RX_DROP p))))

/-- A frame of at most 4 MiB that enters the measurement queue stands last in it; the queue then holds at most 8,192 frames and 4 MiB of
octets, whatever it held; and what it keeps of the older frames is their newest run, in order. What the spec leaves open in it the model
reads as log entry 45 says. -/
def Obligations.MeasurementQueueBound : Prop :=
  ∀ (s : State) (f : MqFrame), f.payload.length ≤ 4194304 →
    let t := s.mqPush f
    (∃ k, t.eth.mq = s.eth.mq.drop k ++ [f]) ∧ t.eth.mq.length ≤ 8192 ∧ mqBytes t.eth.mq ≤ 4194304

/-- A frame with a sequence number that the duplicate judgement delivers, and that lies within the 64-frame window of any entry its source
has, is not delivered when its other copy is judged next; that copy adds 1 to the pair's duplicate counter. -/
def Obligations.PrpSecondCopyDiscarded : Prop :=
  ∀ (s : State) (pair : Nat) (mac : List Byte) (seq : Nat),
    (∀ w, w < 4 → (s.node pair (prpSet mac) w).used = true → (s.node pair (prpSet mac) w).mac = leNat mac →
      -64 < sInt 16 (65536 + seq - (s.node pair (prpSet mac) w).high)) →
    (s.prpJudge pair mac seq).1 = true →
    let t := (s.prpJudge pair mac seq).2
    (t.prpJudge pair mac seq).1 = false ∧
    (t.prpJudge pair mac seq).2.rn (Reg.ETH_PRP_DUP_CNT pair) = (t.rn (Reg.ETH_PRP_DUP_CNT pair) + 1) % 2 ^ 48

/-- FRAME_TRANSMIT on a port whose link is up queues what firmware and the host give it, and takes the frame of the highest-priority queue
that may start, oldest first: low-power idle ends, a PTP message is sealed where authentication is required, the frame and its octets (at
least 64 with the FCS) are counted, a PTP event message leaves its timestamp entry, and the frame goes out; with none that may start only
the queues change, and with the link down nothing does. PRP_SUPERVISION of a pair in PRP, PRP_LIFECHK after the last, queues the
supervision frame on both ports and counts its sequence on. PRP_LAN_FAIL of a port silent for twice PRP_LIFECHK while its partner is not
shows the port failed, once, with its event. What the spec leaves open in it the model reads as log entries 40, 44 and 105 say. LINK_UP of
an enabled port whose link is down, with an image in force, shows its speed, FEC and training and raises its event; LINK_DOWN of a link
that is up clears its status, raises the event and counts it. LPI_TX_ENTER of an idle transmitter that may use low-power idle, has it
enabled and nothing queued for its idle time enters it and counts; LPI_RX shows the partner's, and counts each entry. Otherwise each does
nothing. What the spec leaves open in it the model reads as log entry 44 says. -/
def Obligations.TransmissionAndLinks : Prop :=
  (∀ (s : State) (port : Fin 4) (pair : Fin 2) (given : List (TxSource × List Byte)),
     let p := port.val
     let q := pair.val
     let ready := fun (k : Nat) => if s.thruBit (Reg.ETH_PORT_STATUS k) 1 then s.time.ticks + s.rf (Reg.ETH_LPI_CTRL k) 16 10 * 250 else 0
     (∀ f : List Byte, (parse f).etype ≠ 0x88F7 ∨ wf (s.pat 3) 0 3 1 ≠ 1 → s.ptpSealed f = (f, s)) ∧
     (s.alive = true →
       (s.thruBit (Reg.ETH_PORT_STATUS p) 0 = true →
         let w := s.quiet.queueGiven p given
         (pickTx w.time.ticks (Tbl.get w.eth.txq p []) = none → Ends (.frameTransmit port given) s w) ∧
         (∀ (x : TxFrame) (rest : List TxFrame), pickTx w.time.ticks (Tbl.get w.eth.txq p []) = some (x, rest) →
           let v := (w.setThruF (Reg.ETH_PORT_STATUS p) 1 1 0).ptpSealed x.octets
           let e : Eth := { v.2.eth with txq := Tbl.set v.2.eth.txq p rest [], idleSince := Tbl.set v.2.eth.idleSince p v.2.time.ticks 0 }
           let z := (({ v.2 with eth := e } : State).count (Reg.ETH_TX_FRAMES p)).countBy (Reg.ETH_TX_OCTETS p) (max 64 (v.1.length + 4))
           (ptpEvent v.1 = none → Ends (.frameTransmit port given) s (z.emit (.frame p v.1))) ∧
           (∀ o, ptpEvent v.1 = some o → Ends (.frameTransmit port given) s ((z.txtsPush {
             port := p, msgType := oct v.1 o % 16, seqId := be16 v.1 (o + 30), epoch := z.epoch, time := z.txStamp p }).emit (.frame p v.1))))) ∧
       (s.thruBit (Reg.ETH_PORT_STATUS p) 0 = false → Ends (.frameTransmit port given) s s.quiet) ∧
       (s.prpOn (2 * q) = true → Tbl.get s.eth.supAt q 0 + s.lifechk ≤ s.time.ticks → Gives (.prpSupervision pair) s fun t =>
         Tbl.get t.eth.supSeq q 0 = (Tbl.get s.eth.supSeq q 0 + 1) % 65536 ∧ Tbl.get t.eth.supAt q 0 = s.time.ticks ∧
         Tbl.get t.eth.prpSeq q 0 = (Tbl.get s.eth.prpSeq q 0 + 1) % 65536 ∧
         (∃ a b, Tbl.get t.eth.txq (2 * q) [] = Tbl.get s.eth.txq (2 * q) [] ++ [⟨3, a, ready (2 * q)⟩] ∧
           Tbl.get t.eth.txq (2 * q + 1) [] = Tbl.get s.eth.txq (2 * q + 1) [] ++ [⟨3, b, ready (2 * q + 1)⟩]) ∧ t.regs = s.regs ∧ MemKept s t) ∧
       (s.prpOn (2 * q) = false → Ends (.prpSupervision pair) s s.quiet)) ∧
     (s.ticking = true →
       let partner := if p % 2 = 0 then p + 1 else p - 1
       (s.prpOn p = true → s.bit (Reg.ETH_PRP_STATUS (p / 2)) (p % 2) = false → Tbl.get s.eth.lastRct p 0 + 2 * s.lifechk ≤ s.time.ticks →
         s.time.ticks < Tbl.get s.eth.lastRct partner 0 + 2 * s.lifechk →
         Ends (.prpLanFail port) s ((s.quiet.setF (Reg.ETH_PRP_STATUS (p / 2)) (p % 2) 1 1).raise 18)) ∧
       (s.prpOn p = false ∨ s.bit (Reg.ETH_PRP_STATUS (p / 2)) (p % 2) = true ∨ s.time.ticks < Tbl.get s.eth.lastRct p 0 + 2 * s.lifechk →
         Ends (.prpLanFail port) s s.quiet))) ∧
  (∀ (s : State) (port : Fin 4) (enter : Bool), s.ticking = true →
     let p := port.val
     let st := Reg.ETH_PORT_STATUS p
     (s.img.inForce = true → s.portEn p = true → s.thruBit st 0 = false → Ends (.linkUp port) s
       ((({ s.quiet with eth := { s.eth with idleSince := Tbl.set s.eth.idleSince p s.time.ticks 0 } } : State).setThru st
         (1 + (s.portSpeed p).1 * 8 + (s.portSpeed p).2 * 32 + (if 2 ≤ p then wf (s.pat 2) 0 (6 + p) 1 else 0) * 64)).raise 16)) ∧
     (s.img.inForce = false ∨ s.portEn p = false ∨ s.thruBit st 0 = true → Ends (.linkUp port) s s.quiet) ∧
     (s.img.inForce = true → s.thruBit st 0 = true → Ends (.linkDown port) s (((s.quiet.setThru st 0).raise 16).count (Reg.ETH_LINK_CNT p))) ∧
     (s.thruBit st 0 = false → Ends (.linkDown port) s s.quiet) ∧
     (s.lpiOk p = true → s.bit (Reg.ETH_LPI_CTRL p) 0 = true → s.thruBit st 1 = false → Tbl.get s.eth.txq p [] = [] →
       Tbl.get s.eth.idleSince p 0 + s.rn (Reg.ETH_LPI_IDLE p) * 250 ≤ s.time.ticks →
       Ends (.lpiTxEnter port) s ((s.quiet.setThruF st 1 1 1).count (Reg.ETH_LPI_TX_CNT p))) ∧
     (s.lpiOk p = false ∨ s.bit (Reg.ETH_LPI_CTRL p) 0 = false ∨ s.thruBit st 1 = true → Ends (.lpiTxEnter port) s s.quiet) ∧
     (s.lpiOk p = true → enter = true → s.thruBit st 2 = false → Ends (.lpiRx port enter) s
       ((s.quiet.setThruF st 2 1 1).count (Reg.ETH_LPI_RX_CNT p))) ∧
     (s.lpiOk p = true → enter = true → s.thruBit st 2 = true → Ends (.lpiRx port enter) s (s.quiet.setThruF st 2 1 1)) ∧
     (s.lpiOk p = true → enter = false → Ends (.lpiRx port enter) s (s.quiet.setThruF st 2 1 0)) ∧
     (s.lpiOk p = false → Ends (.lpiRx port enter) s s.quiet))

/-- HRX_RING_ENABLE takes its register, and as EN rises the ring starts at BASE with HEAD and TAIL 0. HRX_TAIL_WRITE sets TAIL.
HOST_RING_WRITE with no staged frame of the ring does nothing; the oldest staged frame leaves the staging buffer and is written: on a ring
that is not enabled, or whose owner is stopped, it counts as without buffer and dropped; with no free descriptor it also raises event 25;
into free descriptors enough, its octets and its descriptors are written, HEAD moves past them and the frame counts as delivered.
HRX_IRQ_TIMER, TIME µs after the first completed frame, sets the ring's pending bit with event 24. TQ_POP releases the head of the time
queue. TCP_ACK_TIMER of a hardware connection, ACK_US after its first unacknowledged segment, sends the acknowledgement. What the spec
leaves open in it the model reads as log entry 43 says. -/
def Obligations.HostReceiveRings : Prop :=
  ∀ (s : State) (who : Party) (ring : Fin 8) (w : Word) (bufs : List (BitVec 64)) (conn : Fin 4096),
    let r := ring.val
    let v := w.toNat &&& 0x37F1F
    (s.takes who (Reg.ETH_HRX_CFG r) = true → s.bit (Reg.ETH_HRX_CFG r) 17 = false → v / 2 ^ 17 % 2 = 1 → Gives (.hrxRingEnable who ring w) s fun t =>
      t.rn (Reg.ETH_HRX_CFG r) = v ∧ t.rn (Reg.ETH_HRX_HEAD r) = 0 ∧ t.rn (Reg.ETH_HRX_TAIL r) = 0 ∧
      (t.hrx r).base = s.rn (Reg.ETH_HRX_BASE_LO r) + 2 ^ 32 * s.rn (Reg.ETH_HRX_BASE_HI r) ∧ (t.hrx r).log2n = v % 32 ∧
      (t.hrx r).bufsz = v / 2 ^ 8 % 2 ^ 7 * 256 ∧ (t.hrx r).firmware = (v / 2 ^ 16 % 2 = 1) ∧
      RegsBut (fun a => a = Reg.ETH_HRX_CFG r ∨ a = Reg.ETH_HRX_HEAD r ∨ a = Reg.ETH_HRX_TAIL r) s t ∧ MemKept s t) ∧
    (s.takes who (Reg.ETH_HRX_CFG r) = true → s.bit (Reg.ETH_HRX_CFG r) 17 = true ∨ v / 2 ^ 17 % 2 = 0 →
      Ends (.hrxRingEnable who ring w) s (s.quiet.setReg (Reg.ETH_HRX_CFG r) v)) ∧
    (s.takes who (Reg.ETH_HRX_TAIL r) = true → Ends (.hrxTailWrite who ring w) s
      (s.quiet.setReg (Reg.ETH_HRX_TAIL r) (w.toNat % 2 ^ 16))) ∧
    (s.takes who Reg.ETH_TQ_POP = true → w.getLsbD 0 = true → 0 < s.eth.tqCount → Gives (.tqPop who w) s fun t =>
      t.eth.tqCount = s.eth.tqCount - 1 ∧ t.eth.tqHead = (s.eth.tqHead + 1) % 256 ∧
      (∀ a, a ≠ sramIx (s.tqAddr s.eth.tqHead + 3) → Memory.byte t.sram a = Memory.byte s.sram a) ∧ t.ddr = s.ddr ∧
      RegsBut (· = Reg.ETH_TQ_HEAD) s t) ∧
    (s.alive = true →
      (s.eth.staged.find? (fun h => h.ring = r) = none → Ends (.hostRingWrite ring bufs) s s.quiet) ∧
      (∀ h, s.eth.staged.find? (fun h => h.ring = r) = some h →
        let u : State := { s.quiet with eth := { s.eth with staged := s.eth.staged.erase h } }
        let g := s.hrx r
        let avail := (s.rn (Reg.ETH_HRX_TAIL r) + 2 ^ g.log2n - s.rn (Reg.ETH_HRX_HEAD r)) % 2 ^ g.log2n
        let stopped := if g.firmware then s.pwr.state ≠ .run else s.dmaOn = false
        (s.bit (Reg.ETH_HRX_CFG r) 17 = false ∨ stopped → Ends (.hostRingWrite ring bufs) s
          ((u.count (Reg.ETH_HRX_NOBUF_CNT r)).count (Reg.ETH_RX_DROP h.port))) ∧
        (s.bit (Reg.ETH_HRX_CFG r) 17 = true → ¬ stopped → avail = 0 → Ends (.hostRingWrite ring bufs) s
          (((u.count (Reg.ETH_HRX_NOBUF_CNT r)).count (Reg.ETH_RX_DROP h.port)).raise 25)) ∧
        (s.bit (Reg.ETH_HRX_CFG r) 17 = true → ¬ stopped → 0 < avail → ∀ lens, fillBufs g.bufsz h.octets.length avail (h.octets.length + 1) = (lens, 0) →
          Ends (.hostRingWrite ring bufs) s
            ((u.writeBufs g.firmware h.octets lens (u.bufAddrs r bufs lens.length)).completeFrame r h lens false))) ∧
      ((s.hrx r).since ≠ 0 → s.rf (Reg.ETH_HRX_IRQ r) 0 16 ≠ 0 → (s.hrx r).firstAt + s.rf (Reg.ETH_HRX_IRQ r) 16 16 * 250 ≤ s.time.ticks →
        s.bit Reg.ETH_HRX_PEND r = false → Ends (.hrxIrqTimer ring) s ((s.quiet.setF Reg.ETH_HRX_PEND r 1 1).raise 24)) ∧
      ((s.hrx r).since = 0 ∨ s.bit Reg.ETH_HRX_PEND r = true → Ends (.hrxIrqTimer ring) s s.quiet) ∧
      (s.conn conn.val 0 % 4 = 1 → (s.tcpHw conn.val).unacked ≠ 0 →
        (s.tcpHw conn.val).firstAt + wf (s.pat 2) 7 16 16 * 250 ≤ s.time.ticks → Ends (.tcpAckTimer conn) s (s.quiet.tcpAck conn.val)) ∧
      (s.conn conn.val 0 % 4 ≠ 1 ∨ (s.tcpHw conn.val).unacked = 0 → Ends (.tcpAckTimer conn) s s.quiet))

/-- DECODE_FRAME of the head of the measurement queue, a C37.118 frame, after the checks of the memories it is read from. The frame leaves
the queue. A frame shorter than 18 octets, without SYNC 0xAA or of another length than it says counts as misshapen; one whose checksum
fails counts so; a data frame that no stream owns counts as unknown with event 30; one of another length than its stream gives is the
stream's shape error; one off the stream's grid counts so, and against the stream, with event 27; and one that passes hands its sources'
items on. With no image in force, or nothing to decode, nothing happens. What the spec leaves open in it the model reads as log entries
46, 47 and 48 say. REINJ_GO with GO, an image in force and BUSY 0 takes the frame that the reinjection registers name, its connection,
timestamp and epoch, and sets BUSY; while BUSY is 1 it is held. DEC_CMD queues the stream and command word, at most sixteen; one more only
counts as lost. DEC_CMD_SEND takes the head, no sooner than 1 µs after the last: a stream that does not exist takes nothing; one of
protocol R-SV or a disabled one shows NOT_POSSIBLE; a TCP stream's command stands in DEC_CMD_BUF for firmware; one without a template
shows NO_TEMPLATE; and any other is sent in UDP by its template. STREAM_SILENT of a stream that passed no frame for RESEND_S shows it
silent with event 31 and sends it command 0x0002, and COMMAND_RESEND repeats that. What the spec leaves open in it the model reads as log
entries 47, 49 and 107 say. -/
def Obligations.DecodingAndReinjection : Prop :=
  (∀ (s : State) (re : Bool) (err : MemErr) (errs : List (Nat × MemErr)),
     (s.alive = true → Ends (.decodeFrame re err errs) s (withErrs errs (decodeFrame re err) s.quiet)) ∧
     (s.img.inForce = false → decodeFrame re err s = s) ∧
     (s.eth.mq = [] → decodeFrame false err s = s) ∧
     (s.dec.reinj = none → decodeFrame true err s = s) ∧
     (∀ (m : MqFrame) (rest : List MqFrame), s.img.inForce = true → s.eth.mq = m :: rest → m.target ≠ 2 →
       let q : State := { s with eth := { s.eth with mq := rest, mqWatch := s.watchRead } }
       let u := ((q.checkFound 2 0).2.check 1 0 err).2
       let c : FrameCtx := { proto := m.target, v6 := m.v6, saddr := m.saddr, conn := m.conn, arr := m.rxts, epoch := m.epoch, reinj := false, host := some m.host }
       let f := m.payload
       let n := f.length
       let shaped := 18 ≤ n ∧ oct f 0 = 0xAA ∧ be16 f 2 = n
       let summed := be16 f (n - 2) = (crcCcitt (f.take (n - 2))).toNat
       let data := oct f 1 / 16 % 8 = 0
       let soc := be32 f 6
       let frac := be32 f 10 % 2 ^ 24
       (¬ shaped → decodeFrame false err s = (u.count Reg.DEC_SHAPE_CNT).showMq) ∧
       (shaped → ¬ summed → decodeFrame false err s = (u.count Reg.DEC_CHK_ERR_CNT).showMq) ∧
       (shaped → summed → data → u.bankFor c (be16 f 4) soc frac = none → decodeFrame false err s =
         ((u.count Reg.DEC_UNKNOWN_CNT).raise 30).showMq) ∧
       (∀ b k, shaped → summed → data → u.bankFor c (be16 f 4) soc frac = some (b, k) →
         let key := frameKey soc frac (fld (strWord b k 2) 0 24) (fld (strWord b k 2) 24 8) (fld (strWord b k 3) 0 10) u.utcOfs
         (fld (strWord b k 1) 0 16 ≠ n → decodeFrame false err s = (u.decShape k).showMq) ∧
         (fld (strWord b k 1) 0 16 = n → key = none → decodeFrame false err s =
           (((u.count Reg.DEC_OFFGRID_CNT).count (Reg.DEC_STREAM_DROPS k)).raise 27).showMq) ∧
         (∀ x, fld (strWord b k 1) 0 16 = n → key = some x → decodeFrame false err s =
           ((u.decPass k).decBlocks b f k (fld (strWord b k 1) 16 14) 14 (oct f 10) (fld (strWord b k 2) 24 8) m.rxts m.epoch x false
             (fld (strWord b k 0) 8 8)).showMq)))) ∧
  (∀ (s : State) (who : Party) (w : Word) (k : Fin 16384),
     (s.takes who Reg.DEC_REINJ_GO = true →
       (w.getLsbD 31 = true → s.img.inForce = true → s.dec.reinj = none → Ends (.reinjGo who w) s
         (let r : Reinj := {
            octets := Memory.read s.sram (sramIx (s.rn Reg.DEC_REINJ_ADDR)) (s.rf Reg.DEC_REINJ_LEN 0 12), conn := s.rf Reg.DEC_REINJ_LEN 16 12
            ts := s.rn Reg.DEC_REINJ_TS, epoch := w.toNat % 4 }
          ({ s.quiet with dec := { s.dec with reinj := some r, heldGo := none } } : State).setReg Reg.DEC_REINJ_STATUS 1)) ∧
       (w.getLsbD 31 = true → s.img.inForce = true → s.dec.reinj.isSome = true → Ends (.reinjGo who w) s
         { s.quiet with dec := { s.dec with heldGo := some (w.toNat % 4) } }) ∧
       (w.getLsbD 31 = false → Ends (.reinjGo who w) s s.quiet)) ∧
     (s.takes who Reg.DEC_CMD = true → s.img.inForce = true →
       (s.dec.cmds.length < 16 → Ends (.decCmd who w) s
         (({ s.quiet with dec := { s.dec with cmds := s.dec.cmds ++ [(w.toNat % 2 ^ 14, w.toNat / 2 ^ 16)] } } : State).setF Reg.DEC_CMD_STATUS 0 5
           (s.dec.cmds.length + 1))) ∧
       (16 ≤ s.dec.cmds.length → Ends (.decCmd who w) s (s.quiet.count Reg.DEC_CMD_LOST_CNT))) ∧
     (s.alive = true →
       (s.dec.cmds = [] → Ends .decCmdSend s s.quiet) ∧
       (∀ t, s.dec.cmdAt = some t → s.time.ticks < t + 250 → Ends .decCmdSend s s.quiet) ∧
       (∀ n cmd rest, s.dec.cmds = (n, cmd) :: rest → (∀ t, s.dec.cmdAt = some t → t + 250 ≤ s.time.ticks) →
         let u := ({ s.quiet with dec := { s.dec with cmds := rest, cmdAt := some s.time.ticks } } : State).setF Reg.DEC_CMD_STATUS 0 5 rest.length
         let b := u.srcNow
         let proto := fld (strWord b n 0) 0 2
         (wf b 0 0 15 ≤ n → Ends .decCmdSend s u) ∧
         (n < wf b 0 0 15 → proto = 2 ∨ proto = 3 → Ends .decCmdSend s (u.setF Reg.DEC_CMD_STATUS 8 2 3)) ∧
         (n < wf b 0 0 15 → proto = 1 → Ends .decCmdSend s
           ((u.setWords (Reg.DEC_CMD_BUF 0) (wordsOf (padTo 20 (u.cmdFrame (fld (strWord b n 0) 16 16) (fld (strWord b n 2) 0 24) cmd)) 5)).setF
             Reg.DEC_CMD_STATUS 8 2 2)) ∧
         (n < wf b 0 0 15 → proto = 0 → fld (strWord b n 5) 0 11 = 0x7FF → Ends .decCmdSend s (u.setF Reg.DEC_CMD_STATUS 8 2 1)) ∧
         (n < wf b 0 0 15 → proto = 0 → fld (strWord b n 5) 0 11 ≠ 0x7FF → Ends .decCmdSend s
           ((u.cmdUdp b n cmd).setF Reg.DEC_CMD_STATUS 8 2 0))) ∧
       (s.img.inForce = true → k.val < wf s.srcNow 0 0 15 → fld (strWord s.srcNow k.val 0) 0 2 ≠ 3 → s.resendTicks ≠ 0 →
         s.bit (Reg.DEC_STREAM_FLAGS k.val) 0 = false → max s.dec.base (Tbl.get s.dec.lastPass k.val 0 - 1) + s.resendTicks ≤ s.time.ticks →
         Ends (.streamSilent k) s (((s.quiet.setSilent k.val true).raise 31).turnOn k.val)) ∧
       (s.img.inForce = false ∨ s.bit (Reg.DEC_STREAM_FLAGS k.val) 0 = true → Ends (.streamSilent k) s s.quiet) ∧
       (s.img.inForce = true → k.val < wf s.srcNow 0 0 15 → s.bit (Reg.DEC_STREAM_FLAGS k.val) 0 = true → s.resendTicks ≠ 0 →
         Tbl.get s.dec.lastResend k.val 0 + s.resendTicks ≤ s.time.ticks + 1 → Ends (.commandResend k) s (s.quiet.turnOn k.val)) ∧
       (s.bit (Reg.DEC_STREAM_FLAGS k.val) 0 = false ∨ wf s.srcNow 0 0 15 ≤ k.val → Ends (.commandResend k) s s.quiet)))

/-- UPSTREAM_FRAME_BUILD of a stream that has a next instant, while the measurement path works. An item still to come: nothing yet. An
item whose seam was discarded: the instant is skipped and counted. An item whose estimate will not come, or a device in STANDBY: the
instant is passed without a frame. Otherwise the slots of its items are checked, the instant is done and its frame, with the items' values
and those of unreadable slots absent, goes out. A stream with no next instant does nothing. What the spec leaves open in it the model
reads as log entry 51 says. The C37.118 data frame of a stream begins with 0xAA 0x02; its FRAMESIZE is its length and its IDCODE the
stream's, where the frame is shorter than 65,536 octets; and its last two octets are the CRC-CCITT of the others. -/
def Obligations.UpstreamFrames : Prop :=
  (∀ (s : State) (n : Fin 16) (errs : List (Nat × MemErr)),
     (s.alive = true → Ends (.upstreamFrameBuild n errs) s (withErrs errs (upstreamFrameBuild n.val) s.quiet)) ∧
     (s.upNext n.val = none → upstreamFrameBuild n.val s = s) ∧
     (∀ b i, s.upNext n.val = some (b, i) → s.measuring = true →
       let t0 := instT0 (upRate b n.val) i
       let vs := (upItems b n.val).map fun k => (k, s.upView b k t0)
       let has := fun v => vs.any fun x => decide (x.2 = v)
       (has .wait = true → upstreamFrameBuild n.val s = s) ∧
       (has .wait = false → has .discarded = true → upstreamFrameBuild n.val s = (s.count Reg.DEC_UP_SKIP_CNT).setUpLast n.val t0) ∧
       (has .wait = false → has .discarded = false → s.standby = true ∨ has .undecided = true →
         upstreamFrameBuild n.val s = s.setUpLast n.val t0) ∧
       (has .wait = false → has .discarded = false → s.standby = false → has .undecided = false →
         let r := s.checkUps b t0 (upItems b n.val)
         upstreamFrameBuild n.val s = (r.2.setUpLast n.val t0).upSend b n.val (r.2.upFrame b n.val t0 i
           (vs.map fun x => (x.1, x.2.without (r.1.contains (fld (upItem b x.1 1) 0 14)))))))) ∧
  (∀ (s : State) (b : List Byte) (n t0 i : Nat) (vs : List (Nat × UpView)),
     let f := s.upFrame b n t0 i vs
     16 ≤ f.length ∧ oct f 0 = 0xAA ∧ oct f 1 = 2 ∧ (f.length < 65536 → be16 f 2 = f.length) ∧ be16 f 4 = fld (upWord b n 0) 16 16 ∧
     be16 f (f.length - 2) = (crcCcitt (f.take (f.length - 2))).toNat)

/-- For every rate r above 0 and time in ns: T0 of instant sec × r + n, with n below r, is sec seconds and floor(n × 10^9 / r) ns; the
latest instant at or before the time has its T0 at or before it, and the next instant has its T0 after it. -/
def Obligations.ReportingInstants : Prop :=
  ∀ r ns sec n : Nat, 0 < r →
    (n < r → instT0 r (sec * r + n) = 1000000000 * sec + 1000000000 * n / r) ∧
    instT0 r (latestInst r ns) ≤ ns ∧ ns < instT0 r (latestInst r ns + 1)

/-- SEAM_ITEM_ADMIT while the measurement path works takes the next item of the crossings; with them empty, or the path stopped, nothing
happens; a pending image whose last instant before A that decides is released. A source of no group counts; an item in UNSET, or more than
EARLY_US before its instant, counts early with event 35; any other is a sample of its source's latency. Of an instant that the bank in
force places, one below its group's lowest open instant is late; otherwise the group opens up to its instant and the item is written. An
item of an instant of the bank before the last release is late there, or counts late where that bank's group is gone. What the spec leaves
open in it the model reads as log entries 52 and 109 say. -/
def Obligations.ItemAdmission : Prop :=
  ∀ (s : State) (errs : List (Nat × MemErr)),
    (s.alive = true → Ends (.seamItemAdmit errs) s (withErrs errs seamItemAdmit s.quiet).releaseCheck) ∧
    (s.pend = false → s.releaseCheck = s) ∧
    (s.measuring = false → seamItemAdmit s = s) ∧
    (s.seam.ingress = [] → s.seam.bridge = [] → seamItemAdmit s = s) ∧
    (∀ (it : Item) (u : State), s.measuring = true → s.popItem = (some it, u) → seamItemAdmit s = u.admitItem it) ∧
    (∀ it : Item,
      let old := decide (it.t0 < s.img.oldUntil)
      let b := if old then s.img.oldGroups else s.patAt 5 it.t0
      (groupOfSrc b it.src = none → s.admitItem it = s.count Reg.SEAM_NOGRP_CNT) ∧
      (∀ g, groupOfSrc b it.src = some g →
        let i := it.sec * grpRate b g + it.n
        let t0 := instT0 (grpRate b g) i
        let nx := s.pend && decide (s.actNs ≤ it.t0) && (s.group true g).isSome
        let u := s.learn (if old then s.pastGroup g else s.group nx g) b g it t0
        let early := s.disc = stUnset ∨ s.nowNs + fld (grpWord b g 10) 0 16 * 1000 < t0
        (early → s.admitItem it = (s.count Reg.SEAM_EARLY_CNT).raise 35) ∧
        (¬ early → old = true →
          (u.pastGroup g = none → s.admitItem it = (u.count Reg.SEAM_LATE_CNT).raise 34) ∧
          (∀ x, u.pastGroup g = some x →
            s.admitItem it = u.lateItem (fun y s => s.setPast g y) b g i (u.ahead true g) x it t0)) ∧
        (¬ early → old = false → ∀ x, u.group nx g = some x →
          (i < x.lo → s.admitItem it =
            u.lateItem (fun y s => s.setGroup nx g (some y)) b g i (if nx then (0, 0) else u.ahead false g) x it t0) ∧
          (x.lo ≤ i → s.admitItem it =
            ((if nx then u.openOld g i else u).openUpTo nx g i (grpRate b g) 0).writeItem nx b g i it t0))))

/-- An item whose source has none yet in its open seam: its slot holds the item, its quality's bad mark, group, arrival and latency, and
is no duplicate; SEAM_ITEMS_CNT rises by one; and no other slot changes. An item whose source has one: the slot keeps all but its
duplicate mark, which sets; SEAM_DUP_CNT rises by one and event 36 pends. -/
def Obligations.SlotWrite : Prop :=
  ∀ (s : State) (b : List Byte) (g i t0 : Nat) (it : Item) (x : Group) (m : Seam), s.group false g = some x → x.seamOf i = some m →
    let t := s.writeItem false b g i it t0
    (m.present.contains it.src = false →
      t.slotAt it.src (i % 8) = {
        bad := fld it.payload.qual 21 1 = 1, reinj := fld it.payload.qual 23 1 = 1, epoch := it.epoch, group := g, source := it.src
        arr := it.arr, lat := latOf it.arr t0, sec := it.sec, n := it.n, payload := it.payload } ∧
      (∀ src w, w < 8 → src ≠ it.src ∨ w ≠ i % 8 → t.slotAt src w = s.slotAt src w) ∧
      t.rn Reg.SEAM_ITEMS_CNT = (s.rn Reg.SEAM_ITEMS_CNT + 1) % 2 ^ 48) ∧
    (m.present.contains it.src = true →
      t = ((s.setSlotAt it.src (i % 8) { s.slotAt it.src (i % 8) with dup := true }).count Reg.SEAM_DUP_CNT).raise 36)

/-- A seam is complete when every member has an item, and by quorum, where the group releases so, when at least QUORUM members and every
MUST member have one. SEAM_DEADLINE makes ready with cause DEADLINE every open seam that is not yet ready and whose deadline the counter
has reached, and leaves the others. SEAM_CLOSE closes the lowest open seam of a group where it is ready, and none where it is not.
SEAM_OPEN_TIME in UNSET, or while the measurement path does not work, does nothing; else, with no partial image pending, it judges the
deadlines, closes the lowest seam where that is ready and would be forced, and opens the group up to its latest instant. Both take what
the checks of the slots read at a close find, and release a pending image whose last instant before A they decide. What the spec leaves
open in it the model reads as log entry 53 says. SEAM_LRN_RESET with GO of a group of the image in force clears its members' learners and
forms its deadline anew. SEAM_MEND_POP releases the oldest mend record, whose place then reads as zero, and does nothing where there is
none. SEAM_SLOT_SEL asks for a snapshot of a slot and shows it not ready; SLOT_SNAPSHOT_READY shows the slot's bytes, ABSENT where the
store's check fails, and shows it ready. HIST_RECORD_WRITE takes the oldest waiting seam's record off the list in RUN and writes it to the
ring; with none waiting, or outside RUN, it does nothing. What the spec leaves open in it the model reads as log entries 56, 57 and 109
say. -/
def Obligations.SeamReadinessAndControls : Prop :=
  (∀ (s : State) (group : Fin 256) (x : Group) (b : List Byte) (m : Seam) (errs : List (Nat × MemErr)),
     let g := group.val
     let due := x.openSeams.filter fun m => m.ready.isNone && m.t0 + m.dl ≤ s.nowNs
     ((members b g).all (fun r => m.present.contains (fld r 0 14)) = true → readyCause b g m = some causeComplete) ∧
     ((members b g).all (fun r => m.present.contains (fld r 0 14)) = false →
       (fld (grpWord b g 0) 9 1 = 1 → m.quorum ≤ m.present.length →
         (members b g).all (fun r => fld r 14 1 = 0 || m.present.contains (fld r 0 14)) = true → readyCause b g m = some causeQuorum) ∧
       (fld (grpWord b g 0) 9 1 = 0 ∨ m.present.length < m.quorum → readyCause b g m = none)) ∧
     (s.alive = true → Ends (.seamClose group errs) s (withErrs errs (seamClose g) s.quiet).releaseCheck ∧
       Ends (.seamOpenTime group errs) s (withErrs errs (seamOpenTime g) s.quiet).releaseCheck) ∧
     (s.disc = stUnset ∨ s.measuring = false → seamOpenTime g s = s) ∧
     (s.group false g = some x → s.group true g = none →
       (s.alive = true → Ends (.seamDeadline group) s
         ((s.quiet.setGroup false g (some (due.foldl (fun y m => y.put { m with ready := some causeDeadline }) x))).showGroup g)) ∧
       (∀ rest, x.openSeams = m :: rest →
         (∀ c, m.ready = some c → seamClose g s = s.closeSeam false g m c) ∧
         (m.ready = none → seamClose g s = s)) ∧
       (s.disc ≠ stUnset → s.measuring = true → s.pend = false → grpRate (s.pat 5) g ≠ 0 →
         let r := grpRate (s.pat 5) g
         let j := latestInst r s.nowNs
         seamOpenTime g s = ((seamDeadline g s).closeBefore false g j).openUpTo false g j r 0))) ∧
  (∀ (s : State) (who : Party) (w : Word) (err : MemErr) (errs : List MemErr),
     (s.takes who Reg.SEAM_LRN_RESET = true →
       let g := w.toNat % 256
       let t := s.nowNs
       let b := s.patAt 5 t
       let ps := s.paramsFor (s.groupAt g t) b g t
       (w.getLsbD 31 = true → g < grpCnt b → Ends (.seamLrnReset who w) s
         ((s.quiet.clearLearners b g ps (memSources b g)).formDl b g t ps true)) ∧
       (w.getLsbD 31 = false ∨ grpCnt b ≤ g → Ends (.seamLrnReset who w) s s.quiet)) ∧
     (s.takes who Reg.SEAM_MEND_POP = true →
       (w.getLsbD 0 = true → 0 < s.seam.mendCount → Ends (.seamMendPop who w) s
         (let u := s.quiet.sramWrite (s.mendBase + 256 * (s.seam.mendHead % 1024)) (List.replicate 256 0)
          (({ u with seam := { s.seam with mendHead := (s.seam.mendHead + 1) % 1024, mendCount := s.seam.mendCount - 1 } } : State).setXWatch 5
           s.watchRead).showMend)) ∧
       (w.getLsbD 0 = false ∨ s.seam.mendCount = 0 → Ends (.seamMendPop who w) s s.quiet)) ∧
     (s.takes who Reg.SEAM_SLOT_SEL = true → Ends (.seamSlotSel who w) s
       (({ s.quiet with seam := { s.seam with slotSel := some (w.toNat % 2 ^ 14, w.toNat / 2 ^ 16 % 8) } } : State).setReg Reg.SEAM_SLOT_STAT 0)) ∧
     (s.alive = true →
       (s.seam.slotSel = none → Ends (.slotSnapshotReady err) s s.quiet) ∧
       (∀ src way, s.seam.slotSel = some (src, way) → s.flt.inject = none → errFound err ≠ .ue → errAgain err = false → Ends (.slotSnapshotReady err) s
         ((({ s.quiet with seam := { s.seam with slotSel := none } } : State).setWords (Reg.SEAM_SLOT_DATA 0)
           (wordsOf ((s.slotAt src way).bytes (s.slotFlags src way).1 (s.slotFlags src way).2) 64)).setReg Reg.SEAM_SLOT_STAT 1)) ∧
       (∀ src way, s.seam.slotSel = some (src, way) → s.flt.inject = none → err = .ue → Ends (.slotSnapshotReady err) s
         (let u := s.quiet.detect 0 (src + 2 ^ 14 * way) false
          (({ u with seam := { u.seam with slotSel := none } } : State).setWords (Reg.SEAM_SLOT_DATA 0)
            (wordsOf ((s.slotAt src way).bytes false (s.slotFlags src way).2) 64)).setReg Reg.SEAM_SLOT_STAT 1)) ∧
       (s.seam.hist = [] ∨ s.pwr.state ≠ .run → Ends (.histRecordWrite errs) s s.quiet) ∧
       (∀ t ks rest, s.seam.hist = (t, ks) :: rest → s.pwr.state = .run → ∀ u : State,
         (let c : State := { s.quiet with seam := { s.seam with hist := rest } }
          let b := c.patAt 5 t.t0
          let full := wf b 0 10 1 = 1
          let len := 64 + ks.length * (if full then 256 else 128)
          u = if 1048576 * wf b 6 0 17 < c.histWptr + len then c.histWrap (word2 b 4) (1048576 * wf b 6 0 17) full else c) →
         let b := s.patAt 5 t.t0
         let full := wf b 0 10 1 = 1
         let len := 64 + ks.length * (if full then 256 else 128)
         let e := u.histEntries full t.way ks errs
         let prev := Tbl.get e.2.seam.histPrev t.group 0
         Ends (.histRecordWrite errs) s
           (let v := (e.2.ddrWrite (word2 b 4 + u.histWptr + 64) e.1).ddrWrite (word2 b 4 + u.histWptr)
              (histHeader t.group full false (e.2.rn Reg.SEAM_HIST_LAP) len (t.words.flatMap (leBytes 4)) (if prev = 0 then 2 ^ 64 - 1 else prev - 1))
            let v := { v with seam := { v.seam with histPrev := Tbl.set v.seam.histPrev t.group (u.histWptr + 1) 0 } }
            v.setHistWptr (u.histWptr + len)))))

/-- MUL, MACC, MSUB, CMAC, EXTR, CLR and ACCADD, each of a node ready to fire. MUL puts the product of A and B in the accumulator, MACC
and MSUB add it to or take it from it; CMAC adds the complex product of the pairs A and B to accumulators n and n + 4; ACCADD adds C
shifted left by EXT; each saturates at 96 bits. EXTR writes the accumulator scaled by 2^-SH and rounded, saturated or wrapped, to DST; CLR
clears the accumulator. VOID is the OR of what went in. ADD, SUB, NEG, ABS, MIN, MAX, CMPLT, CMPGE, AND, OR, XOR, SHL, SHRA, SEL and MOVI,
each of a node ready to fire: DST takes the result on the 40-bit operands, saturated at ±(2^39 − 1) where SAT is set and wrapped otherwise
for the sums; comparisons give 1 or 0; SHL wraps and SHRA keeps the sign; SEL takes A where C is not zero and B otherwise; MOVI gives the
signed immediate. VOID is the OR of what went in. -/
def Obligations.MicroArithmetic : Prop :=
  (∀ (s u : State) (t : Fin 256) (f : Firing) (x : Fire),
     let a := (u.opA x).1
     let b := (u.opB x).1
     let c := (u.opC x).1
     let acc := (u.uacc x.tile x.acc).1
     let n := x.acc % 4
     let a2 := (u.opA2 x).1
     let b2 := (u.opB2 x).1
     let re := a * b - a2 * b2
     let im := a * b2 + a2 * b
     let pv := x.void || (u.opA x).2 || (u.opA2 x).2 || (u.opB x).2 || (u.opB2 x).2
     let ex := extract x.rnd (x.ext 0 7) x.sat acc
     (s.fires t f 0 0 x u → Ends (.mul t f) s (u.accumulate x x.acc (a * b) (x.void || (u.opA x).2 || (u.opB x).2)).fired) ∧
     (s.fires t f 0 1 x u → Ends (.macc t f) s (u.accumulate x x.acc (acc + a * b) (x.void || (u.opA x).2 || (u.opB x).2 || (u.uacc x.tile x.acc).2)).fired) ∧
     (s.fires t f 0 2 x u → Ends (.msub t f) s (u.accumulate x x.acc (acc - a * b) (x.void || (u.opA x).2 || (u.opB x).2 || (u.uacc x.tile x.acc).2)).fired) ∧
     (s.fires t f 0 3 x u → Ends (.cmac t f) s ((u.accumulate x n ((u.uacc x.tile n).1 + re) (pv || (u.uacc x.tile n).2)).accumulate x (n + 4)
       ((u.uacc x.tile (n + 4)).1 + im) (pv || (u.uacc x.tile (n + 4)).2)).fired) ∧
     (s.fires t f 0 4 x u → Ends (.extr t f) s ((u.ovf ex.2).result x (ex.1, x.void || (u.uacc x.tile x.acc).2)).fired) ∧
     (s.fires t f 0 5 x u → Ends (.clr t f) s (u.setUacc x.tile x.acc (0, x.void)).fired) ∧
     (s.fires t f 0 6 x u → Ends (.accadd t f) s (u.accumulate x x.acc (acc + c * (2 ^ x.ext 0 7 : Nat)) (x.void || (u.uacc x.tile x.acc).2 || (u.opC x).2)).fired)) ∧
  (∀ (s u : State) (t : Fin 256) (f : Firing) (x : Fire),
     let a := (u.opA x).1
     let b := (u.opB x).1
     let c := (u.opC x).1
     (s.fires t f 1 0 x u → Ends (.add t f) s (u.result x (alu40 x.sat (a + b), x.void || (u.opA x).2 || (u.opB x).2)).fired) ∧
     (s.fires t f 1 1 x u → Ends (.sub t f) s (u.result x (alu40 x.sat (a - b), x.void || (u.opA x).2 || (u.opB x).2)).fired) ∧
     (s.fires t f 1 2 x u → Ends (.neg t f) s (u.result x (alu40 x.sat (-a), x.void || (u.opA x).2)).fired) ∧
     (s.fires t f 1 3 x u → Ends (.abs t f) s (u.result x (alu40 x.sat (a.natAbs : Nat), x.void || (u.opA x).2)).fired) ∧
     (s.fires t f 1 4 x u → Ends (.min t f) s (u.result x (if a ≤ b then a else b, x.void || (u.opA x).2 || (u.opB x).2)).fired) ∧
     (s.fires t f 1 5 x u → Ends (.max t f) s (u.result x (if a ≤ b then b else a, x.void || (u.opA x).2 || (u.opB x).2)).fired) ∧
     (s.fires t f 1 6 x u → Ends (.cmplt t f) s (u.result x (if a < b then 1 else 0, x.void || (u.opA x).2 || (u.opB x).2)).fired) ∧
     (s.fires t f 1 7 x u → Ends (.cmpge t f) s (u.result x (if b ≤ a then 1 else 0, x.void || (u.opA x).2 || (u.opB x).2)).fired) ∧
     (s.fires t f 1 8 x u → Ends (.and t f) s (u.result x ((BitVec.ofInt 40 a &&& BitVec.ofInt 40 b).toInt, x.void || (u.opA x).2 || (u.opB x).2)).fired) ∧
     (s.fires t f 1 9 x u → Ends (.or t f) s (u.result x ((BitVec.ofInt 40 a ||| BitVec.ofInt 40 b).toInt, x.void || (u.opA x).2 || (u.opB x).2)).fired) ∧
     (s.fires t f 1 10 x u → Ends (.xor t f) s (u.result x ((BitVec.ofInt 40 a ^^^ BitVec.ofInt 40 b).toInt, x.void || (u.opA x).2 || (u.opB x).2)).fired) ∧
     (s.fires t f 1 11 x u → Ends (.shl t f) s (u.result x (sInt 40 (uNat 40 (a * (2 ^ x.ext 0 6 : Nat))), x.void || (u.opA x).2)).fired) ∧
     (s.fires t f 1 12 x u → Ends (.shra t f) s (u.result x (a / (2 ^ x.ext 0 6 : Nat), x.void || (u.opA x).2)).fired) ∧
     (s.fires t f 1 13 x u → Ends (.sel t f) s (u.result x (if c ≠ 0 then a else b, x.void || (u.opA x).2 || (u.opB x).2 || (u.opC x).2)).fired) ∧
     (s.fires t f 1 14 x u → Ends (.movi t f) s (u.result x (sInt 20 (x.ext 0 20), x.void)).fired))

/-- ROT, VEC, SINCOS, ATAN2, DIV, RECIP, SQRT and RSQRT, each of a node ready to fire. ROT rotates the pair A by the angle B, VEC gives
the magnitude and angle of the pair A, SINCOS the cosine and sine of A, ATAN2 the angle of (A, B); DIV, SQRT and RSQRT give the quotient
and the roots scaled by 2^SH and rounded by RND, RECIP the quotient of 2^SH by A. Saturations and the corner cases count as overflows; a
corner case is VOID. The last bits of the CORDIC results are free values within the spec's ±2 LSB (the model's reading, log entry 6). What
the spec leaves open in it the model reads as log entry 58 says. -/
def Obligations.MicroSpecialUnits : Prop :=
  ∀ (s u : State) (t : Fin 256) (f : Firing) (x : Fire),
    let a := (u.opA x).1
    let b := (u.opB x).1
    let a2 := (u.opA2 x).1
    let r := rotRaw ⟨a, a2⟩ (uNat 40 b)
    let pv := x.void || (u.opA x).2 || (u.opA2 x).2 || (u.opB x).2
    let av := x.void || (u.opA x).2 || (u.opA2 x).2
    let m := within2 (Config.cordic 5 a a2 0) (isqrt (2 ^ 32 * (a * a + a2 * a2).toNat)) 16
    (s.fires t f 2 0 x u → Ends (.rot t f) s (((u.ovf (over39 r.re)).ovf (over39 r.im)).result2 x (sat39 r.re, pv) (sat39 r.im, pv)).fired) ∧
    (s.fires t f 2 1 x u → Ends (.vec t f) s ((u.ovf (over39 m)).result2 x ((Sys2Proof.Machine.vec ⟨a, a2⟩).1, av) (sInt 40 (Sys2Proof.Machine.vec ⟨a, a2⟩).2, av)).fired) ∧
    (s.fires t f 2 2 x u → Ends (.sincos t f) s (u.result2 x ((sinCos40 (uNat 40 a)).1, x.void || (u.opA x).2) ((sinCos40 (uNat 40 a)).2, x.void || (u.opA x).2)).fired) ∧
    (s.fires t f 2 3 x u → Ends (.atan2 t f) s (u.result x (sInt 40 (atan40 b a), x.void || (u.opA x).2 || (u.opB x).2)).fired) ∧
    (s.fires t f 3 0 x u → Ends (.div t f) s (u.divResult x (divFix x.rnd (x.ext 0 6) a b) ((u.opA x).2 || (u.opB x).2)).fired) ∧
    (s.fires t f 3 1 x u → Ends (.recip t f) s (u.divResult x (divFix x.rnd (x.ext 0 6) (2 ^ x.ext 0 6 : Nat) a) (u.opA x).2).fired) ∧
    (s.fires t f 3 2 x u → Ends (.sqrt t f) s (u.divResult x (sqrtFix x.rnd (x.ext 0 6) a) (u.opA x).2).fired) ∧
    (s.fires t f 3 3 x u → Ends (.rsqrt t f) s (u.divResult x (rsqrtFix x.rnd (x.ext 0 6) a) (u.opA x).2).fired)

/-- LD40, LD64, ST40, ST64, LDX40, STX40, SEND LOCAL, SEND RING, SEND CNT, SEND ALARM, SEND DONE and SEND BLOCK, each of a foreground node
ready to fire, with sound tile memory and ring cells. A load gives the lane at EXT, or at EXT plus A for the X form (the word's low 40 and
high 24 bits for LD64), to DST; a store puts C, or the pair C, there. SEND LOCAL gives A as a token to a node of the panel, SEND RING to
each stop of its route, SEND CNT takes one off a dependence counter, SEND ALARM puts the 64 bytes at word address A in the alarm crossing,
SEND DONE sets the DONE of a started panel, and SEND BLOCK gives the eight lanes from A to each stop of its route. A loaded value is not
VOID. A lane address beyond the last loads a free value and stores nothing (the model's choice, log entry 7). What the spec leaves open in
it the model reads as log entries 58, 60 and 112 say. NOP and END of a node ready to fire take its tokens and do nothing more; LOOP gives
its token again with TAG + 1 while TAG is below A, and nothing from A on; TRAP detects the orphan fault, source 18, of its panel. A node
whose word names another operation, one whose tokens have not all come or whose turn has not, and a tile without a role or with the
measurement path stopped do nothing: ADD stands for the forty-nine. What the spec leaves open in it the model reads as log entries 59 and
60 say. -/
def Obligations.MicroMemoryAndControl : Prop :=
  (∀ (s u : State) (t : Fin 256) (f : Firing) (x : Fire), x.bg = false → x.derr = .ok → x.cerr = .ok →
     let a := (u.opA x).1
     let c := (u.opC x).1
     let k := x.ext 0 16
     let kx := uNat 40 ((k : Nat) + a)
     let w := k % 2 ^ 15
     let word64 := leNat (u.tileBytes x.tile (8 * w) 8)
     let au := uNat 40 a
     let e := u.route (x.tile / 16) (x.ext 0 8)
     let blk : Block := {
       tile := fld e.1 19 4, lane := fld e.2 12 16, cntr := fld e.1 24 6, bg := fld e.1 23 1 = 1
       data := (List.range 8).map fun i => u.lane x.tile (au + i) }
     (k < 52428 → s.fires t f 4 0 x u → Ends (.ld40 t f) s (u.result x ((u.lane x.tile k).toInt, false)).fired) ∧
     (52428 ≤ k → s.fires t f 4 0 x u → Ends (.ld40 t f) s ((u.result x ((u.draw 40).toInt, false)).drawn).fired) ∧
     (s.fires t f 4 1 x u → Ends (.ld64 t f) s (u.result2 x (sInt 40 word64, false) ((word64 / 2 ^ 40 : Nat), false)).fired) ∧
     (s.fires t f 4 2 x u → Ends (.st40 t f) s (u.setLane x.tile k (BitVec.ofInt 40 c)).fired) ∧
     (s.fires t f 4 3 x u → Ends (.st64 t f) s (u.tileStore x.tile (8 * w) (leBytes 8 (uNat 40 c + 2 ^ 40 * uNat 24 (u.opC2 x).1))).fired) ∧
     (kx < 52428 → s.fires t f 4 4 x u → Ends (.ldx40 t f) s (u.result x ((u.lane x.tile kx).toInt, false)).fired) ∧
     (52428 ≤ kx → s.fires t f 4 4 x u → Ends (.ldx40 t f) s ((u.result x ((u.draw 40).toInt, false)).drawn).fired) ∧
     (s.fires t f 4 5 x u → Ends (.stx40 t f) s (u.setLane x.tile kx (BitVec.ofInt 40 c)).fired) ∧
     (s.fires t f 5 0 x u → Ends (.sendLocal t f) s (u.localToken x (a, x.void || (u.opA x).2)).fired) ∧
     (s.fires t f 5 1 x u → Ends (.sendRing t f) s (u.ringToken x (x.ext 0 8) 0 (a, x.void || (u.opA x).2)).fired) ∧
     (s.fires t f 5 2 x u → Ends (.sendCnt t f) s (u.decrement (x.tile / 16) (x.ext 0 6)).fired) ∧
     (s.fires t f 5 3 x u → Ends (.sendAlarm t f) s (u.pushAlarm (AlarmEntry.parse (u.role (x.tile / 16)) (u.tileBytes x.tile (8 * (au % 2 ^ 15)) 64))).fired) ∧
     (s.fires t f 5 4 x u → Ends (.sendDone t f) s (u.putPanel (x.tile / 16) { u.panel (x.tile / 16) with doneSent := (u.panel (x.tile / 16)).started }).fired) ∧
     (s.fires t f 5 5 x u → Ends (.sendBlock t f) s (u.forRange (fun p v =>
       if fld e.1 p 1 = 1 then v.panelCell p (.block (x.tile / 16) blk) else v) 0 16).fired)) ∧
  (∀ (s u : State) (t : Fin 256) (f : Firing) (x : Fire),
     (s.fires t f 6 0 x u → Ends (.nop t f) s u.fired) ∧
     (s.fires t f 6 2 x u → Ends (.endSeq t f) s u.fired) ∧
     (s.fires t f 6 3 x u → Ends (.trap t f) s (u.detect 18 (x.tile / 16) false).fired) ∧
     (∀ k, s.fires t f 6 1 x u → x.ports.getD 0 none = some k → (x.tag : Int) < (u.opA x).1 → Ends (.loopTok t f) s
       (u.toTile x.tile { k with node := f.node, tag := (x.tag + 1) % 65536, stalled := false, src := x.tile % 16 }).fired) ∧
     (s.fires t f 6 1 x u → (u.opA x).1 ≤ (x.tag : Int) → Ends (.loopTok t f) s u.fired) ∧
     (s.alive = true → s.measuring = false ∨ s.role (t.val / 16) = 0 ∨ s.ucode t.val f.node / 2 ^ 60 % 16 ≠ 1 ∨
       s.ucode t.val f.node / 2 ^ 56 % 16 ≠ 0 ∨ s.quiet.takeFire t.val f = none → Ends (.add t f) s s.quiet))

/-- An accumulator given an exact sum: within −2^95 to 2^95 − 1 it holds the sum and nothing counts; above or below it holds the bound,
and FAB_ACC_SAT_CNT rises by one. The other accumulators, the registers, the SRAM and the tokens of every tile stay as they are. What EXTR
gives for an accumulator value v at shift sh with RND 0 to 3: q, the rounding of v / 2^sh, lies within one unit of it, and within half a
unit for RND 0 and 3; below it or at it for RND 1; with SAT the result is q held within ±(2^39 − 1), and without it q modulo 2^40 as a
signed number; OVF is set exactly where the result is not q. DIV of a by b scaled by 2^sh, with RND 0: for b not zero the result is the
integer nearest to a × 2^sh / b, held within ±(2^39 − 1), and is not VOID; for b zero it is +(2^39 − 1) where a is at least 0 and −(2^39 −
1) otherwise, and VOID. SQRT of a scaled by 2^sh below 2^192, with RND 1 or 2, is the largest integer whose square is at most a × 2^sh,
held at 2^39 − 1; of a negative a it is 0 and VOID. -/
def Obligations.FixedPointResults : Prop :=
  (∀ (s : State) (x : Fire) (a : Nat) (v : Int) (w : Bool), a < 8 →
     let t := s.accumulate x a v w
     (-(2 ^ 95) ≤ v → v < 2 ^ 95 → t.uacc x.tile a = (v, w) ∧ t.rn Reg.FAB_ACC_SAT_CNT = s.rn Reg.FAB_ACC_SAT_CNT) ∧
     (2 ^ 95 ≤ v → t.uacc x.tile a = (2 ^ 95 - 1, w) ∧ t.rn Reg.FAB_ACC_SAT_CNT = (s.rn Reg.FAB_ACC_SAT_CNT + 1) % 2 ^ 48) ∧
     (v < -(2 ^ 95) → t.uacc x.tile a = (-(2 ^ 95), w) ∧ t.rn Reg.FAB_ACC_SAT_CNT = (s.rn Reg.FAB_ACC_SAT_CNT + 1) % 2 ^ 48) ∧
     (∀ tile b, tile ≠ x.tile ∨ (b < 8 ∧ b ≠ a) → t.uacc tile b = s.uacc tile b) ∧
     (∀ tile, (t.tile tile).regs = (s.tile tile).regs ∧ (t.tile tile).sram = (s.tile tile).sram ∧ (t.tile tile).store = (s.tile tile).store)) ∧
  (∀ (mode sh : Nat) (v : Int),
     let q := rnd mode v (2 ^ sh)
     let d : Int := (2 ^ sh : Nat)
     (q * d - v < d ∧ v - q * d < d) ∧ (mode = 0 ∨ 3 ≤ mode → 2 * (q * d - v) ≤ d ∧ 2 * (v - q * d) ≤ d) ∧ (mode = 1 → q * d ≤ v) ∧
     (mode = 2 → q.natAbs * 2 ^ sh ≤ v.natAbs) ∧
     ((extract mode sh true v).1 = max (-(2 ^ 39 - 1)) (min (2 ^ 39 - 1) q)) ∧ ((extract mode sh true v).2 = true ↔ (extract mode sh true v).1 ≠ q) ∧
     (-(2 ^ 39) ≤ (extract mode sh false v).1 ∧ (extract mode sh false v).1 < 2 ^ 39 ∧ ((extract mode sh false v).1 - q) % 2 ^ 40 = 0) ∧
     ((extract mode sh false v).2 = true ↔ (extract mode sh false v).1 ≠ q)) ∧
  (∀ (sh : Nat) (a b : Int),
     (b ≠ 0 → ∃ q : Int, 2 * (q * b - a * (2 ^ sh : Nat)).natAbs ≤ b.natAbs ∧ divFix 0 sh a b = (max (-(2 ^ 39 - 1)) (min (2 ^ 39 - 1) q), false)) ∧
     (∀ mode, (0 ≤ a → divFix mode sh a 0 = (2 ^ 39 - 1, true)) ∧ (a < 0 → divFix mode sh a 0 = (-(2 ^ 39 - 1), true))) ∧
     (∀ mode, mode = 1 ∨ mode = 2 → 0 ≤ a → a.toNat * 2 ^ sh < 2 ^ 192 → ∃ r : Nat, r * r ≤ a.toNat * 2 ^ sh ∧ a.toNat * 2 ^ sh < (r + 1) * (r + 1) ∧
       sqrtFix mode sh a = (min (2 ^ 39 - 1) (r : Int), false)) ∧
     (∀ mode, a < 0 → sqrtFix mode sh a = (0, true)))

/-- While the measurement path works: a panel takes the next token of its crossing, and a token no newer than the last released instant
only counts as stale, and any other is filed; an idle panel with a queued instant, not stopping, loads its operands; a loaded panel starts
at its time, an estimator's lead after a waiting swap, with the lead's windows taken and pass 1 of a threshold instance whose panels all
run; and the lead of an instance whose panels all run one instant, its DONE sent, decides it by its role and ends it on each of them. With
nothing to take, load, start or end, or the path stopped, nothing happens. What the spec leaves open in it the model reads as log entries
16, 62, 63 and 113 say. -/
def Obligations.EngineInstantFlow : Prop :=
  ∀ (s : State) (panel : Fin 16) (errs : LoadErrs) (voids : List Nat),
    let p := panel.val
    (s.alive = true → Ends (.panelTokenReceive panel) s (panelTokenReceive p s.quiet).releaseCheck) ∧
    (s.measuring = false → panelTokenReceive p s = s ∧ (s.alive = true → Ends (.operandLoad panel errs) s s.quiet ∧
      Ends (.engineStart panel) s s.quiet ∧ Ends (.engineInstantEnd panel voids) s s.quiet)) ∧
    (s.measuring = true →
      (∀ u, s.popToken p = (none, u) → panelTokenReceive p s = u) ∧
      (∀ t u, s.popToken p = (some t, u) → panelTokenReceive p s = u.fileToken p t) ∧
      (∀ t : Token, s.tokenStale p t.t0 = true → s.fileToken p t = s.leadCount p Reg.FAB_ASM_STALE_CNT 1)) ∧
    (s.alive = true → s.measuring = true →
      ((s.panel p).taken.isSome = true ∨ (s.panel p).queue = [] ∨ s.stopping = true → Ends (.operandLoad panel errs) s s.quiet) ∧
      (∀ x rest, s.stopping = false → (s.panel p).taken = none → (s.panel p).queue = x :: rest →
        let ns := (s.loadBytes p * 10 + 256) / 512
        let u := s.quiet.setPanel p { s.panel p with
          taken := some x, queue := rest, loaded := [], loadEnd := (s.time.ticks - x.close) * 4 + ns, started := false }
        let first := fld (pnlWord (u.pat 1) p 9) 0 18
        let n := fld (pnlWord (u.pat 1) p 10) 0 15
        Ends (.operandLoad panel errs) s ((u.loadEntries p x first 0 errs n).setReg (Reg.FAB_PNL_LOAD_LAST p) ns)) ∧
      (∀ x, (s.panel p).taken = some x →
        (s.mayStart p = false → Ends (.engineStart panel) s s.quiet) ∧
        (s.mayStart p = true →
          let u := (if s.role p = 1 && s.isLead p then s.quiet.seStart (s.pnlInst p) x.t0 else s.quiet).startPanel p
          let v := if u.isLead p then u.takeWindows (u.role p) (u.pnlInst p) x.t0 else u
          Ends (.engineStart panel) s (v.startPass1 p x.t0)) ∧
        (s.isLead p = false ∨ (s.panel p).doneSent = false ∨ s.allRun p x.t0 = false → Ends (.engineInstantEnd panel voids) s s.quiet) ∧
        (s.isLead p = true → (s.panel p).doneSent = true → s.allRun p x.t0 = true →
          let ls := joinLoaded ((s.instancePanels p).flatMap fun q => (s.panel q).loaded)
          let h : State := { s.quiet with img := { s.img with held := some (s.panel p).wins } }
          (h.decideInstant p x ls voids = none → Ends (.engineInstantEnd panel voids) s s.quiet) ∧
          (∀ d, h.decideInstant p x ls voids = some d →
            let u := ({ d with img := { d.img with held := none } } : State)
            Ends (.engineInstantEnd panel voids) s
              (((u.endInstance p x.t0).pushNote (.engine (u.role p) (u.pnlInst p))).releaseCheck.tryUnload.answerHeld)))))

/-- TOKEN_ARRIVE gives a tile's next token, foreground first, to its matching store; one that came over the ring has its cell's parity
checked before, and is discarded where that fails, a foreground one as an orphan. The entry of the token's node, tag and instant takes it
at its port, an occupied port counting a collision; without an entry, one of the 512 is made for it; with the store full the token waits
and the stall counts once. DEP_COUNTER_FIRE of a counter that has reached zero sends its token to its tiles and reloads it.
RING_BLOCK_WRITE takes the next BLOCK cell, foreground first, writes its eight lanes and decrements its counter. A decrement takes one off
an enabled counter above zero, counts at zero, and does nothing to a disabled one. An unassigned panel takes no token and no cell. What
the spec leaves open in it the model reads as log entries 60 and 112 say. SCRUB_WORD of an assigned tile with a word due uses a background
slot and checks the next of its 33,792 words: an uncorrectable microcode word is marked poisoned; past the last word the sweep counts.
With none due, or of an unassigned tile, only the words fallen due are counted up. FAB_TWIN_SEL with GO asks for a word and clears the
status, and TWIN_READY gives it with what its check found, zero of a gated tile. FAB_UE_ADDR_READ answers the register and clears VALID.
What the spec leaves open in it the model reads as log entries 57 and 112 say. -/
def Obligations.FabricStores : Prop :=
  (∀ (s : State) (tile : Fin 256) (panel : Fin 16) (k : Fin 64) (err : MemErr),
     let t := tile.val
     let p := panel.val
     let x := s.tile t
     let e := s.cntEntry p k.val
     let c := Reg.FAB_PNL_CNT p k.val
     (s.alive = true →
       (s.role (t / 16) = 0 ∨ nextTok x.inbox = none → Ends (.tokenArrive tile err) s s.quiet) ∧
       (∀ tok, s.role (t / 16) ≠ 0 → nextTok x.inbox = some tok →
         (tok.src ≠ 16 ∨ tok.stalled = true ∨ (s.injects 20 = false ∧ err = .ok) → Ends (.tokenArrive tile err) s (s.quiet.matchToken t tok)) ∧
         (tok.src = 16 → tok.stalled = false → s.injects 20 = false → err = .ue → Ends (.tokenArrive tile err) s
           (let u := s.quiet.detect 20 (t / 16) false
            (u.setTile t ((u.tile t).leave tok)).cellLost (t / 16) tok.bg))) ∧
       ((s.panel p).zero.contains k.val = true → Ends (.depCounterFire panel k) s
         (((s.quiet.putPanel p { s.panel p with zero := (s.panel p).zero.filter fun j => j ≠ k.val }).toTiles p e.2.1 {
           node := e.2.2, port := 0, tag := 0, inst := (s.panel p).inst, value := BitVec.ofNat 40 k.val }).setReg c e.1)) ∧
       ((s.panel p).zero.contains k.val = false → Ends (.depCounterFire panel k) s s.quiet) ∧
       (s.role p = 0 ∨ nextBlock (s.panel p).cells = none → Ends (.ringBlockWrite panel err) s s.quiet) ∧
       (∀ cell b, s.role p ≠ 0 → nextBlock (s.panel p).cells = some (cell, b) → s.injects 20 = false → err = .ok → b.bg = false →
         Ends (.ringBlockWrite panel err) s
           ((((s.quiet.putPanel p { s.panel p with cells := (s.panel p).cells.erase cell }).setLanes (16 * p + b.tile) b.lane b.data).decrement p
             b.cntr).passTokens p))) ∧
     (∀ tok,
       (∀ m, matchOf x.store tok = some m → s.matchToken t tok =
         (if (m.ports.getD tok.port none).isSome then s.count Reg.FAB_MATCH_COLL_CNT else s).setTile t { x.leave tok with
           store := x.store.map (fun y => if y = m then s.filed t m tok else y), arrivals := x.arrivals + 1 }) ∧
       (matchOf x.store tok = none →
         (x.store.length < 512 → s.matchToken t tok = s.setTile t { x.leave tok with
           store := x.store ++ [s.filed t { node := tok.node, tag := tok.tag, inst := tok.inst } tok], arrivals := x.arrivals + 1 }) ∧
         (512 ≤ x.store.length → tok.stalled = true → s.matchToken t tok = s) ∧
         (512 ≤ x.store.length → tok.stalled = false → s.matchToken t tok =
           (s.setTile t { x with inbox := x.inbox.map fun y => if y = tok then { tok with stalled := true } else y }).count
             Reg.FAB_MATCH_STALL_CNT))) ∧
     (e.1 = 0 → s.decrement p k.val = s) ∧ (e.1 ≠ 0 → s.rn c = 0 → s.decrement p k.val = s.count Reg.FAB_CNT_UNDER_CNT) ∧
     (e.1 ≠ 0 → 1 < s.rn c → s.decrement p k.val = s.setReg c (s.rn c - 1)) ∧
     (e.1 ≠ 0 → s.rn c = 1 → s.decrement p k.val =
       let u := s.setReg c 0
       u.putPanel p { u.panel p with zero := (u.panel p).zero ++ [k.val] })) ∧
  (∀ (s : State) (tile : Fin 256) (who : Party) (w : Word) (err : MemErr),
     (s.alive = true →
       let t := tile.val
       let d := s.quiet.scrubDue t
       let n := (d.tile t).scrub
       let last := fun (u : State) => u.setTile t (if n + 1 < 33792 then { u.tile t with scrub := n + 1 } else
         { u.tile t with scrub := 0, sweeps := (u.tile t).sweeps + 1 })
       let u := ((d.setTile t { d.tile t with due := (d.tile t).due - 1 }).bgGrant t).tileCheck t (if n < 32768 then 0 else 1) (if n < 32768 then n else n - 32768) err
       (s.role (t / 16) = 0 ∨ s.measuring = false ∨ (d.tile t).due = 0 → Ends (.scrubWord tile err) s d) ∧
       (s.role (t / 16) ≠ 0 → s.measuring = true → (d.tile t).due ≠ 0 → n + 1 < 33792 → u.1 ≠ .ue ∨ n < 32768 → Ends (.scrubWord tile err) s (last u.2)) ∧
       (s.role (t / 16) ≠ 0 → s.measuring = true → (d.tile t).due ≠ 0 → n + 1 < 33792 → u.1 = .ue → 32768 ≤ n → (u.2.tile t).poison.contains (n - 32768) = false →
         Ends (.scrubWord tile err) s (last ((u.2.setTile t { u.2.tile t with poison := (u.2.tile t).poison ++ [n - 32768] }).setF
           (Reg.FAB_UC_POISON (t / 32)) (t % 32) 1 1))) ∧
       (s.fab.twin = none → Ends (.twinReady err) s s.quiet) ∧
       (∀ t w, s.fab.twin = some (t, w) →
         let v : State := { s.quiet with fab := { s.fab with twin := none } }
         (s.role (t / 16) = 0 → Ends (.twinReady err) s (((v.setReg Reg.FAB_TWIN_DATA_LO 0).setReg Reg.FAB_TWIN_DATA_HI 0).setReg Reg.FAB_TWIN_STAT 1)) ∧
         (s.role (t / 16) ≠ 0 →
           let c := (v.bgGrant t).tileCheck t 0 w err
           let x := leNat (c.2.tileBytes t (8 * w) 8)
           Ends (.twinReady err) s (((c.2.setReg Reg.FAB_TWIN_DATA_LO (x % 2 ^ 32)).setReg Reg.FAB_TWIN_DATA_HI (x / 2 ^ 32)).setReg Reg.FAB_TWIN_STAT
             (1 + bitAt (c.1 = .ce) 1 + bitAt (c.1 = .ue) 2)))) ∧
       Ends (.fabUeAddrRead who) s ((s.quiet.emit (.read (BitVec.ofNat 64 (s.rn Reg.FAB_UE_ADDR)))).setF Reg.FAB_UE_ADDR 31 1 0)) ∧
     (s.takes who Reg.FAB_TWIN_SEL = true →
       (w.getLsbD 31 = true → Ends (.fabTwinSel who w) s
         (({ s.quiet with fab := { s.fab with twin := some (w.toNat % 2 ^ 8, w.toNat / 2 ^ 8 % 2 ^ 15) } } : State).setReg Reg.FAB_TWIN_STAT 0)) ∧
       (w.getLsbD 31 = false → Ends (.fabTwinSel who w) s s.quiet)))

/-- REFAC_GO of an instance with a topology counts as refused while a refactorisation runs, without a request, or where no panel can do
it; else the longest prefix of the requests that fits the pool is taken; with bit 0 clear nothing happens. REFAC_READY of a running one
puts the recomputed columns in the shadow bank, waits for its swap and pushes the notice. A write of a SEL register that names a bus,
channel, monitor or pair clears the status, and the READY command shows the snapshot; the topology is the one the instance works by; one
beyond the instance's count does nothing (log entry 8). What the spec leaves open in it the model reads as log entry 64 says. -/
def Obligations.EngineSnapshots : Prop :=
  ∀ (s : State) (who : Party) (inst : Fin 4) (w : Word),
    let e := inst.val
    let x := s.seI e
    (s.takes who (Reg.SE_REFAC_CTRL e) = true → ∀ t, s.seTopo e = some t →
      (w.getLsbD 0 = false → Ends (.refacGo who inst w) s s.quiet) ∧
      (w.getLsbD 0 = true → s.img.inForce = true → x.refac ≠ 0 ∨ x.reqs = [] ∨ s.canRefac e = false → Ends (.refacGo who inst w) s
        (s.quiet.count (Reg.SE_REJ_CNT e))) ∧
      (w.getLsbD 0 = true → s.img.inForce = true → x.refac = 0 → x.reqs ≠ [] → s.canRefac e = true →
        let take := takePrefix t (t.pool - x.used - x.retired) x.reqs x.reqs.length
        let u := if take.length < x.reqs.length then s.quiet.count (Reg.SE_SPLIT_CNT e) else s.quiet
        Ends (.refacGo who inst w) s (((u.setReg (Reg.SE_REFAC_TAKEN e) take.length).setReg (Reg.SE_REFAC_COLS e) (changeSet t take).length).putSe e
          { x with taken := take, reqs := x.reqs.drop take.length, refac := 1, goAt := s.time.ticks, used := x.used + poolNeed t (changeSet t take) }))) ∧
    (s.alive = true → ∀ t, s.seTopo e = some t →
      (x.refac ≠ 1 ∨ s.measuring = false → Ends (.refacReady inst) s s.quiet) ∧
      (x.refac = 1 → s.measuring = true →
        let cs := changeSet t x.taken
        let inF := fun i => if x.taken.contains i then decide (x.mode i = 3) else decide (x.mode i ≤ 1)
        let r := cs.foldl (refacCol t inF) (x.cols, x.psw, 0)
        Ends (.refacReady inst) s ((((s.quiet.countBy (Reg.SE_PSEUDO_CNT e) r.2.2).setReg (Reg.SE_REFAC_LAST e) ((s.time.ticks - x.goAt) / 250)).putSe e
          { x with shadow := cs.foldl (fun m j => Tbl.set m j (some (r.1.getD j {})) none) [], pswS := r.2.1, k2S := t.chans.map (kappa2 t r.1)
                   loneS := x.lone.filter (fun j => !cs.contains j) ++ cs.filter fun j => t.psw j = 0 && decide (bareD t inF r.1 j < 2 ^ 87)
                   refac := 2 }).pushNote (.refac e)))) ∧
    (s.takes who (Reg.SE_BUS_SEL e) = true →
      (s.rn (Reg.SE_BUSES e) ≤ w.toNat % 2 ^ 14 → Ends (.seBusSel who inst w) s s.quiet) ∧
      (∀ o rest, w.toNat % 2 ^ 14 < s.rn (Reg.SE_BUSES e) → x.outs = o :: rest →
        let j := w.toNat % 2 ^ 14
        Ends (.seBusSel who inst w) s ((s.quiet.setSe e { x with busSnap := [
          (Reg.SE_BUS_RE e, uNat 40 (o.v.getD j ⟨0, 0⟩).re), (Reg.SE_BUS_IM e, uNat 40 (o.v.getD j ⟨0, 0⟩).im), (Reg.SE_BUS_MAG e, uNat 40 (o.mag.getD j 0)),
          (Reg.SE_BUS_ANG e, o.ang.getD j 0), (Reg.SE_BUS_STAT e, 1 + bitAt (o.pred.contains j) 1 + bitAt (x.psw.contains j) 2)] }).setReg
            (Reg.SE_BUS_STAT e) 0))) ∧
    (s.takes who (Reg.SE_CHAN_SEL e) = true →
      (s.rn (Reg.SE_CHANS e) ≤ w.toNat % 2 ^ 17 → Ends (.seChanSel who inst w) s s.quiet) ∧
      (w.toNat % 2 ^ 17 < s.rn (Reg.SE_CHANS e) →
        let i := w.toNat % 2 ^ 17
        let k2 := x.k2.getD i 0
        Ends (.seChanSel who inst w) s ((s.quiet.setSe e { x with chanSnap := [
          (Reg.SE_CHAN_T e, uNat 40 (Tbl.get x.t i 0)), (Reg.SE_CHAN_K2 e, uNat 40 k2), (Reg.SE_CHAN_STAT e, 1 + x.mode i * 2 + bitAt (x.subst.contains i) 3 +
            bitAt (x.corr = some i) 4 + bitAt (k2 = 0) 5 + Tbl.get x.cnt i 0 * 256)] }).setReg (Reg.SE_CHAN_STAT e) 0))) ∧
    (s.takes who (Reg.THR_MON_SEL e) = true →
      let i := w.toNat % 2 ^ 17
      let kind := w.toNat / 2 ^ 17 % 4
      let n := [s.rn (Reg.THR_MON1 e), s.rn (Reg.THR_MON2 e), s.rn (Reg.THR_PAIRS e), 0].getD kind 0
      let m := Tbl.get (s.thrI e).mons ([0, 65536, 90112].getD kind 0 + i) {}
      (n ≤ i → Ends (.thrMonSel who inst w) s s.quiet) ∧
      (i < n → Ends (.thrMonSel who inst w) s ((s.quiet.setThr e { s.thrI e with
        snap := [(Reg.THR_MON_VAL e, uNat 40 m.v), (Reg.THR_MON_STAT e, 1 + m.state * 2 + bitAt m.held 3 + m.cnt * 256)] }).setReg (Reg.THR_MON_STAT e) 0))) ∧
    (s.takes who (Reg.OSC_PAIR_SEL e) = true → ∃ snap, Ends (.oscPairSel who inst w) s
      ((s.quiet.setOsc e { s.oscI e with snap := snap }).setReg (Reg.OSC_PAIR_STAT e) 0) ∧ snap.map Prod.fst =
        [Reg.OSC_PAIR_AMP e, Reg.OSC_PAIR_SHRE e, Reg.OSC_PAIR_SHIM e, Reg.OSC_PAIR_COH e, Reg.OSC_PAIR_STAT e]) ∧
    (s.alive = true →
      Ends (.seBusReady inst) s ((s.quiet.setSe e { x with busSnap := [] }).setRegs x.busSnap) ∧
      Ends (.seChanReady inst) s ((s.quiet.setSe e { x with chanSnap := [] }).setRegs x.chanSnap) ∧
      Ends (.thrMonReady inst) s ((s.quiet.setThr e { s.thrI e with snap := [] }).setRegs (s.thrI e).snap) ∧
      Ends (.oscPairReady inst) s ((s.quiet.setOsc e { s.oscI e with snap := [] }).setRegs (s.oscI e).snap))

/-- With an image in force, the next alarm entry counts and joins the open instant of its T0, or opens one where fewer than eight are open
and its T0 is after the last merged; one at or before that is stale. MERGE_TIMEOUT makes due the instants open for MERGE_US. ALARM_MERGE
merges the oldest open instant where it is due. After both, old banks are released once no earlier instant is left. CLASS_HOLD_EXPIRY of a
class in HOLD whose timer has run, with no merge due, ends every such hold: it latches a class where LATCH is set and releases it
otherwise. ALM_ACK releases a class in LATCH. ALM_PIN_FORCE is written and the pins follow. GOOSE_REPEAT of a template that is due sends
it with sqNum one up and its interval doubled up to TMAX. Otherwise each does nothing. What the spec leaves open in it the model reads as
log entry 68 says. -/
def Obligations.AlarmPath : Prop :=
  ∀ (s : State) (cls : Fin 256) (tmpl : Fin 64) (who : Party) (w : Word) (errs : List (Nat × MemErr)),
    let b := s.almBody
    let c := cls.val
    let k := tmpl.val
    (s.img.inForce = false → alarmEntryReceive s = s ∧ alarmMerge s = s) ∧
    (s.img.inForce = true →
      (∀ u, s.popAlarm = (none, u) → alarmEntryReceive s = u) ∧
      (∀ e u, s.popAlarm = (some e, u) →
        let v := u.count Reg.ALM_ENTRY_CNT
        (v.entryStale e.t0 = true → alarmEntryReceive s = v.count Reg.ALM_STALE_ENTRY_CNT) ∧
        (v.entryStale e.t0 = false → e.kind ≠ 0 → (v.alm.instants.any fun x => x.t0 = e.t0) = true → alarmEntryReceive s =
          v.setInstants (v.alm.instants.map fun x => if x.t0 = e.t0 then { x with entries := x.entries ++ [e] } else x)) ∧
        (v.entryStale e.t0 = false → e.kind ≠ 0 → (v.alm.instants.any fun x => x.t0 = e.t0) = false → v.alm.instants.length < 8 →
          alarmEntryReceive s = v.setInstants ((insertInstant { t0 := e.t0, opened := v.time.ticks } v.alm.instants).map fun x =>
            if x.t0 = e.t0 then { x with entries := x.entries ++ [e] } else x))) ∧
      (s.alm.instants = [] → alarmMerge s = s) ∧
      (∀ x rest, s.alm.instants = x :: rest →
        (s.almDue x = true → alarmMerge s = (s.setInstants rest).merge x) ∧ (s.almDue x = false → alarmMerge s = s))) ∧
    (s.alive = true → Ends .alarmEntryReceive s (alarmEntryReceive s.quiet).releaseCheck ∧
      Ends (.alarmMerge errs) s (withErrs errs alarmMerge s.quiet).releaseCheck ∧
      Ends .mergeTimeout s { s.quiet with alm := { s.alm with instants := s.alm.instants.map fun (x : AlmInstant) =>
        { x with late := x.late || decide (x.opened + wf (s.patAt 11 x.t0) 2 0 16 * 250 ≤ s.time.ticks) } } } ∧
      (∀ ivl sq, k < almTmplCnt b → s.img.inForce = true → s.standby = false → (Tbl.get s.alm.goose k {}).due ≤ s.time.ticks →
        ivl = min (2 * s.rn (Reg.ALM_GOOSE_IVL k)) (fld (goTmpl b k 4) 16 16) →
        sq = (if s.rn (Reg.ALM_GOOSE_SQNUM k) = 0xFFFFFFFF then 1 else s.rn (Reg.ALM_GOOSE_SQNUM k) + 1) →
        Ends (.gooseRepeat tmpl) s ((((s.quiet.setReg (Reg.ALM_GOOSE_SQNUM k) sq).setReg (Reg.ALM_GOOSE_IVL k) ivl).setGoose k
          { Tbl.get s.alm.goose k {} with due := (Tbl.get s.alm.goose k {}).due + 250000 * ivl }).gooseSend b k ivl)) ∧
      (almTmplCnt b ≤ k ∨ s.img.inForce = false ∨ s.standby = true ∨ s.time.ticks < (Tbl.get s.alm.goose k {}).due →
        Ends (.gooseRepeat tmpl) s s.quiet)) ∧
    (s.ticking = true →
      (s.clsState c = 2 → (s.almClass c).holdEnd ≤ s.time.ticks → s.mergeDue = false → Ends (.classHoldExpiry cls) s
        (s.quiet.forRange (fun k s => s.holdEnds s.almBody k) 0 256).almOutputs) ∧
      (s.clsState c ≠ 2 ∨ s.time.ticks < (s.almClass c).holdEnd ∨ s.mergeDue = true → Ends (.classHoldExpiry cls) s s.quiet)) ∧
    (s.clsState c = 2 → (s.almClass c).holdEnd ≤ s.time.ticks →
      (fld (classRec b c 0) 8 1 = 1 → s.holdEnds b c = s.setF (Reg.ALM_CLASS c) 0 2 3) ∧
      (fld (classRec b c 0) 8 1 ≠ 1 → s.holdEnds b c = ((s.setF (Reg.ALM_CLASS c) 0 2 0).almChange c false).releaseRecord b c)) ∧
    (s.clsState c ≠ 2 ∨ s.time.ticks < (s.almClass c).holdEnd → s.holdEnds b c = s) ∧
    (s.takes who Reg.ALM_ACK = true →
      let a := w.toNat % 2 ^ 8
      (w.getLsbD 31 = true → s.img.inForce = true → s.clsState a = 3 → Ends (.almAck who w) s
        ((((s.quiet.setF (Reg.ALM_CLASS a) 0 2 0).almChange a false).releaseRecord b a).almOutputs)) ∧
      (w.getLsbD 31 = false ∨ s.img.inForce = false ∨ s.clsState a ≠ 3 → Ends (.almAck who w) s s.quiet)) ∧
    (s.takes who Reg.ALM_PIN_FORCE = true → Ends (.almPinForce who w) s (s.quiet.setReg Reg.ALM_PIN_FORCE (w.toNat % 256)).almPins)

/-- A class judged with its count after a merge. IDLE with a count above zero goes to ON, starts its hold timer at MINHOLD and counts an
ASSERT. ON with count zero goes to HOLD until its timer has run, and after that tick to LATCH where LATCH is set and to IDLE with a
RELEASE counted otherwise. HOLD with a count goes to ON; LATCH with a count goes to ON with its timer started again. In every other case
the state stays. COUNT takes the count, modulo 2^18, and no other class's register changes. -/
def Obligations.AlarmClassStates : Prop :=
  ∀ (s : State) (b : List Byte) (c : Nat), c < 256 →
    let n := (s.almClass c).count
    let t := s.almJudge b c
    let run := s.time.ticks + 250000 * fld (classRec b c 1) 0 16
    let latch := fld (classRec b c 0) 8 1 = 1
    let ended := (s.almClass c).holdEnd < s.time.ticks
    t.rf (Reg.ALM_CLASS c) 2 18 = n % 2 ^ 18 ∧ (∀ d, d < 256 → d ≠ c → t.rn (Reg.ALM_CLASS d) = s.rn (Reg.ALM_CLASS d)) ∧
    (s.clsState c = 0 → 0 < n → t.clsState c = 1 ∧ (t.almClass c).holdEnd = run ∧ t.rn Reg.ALM_ASSERT_CNT = (s.rn Reg.ALM_ASSERT_CNT + 1) % 2 ^ 48) ∧
    (s.clsState c = 1 → n = 0 → ¬ ended → t.clsState c = 2) ∧ (s.clsState c = 1 → n = 0 → ended → latch → t.clsState c = 3) ∧
    (s.clsState c = 1 → n = 0 → ended → ¬ latch → t.clsState c = 0 ∧ t.rn Reg.ALM_RELEASE_CNT = (s.rn Reg.ALM_RELEASE_CNT + 1) % 2 ^ 48) ∧
    (s.clsState c = 2 → 0 < n → t.clsState c = 1) ∧ (s.clsState c = 3 → 0 < n → t.clsState c = 1 ∧ (t.almClass c).holdEnd = run) ∧
    (s.clsState c ≠ 1 → n = 0 → t.clsState c = s.clsState c) ∧ (s.clsState c = 1 → 0 < n → t.clsState c = 1)

/-- MOD_LOSS of an enabled channel of active inputs whose bitstream has held one value for STUCK_N clocks sets its bit, with its counter
and event when it was clear. STN_BANK_SWAP to another bank starts a fade; during a fade the request is held, and replaces a held one,
which counts. STN_BANK_DONE at a fade's end makes its bank active and starts the held request's fade. REPHASE_END clears REPHASE.
RANGE_SWITCH moves a current to the range it is due to. ZERO_CROSSING writes the oldest crossing's time, its distance from the last and
its count; ZC_TIMEOUT of an enabled detector silent for ZC_TMO ms marks it lost, once. BAY_TRACKER_LOCK shows a bay's lock.
STN_OUTPUT_SAMPLE of the bits of a sample that is due, with no fade and every channel and detector disabled, outside a re-phase, marks its
input instant invalid on every signal, and takes its number. With the inputs inactive nothing happens. What the spec leaves open in it the
model reads as log entries 70 and 71 say. -/
def Obligations.StationSignals : Prop :=
  ∀ (s : State) (ch : Fin 24) (who : Party) (w : Word) (cur : Fin 8) (high locked : Bool) (z : Fin 16) (bay : Fin 2) (mdat : List (BitVec 24))
    (errs : List (Nat × MemErr)),
    let c := ch.val
    let k := w.toNat % 4
    let on := s.bit Reg.STN_STATUS 0
    let fading := s.bit Reg.STN_STATUS 2
    let x := s.zdet z.val
    (s.ticking = true →
      (on = false ∨ chanEn (s.pat 14) c = false ∨ (s.chain c).run + 4 * wf (s.pat 14) 0 0 9 < wf (s.pat 14) 2 16 16 → Ends (.modLoss ch) s s.quiet) ∧
      (on = true → chanEn (s.pat 14) c = true → wf (s.pat 14) 2 16 16 ≤ (s.chain c).run + 4 * wf (s.pat 14) 0 0 9 →
        let u : State := { s.quiet with stn := { s.stn with moved := Tbl.set s.stn.moved c 0 0 } }
        (s.thruBit Reg.STN_MOD_LOSS c = true → Ends (.modLoss ch) s u) ∧
        (s.thruBit Reg.STN_MOD_LOSS c = false → Ends (.modLoss ch) s (((u.setThruF Reg.STN_MOD_LOSS c 1 1).count Reg.STN_MOD_LOSS_CNT).raise 64))) ∧
      (fading = false ∨ s.stn.fadeAt < 2 ^ wf (s.pat 14) 2 8 4 → Ends .stnBankDone s s.quiet) ∧
      (fading = true → 2 ^ wf (s.pat 14) 2 8 4 ≤ s.stn.fadeAt →
        let u := ((s.quiet.setF Reg.STN_STATUS 2 1 0).setF Reg.STN_STATUS 3 2 s.stn.fadeTo).setF Reg.STN_STATUS 5 2 0
        let v := ({ u with stn := { u.stn with fadeTo := 0, fadeAt := 0, fadeBank := [] } } : State).raise 67
        (v.bit Reg.STN_STATUS 7 = false → Ends .stnBankDone s v) ∧
        (v.bit Reg.STN_STATUS 7 = true → Ends .stnBankDone s
          (((v.setF Reg.STN_STATUS 7 1 0).setF Reg.STN_STATUS 8 2 0).startFade (v.rf Reg.STN_STATUS 8 2)))) ∧
      Ends .rephaseEnd s (s.quiet.setF Reg.STN_STATUS 1 1 0) ∧
      (s.rangeDue (s.pat 14) cur.val = some high → Ends (.rangeSwitch cur high) s
        ((({ s.quiet with stn := { s.stn with rsCnt := Tbl.set s.stn.rsCnt cur.val 0 0, rsBad := Tbl.set s.stn.rsBad cur.val high false } } : State).setF
          Reg.STN_RANGE cur.val 1 (if high then 1 else 0)).count Reg.STN_RANGE_CNT |>.raise 65)) ∧
      (s.rangeDue (s.pat 14) cur.val ≠ some high → Ends (.rangeSwitch cur high) s s.quiet) ∧
      (x.due = [] → Ends (.zeroCrossing z) s s.quiet) ∧
      (∀ t p rest, x.due = t :: rest → x.last = some p → Ends (.zeroCrossing z) s
        (((((s.quiet.setZdet z.val { x with due := rest, last := some t, since := s.time.ticks }).setReg (Reg.STN_ZC_TIME z.val) (t80OfNs t)).setReg
          (Reg.STN_ZC_PERIOD z.val) ((t - p) % 2 ^ 32)).count (Reg.STN_ZC_CNT z.val)).setF Reg.STN_ZC_LOST z.val 1 0)) ∧
      (∀ t rest, x.due = t :: rest → x.last = none → Ends (.zeroCrossing z) s
        ((((s.quiet.setZdet z.val { x with due := rest, last := some t, since := s.time.ticks }).setReg (Reg.STN_ZC_TIME z.val) (t80OfNs t)).count
          (Reg.STN_ZC_CNT z.val)).setF Reg.STN_ZC_LOST z.val 1 0)) ∧
      (on = true → zcEn (s.pat 14) z.val = true → s.bit Reg.STN_ZC_LOST z.val = false → x.since + 250000 * wf (s.pat 14) 11 0 16 ≤ s.time.ticks →
        Ends (.zcTimeout z) s (((s.quiet.setF Reg.STN_ZC_LOST z.val 1 1).count Reg.STN_ZC_TMO_CNT).raise 66)) ∧
      (on = false ∨ zcEn (s.pat 14) z.val = false ∨ s.bit Reg.STN_ZC_LOST z.val = true → Ends (.zcTimeout z) s s.quiet) ∧
      Ends (.bayTrackerLock bay locked) s (s.quiet.setF Reg.STN_STATUS (10 + bay.val) 1 (if locked then 1 else 0)) ∧
      Ends (.stnOutputSample mdat errs) s (withErrs errs (stnOutputSample mdat) s.quiet)) ∧
    (on = false ∨ mdat.length ≠ 16 * wf (s.pat 14) 0 0 9 ∨ s.sampleDue = false → stnOutputSample mdat s = s) ∧
    (on = true → mdat.length = 16 * wf (s.pat 14) 0 0 9 → s.sampleDue = true → fading = false → s.bit Reg.STN_STATUS 1 = false →
      (∀ c, c < 24 → chanEn (s.pat 14) c = false) → (∀ z, zcEn (s.pat 14) z = false) →
      let t := stnOutputSample mdat s
      t.stn.lastT = s.sampleInstant ∧ t.stn.firstT = some (s.stn.firstT.getD s.sampleInstant) ∧ t.stn.lastK = some s.sampleK ∧
        t.stn.marks = (s.sampleInstant, 65535) :: s.stn.marks.filter (fun e => decide (s.sampleInstant < 1000000000 + e.1)) ∧
        t.stn.fadeAt = s.stn.fadeAt) ∧
    (s.takes who Reg.STN_BANK_SWAP = true →
      (w.getLsbD 31 = false ∨ s.feat 48 = false → Ends (.stnBankSwap who w) s s.quiet) ∧
      (w.getLsbD 31 = true → s.feat 48 = true →
        (fading = false → k = s.activeBank → Ends (.stnBankSwap who w) s s.quiet) ∧
        (fading = false → k ≠ s.activeBank → Ends (.stnBankSwap who w) s
          (((({ s.quiet with stn := { s.stn with fadeTo := k, fadeAt := 0, fadeBank := [] } } : State).setF Reg.STN_STATUS 2 1 1).setF Reg.STN_STATUS 5 2
            s.activeBank).count Reg.STN_SWAP_CNT)) ∧
        (fading = true → s.bit Reg.STN_STATUS 7 = false → Ends (.stnBankSwap who w) s ((s.quiet.setF Reg.STN_STATUS 7 1 1).setF Reg.STN_STATUS 8 2 k)) ∧
        (fading = true → s.bit Reg.STN_STATUS 7 = true → Ends (.stnBankSwap who w) s
          (((s.quiet.count Reg.STN_SWAP_REPL_CNT).setF Reg.STN_STATUS 7 1 1).setF Reg.STN_STATUS 8 2 k))))

/-- BAY_CYCLE_END of a bay whose cycle has samples writes its quantities but the held ones, shows those held, counts the sequence on and
adds the cycle's energy. LOCAL_PMU_ITEM crosses the bridge and, of the latest reporting instant whose window has left the chain, enters
the crossing of the items and shows its quality; without a local stream, or before a first window, it does nothing more. A pulse output of
the image in force with an owed pulse and its pause over goes active, one fewer is owed, and EPO_PULSE_END ends it after its width.
PERIODIC_SAVE, a period after the last, starts a periodic save unless a save runs; SAVE_COMPLETE makes the running save's slot the valid
one and counts it, with its event for a warning's save. STN_ECLR with GO inside its authorisation of at most a second clears the energy,
the residues and the wrap bits, spends the authorisation and triggers a save; any other write of it does nothing. What the spec leaves
open in it the model reads as log entries 71 and 111 say. -/
def Obligations.EnergyAndSaves : Prop :=
  ∀ (s : State) (bay : Fin 2) (m : BayCycle) (it : LocalItem) (err : MemErr) (pin : Fin 4) (who : Party) (w : Word),
    let q := bay.val
    let p := pin.val
    let b := s.pat 14
    let x := s.epo p
    let width := fld (epoWord b p 0) 16 16 * 2500
    (s.ticking = true →
      (s.bit Reg.STN_STATUS 0 = false ∨ (s.bay q).n = 0 → Ends (.bayCycleEnd bay m) s s.quiet) ∧
      (s.bit Reg.STN_STATUS 0 = true → (s.bay q).n ≠ 0 →
        let r := (s.bay q).quantities m (stn40 b 3)
        let u := ((s.quiet.putQtys q 0 r.vals).setReg (Reg.STN_Q_HELD q) ((r.vals.zipIdx.map fun a => bitAt a.1.2 a.2).foldl (· + ·) 0))
        let v := ((u.setReg (Reg.STN_Q_SEQ q) ((u.rn (Reg.STN_Q_SEQ q) + 1) % 65536)).energyBay b q (s.bay q) r.q r.s).setBay q { q := r.q, s := r.s }
        let y := v.forRange (fun k s => s.rsCycle k) (4 * q) 4
        Ends (.bayCycleEnd bay m) s (y.firnAll 1 (t80OfNs y.stn.lastT) fun i _ =>
          if i / 64 ≠ q then none else (r.vals[i % 64]?).map fun y => if y.2 then none else some y.1)) ∧
      (s.epoOn b p = true → x.active = false → s.rn (Reg.STN_EPO_OWED p) ≠ 0 → x.since + width ≤ s.time.ticks → Ends (.epoPulseStart pin) s
        (((s.quiet.setEpo p { x with active := true, since := s.time.ticks }).setReg (Reg.STN_EPO_OWED p) (s.rn (Reg.STN_EPO_OWED p) - 1)).count
          (Reg.STN_EPO_CNT p))) ∧
      (s.epoOn b p = false ∨ x.active = true ∨ s.rn (Reg.STN_EPO_OWED p) = 0 ∨ s.time.ticks < x.since + width → Ends (.epoPulseStart pin) s s.quiet) ∧
      (x.active = true → s.epoOn b p = false ∨ x.since + width ≤ s.time.ticks → Ends (.epoPulseEnd pin) s
        (s.quiet.setEpo p { x with active := false, since := s.time.ticks })) ∧
      (x.active = false ∨ s.epoOn b p = true ∧ s.time.ticks < x.since + width → Ends (.epoPulseEnd pin) s s.quiet) ∧
      (s.rn Reg.STN_SAVE_PERIOD ≠ 0 → s.feat 52 = true → s.stn.saveAt + 250000000 * s.rn Reg.STN_SAVE_PERIOD ≤ s.time.ticks →
        let u : State := { s.quiet with stn := { s.stn with saveAt := s.time.ticks } }
        (s.stn.save = none → Ends .periodicSave s (({ u with stn := { u.stn with
          save := some (if s.bit Reg.STN_SAVE_STATE 0 then 1 - s.rf Reg.STN_SAVE_STATE 1 1 else 0, u.snapshot 0) } } : State).setF Reg.STN_SAVE_STATE 4 1 1)) ∧
        (∀ y, s.stn.save = some y → y.2.kind = 0 → Ends .periodicSave s u) ∧
        (∀ y, s.stn.save = some y → y.2.kind ≠ 0 → Ends .periodicSave s (u.count Reg.STN_SAVE_MISS_CNT))) ∧
      (s.rn Reg.STN_SAVE_PERIOD = 0 ∨ s.feat 52 = false → Ends .periodicSave s s.quiet) ∧
      (s.stn.save = none → Ends .saveComplete s s.quiet) ∧
      (∀ k y, s.stn.save = some (k, y) →
        let u : State := { s.quiet with stn := { s.stn with
          save := none, slot0 := if k = 0 then y else s.stn.slot0, slot1 := if k = 0 then s.stn.slot1 else y } }
        let v := (((u.setReg Reg.STN_SAVE_STATE (1 + 2 * k + 4 * y.kind + s.rf Reg.STN_SAVE_STATE 5 1 * 32)).setReg Reg.STN_SAVE_T0 y.t).setReg
          Reg.STN_SAVE_SEQ y.seq).count Reg.STN_SAVE_CNT
        Ends .saveComplete s (if y.kind = 1 then v.raise 68 else v))) ∧
    (s.alive = true → Ends (.localPmuItem it err) s (localPmuItem it (s.quiet.crossing 0 err))) ∧
    (s.injects 4 = false → s.crossing 0 .ok = s) ∧ (localStream (s.pat 4) = none → localPmuItem it s = s) ∧
    (∀ n, localStream (s.pat 4) = some n →
      let rate := fld (strWord (s.pat 4) n 2) 24 8
      let win := s.pmuWindow b
      let i := latestInst rate ((s.nowNs : Int) - (win / 2 : Nat) - 1944444).toNat
      let t0 := instT0 rate i
      let src := fld (strWord (s.pat 4) n 1) 16 14
      s.bit Reg.STN_STATUS 0 = true → s.measuring = true → rate ≠ 0 → win ≠ 0 → (∀ p, s.stn.pmuT = some p → p < t0) →
      (∀ f, s.stn.firstT = some f → f + win / 2 ≤ t0 →
        let y : Item := {
          src := src, sec := i / rate, n := i % rate, rate := rate, arr := s.nowT80, epoch := s.epoch
          payload := s.pmuPayload b (srcWord (s.pat 4) src 0) it (s.windowMarks (t0 - win / 2) (t0 + win / 2)) }
        localPmuItem it s = (({ s with stn := { s.stn with pmuT := some t0 } } : State).setReg (Reg.DEC_SRC_Q src) y.payload.qual).pushItem true y) ∧
      (s.stn.firstT = none → localPmuItem it s = s)) ∧
    (s.takes who Reg.STN_ECLR = true →
      (∀ a, s.key.statsAt = some a → w.getLsbD 31 = true → s.feat 52 = true → a.energy = true → s.time.ticks < 250000000 + a.since →
        let u : State := { s.quiet with key := { s.key with statsAt := if a.firn then some { a with energy := false } else none } }
        Ends (.stnEclr who w) s (((u.setEnergy [] []).forRange (fun q s => s.setReg (Reg.STN_EWRAP q) 0) 0 2).trigSave 3)) ∧
      (s.key.statsAt = none ∨ w.getLsbD 31 = false ∨ s.feat 52 = false → Ends (.stnEclr who w) s s.quiet) ∧
      (∀ a, s.key.statsAt = some a → a.energy = false ∨ 250000000 + a.since ≤ s.time.ticks → Ends (.stnEclr who w) s s.quiet))

/-- With feature 53, AUX_CTRL_START and AUX_CONT_START, a period after the last, start a scan at an entry of the sequence, or hold the
start while one runs, replacing a held one, which counts. AUX_CONVERSION_END, once its conversion is due and no urgent one runs, adds its
code to the entry, whose result of all its conversions is written with its time and limits; the last entry ends the scan. AUX_URGENT
converts at once where none runs, else queues at most four channels; AUX_URGENT_END writes the result of the one that runs; a read of it
clears VALID. FIRN_UPDATE takes the oldest update, applies it to the current half of each period and counts; FIRN_PERIOD at a new boundary
turns the halves; FIRN_SCRUB reads a record that is not poisoned; FIRN_CLR inside its authorisation clears the named periods, logs and
counts it. What the spec leaves open in it the model reads as log entries 72 and 74 say. -/
def Obligations.AuxAndFirn : Prop :=
  ∀ (s : State) (who : Party) (w : Word) (code : BitVec 16) (errs : List MemErr) (err : MemErr) (qty : Fin 1024) (period : Fin 3) (half : Fin 2),
    let e := w.toNat % 2 ^ 5
    let p := period.val
    (s.takes who Reg.AUX_CTRL = true →
      (w.getLsbD 31 = false ∨ s.feat 53 = false ∨ auxCnt s.auxBody ≤ e → Ends (.auxCtrlStart who w) s s.quiet) ∧
      (w.getLsbD 31 = true → s.feat 53 = true → e < auxCnt s.auxBody →
        (s.aux.run = none → Ends (.auxCtrlStart who w) s (s.quiet.setAux { s.aux with
          run := some { body := s.auxBody, entry := e }, since := if s.aux.urg.isNone then s.time.ticks else s.aux.since })) ∧
        (s.aux.run.isSome = true → s.aux.held = none → Ends (.auxCtrlStart who w) s (s.quiet.setAux { s.aux with held := some e })) ∧
        (s.aux.run.isSome = true → s.aux.held.isSome = true → Ends (.auxCtrlStart who w) s
          ((s.quiet.count Reg.AUX_SCAN_REPL_CNT).setAux { s.aux with held := some e })))) ∧
    (s.takes who Reg.AUX_URGENT = true →
      (w.getLsbD 31 = false ∨ s.feat 53 = false → Ends (.auxUrgent who w) s s.quiet) ∧
      (w.getLsbD 31 = true → s.feat 53 = true → s.converting = false → Ends (.auxUrgent who w) s
        (s.quiet.setAux { s.aux with urg := some (w.toNat % 2 ^ 4), since := s.time.ticks })) ∧
      (w.getLsbD 31 = true → s.feat 53 = true → s.converting = true → s.aux.urgent.length < 4 → Ends (.auxUrgent who w) s
        (s.quiet.setAux { s.aux with urgent := s.aux.urgent ++ [w.toNat % 2 ^ 4] })) ∧
      (w.getLsbD 31 = true → s.feat 53 = true → s.converting = true → 4 ≤ s.aux.urgent.length → Ends (.auxUrgent who w) s (s.quiet.count Reg.AUX_URG_LOST_CNT))) ∧
    (s.alive = true →
      (let us := wf s.auxBody 1 0 16
       (us = 0 ∨ s.time.ticks < s.aux.contAt + us * 250 → Ends .auxContStart s s.quiet) ∧
       (us ≠ 0 → s.aux.contAt + us * 250 ≤ s.time.ticks → Ends .auxContStart s
         ((s.quiet.setAux { s.aux with contAt := s.time.ticks }).auxStart (wf s.auxBody 1 16 5)))) ∧
      Ends (.auxConversionEnd code err) s (auxConversionEnd code.toNat (s.quiet.crossing 0 err)) ∧
      Ends (.auxUrgentEnd code err) s (auxUrgentEnd code.toNat (s.quiet.crossing 0 err)) ∧
      Ends (.auxUrgRead who) s ((s.quiet.emit (.read (BitVec.ofNat 64 (s.rn Reg.AUX_URG_RESULT)))).setF Reg.AUX_URG_RESULT 31 1 0) ∧
      (s.firn.queue = [] → Ends (.firnUpdate errs) s s.quiet) ∧
      (∀ x rest, s.firn.queue = x :: rest →
        let u : State := { s.quiet with firn := { s.firn with queue := rest, watch := s.watchRead } }
        Ends (.firnUpdate errs) s ((u.forRange (fun k v => v.firnApply s.recBody x k (errs.getD k .ok)) 0 3).count Reg.FIRN_UPD_CNT)) ∧
      (s.firnBad qty.val p half.val = true → Ends (.firnScrub qty period half err) s s.quiet) ∧
      (s.firnBad qty.val p half.val = false → s.flt.inject = none →
        (err = .ok → Ends (.firnScrub qty period half err) s s.quiet) ∧
        (err = .ce → Ends (.firnScrub qty period half err) s (s.quiet.count Reg.FIRN_CE_CNT)) ∧
        (err = .ue → Ends (.firnScrub qty period half err) s
          ((s.quiet.detect 45 (qty.val + p * 2 ^ 10 + half.val * 2 ^ 12) false).firnPoison qty.val p half.val))) ∧
      (let len := if p = 0 then 60 else if p = 1 then 600 else 86400
       let b := (s.utcNs / 1000000000).toNat / len * len
       let old := Tbl.get s.firn.bound p 0
       (s.feat 58 = false ∨ b ≤ old → Ends (.firnPeriod period) s s.quiet) ∧
       (s.feat 58 = true → old < b → Ends (.firnPeriod period) s
         (let u : State := { s.quiet with firn := { s.firn with bound := Tbl.set s.firn.bound p b 0 } }
          let v := u.setF Reg.FIRN_CUR p 1 (1 - u.firnCur p)
          ((v.setReg (Reg.FIRN_PSTART p) (t80 ((b : Int) + v.utcOfs).toNat 0)).countBy Reg.FIRN_PERIOD_SKIP_CNT ((b - old) / len - 1)).raise 76)))) ∧
    (s.aux.run = none → auxConversionEnd code.toNat s = s) ∧
    (∀ x, s.aux.run = some x →
      (s.aux.urg.isSome = true ∨ s.time.ticks < s.aux.since + x.ext + 250 → auxConversionEnd code.toNat s = s) ∧
      (s.aux.urg = none → s.aux.since + x.ext + 250 ≤ s.time.ticks →
        let u := (s.count Reg.AUX_CONV_CNT).auxNext
        let y : AuxRun := { x with n := x.n + 1, sum := x.sum + code.toNat, t := if x.n = 0 then t80OfNs (u.nowNs - 750) else x.t }
        let e0 := auxWord x.body x.entry 0
        (y.n < 2 ^ fld e0 4 3 → auxConversionEnd code.toNat s = u.setAux { u.aux with run := some y }) ∧
        (2 ^ fld e0 4 3 ≤ y.n → fld e0 12 1 = 1 ∨ auxCnt x.body ≤ x.entry + 1 → auxConversionEnd code.toNat s = (u.auxResult y).auxEnd) ∧
        (2 ^ fld e0 4 3 ≤ y.n → fld e0 12 1 = 0 → x.entry + 1 < auxCnt x.body → auxConversionEnd code.toNat s =
          (let v := u.auxResult y
           v.setAux { v.aux with run := some { body := x.body, entry := x.entry + 1 } })))) ∧
    (s.aux.urg = none ∨ s.time.ticks < s.aux.since + 250 → auxUrgentEnd code.toNat s = s) ∧
    (∀ c, s.aux.urg = some c → s.aux.since + 250 ≤ s.time.ticks →
      let u := ((s.count Reg.AUX_CONV_CNT).count Reg.AUX_URG_CNT).auxNext
      let v := u.setReg Reg.AUX_URG_RESULT (2 ^ 31 + (code.toNat * 16 + 2 ^ 20 * c))
      auxUrgentEnd code.toNat s = (v.setReg Reg.AUX_URG_T (t80OfNs (v.nowNs - 750))).raise 70) ∧
    (s.takes who Reg.FIRN_CLR = true →
      let ps := w.toNat % 2 ^ 3
      (s.key.statsAt = none ∨ w.getLsbD 31 = false ∨ s.feat 58 = false → Ends (.firnClr who w) s s.quiet) ∧
      (∀ a, s.key.statsAt = some a → w.getLsbD 31 = true → s.feat 58 = true → a.firn = true → ps &&& a.periods = ps →
        s.time.ticks < 250000000 + a.since →
        let u : State := { s.quiet with key := { s.key with statsAt := if a.energy then some { a with firn := false } else none } }
        let c := (u.forRange (fun p v => if fld ps p 1 = 1 then v.clearPeriod (watchCnt v.recBody) p else v) 0 3).clearPoison ps 0 16
        let seq := (c.2.firn.clrSeq + 1) % 2 ^ 32
        let v : State := { c.2 with firn := { c.2.firn with clrSeq := seq, vol := c.2.firn.vol.filter fun r => fld ps (r / 2 % 3) 1 = 0 } }
        let k := v.rn Reg.FIRN_CLRLOG_HEAD
        Ends (.firnClr who w) s (((((v.setReg (Reg.FIRN_CLRLOG k) v.nowT80).setReg (Reg.FIRN_CLRLOG_INFO k)
          (ps + c.1 * 8 + seq % 2 ^ 24 * 256)).setReg Reg.FIRN_CLRLOG_HEAD ((k + 1) % 8)).count Reg.FIRN_CLR_CNT).raise 79)))

/-- CAP_TRIG_ARM with GO arms an enabled trigger that is not armed, and fires an IMMEDIATE one; CAP_TRIG_FIRE with GO fires an armed one,
and LEVEL_TRIGGER, where its crossing is due, every one whose crossing is due, in ascending number. A firing counts where its plan is
ARMED, counts as a repeat in POST, and is missed, with event 73, otherwise. CAP_STOP stops a plan that runs or waits, and CAP_REARM takes
a stopped plan to its next slot. CAP_SEAM_ROW stores a plan's oldest waiting row; CAP_DONE completes the record of a plan that holds its
last row. CAP_SPILL_COPY in RUN copies the oldest waiting record where it fits without a wrap; stopped, it does nothing.
CAP_SPILL_RPTR_WRITE commits both halves, and the spill resumes with no record waiting. What the spec leaves open in it the model reads as
log entry 73 says. -/
def Obligations.CaptureRecords : Prop :=
  ∀ (s : State) (who : Party) (w : Word) (trig : Fin 64) (plan : Fin 16) (err : MemErr) (at_ : Nat),
    let b := s.recBody
    let k := w.toNat % 2 ^ 6
    let n := w.toNat % 2 ^ 4
    (∀ k t, trigNeedArm b k = false → let n := fld (trigWord b k 0) 4 4
      (s.planState n = capPost → s.capFire k t = (s.setPlan n { s.plan n with retrig := min ((s.plan n).retrig + 1) 16383 }).count Reg.CAP_RETRIG_CNT) ∧
      (s.planState n ≠ capPost → s.planState n ≠ capArmed → s.capFire k t = (s.count Reg.CAP_TRIG_MISS_CNT).raise 73)) ∧
    (∀ k, (Tbl.get s.cap.due k none = none → s.fireLevel k = s) ∧ ∀ t, Tbl.get s.cap.due k none = some t →
      let u : State := { s with cap := { s.cap with due := Tbl.set s.cap.due k none none } }
      s.fireLevel k = if s.trigArmed k then u.capFire k t else u) ∧
    (s.takes who Reg.CAP_TRIG_ARM = true →
      (w.getLsbD 31 = false ∨ trigCnt b ≤ k ∨ trigEn b k = false ∨ s.trigArmed k = true → Ends (.capTrigArm who w) s s.quiet) ∧
      (w.getLsbD 31 = true → k < trigCnt b → trigEn b k = true → s.trigArmed k = false →
        let u := s.quiet.setF (trigReg k) (k % 32) 1 1
        let v : State := { u with cap := { u.cap with prev := Tbl.set u.cap.prev k none none, due := Tbl.set u.cap.due k none none } }
        (trigKind b k ≠ 0 → Ends (.capTrigArm who w) s v) ∧ (trigKind b k = 0 → Ends (.capTrigArm who w) s (v.capFire k v.nowNs)))) ∧
    (s.takes who Reg.CAP_TRIG_FIRE = true →
      (w.getLsbD 31 = true → k < trigCnt b → trigEn b k = true → s.trigArmed k = true → Ends (.capTrigFire who w) s (s.quiet.capFire k s.nowNs)) ∧
      (w.getLsbD 31 = false ∨ trigCnt b ≤ k ∨ trigEn b k = false ∨ s.trigArmed k = false → Ends (.capTrigFire who w) s s.quiet)) ∧
    (s.takes who Reg.CAP_PLAN_CTRL = true →
      (w.getLsbD 9 = true → n < planCnt b → s.planState n = capArmed ∨ s.planState n = capPost ∨ s.planState n = capWait → Ends (.capStop who w) s
        ((s.quiet.setPlan n { slot := (s.plan n).slot, used := (s.plan n).used }).setPlanState b n capStopped)) ∧
      (w.getLsbD 9 = false ∨ planCnt b ≤ n → Ends (.capStop who w) s s.quiet) ∧
      (w.getLsbD 8 = true → n < planCnt b → s.planState n = capStopped → Ends (.capRearm who w) s (s.quiet.nextSlot b n)) ∧
      (w.getLsbD 8 = false ∨ planCnt b ≤ n ∨ s.planState n ≠ capStopped → Ends (.capRearm who w) s s.quiet)) ∧
    (s.alive = true →
      (Tbl.get s.cap.due trig.val none = none → Ends (.levelTrigger trig) s s.quiet) ∧
      ((Tbl.get s.cap.due trig.val none).isSome = true → Ends (.levelTrigger trig) s (s.quiet.forRange (fun k u => u.fireLevel k) 0 64)) ∧
      (s.capComplete plan.val = false →
        ((s.plan plan.val).waiting = [] → Ends (.capSeamRow plan) s s.quiet) ∧
        (∀ r rest, (s.plan plan.val).waiting = r :: rest → Ends (.capSeamRow plan) s
          ((s.quiet.setPlan plan.val { s.plan plan.val with waiting := rest }).storeRow b plan.val r)) ∧
        Ends (.capDone plan err at_) s s.quiet) ∧
      (s.capComplete plan.val = true → Ends (.capDone plan err at_) s (s.quiet.finishRecord b plan.val err at_)) ∧
      (s.cap.spill = [] ∨ s.bit Reg.CAP_SPILL_STATE 0 = true ∨ s.pwr.state ≠ .run → Ends .capSpillCopy s s.quiet) ∧
      (∀ r rest, s.cap.spill = r :: rest → s.bit Reg.CAP_SPILL_STATE 0 = false → s.pwr.state = .run → s.spillFits b r.len = true →
        s.spillW + r.len ≤ spillSize b →
        let bytes := Memory.read s.cap.mem r.addr r.len
        let a := spillBase b + s.spillW
        let u := (s.quiet.ddrWrite (a + 64) (bytes.drop 64)).ddrWrite a (bytes.take 46 ++ leBytes 2 (s.rn Reg.CAP_SPILL_LAP) ++ (bytes.drop 48).take 16)
        let x := u.setSpillW (u.spillW + r.len)
        Ends .capSpillCopy s (((({ x with cap := { u.cap with spill := rest } } : State).count Reg.CAP_SPILL_CNT).freeSlot b r.plan r.slot).showSpill))) ∧
    (s.takes who Reg.CAP_SPILL_RPTR_HI = true → s.feat 57 = true → s.cap.spill = [] →
      let key := Reg.CAP_SPILL_RPTR_LO * 16 + who.num
      let lo := (Tbl.get s.heldLo key none).getD (s.rn Reg.CAP_SPILL_RPTR_LO)
      Ends (.capSpillRptrWrite who w) s (((({ s.quiet with heldLo := Tbl.set s.heldLo key none none } : State).setReg Reg.CAP_SPILL_RPTR_LO lo).setReg
        Reg.CAP_SPILL_RPTR_HI w.toNat).setF Reg.CAP_SPILL_STATE 0 1 0).showSpill)

/-- While the cores run: DPOST appends to the post buffer, or stalls with 64 in it, counted with event 87; TOKEN_FILE fires the jobs at
zero and then takes the intake's oldest token before the core posts'; a token for no thread or port is discarded, counted and traced, and
any other is filed at its port, a collision counted with event 82, and makes a complete idle thread ready, or is cancelled in its cycle.
DISP_POST with room appends to the intake. DJOB and DISP_JOB_DEC take one from a job, which has fired if it reached zero on an earlier
tick, and count an underflow at zero; JOB_FIRE of a job at zero reloads it and posts its token. NOTICE_TAKE takes the oldest completion
and decrements the job its entry names. TRACE_WRITE writes the oldest buffered entry to the ring, whose index wraps after 65535. What the
spec leaves open in it the model reads as log entry 76 says. -/
def Obligations.DispatcherTokens : Prop :=
  ∀ (s : State) (core : Fin 8) (v : BitVec 64) (who : Party) (w : Word) (job : Fin 256) (k : Post) (errs : Tbl MemErr),
    let b := s.pat 17
    let post : Post := { thread := v.toNat % 2 ^ 10, port := fld v.toNat 10 2, value := fld v.toNat 16 16, src := 0, core := core.val }
    let dec := fun (i : Instr) (j : Nat) =>
      (jobCnt b ≤ j ∨ fld (jobWord b j 0) 0 16 = 0 → Ends i s s.quiet) ∧
      (j < jobCnt b → fld (jobWord b j 0) 0 16 ≠ 0 →
        let v := if Tbl.get s.disp.zeroT j 0 < s.time.ticks then jobFire j s.quiet else s.quiet
        let n := v.rn (Reg.DISP_JOB j)
        (n = 0 → Ends i s (((v.count Reg.DISP_JOB_UNDER_CNT).raise 83).traceAdd trJobUnder 0 j 0 0 4 0)) ∧
        (n = 1 → Ends i s
          (({ v with disp := { v.disp with zeroT := Tbl.set v.disp.zeroT j v.time.ticks 0 } } : State).setReg (Reg.DISP_JOB j) (n - 1))) ∧
        (1 < n → Ends i s (v.setReg (Reg.DISP_JOB j) (n - 1))))
    let u := (s.count Reg.DISP_POST_CNT).traceAdd trPost k.core k.thread (thrPrio b k.thread) k.port k.src k.value
    let c := (u.checkFound 26 k.thread).2
    let x := c.thread k.thread
    let y : Thread := { x with filed := Tbl.set x.filed k.port (some k.value) none }
    (u.img.inForce = false ∨ thrExists b k.thread = false ∨ thrNtok b k.thread ≤ k.port →
      s.fileTok k = ((u.count Reg.DISP_DISC_CNT).raise 91).traceAdd trDiscard k.core k.thread (thrPrio b k.thread) k.port k.src k.value) ∧
    (u.img.inForce = true → thrExists b k.thread = true → k.port < thrNtok b k.thread →
      let d := if (Tbl.get x.filed k.port none).isSome then
          ((c.count Reg.DISP_COLL_CNT).raise 82).traceAdd trColl k.core k.thread (thrPrio b k.thread) k.port k.src k.value
        else c
      let z := d.setThread k.thread y
      (x.state ≠ 0 ∨ y.complete (thrNtok b k.thread) = false → s.fileTok k = z) ∧
      (x.state = 0 → y.complete (thrNtok b k.thread) = true → z.disp.cancels.contains k.thread = false ∨ z.disp.cancelT ≠ z.time.ticks →
        s.fileTok k = z.makeReady b k.thread)) ∧
    (jobCnt b ≤ job.val ∨ fld (jobWord b job.val 0) 0 16 = 0 ∨ s.rn (Reg.DISP_JOB job.val) ≠ 0 → jobFire job.val s = s) ∧
    (job.val < jobCnt b → fld (jobWord b job.val 0) 0 16 ≠ 0 → s.rn (Reg.DISP_JOB job.val) = 0 →
      let a := jobWord b job.val 0
      let val := fld (jobWord b job.val 1) 0 16
      let v := (s.checkFound 26 (0x400 + job.val)).2
      jobFire job.val s = (((v.setReg (Reg.DISP_JOB job.val) (fld a 0 16)).count Reg.DISP_JOB_FIRE_CNT).traceAdd trJobFire 0 job.val 0 0 3 val).fileTok
          { thread := fld a 16 10, port := fld a 26 2, value := val, src := 3 }) ∧
    (let v := s.fireJobs
     (∀ k rest, v.disp.intake = k :: rest → tokenFile s =
        (({ v with disp := { v.disp with intake := rest, watch := v.watchRead } } : State).showIntake).fileTok k) ∧
     (∀ k rest, v.disp.intake = [] → v.disp.posts = k :: rest → tokenFile s =
        ({ v with disp := { v.disp with posts := rest ++ v.disp.stalled.take 1, stalled := v.disp.stalled.drop 1 } } : State).fileTok k) ∧
     (v.disp.intake = [] → v.disp.posts = [] → tokenFile s = v)) ∧
    (s.coresRun = true →
      (s.disp.posts.length < 64 → Ends (.dpost core v) s { s.quiet with disp := { s.disp with posts := s.disp.posts ++ [post] } }) ∧
      (64 ≤ s.disp.posts.length → Ends (.dpost core v) s
        ((({ s.quiet with disp := { s.disp with stalled := s.disp.stalled ++ [post] } } : State).count Reg.DISP_POST_STALL_CNT).raise 87)) ∧
      Ends (.tokenFile errs) s (withErrs errs tokenFile s.quiet) ∧
      Ends (.jobFire job errs) s (withErrs errs (jobFire job.val) s.quiet) ∧
      dec (.djob core v) (v.toNat % 256) ∧
      (∀ u, s.quiet.popNote = (none, u) → Ends .noticeTake s u) ∧
      (∀ n u, s.quiet.popNote = (some n, u) →
        let e := noticeEntry (u.pat 17) n.index
        Ends .noticeTake s (if fld e 8 1 = 1 then u.jobDec (e % 2 ^ 8) else u)) ∧
      (s.disp.trace = [] → Ends .traceWrite s s.quiet) ∧
      (∀ e rest, s.disp.trace = e :: rest →
        let a := s.rn Reg.DISP_TRACE_WPTR
        let ix := a % 2 ^ 16
        let lap := fld a 16 16
        let u := ({ s.quiet with disp := { s.disp with trace := rest } } : State).ddrWrite
          (s.rn Reg.DISP_TRACE_BASE_LO + 2 ^ 32 * s.rn Reg.DISP_TRACE_BASE_HI + 16 * ix)
          (leBytes 4 e.w0 ++ leBytes 2 e.value ++ leBytes 2 lap ++ leBytes 4 e.ns ++ leBytes 4 e.sec)
        (ix = 65535 → Ends .traceWrite s (((u.setReg Reg.DISP_TRACE_WPTR (65536 * ((lap + 1) % 65536))).count Reg.DISP_TRACE_WRAP_CNT).raise 80)) ∧
        (ix ≠ 65535 → Ends .traceWrite s (u.setReg Reg.DISP_TRACE_WPTR (ix + 1 + 65536 * lap))))) ∧
    (s.takes who Reg.DISP_JOB_DEC = true → dec (.dispJobDec who w) (w.toNat % 256)) ∧
    (s.takes who Reg.DISP_POST = true → s.disp.intake.length < 64 → s.pwr.state = .run → Ends (.dispPost who w) s
      (({ s.quiet with disp := { s.disp with
          intake := s.disp.intake ++ [{ thread := w.toNat % 2 ^ 10, port := fld w.toNat 10 2, value := fld w.toNat 16 16, src := 2 }]
          watch := s.watchWrite s.disp.intake.isEmpty s.disp.watch } } : State).showIntake))

/-- While the cores run: SLOT_FILL gives a released core's empty slot the best ready thread eligible for it, and the ready threads
displace where they may; SLOT_VALID copies the argument block and makes the slot valid; DTAKE of a valid slot starts its thread and reads
its word, and reads 0 otherwise; DDONE ends the running thread, which is IDLE again, or READY where its ports are full, and is an orphan
with none running. DCANCEL and DISP_CANCEL cancel their thread: discarded for none that exists, remembered for the cycle at IDLE, out of
the ready list at READY, and its ports emptied at RUNNING. DIPI sets MSIP of the named cores; MTICKCMP_WRITE and MTIMER_EXPIRY judge MTIP.
CORE_RELEASE writes the run bits, core 0's always set. BOOT_COMPLETE at stage 0 boots the object found, code 1 with none, sends the lines
of the stages begun, and stands in recovery, stage 4, with the code and event 90 where it failed; past stage 0 no boot is made. Either way
FLDL_STATUS bit 3 shows recovery, and a held command is answered. What the spec leaves open in it the model reads as log entries 76 and 77
say. -/
def Obligations.DispatcherCores : Prop :=
  ∀ (s : State) (core : Fin 8) (v : BitVec 64) (who : Party) (w : Word) (object : List Byte) (errs : Tbl MemErr),
    let b := s.pat 17
    let k := core.val
    let x := s.core k
    let cancel := fun (i : Instr) (t : Nat) =>
      let y := s.thread t
      (s.img.inForce = false ∨ thrExists b t = false → Ends i s ((s.quiet.count Reg.DISP_DISC_CNT).raise 91)) ∧
      (s.img.inForce = true → thrExists b t = true →
        (y.state = 0 → Ends i s
          { s.quiet with disp := { s.disp with
            cancels := (if s.disp.cancelT = s.time.ticks then s.disp.cancels else []) ++ [t], cancelT := s.time.ticks } }) ∧
        (y.state = 1 → Ends i s ((((s.quiet.setReady (thrPrio b t) ((s.readyList (thrPrio b t)).erase t)).setThread t {}).count
          Reg.DISP_CANCEL_CNT).traceThr trCancel 0 t 0)) ∧
        (y.state = 3 → Ends i s (((s.quiet.setThread t { y with filed := [] }).count Reg.DISP_CANCEL_CNT).traceThr trCancel 0 t 0)))
    (s.coresRun = true →
      (x.slot.isSome = true ∨ s.coreRuns k = false ∨ s.bestFor b k 0 64 = none → Ends (.slotFill core) s s.quiet) ∧
      (∀ t, x.slot = none → s.coreRuns k = true → s.bestFor b k 0 64 = some t →
        let p := thrPrio b t
        Ends (.slotFill core) s (((((s.quiet.setReady p ((s.readyList p).erase t)).setThread t { s.thread t with state := 2 }).setCore k { x with slot := some t, valid := !thrPrefetch b t }).traceThr
          trSlot k t 0).displaceReady b)) ∧
      Ends (.slotValid core errs) s (withErrs errs (slotValid k) s.quiet) ∧
      (x.slot = none ∨ x.valid = true → slotValid k s = s) ∧
      (∀ t, x.slot = some t → x.valid = false →
        let src := sramIx (word b 1 - 0x10000000 + 256 * t)
        let v := (s.checkFound 25 (src / 8)).2
        let dst := 65536 * k + (if 1 - x.buf = 0 then 0xFE00 else 0xFF00)
        let u : State := { v with disp := { v.disp with dlm := Memory.write v.disp.dlm dst (Memory.read v.sram src 256) } }
        slotValid k s = u.setCore k { x with valid := true }) ∧
      (x.slot = none ∨ x.running.isSome = true ∨ x.valid = false → Ends (.dtake core) s (s.quiet.emit (.read 0))) ∧
      (∀ t, x.slot = some t → x.running = none → x.valid = true →
        let buf := 1 - x.buf
        let u := (s.quiet.setThread t { s.thread t with state := 3 }).setCore k { x with
          slot := none, valid := false, running := some t, buf := buf, dtok := BitVec.ofNat 64 (dtokWord (s.thread t).act)
          dentry := BitVec.ofNat 64 (thrWord b t 1) }
        Ends (.dtake core) s ((((u.count Reg.DISP_TAKE_CNT).count (Reg.DISP_CORE_TAKE_CNT k)).traceThr trTake k t 0).emit
          (.read (BitVec.ofNat 64 (2 ^ 17 + (t + thrPrio b t * 2 ^ 10 + 2 ^ 16 * buf)))))) ∧
      (x.running = none → Ends (.ddone core v) s ((s.quiet.count Reg.DISP_DONE_ORPHAN_CNT).raise 88)) ∧
      (∀ t, x.running = some t →
        let a := thrWord b t 2
        let u := ((s.quiet.setCore k { x with running := none }).count Reg.DISP_DONE_CNT).traceThr trDone k t (v.toNat % 65536)
        let z := if (s.thread t).complete (thrNtok b t) then u.makeReady b t else u.setThread t { s.thread t with state := 0, act := [] }
        Ends (.ddone core v) s (if fld a 8 1 = 1 then z.jobDec (a % 2 ^ 8) else z)) ∧
      cancel (.dcancel core v) (v.toNat % 1024) ∧
      Ends (.dipi core v) s (s.quiet.forRange (fun j u => if fld v.toNat j 1 = 1 then u.setCore j { u.core j with msip := true } else u) 0 8) ∧
      Ends (.mtickcmpWrite core v) s ((s.quiet.setCore k { x with mtickcmp := v }).judgeMtip k) ∧
      (s.rf Reg.DISP_BOOT 0 4 ≠ 0 → Ends (.bootComplete object) s
        (if s.rf Reg.DISP_BOOT 0 4 = 4 then s.quiet.setF Reg.FLDL_STATUS 3 1 1 else s.quiet).answerHeld) ∧
      (∀ r u, s.rf Reg.DISP_BOOT 0 4 = 0 → (if object = [] then (1, s.quiet) else s.quiet.fwBoot object) = (r, u) →
        let z := u.forRange (fun j y => y.bootLine j 0) 1 (bootLast r)
        let y := if r = 0 then z.bootLine 6 0 else ((z.setReg Reg.DISP_BOOT (4 + r * 256)).raise 90).bootLine 4 r
        Ends (.bootComplete object) s (if y.rf Reg.DISP_BOOT 0 4 = 4 then y.setF Reg.FLDL_STATUS 3 1 1 else y).answerHeld)) ∧
    (s.alive = true → Ends (.mtimerExpiry core) s (s.quiet.setCore k { x with mtip := decide (x.mtickcmp.toNat ≤ s.time.ticks) })) ∧
    (s.takes who Reg.DISP_CANCEL = true → cancel (.dispCancel who w) (w.toNat % 1024)) ∧
    (s.takes who Reg.DISP_CORE_RUN = true → Ends (.coreRelease who w) s
      ((s.quiet.setReg Reg.DISP_CORE_RUN (w.toNat % 256 / 2 * 2 + 1)).forRange (fun j u => u.showCore j) 0 8))

/-- With feature 64 and a NODUKO pattern: NDK_LINK_UP and NDK_LINK_DOWN of a lane that changes set its receiver bit, with event 96, and a
link down wraps its ring where not yet wrapped; NDK_UNWRAP undoes the wrap of a link that has been up for UNWRAP_MS. NDK_HOP_ECHO writes
the hop's delay of a lane that is up. NDK_RETRANSMIT sends the first stored cell due again, or abandons it after RTX_MAX sends.
NDK_ACK_TIMER acknowledges what is due. NDK_MASTER makes a device that may be master, having seen no POLL for its time, start a round;
NDK_POLL_LOST starts the round again that has not come back in ROUND_TMO. NDK_TIME_SEND sends the master's TIME cell each TIME_MS.
MIRROR_TIMEOUT and a TAKE in NDK_MIRROR_CTRL make a device in STANDBY take over as the rules say, a peer of another SERIAL marked a
mismatch once, with event 103. Otherwise each does nothing. What the spec leaves open in it the model reads as log entries 78, 80, 81 and
83 say. -/
def Obligations.StationLinkTimers : Prop :=
  ∀ (s : State) (lane : Fin 2) (delay : BitVec 32) (dev : Fin 8) (who : Party) (w : Word) (errs : Tbl MemErr),
    let b := s.ndkBody
    let l := lane.val
    let d := dev.val
    let now := s.time.ticks
    let peer := s.ndkPeer s.ndkPeerNum
    let tmo := wf b 3 0 16 * 250
    (s.ticking = true →
      (s.ndkOn = false ∨ s.laneUp l = true → Ends (.ndkLinkUp lane) s s.quiet) ∧
      (s.ndkOn = true → s.laneUp l = false → Ends (.ndkLinkUp lane) s
        ((({ s.quiet with ndk := { s.ndk with upAt := Tbl.set s.ndk.upAt l (now + 1) 0 } } : State).setF Reg.NDK_STATUS (1 - l) 1 1).raise 96)) ∧
      (s.ndkOn = false ∨ s.laneUp l = false → Ends (.ndkLinkDown lane) s s.quiet ∧ Ends (.ndkHopEcho lane delay) s s.quiet ∧
        Ends (.ndkUnwrap lane) s s.quiet) ∧
      (s.ndkOn = true → s.laneUp l = true →
        let u := (({ s.quiet with ndk := { s.ndk with upAt := Tbl.set s.ndk.upAt l 0 0 } } : State).setF Reg.NDK_STATUS (1 - l) 1 0).raise 96
        (u.bit Reg.NDK_STATUS (2 + l) = true → Ends (.ndkLinkDown lane) s u) ∧
        (u.bit Reg.NDK_STATUS (2 + l) = false → Ends (.ndkLinkDown lane) s
          (((u.setF Reg.NDK_STATUS (2 + l) 1 1).count Reg.NDK_WRAP_CNT).raise 97)) ∧
        Ends (.ndkHopEcho lane delay) s (s.quiet.setReg (Reg.NDK_HOP_DLY (1 - l)) delay.toNat) ∧
        (s.bit Reg.NDK_STATUS (2 + l) = true → Tbl.get s.ndk.upAt l 0 + 250000 * wf b 3 16 16 ≤ now + 1 → Ends (.ndkUnwrap lane) s
          (((s.quiet.setF Reg.NDK_STATUS (2 + l) 1 0).count Reg.NDK_WRAP_CNT).raise 97)) ∧
        (s.bit Reg.NDK_STATUS (2 + l) = false ∨ now + 1 < Tbl.get s.ndk.upAt l 0 + 250000 * wf b 3 16 16 → Ends (.ndkUnwrap lane) s s.quiet))) ∧
    (s.alive = true →
      Ends (.ndkRetransmit errs) s (withErrs errs ndkRetransmit s.quiet) ∧
      (s.ndkOn = false → Ends (.ndkAckTimer dev) s s.quiet ∧ Ends .ndkMaster s s.quiet ∧ Ends .ndkPollLost s s.quiet ∧
        Ends .ndkTimeSend s s.quiet) ∧
      (s.ndkOn = true →
        ((s.ndkPeer d).ackDue = none → Ends (.ndkAckTimer dev) s s.quiet) ∧
        (∀ t, (s.ndkPeer d).ackDue = some t → (t ≤ now → Ends (.ndkAckTimer dev) s (s.quiet.sendAck d)) ∧
          (now < t → Ends (.ndkAckTimer dev) s s.quiet)) ∧
        (s.ndkMaster = true ∨ now < s.ndk.lastPoll + wf b 1 16 16 * 250 * (1 + s.devNum) → Ends .ndkMaster s s.quiet) ∧
        (wf b 0 3 1 ≠ 1 → s.ndkAlone = false → Ends .ndkMaster s s.quiet) ∧
        (s.ndkMaster = false → wf b 0 3 1 = 1 ∨ s.ndkAlone = true → s.ndk.lastPoll + wf b 1 16 16 * 250 * (1 + s.devNum) ≤ now →
          Ends .ndkMaster s (((({ s.quiet with ndk := { s.ndk with master := some s.devNum } } : State).setF Reg.NDK_STATUS 4 1 1).setF Reg.NDK_STATUS 5 3 s.devNum).raise 102).startRound) ∧
        (s.ndk.round = none ∨ s.ndkMaster = false ∨ s.ndkAlone = true → Ends .ndkPollLost s s.quiet) ∧
        (∀ t, s.ndk.round = some t → s.ndkMaster = true → s.ndkAlone = false →
          (t + wf b 1 0 16 * 250 ≤ now → Ends .ndkPollLost s ((s.quiet.count Reg.NDK_POLL_LOST_CNT).raise 98).startRound) ∧
          (now < t + wf b 1 0 16 * 250 → Ends .ndkPollLost s s.quiet)) ∧
        (s.ndkMaster = false ∨ now < s.ndk.timeAt + 250000 * wf b 4 0 10 → Ends .ndkTimeSend s s.quiet) ∧
        (s.ndkMaster = true → s.ndk.timeAt + 250000 * wf b 4 0 10 ≤ now → Ends .ndkTimeSend s
          (({ s.quiet with ndk := { s.ndk with timeAt := now } } : State).sendControl 4 0xFF (leBytes 12 s.nowT80 ++
            leBytes 4 (s.disc + s.rf Reg.TIME_QUAL 0 4 * 16 + s.epoch * 256) ++ leBytes 4 (s.rn Reg.TIME_EST_ERR))))) ∧
      (s.standby = false → Ends .mirrorTimeout s s.quiet) ∧
      (s.standby = true → s.ndk.decided = false →
        (now < s.ndk.loadAt + tmo → Ends .mirrorTimeout s s.quiet) ∧
        (s.ndk.loadAt + tmo ≤ now → s.mrole = 1 → peer.active = false → Ends .mirrorTimeout s s.quiet.mirrorOn.almOutputs) ∧
        (s.ndk.loadAt + tmo ≤ now → s.mrole ≠ 1 ∨ peer.active = true → Ends .mirrorTimeout s { s.quiet with ndk := { s.ndk with decided := true } })) ∧
      (s.standby = true → s.ndk.decided = true →
        (now < max peer.heard s.ndk.loadAt + tmo → Ends .mirrorTimeout s s.quiet) ∧
        (max peer.heard s.ndk.loadAt + tmo ≤ now →
          (peer.serial = some (s.rn Reg.FEAT_IMG_SERIAL) → Ends .mirrorTimeout s s.quiet.takeover) ∧
          (peer.serial ≠ some (s.rn Reg.FEAT_IMG_SERIAL) → s.bit Reg.NDK_MIRROR 1 = true → Ends .mirrorTimeout s s.quiet) ∧
          (peer.serial ≠ some (s.rn Reg.FEAT_IMG_SERIAL) → s.bit Reg.NDK_MIRROR 1 = false →
            Ends .mirrorTimeout s ((s.quiet.setF Reg.NDK_MIRROR 1 1 1).raise 103))))) ∧
    (s.ndkOn = false ∨ s.ndk.store.find? (fun x => x.due ≤ now) = none → ndkRetransmit s = s) ∧
    (s.ndkOn = true → ∀ x, s.ndk.store.find? (fun x => x.due ≤ now) = some x →
      (wf b 2 16 4 ≤ x.sends → ndkRetransmit s =
        ((({ s with ndk := { s.ndk with store := s.ndk.store.erase x } } : State).count Reg.NDK_RTX_ABANDON_CNT).raise 101)) ∧
      (x.sends < wf b 2 16 4 →
        let u := (s.checkFound 47 (s.ndk.store.idxOf x)).2
        let y : NdkSent := { x with sends := x.sends + 1, due := u.time.ticks + u.rtxTicks }
        ndkRetransmit s = (({ u with ndk := { u.ndk with store := u.ndk.store.map fun z => if z = x then y else z } } : State).count
          Reg.NDK_RTX_CNT).ringSend 0 x.cell)) ∧
    (s.takes who Reg.NDK_MIRROR_CTRL = true →
      (w.getLsbD 0 = false ∨ s.standby = false → Ends (.ndkMirrorTake who w) s s.quiet) ∧
      (w.getLsbD 0 = true → s.standby = true → Ends (.ndkMirrorTake who w) s
        { s.quiet.takeover with ndk := { s.quiet.takeover.ndk with take := true } }))

/-- A cell received on a lane that is up counts as a runt, a long cell or a CRC failure with event 99 in that order; an IDLE cell does
nothing; an own cell is taken off the ring; any other marks its device heard, answers a newer POLL with STATUS and own DATA, is passed on,
and is handled. Handling gives nothing for DATA or an ACK not addressed to the device, counts an authentication failure with event 100,
and a control cell that is not newer as a duplicate; otherwise it delivers DATA, takes the ACK, the TIME or the STATUS. DATA of a device
is delivered once: first or newer than HIGH, or in the window and not yet seen; any other counts as a duplicate and is acknowledged at
once. What the spec leaves open in it the model reads as log entries 79, 80, 81 and 82 say. -/
def Obligations.StationLinkCells : Prop :=
  ∀ (s : State) (lane : Fin 2) (c p : List Byte) (l n : Nat) (late : Bool) (errs : Tbl MemErr),
    let up := s.ndkOn && s.laneUp l
    let bad := fun (cnt : Nat) => (s.count cnt).raise 99
    let kind := wf c 0 0 3
    let d := wf c 0 3 3
    let seq := leNat (slice c 4 6)
    let poll := fun (u : State) => ((u.pollFrom d (wf c 2 16 16)).sendStatus).sendData
    (s.alive = true → Ends (.ndkCellReceive lane c errs) s (withErrs errs (ndkCellReceive lane.val c) s.quiet)) ∧
      (up = false → ndkCellReceive l c s = s) ∧
      (up = true →
        (c.length < 256 → ndkCellReceive l c s = bad Reg.NDK_RUNT_CNT) ∧
        (256 < c.length → ndkCellReceive l c s = bad Reg.NDK_LONG_CNT) ∧
        (c.length = 256 → leNat (slice c 240 4) ≠ (crc32 (c.take 240)).toNat → ndkCellReceive l c s = bad Reg.NDK_CRC_CNT) ∧
        (c.length = 256 → leNat (slice c 240 4) = (crc32 (c.take 240)).toNat →
          (kind = 0 → ndkCellReceive l c s = s) ∧
          (kind ≠ 0 → d = s.devNum → ndkCellReceive l c s = s.ownCell c) ∧
          (kind ≠ 0 → d ≠ s.devNum →
            let u := s.setNdkPeer d { s.ndkPeer d with heard := s.time.ticks }
            let v := if d = u.ndkPeerNum && u.mrole ≠ 0 then u.setF Reg.NDK_MIRROR 2 1 1 else u
            (kind = 1 → v.controlNew d seq = true → ndkCellReceive l c s = ((poll v).forwardCell l c).handleCell l c) ∧
            (kind ≠ 1 ∨ v.controlNew d seq = false → ndkCellReceive l c s = (v.forwardCell l c).handleCell l c)))) ∧
    (kind = 2 ∨ kind = 3 → fld (wf c 0 6 8) s.devNum 1 = 0 → s.handleCell l c = s) ∧
    ((kind ≠ 2 ∧ kind ≠ 3) ∨ fld (wf c 0 6 8) s.devNum 1 ≠ 0 →
      (∀ u, s.openCell c = (none, u) → s.handleCell l c = (u.count Reg.NDK_AUTH_FAIL_CNT).raise 100) ∧
      (∀ p late u, s.openCell c = (some (p, late), u) →
        let v := u.tookControl d seq
        (kind = 2 → s.handleCell l c = u.dataCell d seq p late) ∧
        (kind ≠ 2 → u.controlNew d seq = false → s.handleCell l c = u.count Reg.NDK_DUP_CNT) ∧
        (kind = 3 → u.controlNew d seq = true → s.handleCell l c = v.ackFrom d (word2 p 0 % 2 ^ 48) (BitVec.ofNat 64 (word2 p 2))) ∧
        (kind = 4 → u.controlNew d seq = true → s.handleCell l c = v.timeCell l c p) ∧
        (kind = 5 → u.controlNew d seq = true → s.handleCell l c = v.statusFrom d p))) ∧
    (let x := s.ndkPeer d
     let give := fun (y : NdkPeer) => ((s.setNdkPeer d y).deliverCell p late).ackLater d
     (x.high = none → s.dataCell d n p late = give { x with high := some n, win := 1 }) ∧
     (∀ h, x.high = some h →
       let k := sInt 48 (2 ^ 48 + n - h)
       (0 < k → k < 64 → s.dataCell d n p late = give { x with high := some n, win := x.win.shiftLeft k.toNat ||| 1#64 }) ∧
       (64 ≤ k → s.dataCell d n p late = give { x with high := some n, win := 1 }) ∧
       (k ≤ 0 → -64 < k → x.win.getLsbD (-k).toNat = false → s.dataCell d n p late = give { x with win := x.win ||| (1#64).shiftLeft (-k).toNat }) ∧
       (k ≤ -64 → s.dataCell d n p late = (s.count Reg.NDK_DUP_CNT).sendAck d) ∧
       (k ≤ 0 → -64 < k → x.win.getLsbD (-k).toNat = true → s.dataCell d n p late = (s.count Reg.NDK_DUP_CNT).sendAck d)))

/-- SUPERFRAME_START, on time with the time set, starts the superframe of now and sends its beacon. A frame heard in an open window or
while an acknowledgement is awaited counts as short, as an FCS error, as unknown where it does not parse and, being no acknowledgement
awaited, where its source is no sensor's, and as a slot error outside every window of its sensor. In its window it counts an
authentication failure with event 107 without a key, with a tag that does not verify or at the last counter, and otherwise is accepted
when its counter is above the last, and a duplicate if not; either is acknowledged 1,000 µs later where it asks for it. RADIO_RXQ_POP
releases the head entry. SLOT_MISS counts the oldest started slot that ended unheard. DUTY_HOUR_END at a new UTC hour clears the used time
and ends the hold. What the spec leaves open in it the model reads as log entries 84, 85, 86 and 116 say. -/
def Obligations.RadioReception : Prop :=
  ∀ (s : State) (rx : RadioRx) (who : Party) (w : Word) (sensor : Fin 256) (k n : Nat) (t : Int) (m : Mhr) (err : MemErr) (errs : Tbl MemErr),
    let sf := sfNs s.radBody
    let at_ : Int := (s.nowNs : Int) + rx.sfd
    let hears := s.radioOn && decide (s.disc ≠ stUnset) && (s.ackAwaited.isSome || (sensorsOf s.radBody).any fun k => (s.windowOf k at_).isSome)
    let f := rx.psdu.take (rx.psdu.length - if rx.fcs4 then 4 else 2)
    let fail := fun (u : State) => (u.count Reg.RADIO_AUTH_FAIL_CNT).raise 107
    let x := s.sensor sensor.val
    (s.ticking = true →
      (s.radioOn = false ∨ s.disc = stUnset ∨ s.nowNs < s.radio.next * sf → Ends .superframeStart s s.quiet) ∧
      (s.radioOn = true → s.disc ≠ stUnset → s.radio.next * sf ≤ s.nowNs →
        let n := s.nowNs / sf
        let u : State := { s.quiet with radio := { s.radio with next := n + 1, started := n :: s.radio.started.take 1 } }
        Ends .superframeStart s (((u.setReg Reg.RADIO_SFN (n % 2 ^ 40)).setF Reg.RADIO_STATUS 0 1 1).sendBeacon n)) ∧
      (s.radioOn = false ∨ s.utcHour = s.radio.hour → Ends .dutyHourEnd s s.quiet) ∧
      (s.radioOn = true → s.utcHour ≠ s.radio.hour → Ends .dutyHourEnd s
        ((({ s.quiet with radio := { s.radio with hour := s.utcHour } } : State).setReg Reg.RADIO_DUTY_USED 0).setF Reg.RADIO_STATUS 1 1 0))) ∧
    (s.alive = true →
      Ends (.radioFrameReceive rx err errs) s (withErrs errs (fun u => radioFrameReceive rx (u.crossing 0 err)) s.quiet) ∧
      (s.radioOn = false ∨ s.disc = stUnset ∨ snsOn s.radBody sensor.val = false → Ends (.slotMiss sensor) s s.quiet) ∧
      (s.radioOn = true → s.disc ≠ stUnset → snsOn s.radBody sensor.val = true →
        let late := fun (n : Nat) => !(match x.missed with
          | some m => decide (n ≤ m)
          | none => false)
        let ended := s.radio.started.reverse.find? fun n => s.slotIn sensor.val n && s.slotEnded sensor.val n && decide (x.heard ≠ some n) && late n
        (ended = none → Ends (.slotMiss sensor) s s.quiet) ∧
        (∀ n, ended = some n → Ends (.slotMiss sensor) s
          ((s.quiet.setSensor sensor.val { x with missed := some n, winEpoch := s.epoch }).miss sensor.val)))) ∧
    (hears = false → radioFrameReceive rx s = s) ∧
    (hears = true →
      let u := s.radioChecks at_ rx
      radioFrameReceive rx s = { u with radio := { u.radio with busy := max u.radio.busy u.nowNs } }) ∧
    (rx.ms = true ∨ rx.psdu.length < 9 → s.radioChecks t rx = s.count Reg.RADIO_SHORT_CNT) ∧
    (rx.ms = false → 9 ≤ rx.psdu.length →
      (withRadioFcs rx.fcs4 f ≠ rx.psdu → s.radioChecks t rx = s.count Reg.RADIO_FCS_ERR_CNT) ∧
      (withRadioFcs rx.fcs4 f = rx.psdu → parseMhr f = none → s.radioChecks t rx = s.count Reg.RADIO_UNKNOWN_CNT) ∧
      (withRadioFcs rx.fcs4 f = rx.psdu → parseMhr f = some m → fld m.fcf 0 3 = 2 → fld m.fcf 12 2 = 2 → ∀ k, s.ackAwaited = some k →
        s.radioChecks t rx = s.radioAckIn k m) ∧
      (withRadioFcs rx.fcs4 f = rx.psdu → parseMhr f = some m → s.ackAwaited = none ∨ fld m.fcf 0 3 ≠ 2 ∨ fld m.fcf 12 2 ≠ 2 →
        (s.radioSource m = none → s.radioChecks t rx = s.count Reg.RADIO_UNKNOWN_CNT) ∧
        (s.radioSource m = some k → s.windowOf k t = none → s.radioChecks t rx = s.count Reg.RADIO_SLOT_ERR_CNT) ∧
        (s.radioSource m = some k → s.windowOf k t = some n →
          s.radioChecks t rx = (s.setSensor k { s.sensor k with heard := some n, winEpoch := s.epoch }).radioSecured k n t rx m))) ∧
    (∀ u, s.radioKey k m = (none, u) → s.radioSecured k n t rx m = fail u) ∧
    (∀ key late u, s.radioKey k m = (some (key, late), u) →
      (openFrame key (snsAddr u.radBody k) m = none ∨ m.ctr = 0xFFFFFFFF → s.radioSecured k n t rx m = fail u) ∧
      (∀ plain, openFrame key (snsAddr u.radBody k) m = some plain → m.ctr ≠ 0xFFFFFFFF →
        let tnom := snsNominal s.radBody k n
        let v := if late then u.count Reg.RADIO_KEYREV_CNT else u
        let fresh := decide (v.rn (Reg.RADIO_SNS_RXCTR k) < m.ctr)
        let y := if fresh then v.acceptRadio k tnom late t (t - tnom) rx m plain else v.count Reg.RADIO_DUP_CNT
        (fld m.fcf 5 1 = 0 → s.radioSecured k n t rx m = y) ∧
        (fld m.fcf 5 1 = 1 → s.radioSecured k n t rx m = { y with radio := { y.radio with ack := some {
          due := 250000 + y.time.ticks, sensor := k, key := key, keyId := m.keyId, err := t - tnom, seq := m.seq, tnom := tnom
          accepted := fresh } } }))) ∧
    (s.takes who Reg.RADIO_RXQ_POP = true →
      (w.getLsbD 0 = false ∨ s.radio.rxCount = 0 → Ends (.radioRxqPop who w) s s.quiet) ∧
      (w.getLsbD 0 = true → s.radio.rxCount ≠ 0 →
        let a := s.rn Reg.RADIO_RXQ_BASE + 2112 * s.radio.rxHead
        let u := s.quiet.sramWrite (a + 3) [Memory.byte s.sram (sramIx (a + 3)) &&& 0x7F]
        Ends (.radioRxqPop who w) s (({ u with radio := { u.radio with
          rxHead := (u.radio.rxHead + 1) % 256, rxCount := u.radio.rxCount - 1, watch := u.watchRead } } : State).showRadioQ)))

/-- RADIO_ACK_SEND of a due acknowledgement withholds it under the duty hold, counted, and otherwise sends it sealed under the next
transmit counter, unless that is exhausted. RADIO_WAKE of a queued wake-up that is due takes it, opens the recovery slot with event 111,
and sends the signature of a sensor that gets one, unless withheld. RADIO_TXQ_CTRL with GO queues the frame of an enabled sensor, or
counts a failure with 16 queued or for no such sensor. RADIO_DOWNLINK_SEND of a due frame withholds it under the hold, and otherwise sends
it where its key is usable and its counter not exhausted. DOWNLINK_ACK_TIMEOUT past its time ends a frame sent three times as a failure
and leaves any other queued. What the spec leaves open in it the model reads as log entries 86 and 116 say. -/
def Obligations.RadioSending : Prop :=
  ∀ (s : State) (sensor : Fin 256) (who : Party) (w : Word),
    let k := sensor.val
    let b := s.radBody
    let r := s.radio
    let now := s.time.ticks
    let fcs := if wf b 0 4 1 = 1 then 4 else 2
    (s.alive = true →
      (r.ack = none ∨ s.radioOn = false → Ends .radioAckSend s s.quiet) ∧
      (∀ a, r.ack = some a → s.radioOn = true →
        (now < a.due → Ends .radioAckSend s s.quiet) ∧
        (a.due ≤ now →
          let u : State := { s.quiet with radio := { r with ack := none } }
          (s.dutyHold = true → Ends .radioAckSend s (u.count Reg.RADIO_DUTY_WAIT_CNT)) ∧
          (s.dutyHold = false → 0xFFFFFFFF ≤ s.rn (Reg.RADIO_SNS_TXCTR a.sensor) + 1 → Ends .radioAckSend s
            ((u.setReg (Reg.RADIO_SNS_TXCTR a.sensor) 0xFFFFFFFF).count Reg.RADIO_CTR_EXH_CNT)) ∧
          (s.dutyHold = false → s.rn (Reg.RADIO_SNS_TXCTR a.sensor) + 1 < 0xFFFFFFFF →
            let c := s.rn (Reg.RADIO_SNS_TXCTR a.sensor) + 1
            let v := u.setReg (Reg.RADIO_SNS_TXCTR a.sensor) c
            let f := v.ackFrame a c
            let x := (v.sendPsdu v.nowNs f).count Reg.RADIO_ACK_CNT
            let y := if a.accepted then x.setSensor a.sensor { x.sensor a.sensor with tref := a.tnom, epoch := x.epoch } else x
            Ends .radioAckSend s (if y.downPending a.sensor then
              { y with radio := { y.radio with down := some (y.time.ticks + (airtime b (f.length + fcs) + 1000) * 250, a.sensor) } }
              else y)))) ∧
      ((s.sensor k).wakeIn = none ∨ s.radioOn = false → Ends (.radioWake sensor) s s.quiet) ∧
      (∀ n, (s.sensor k).wakeIn = some n → s.radioOn = true →
        let dur := (6 + 4 * wf b 7 12 4) * 160
        let after := ((sensorsOf b).filter fun j => decide (k ≤ j) && decide ((s.sensor j).wakeIn = some n) && s.wakes j).length
        (s.nowNs + (wf b 8 0 16 + dur * after) * 1000 < n * sfNs b → Ends (.radioWake sensor) s s.quiet) ∧
        (n * sfNs b ≤ s.nowNs + (wf b 8 0 16 + dur * after) * 1000 →
          let u := (s.quiet.setSensor k { s.sensor k with wakeIn := none, recovery := some n, tref := n * sfNs b, epoch := s.epoch }).raise 111
          (u.wakes k = false → Ends (.radioWake sensor) s u) ∧
          (u.wakes k = true → u.dutyHold = true → Ends (.radioWake sensor) s (u.count Reg.RADIO_DUTY_WAIT_CNT)) ∧
          (u.wakes k = true → u.dutyHold = false → Ends (.radioWake sensor) s ((u.emit (.wake k (wakeSignature b k))).transmitted u.nowNs dur)))) ∧
      (r.down = none ∨ s.radioOn = false → Ends .radioDownlinkSend s s.quiet) ∧
      (∀ due j, r.down = some (due, j) → s.radioOn = true →
        (now < due → Ends .radioDownlinkSend s s.quiet) ∧
        (due ≤ now →
          let u : State := { s.quiet with radio := { r with down := none } }
          let q := r.txq.find? fun x => x.sensor = j
          (q = none → Ends .radioDownlinkSend s u) ∧
          (∀ x, q = some x →
            (s.dutyHold = true → Ends .radioDownlinkSend s (u.count Reg.RADIO_DUTY_WAIT_CNT)) ∧
            (s.dutyHold = false →
              (∀ v, u.takeBound engRadio (snsBind b j) 3 false = (none, v) → Ends .radioDownlinkSend s v) ∧
              (∀ key late v z, u.takeBound engRadio (snsBind b j) 3 false = (some (key, late), v) →
                (v.advanceCtr (Reg.RADIO_SNS_TXCTR j) = (none, z) → Ends .radioDownlinkSend s z) ∧
                (∀ c, v.advanceCtr (Reg.RADIO_SNS_TXCTR j) = (some c, z) →
                  let f := z.downFrame x key (z.keyIndex (z.bindSlot (snsBind b j) false)) c
                  let us := airtime z.radBody (f.length + if wf z.radBody 0 4 1 = 1 then 4 else 2)
                  Ends .radioDownlinkSend s (({ z with radio := { z.radio with
                    txq := setFirst (fun y => y.sensor = j) { x with sends := x.sends + 1 } z.radio.txq
                    await := some (z.time.ticks + (us + 3000) * 250, j) } } : State).sendPsdu z.nowNs f))))))) ∧
      (r.await = none → Ends .downlinkAckTimeout s s.quiet) ∧
      (∀ d j, r.await = some (d, j) →
        (now < d → Ends .downlinkAckTimeout s s.quiet) ∧
        (d ≤ now →
          let q := r.txq.find? fun x => x.sensor = j
          (∀ x, q = some x → 3 ≤ x.sends → Ends .downlinkAckTimeout s ((s.quiet.downEnd j false).count Reg.RADIO_TX_FAIL_CNT)) ∧
          (q = none ∨ (∃ x, q = some x ∧ x.sends < 3) → Ends .downlinkAckTimeout s { s.quiet with radio := { r with await := none } })))) ∧
    (s.takes who Reg.RADIO_TXQ_CTRL = true →
      let j := w.toNat % 2 ^ 8
      (w.getLsbD 31 = false ∨ s.radioOn = false → Ends (.radioTxqCtrl who w) s s.quiet) ∧
      (w.getLsbD 31 = true → s.radioOn = true →
        (16 ≤ r.txq.length ∨ snsOn b j = false → Ends (.radioTxqCtrl who w) s (s.quiet.count Reg.RADIO_TX_FAIL_CNT)) ∧
        (r.txq.length < 16 → snsOn b j = true →
          let x : Downlink := { sensor := j, data := Memory.read s.sram (sramIx (s.rn Reg.RADIO_TXQ_ADDR)) (fld w.toNat 8 11) }
          Ends (.radioTxqCtrl who w) s (({ s.quiet with radio := { r with txq := r.txq ++ [x] } } : State).showTxq))))

/-- A key command of a mailbox that is not its party's, not one the command has, busy, in a life-cycle state that has no such command or
under the silent rule does nothing; during a migration it ends BUSY; otherwise it runs, the keys it withdrew are withdrawn, and it ends
with its RESULT. GENERATE and IMPORT_PLAIN write the slot, or end PARAM for a bad slot or header. IMPORT_WRAPPED also ends SLOT_UNUSABLE
for its wrapping slot and AUTH where the unwrap fails. DERIVE writes the derived child. REVOKE revokes a slot and its descendants.
BIND_SET and BIND_ROLL set a binding, or end PARAM. VERIFY ends as the signature's check says. ATTEST writes the block and its response.
PRIV_NONCE issues a nonce. STATUS writes the UID and KEY_STATUS. What the spec leaves open in it the model reads as log entries 87 and 88
say. -/
def Obligations.KeyCommands : Prop :=
  ∀ (s : State) (mbx : Fin 2) (who : Party) (h : BitVec 7),
    let m := mbx.val
    let q := s.quiet
    let idle := mbxParty m who && !s.bit (Reg.KEY_MBX_STATUS m) 0
    let a := s.mbx m 0
    let b := s.mbx m 1
    let c := s.mbx m 2
    let go := fun (i : Instr) (mbxs lcs : List Nat) (ok : Bool) (inHand : Nat) (r : Nat × State) =>
      let allowed := idle && mbxs.contains m && lcs.contains s.lc && ok
      (allowed = false → Ends i s q) ∧
      (allowed = true → s.key.migr.isSome = true → Ends i s (q.keyEnd m krBusy)) ∧
      (allowed = true → s.key.migr = none → Ends i s (((q.withdraw r.2 inHand).showSlots).keyEnd m r.1))
    let silent := s.writeAllowed a b
    let bad := decide (63 < a) || !hdrOk b
    let u := s.mbx m 4
    s.alive = true →
      (idle = false → Ends (.status mbx who) s q) ∧
      (idle = true → Ends (.status mbx who) s
        (((q.mbxPut m 0 (leBytes 16 Config.uid.toNat)).mbxPut m 16 (leBytes 4 (s.rn Reg.KEY_STATUS))).keyEnd m krOk)) ∧
      go (.generate mbx who h) [1] [0, 1, 2] silent h.toNat
        (if bad then (krParam, q) else (krOk, q.drawn.writePlain m (leBytes 64 (s.draw 512).toNat))) ∧
      go (.importPlain mbx who h) [0, 1] [0, 1] silent h.toNat (if bad then (krParam, q) else (krOk, q.writePlain m (s.mbxBytes m 16 64))) ∧
      go (.importWrapped mbx who h) [0, 1] [0, 1, 2] silent h.toNat
        (if bad || decide (63 < u) then (krParam, q)
         else if s.slotState u ≠ slotUsable ∨ s.hdr u 11 1 = 0 then (krSlotUnusable, q)
         else match Config.aesGcmOpen (s.material u) (s.mbxBytes m 20 12) (s.mbxBytes m 4 12) (s.mbxBytes m 32 64) (s.mbxBytes m 96 16) with
           | none => (krAuth, q)
           | some plain => (krOk, q.writePlain m plain)) ∧
      (let kind := fld c 1 3
       let len := if kind = 0 then 16 else if kind = 4 then 64 else 32
       let w := putFld (putFld (putFld (c % 2 ^ 17) 17 6 b) 23 1 1) 25 3 (s.hdr b 25 3 + 1)
       go (.derive mbx who h) [1] [0, 1, 2] (s.writeAllowed a c) h.toNat
         (if b ≤ 63 ∧ s.slotState b ≠ slotUsable then (krSlotUnusable, q)
          else if s.deriveOk a b c = false then (krParam, q)
          else (krOk, q.writeSlot a w (s.mbx m 3) (Config.kmac256 (s.material b) (s.mbxBytes m 32 32) (ascii "VL9160 DERIVE") len)))) ∧
      go (.revoke mbx who h) [0, 1] [0, 1, 2, 3] true h.toNat
        (if a = 0 ∨ 63 < a then (krParam, q)
         else (krOk, q.revokeAll ((a :: s.descendants a).filter fun k => s.hdr k 0 1 = 1))) ∧
      go (.bindSet mbx who) [1] [0, 1, 2, 3] true 0
        (if s.bindCnt ≤ a ∨ b = 0 ∨ 63 < b ∨ c = 0 ∨ (63 < c ∧ c ≠ 255) ∨ b = c then (krParam, q)
         else (krOk, (q.setF (Reg.KEY_BIND a) 0 8 b).setF (Reg.KEY_BIND a) 8 8 c)) ∧
      go (.bindRoll mbx who) [1] [0, 1, 2, 3] true 0
        (if s.bindCnt ≤ a ∨ s.bindSlot a true = 255 then (krParam, q)
         else (krOk, (q.setF (Reg.KEY_BIND a) 0 8 (s.bindSlot a true)).setF (Reg.KEY_BIND a) 8 8 255)) ∧
      go (.verify mbx who) [1] [0, 1, 2, 3, 4] true 0
        (match s.coreBytes b 2592, s.coreBytes c (s.mbx m 3), s.coreBytes u 4627 with
         | some pk, some data, some sig =>
           if 63 < a then (krParam, q)
           else if (Tbl.get s.key.late engCmd []).any (fun x => x.1 = a) then (krRevokedDuring, (q.takeKey engCmd a 5).2)
           else q.verifySig a 5 pk (Config.sha3_512 data) sig
         | _, _, _ => (krParam, q)) ∧
      (let k := a % 256
       let block := fun (v : State) => v.attestBlock
       let resp := fun (v : State) (key : List Byte) => Config.kmac256 key (s.mbxBytes m 4 32 ++ block v) (ascii "VL9160 ATTEST") 32
       go (.attest mbx who) [0, 1] [0, 1, 2, 3] true 0
         (if s.feat 80 = false then (krUnsupported, q)
          else if 63 < k then (krParam, q)
          else match q.takeKey engCmd k 4 with
            | (none, v) => (krSlotUnusable, v)
            | (some (_, true), v) => (krRevokedDuring, v)
            | (some (key, false), v) => (krOk, ((v.mbxPut m 0 (block v)).mbxPut m 128 (resp v key)).count Reg.KEY_ATTEST_CNT))) ∧
      (let n := leBytes 32 (s.draw 256).toNat
       go (.privNonce mbx who) [0, 1] [0, 1, 2, 3, 4] true 0 (krOk, (q.drawn.mbxPut m 0 n).setNonce m (some (n, s.time.ticks))))

/-- A privileged block of the command's CODE, in its party's idle mailbox, spends the nonce, counts and raises event 116. It ends BUSY
during a migration, and with the failing check's RESULT where a check fails, counted as a failure. Past the checks TIME_REARM opens the
window of REARM, CLEAR_STATS those of FIRN_CLR and STN_ECLR, LIFECYCLE ends TRANSITION or BUSY or starts the migration with the mailbox
BUSY, UNLOAD ends OK and takes a loaded image out, and INSTALL_PK writes its slot or ends PARAM. NONCE_LAPSE 60 s after a nonce's issue
drops it, and AUTH_WINDOW_EXPIRY closes a window 1 s after its opening. What the spec leaves open in it the model reads as log entry 91
says. TAG_VERIFY_SWEEP, from an hour after the tags were last verified, verifies every tag, those named damaged as not verifying, and
withdraws the keys that stop being usable; before the hour it does nothing. MIGRATION_COMPLETE of a running migration makes the new state
and its roots, judges the tags again on entering RETURNED or RETIRED, raises event 115 and ends the LIFECYCLE command still in progress;
either way a held request for another operating state is then made. KEY_TAMPER of a source that is watched clears the battery domain's
content with its cause, its ticks and its count, and raises event 117 where the compute die works, at the next boot's end otherwise; of
one not watched it does nothing. What the spec leaves open in it the model reads as log entries 89 and 90 say. -/
def Obligations.PrivilegedCommands : Prop :=
  (∀ (s : State) (mbx : Fin 2) (who : Party) (h : BitVec 7),
     let m := mbx.val
     let q := s.quiet
     let now := s.time.ticks
     let slot := fld (s.privParam m) 0 6
     let go := fun (i : Instr) (code : Nat) (ok : Bool) (inHand : Nat) (f : State → Option Nat × State) =>
       let allowed := mbxParty m who && decide (s.mbx m 0 % 2 ^ 8 = code) && ok && !s.bit (Reg.KEY_MBX_STATUS m) 0
       let u := ((q.setNonce m none).count Reg.KEY_PRIV_CNT).raise 116
       let fin := fun (r : Nat) (t : State) => ((u.withdraw t inHand).showSlots).keyEnd m r
       (allowed = false → Ends i s q) ∧
       (allowed = true → s.key.migr.isSome = true → Ends i s (fin krBusy (u.count Reg.KEY_PRIV_FAIL_CNT))) ∧
       (∀ c v, allowed = true → s.key.migr = none → u.privChecks m (Tbl.get s.key.nonces m none) = (c, v) →
         (c ≠ krOk → Ends i s (fin c (v.count Reg.KEY_PRIV_FAIL_CNT))) ∧
         (∀ t, c = krOk → f v = (some krOk, t) → Ends i s (fin krOk t)) ∧
         (∀ r t, c = krOk → r ≠ krOk → f v = (some r, t) → Ends i s (fin r (t.count Reg.KEY_PRIV_FAIL_CNT))) ∧
         (∀ t, c = krOk → f v = (none, t) → Ends i s (t.setReg (Reg.KEY_MBX_STATUS m) 1)))
     (s.alive = true →
       go (.timeRearm mbx who) 1 true 0 (fun v => (some krOk, { v with key := { v.key with rearmAt := some v.time.ticks } })) ∧
       go (.clearStats mbx who) 2 true 0 (fun v =>
         let p := v.privParam m
         let x : StatsWindow := { since := v.time.ticks, periods := p % 2 ^ 3, firn := true, energy := fld p 3 1 = 1 }
         (some krOk, { v with key := { v.key with statsAt := some x } })) ∧
       go (.lifecycle mbx who) 3 true 0 (fun v =>
         let target := v.privParam m % 2 ^ 3
         if transitionOk v.lc target (fld (v.mbx m 0) 8 6) = false then (some krTransition, v)
         else if v.pwr.supLow then (some krBusy, v)
         else
           let x := if target < 4 then v.fillRoot target else v
           let g : Migration := { target := target, mbx := m, since := x.time.ticks }
           (none, ({ x with key := { x.key with migr := some g } }).setF Reg.KEY_STATUS 3 1 1)) ∧
       go (.unload mbx who) 4 true 0 (fun v =>
         (some krOk, if v.imgState = 2 then ({ v with img := { v.img with unload := true } }).tryUnload else v)) ∧
       go (.installPk mbx who h) 5 (decide (slot ≠ 0) && decide (s.lc ≠ lcRetired)) h.toNat (fun v =>
         let p := v.privParam m
         let use := fld p 6 9
         if hdrOk (pkHeader p) = false ∨ use ≠ fld use 5 2 * 32 then (some krParam, v)
         else (some krOk, v.writeSlot slot (pkHeader p) (v.mbx m 15) (v.mbxBytes m 64 64)))) ∧
     (s.ticking = true →
       (Tbl.get s.key.nonces m none = none → Ends (.nonceLapse mbx) s q) ∧
       (∀ n t, Tbl.get s.key.nonces m none = some (n, t) → (15000000000 + t ≤ now → Ends (.nonceLapse mbx) s (q.setNonce m none)) ∧
         (now < 15000000000 + t → Ends (.nonceLapse mbx) s q)) ∧
       (s.key.statsAt = none → Ends (.authWindowExpiry true) s q) ∧ (s.key.rearmAt = none → Ends (.authWindowExpiry false) s q) ∧
       (∀ x, s.key.statsAt = some x →
         (250000000 + x.since ≤ now → Ends (.authWindowExpiry true) s { q with key := { s.key with statsAt := none } }) ∧
         (now < 250000000 + x.since → Ends (.authWindowExpiry true) s q)) ∧
       (∀ t, s.key.rearmAt = some t →
         (250000000 + t ≤ now → Ends (.authWindowExpiry false) s { q with key := { s.key with rearmAt := none } }) ∧
         (now < 250000000 + t → Ends (.authWindowExpiry false) s q)))) ∧
  (∀ (s : State) (damaged : BitVec 64) (h : BitVec 7) (cause : Fin 6),
     let q := s.quiet
     (s.alive = true → s.time.ticks < 900000000000 + s.key.sweptAt → Ends (.tagVerifySweep damaged h) s q) ∧
     (s.alive = true → 900000000000 + s.key.sweptAt ≤ s.time.ticks →
       let u := q.forRange (fun k u => if fld damaged.toNat k 1 = 1 then u.setSlot k { u.slot k with damaged := true } else u) 1 63
       Ends (.tagVerifySweep damaged h) s (q.withdraw u.verifyTags h.toNat)) ∧
     (s.key.migr = none → Ends (.migrationComplete h) s q.releasePower) ∧
     (∀ g, s.key.migr = some g →
       let again := fun (u : State) => u.forRange (fun k v => v.setSlot k { v.slot k with tagOk := v.tagVerifies k }) 1 63
       let u := if g.target = lcReturned ∨ g.target = lcRetired then again (q.migrate g.target) else q.migrate g.target
       let v := ((q.withdraw u h.toNat).showSlots).raise 115
       (v.bit (Reg.KEY_MBX_STATUS g.mbx) 0 = true → Ends (.migrationComplete h) s (v.keyEnd g.mbx krOk).releasePower) ∧
       (v.bit (Reg.KEY_MBX_STATUS g.mbx) 0 = false → Ends (.migrationComplete h) s v.releasePower)) ∧
     (s.tamperSeen cause.val = false → Ends (.keyTamper cause h) s q) ∧
     (s.tamperSeen cause.val = true →
       let u := q.zeroize cause.val
       (s.alive = true → Ends (.keyTamper cause h) s (((q.withdraw u h.toNat).showSlots).raise 117)) ∧
       (s.alive = false → Ends (.keyTamper cause h) s { u with key := { u.key with tamperDue := true } })))

/-- A detection of source n while bit n of FLT_STICKY is set: the bit stays set, FLT_REC[n] keeps its time, INFO and VALID and gets
MERGED, FLT_SRC_CNT[n] increments, and no event is raised. LEVEL_FAULT_ONSET of a level source whose condition already holds counts
nothing and changes nothing; at a new onset its counter increments. -/
def Obligations.FaultMerged : Prop :=
  ∀ (s : State) (src : Fin 96) (info : BitVec 24) (inj noRec : Bool),
    let n := src.val
    let t := s.detectRec n info.toNat inj noRec
    (s.sticky n = true →
      t.sticky n = true ∧ t.rn (Reg.FLT_REC_T n) = s.rn (Reg.FLT_REC_T n) ∧
      t.rf (Reg.FLT_REC_INFO n) 0 29 = s.rf (Reg.FLT_REC_INFO n) 0 29 ∧ t.bit (Reg.FLT_REC_INFO n) 31 = s.bit (Reg.FLT_REC_INFO n) 31 ∧
      t.bit (Reg.FLT_REC_INFO n) 30 = true ∧ t.rn (Reg.FLT_SRC_CNT n) = (s.rn (Reg.FLT_SRC_CNT n) + 1) % 2 ^ 48 ∧
      (∀ e, e < 128 → t.evPending e = s.evPending e)) ∧
    (isLevel n = true → s.levelHolds n = true → Ends (.levelFaultOnset src info noRec) s s.quiet) ∧
    (isLevel n = true → s.levelHolds n = false → Gives (.levelFaultOnset src info noRec) s fun u =>
      u.levelHolds n = true ∧ u.rn (Reg.FLT_SRC_CNT n) = (s.rn (Reg.FLT_SRC_CNT n) + 1) % 2 ^ 48)

/-- A first detection sets the sticky bit, writes the record with VALID, INFO and INJ at the time of the counter, and raises event 120;
where the record memory fails, the record reads VALID = 0 and NOREC = 1. An uncorrectable error met while an error is handled is one more
detection of the source. LEVEL_FAULT_ONSET of no level source does nothing. LEVEL_CONDITION_END ends the condition alone. FAULT_CLEAR
clears each named bit and its record's VALID, and detects anew a source whose condition holds. EVENT_CLEAR clears the named events.
FAULT_INJECT with ARM outside RETIRED arms an injection of COUNT checks at a source with a checker, cancels with COUNT 0, and shows NONE
for any other source. What the spec leaves open in it the model reads as log entries 92, 111 and 114 say. -/
def Obligations.FaultsAndEvents : Prop :=
  ∀ (s : State) (src : Fin 96) (info : BitVec 24) (inj noRec : Bool) (who : Party) (k : Fin 3) (j : Fin 4) (w : Word),
    let n := src.val
    let t := s.detect n info.toNat inj
    (s.sticky n = false → t.sticky n = true ∧ t.rn (Reg.FLT_REC_T n) = s.nowT80 % 2 ^ 80 ∧ t.evPending 120 = true ∧
      t.rn (Reg.FLT_REC_INFO n) = 2 ^ 31 + (info.toNat + (if inj then 2 ^ 29 else 0))) ∧
    (s.sticky n = false → let x := s.detectRec n info.toNat inj true
      x.sticky n = true ∧ x.evPending 120 = true ∧ x.bit (Reg.FLT_REC_INFO n) 31 = false ∧ x.bit (Reg.FLT_REC_INFO n) 28 = true) ∧
    (s.flt.inject = none → s.check n info.toNat .ue = (.ue, s.detect n info.toNat false) ∧
      s.check n info.toNat .ueNoRec = (.ue, s.detectRec n info.toNat false true) ∧
      s.check n info.toNat .ueAgain = (.ue, (s.detect n info.toNat false).detect n info.toNat false) ∧
      s.check n info.toNat .ceAgain = (.ce, s.detect n info.toNat false)) ∧
    (isLevel n = false → Ends (.levelFaultOnset src info noRec) s s.quiet) ∧
    Ends (.levelConditionEnd src) s { s.quiet with flt := { s.flt with levels := Tbl.del s.flt.levels n } } ∧
    (s.alive = true →
      Ends (.faultClear who k w) s (s.quiet.forRange (fun i u => if w.getLsbD i then u.clearFault (32 * k.val + i) else u) 0 32) ∧
      Ends (.eventClear who j w) s
        (s.quiet.setReg (Reg.FLT_EVT_PEND j.val) ((BitVec.ofNat 32 (s.rn (Reg.FLT_EVT_PEND j.val)) &&& ~~~w).toNat)) ∧
      (w.getLsbD 31 = false ∨ s.lc = lcRetired → Ends (.faultInject who w) s s.quiet) ∧
      (w.getLsbD 31 = true → s.lc ≠ lcRetired →
        let a := w.toNat % 2 ^ 7
        let c := fld w.toNat 16 8
        (c = 0 → Ends (.faultInject who w) s (({ s.quiet with flt := { s.flt with inject := none } } : State).setReg Reg.FLT_INJ_STATUS a)) ∧
        (c ≠ 0 → hasChecker a = true → Ends (.faultInject who w) s
          (({ s.quiet with flt := { s.flt with inject := some { source := a, double := fld w.toNat 8 1 = 1, left := c } } } : State).setReg
            Reg.FLT_INJ_STATUS (a + c * 2 ^ 8))) ∧
        (c ≠ 0 → hasChecker a = false → Ends (.faultInject who w) s (s.quiet.setF Reg.FLT_INJ_STATUS 16 1 1))))

/-- POR, PIN_RESET, SOFT_RESET with its key and LINK_RESET start a sequence of their kind, which restarts one of lower rank and is only
recorded in the cause in one of its rank or higher; in HOLD, PIN_RESET is a POR and LINK_RESET does nothing; with LINK_MODE and no
sequence LINK_RESET resets the PCIe core alone. RESET_SEQUENCE_END outside a sequence does nothing; otherwise it ends the sequence, with
PWR_RST_CNT of its kind counted and event 126, shows what ran through it, and starts the grace of the autonomous load after a POR or PIN
reset, and after a POR the tags verified and the tamper and battery loss found told. DDR_TRAINED of a channel not in service sets it and
its size, with source 34 at a failure. The watchdog starts once with a period, a kick with its key restarts it, its first expiry warns,
and its second resets. What the spec leaves open in it the model reads as log entries 93, 94 and 95 say. -/
def Obligations.Resets : Prop :=
  ∀ (s : State) (supply lost ok : Bool) (who : Party) (w : Word) (ch : Fin 2) (size : BitVec 8) (k : ResetKind) (more : Nat),
    let q := s.quiet
    let v := w.toNat &&& 0x8000FFFF
    let kick : State := ({ q with pwr := { s.pwr with wdtTicks := 0 } } : State)
    (s.pwr.seq = none → s.startReset k more lost = (s.resetAs k lost).causeOf k more true) ∧
    (∀ j, s.pwr.seq = some j →
      (resetRank k < resetRank j → s.startReset k more lost =
        ((s.resetAs k lost).setReg Reg.PWR_RESET_CAUSE (s.rn Reg.PWR_RESET_CAUSE)).causeOf k more false) ∧
      (resetRank j ≤ resetRank k → s.startReset k more lost = s.causeOf k more false)) ∧
    (s.pwr.state ≠ .hold →
      Ends (.por supply lost) s ((if supply then saveComplete q else q).startReset .por (bitAt supply 5) lost) ∧
      Ends .pinReset s (q.startReset .pin 0 false) ∧
      (s.bit Reg.PWR_CFG 0 = true → s.pwr.seq = none → Ends .linkReset s q.resetPcie) ∧
      (s.bit Reg.PWR_CFG 0 = false ∨ s.pwr.seq.isSome = true → Ends .linkReset s (q.startReset .link 0 false))) ∧
    (s.pwr.state = .hold →
      Ends (.por supply lost) s (((if supply then saveComplete q else q).resetAs .por lost).causeOf .por (bitAt supply 5 + 2 ^ 6) true) ∧
      Ends .pinReset s ((q.resetAs .por false).causeOf .por (2 ^ 6) true) ∧ Ends .linkReset s q) ∧
    (s.pwr.seq = none → Ends .resetSequenceEnd s q) ∧
    (∀ k, s.pwr.seq = some k →
      let a := ((({ q with pwr := { s.pwr with seq := none } } : State).count (Reg.PWR_RST_CNT (resetRank k))).raise 126).showDdr.showSlots.showRunning
      let g : State := { a with img := { a.img with grace := some a.time.ticks } }
      (k ≠ .por → Ends .resetSequenceEnd s (if k = .pin then g else a).releaseCheck) ∧
      (k = .por →
        let b := g.verifyTags.setF Reg.SEAM_STORE_STATE 0 1 1
        let c := if b.key.tamperDue then ({ b with key := { b.key with tamperDue := false } } : State).raise 117 else b
        Ends .resetSequenceEnd s (if c.key.batDue then ({ c with key := { c.key with batDue := false } } : State).raise 118 else c))) ∧
    (s.alive = true →
      (w.extractLsb' 16 16 = 0xA5C3 → Ends (.softReset who w) s (q.startReset .soft 0 false)) ∧
      (w.extractLsb' 16 16 ≠ 0xA5C3 → Ends (.softReset who w) s q) ∧
      (ch = 0 → s.pwr.ddr0 = true → Ends (.ddrTrained ch ok size) s q) ∧ (ch = 1 → s.pwr.ddr1 = true → Ends (.ddrTrained ch ok size) s q) ∧
      (ch = 0 → s.pwr.ddr0 = false →
        let t := ({ q with pwr := { s.pwr with ddr0 := ok, size0 := size.toNat } } : State).showDdr
        Ends (.ddrTrained ch ok size) s (if ok then t else t.levelOnset 34 0 false)) ∧
      (ch = 1 → s.pwr.ddr1 = false →
        let t := ({ q with pwr := { s.pwr with ddr1 := ok, size1 := size.toNat } } : State).showDdr
        Ends (.ddrTrained ch ok size) s (if ok then t else t.levelOnset 34 1 false)) ∧
      (s.bit Reg.PWR_WDT_CFG 31 = true ∨ v = 0x80000000 → Ends (.wdtStart who w) s q) ∧
      (s.bit Reg.PWR_WDT_CFG 31 = false → v ≠ 0x80000000 →
        let t := q.setReg Reg.PWR_WDT_CFG v
        (w.getLsbD 31 = false → Ends (.wdtStart who w) s t) ∧
        (w.getLsbD 31 = true → Ends (.wdtStart who w) s
          (({ t with pwr := { t.pwr with wdtTicks := 0 } } : State).setReg Reg.PWR_WDT_STATE 1).showWdt)) ∧
      (w.extractLsb' 0 16 = 0x4B1D → s.bit Reg.PWR_WDT_CFG 31 = true → Ends (.wdtKick who w) s
        (((kick.setF Reg.PWR_WDT_STATE 1 1 0).showWdt).levelEnd 28)) ∧
      (w.extractLsb' 0 16 ≠ 0x4B1D ∨ s.bit Reg.PWR_WDT_CFG 31 = false → Ends (.wdtKick who w) s q) ∧
      (s.wdtExpired = true → s.bit Reg.PWR_WDT_STATE 1 = false →
        Ends .wdtWarn s ((((((({ q with pwr := { s.pwr with wdtTicks := s.pwr.wdtTicks - s.wdtPeriod } } : State).setF Reg.PWR_WDT_STATE 1 1 1).showWdt).count
          Reg.PWR_WDT_WARN_CNT).levelOnset 28 0 false).raise 124)) ∧ Ends .wdtReset s q) ∧
      (s.wdtExpired = true → s.bit Reg.PWR_WDT_STATE 1 = true → Ends .wdtWarn s q ∧ Ends .wdtReset s (q.startReset .wdt 0 false)) ∧
      (s.wdtExpired = false → Ends .wdtWarn s q ∧ Ends .wdtReset s q))

/-- A request with its key for the operating state of now does nothing; one for another is held while an image is in VERIFY or a migration
runs, and otherwise becomes the move in progress. PWR_STATE makes the move: to PARK once the engines hold no instant, with measurement
stopped and a pending image released; to RUN at once, and measurement begins anew; to HOLD once they hold none. HOLD_REQUEST enters HOLD
at once where they hold none. SUPPLY_WARN below the warning level sets the bit, counts, raises event 121 and triggers a save; SUPPLY_DIP
above it and 20 mV more clears it with event 122. THERMAL writes the temperature, raises event 123 when it first passes the warning, and
source 42 follows the critical level. What the spec leaves open in it the model reads as log entry 96 says. -/
def Obligations.OperatingStates : Prop :=
  ∀ (s : State) (who : Party) (w : Word) (mv : BitVec 12) (temp : BitVec 12),
    let q := s.quiet
    let key := decide (w.extractLsb' 16 16 = 0x9A7E)
    let tgt := w.toNat % 2 ^ 2
    let waits := decide (s.imgState = 1) || s.key.migr.isSome
    let ask := fun (p : Power) =>
      if s.pwr.state = p then q
      else if waits then ({ q with pwr := { s.pwr with held := some p } } : State).showPower
      else ({ q with pwr := { s.pwr with moving := some p } } : State).showPower
    let warn := s.rf Reg.PWR_SUPMON_CFG 0 10
    let low := fun (x : Bool) => ({ q with pwr := { s.pwr with supLow := x } } : State).setF Reg.PWR_STATE 2 1 (if x then 1 else 0)
    let watched := decide (s.pwr.state ≠ .hold) && decide (s.pwr.seq ≠ some .por)
    (s.alive = true →
      (key = true → tgt = 1 → Ends (.parkRequest who w) s (ask .park)) ∧ (key = false ∨ tgt ≠ 1 → Ends (.parkRequest who w) s q) ∧
      (key = true → tgt = 0 → Ends (.runRequest who w) s (ask .run)) ∧ (key = false ∨ tgt ≠ 0 → Ends (.runRequest who w) s q) ∧
      (key = false ∨ tgt ≠ 2 → Ends (.holdRequest who w) s q) ∧
      (key = true → tgt = 2 → (ask .hold).pwr.moving ≠ some .hold ∨ (ask .hold).enginesIdle = false → Ends (.holdRequest who w) s (ask .hold)) ∧
      (key = true → tgt = 2 → (ask .hold).pwr.moving = some .hold → (ask .hold).enginesIdle = true →
        Ends (.holdRequest who w) s (ask .hold).enterHold) ∧
      (s.pwr.moving = none → Ends .pwrState s q) ∧
      (s.enginesIdle = false → s.pwr.moving = some .park ∨ s.pwr.moving = some .hold → Ends .pwrState s q) ∧
      (s.enginesIdle = true → s.pwr.moving = some .park →
        let u := q.stopMeasuring
        Ends .pwrState s ((({ u with pwr := { u.pwr with state := .park, moving := none } } : State).showPower).raise 125).releaseCheck) ∧
      (s.enginesIdle = true → s.pwr.moving = some .hold → Ends .pwrState s q.enterHold) ∧
      (s.pwr.moving = some .run → Ends .pwrState s
        (((({ q with pwr := { s.pwr with state := Power.run, moving := none } } : State).showPower).raise 125).beginAll.unpark.answerHeld))) ∧
    (mv.toNat < warn → s.pwr.supLow = false → watched = true → Ends (.supplyWarn mv) s
      ((((low true).count Reg.PWR_SUPPLY_WARN_CNT).raise 121).closeCycles.trigSave saveWarning)) ∧
    (warn ≤ mv.toNat ∨ s.pwr.supLow = true ∨ watched = false → Ends (.supplyWarn mv) s q) ∧
    (warn + 20 < mv.toNat → s.pwr.supLow = true → watched = true → Ends (.supplyDip mv) s
      (((low false).count Reg.PWR_SUPPLY_DIP_CNT).raise 122)) ∧
    (mv.toNat ≤ warn + 20 ∨ s.pwr.supLow = false ∨ watched = false → Ends (.supplyDip mv) s q) ∧
    (s.ticking = true →
      let hot := decide (sInt 12 (s.rn Reg.PWR_TEMP_WARN) < temp.toInt)
      let t := q.setReg Reg.PWR_TEMP temp.toNat
      let u := if hot && !s.pwr.hot then (t.raise 123).count Reg.PWR_THERM_CNT else t
      let v : State := { u with pwr := { u.pwr with hot := hot } }
      (sInt 12 (s.rn Reg.PWR_TEMP_CRIT) < temp.toInt → Ends (.thermal temp) s (v.levelOnset 42 temp.toNat false)) ∧
      (temp.toInt ≤ sInt 12 (s.rn Reg.PWR_TEMP_CRIT) → Ends (.thermal temp) s (v.levelEnd 42)))

/-- PCIE_CONFIG_WRITE brings the link up and takes Bus Master Enable, the power state and MSI-X Enable; PCIE_LINK_DOWN takes the link
down; DMA_RESUME brings it up where Bus Master Enable is set in D0. HQ_RING_ENABLE of a ring that was off takes its base and its size,
with HEAD and TAIL at 0; HQ_RING_DISABLE of one that was on writes its HEAD back. HQ_RING_WRITE of a ring with room moves the oldest entry
and HEAD to host memory, and counts; HQ_RING_IRQ_TIMER sets the pending bit TIME after the first entry. BAR2_READ reads the served bytes,
zero elsewhere; in RUN an uncorrectable error poisons it, counted. BAR2_WRITE in RUN writes the served bytes; one narrower than 8 bytes
whose read is uncorrectable writes nothing; outside RUN it does nothing. What the spec leaves open in it the model reads as log entries 97
and 98 say. -/
def Obligations.HostQueues : Prop :=
  ∀ (s : State) (bme d3 msix : Bool) (who : Party) (r : Fin 2) (w : Word) (off : BitVec 32) (len : BitVec 13) (data : List Byte) (err : MemErr),
    let q := r.val
    let a := s.winAddr off.toNat
    let v := w.toNat &&& 0x11F
    let was := s.hringOn q
    s.alive = true →
      Ends (.pcieConfigWrite bme d3 msix) s
        (({ s.quiet.linkTrained with hq := { s.quiet.linkTrained.hq with bme := bme, d3hot := d3, msixEn := msix } } : State).showPcie) ∧
      Ends .pcieLinkDown s (({ s.quiet with hq := { s.hq with linkUp := false } } : State).showPcie) ∧
      (s.hq.bme = true → s.hq.d3hot = false → Ends .dmaResume s s.quiet.linkTrained.showPcie) ∧
      (s.hq.bme = false ∨ s.hq.d3hot = true → Ends .dmaResume s s.quiet) ∧
      (s.takes who (Reg.HQ_RING_CFG q) = true →
        let t := s.quiet.setReg (Reg.HQ_RING_CFG q) v
        (w.getLsbD 8 = false → Ends (.hqRingEnable who r w) s s.quiet ∧
          Ends (.hqRingDisable who r w) s (if was then t.hringBack q else t)) ∧
        (w.getLsbD 8 = true → Ends (.hqRingDisable who r w) s s.quiet ∧
          (was = true → Ends (.hqRingEnable who r w) s t) ∧
          (was = false → Ends (.hqRingEnable who r w) s (((t.setReg (Reg.HQ_RING_HEAD q) 0).setReg (Reg.HQ_RING_TAIL q) 0).setHring q
            { s.hring q with
              base := s.rn (Reg.HQ_RING_BASE_LO q) + 2 ^ 32 * s.rn (Reg.HQ_RING_BASE_HI q), log2n := v % 2 ^ 5
              wb := s.rn (Reg.HQ_RING_WB_LO q) + 2 ^ 32 * s.rn (Reg.HQ_RING_WB_HI q) })))) ∧
      (s.hringRoom q = false → Ends (.hqRingWrite r) s s.quiet) ∧
      (s.hringRoom q = true →
        (∀ u, s.quiet.takeEntry q = (none, u) → Ends (.hqRingWrite r) s s.quiet) ∧
        (∀ e u, s.quiet.takeEntry q = (some e, u) →
          let h := u.hring q
          let head := u.rn (Reg.HQ_RING_HEAD q)
          let x := u.emit (.dma (h.base + (if q = 0 then 64 else 32) * head) e)
          Ends (.hqRingWrite r) s
            ((((x.setReg (Reg.HQ_RING_HEAD q) ((head + 1) % 2 ^ h.log2n)).count (Reg.HQ_DMA_CNT q)).hringBack q).hringCount q))) ∧
      (let irq := s.rn (Reg.HQ_RING_IRQ q)
       let h := s.hring q
       (h.since = 0 ∨ irq % 2 ^ 16 = 0 ∨ s.time.ticks < h.firstAt + fld irq 16 16 * 250 → Ends (.hqRingIrqTimer r) s s.quiet) ∧
       (h.since ≠ 0 → irq % 2 ^ 16 ≠ 0 → h.firstAt + fld irq 16 16 * 250 ≤ s.time.ticks → Ends (.hqRingIrqTimer r) s
         (s.quiet.setF Reg.HQ_RING_PEND q 1 1))) ∧
      (let bytes := (List.range len.toNat).map fun i => if s.ddrServed (a + i) then Memory.byte s.ddr (a + i) else 0
       (s.ddrServed a = false → Ends (.bar2Read off len err) s (s.quiet.emit (.completion bytes false))) ∧
       (s.ddrServed a = true → s.pwr.state ≠ .run → Ends (.bar2Read off len err) s
         (s.quiet.drawn.emit (.completion (leBytes len.toNat (s.draw (8 * len.toNat)).toNat) false))) ∧
       (∀ e u, s.ddrServed a = true → s.pwr.state = .run → s.quiet.ddrCheck a err = (e, u) →
         (e = .ue → Ends (.bar2Read off len err) s ((u.count Reg.HQ_BAR2_POISON_CNT).emit (.completion bytes true))) ∧
         (e ≠ .ue → Ends (.bar2Read off len err) s (u.emit (.completion bytes false))))) ∧
      (let put := fun (t : State) =>
         ({ t with
            ddr := (List.range data.length).foldl
              (fun (m : List Host.Cell) i => if t.ddrServed (a + i) then Memory.setByte m (a + i) (data.getD i 0) else m) t.ddr } : State)
       (s.pwr.state ≠ .run → Ends (.bar2Write off data err) s s.quiet) ∧
       (s.pwr.state = .run → 8 ≤ data.length ∨ s.ddrServed a = false → Ends (.bar2Write off data err) s (put s.quiet)) ∧
       (∀ e u, s.pwr.state = .run → data.length < 8 → s.ddrServed a = true → s.quiet.ddrCheck a err = (e, u) →
         (e = .ue → Ends (.bar2Write off data err) s u) ∧ (e ≠ .ue → Ends (.bar2Write off data err) s (put u))))

/-- QSPI_COMMAND writes the control word; with none BUSY, GO of a core issues the flash command and sets BUSY. QSPI_DONE ends it, with a
read's bytes in the buffer. I2C_READ gives the words from its index on and advances the index by the whole words read. UART_RX queues a
byte or counts it lost with 64 queued; HQ_UART_DATA writes queue a byte where there is room, and reads take the oldest received, 0 with
none; UART_TX sends the oldest. JTAG works outside HOLD: each instruction shifts its register, and SAMPLE/PRELOAD and EXTEST also load the
boundary register. CORE_DEBUG_ACCESS halts or runs a core in MANUFACTURE, PROVISIONED and RETURNED alone. What the spec leaves open in it
the model reads as log entry 99 says. -/
def Obligations.FlashSerialDebug : Prop :=
  ∀ (s : State) (who : Party) (w : Word) (data : List Byte) (index : BitVec 16) (count : BitVec 8) (b : Byte) (pins tdi : List Bool) (core : Fin 8) (halt : Bool),
    let q := s.quiet
    (s.alive = true →
      (let c := w.toNat &&& 0x21FFFFFF
       s.hq.qspiBusy = true → Ends (.qspiCommand who w) s (q.setReg Reg.HQ_QSPI_CTRL (2 ^ 30 + c))) ∧
      (s.hq.qspiBusy = false →
        let c := w.toNat &&& 0x21FFFFFF
        let u := q.setReg Reg.HQ_QSPI_CTRL c
        let n := if fld c 8 1 = 1 then 4 else fld c 9 3
        let x := u.emit (.flash (c % 2 ^ 8) n (u.rn Reg.HQ_QSPI_ADDR % 2 ^ (8 * n)) (fld c 12 4) (qspiLen c)
          (if fld c 29 1 = 1 then u.qspiBytes (qspiLen c) else []))
        (w.getLsbD 31 = false ∨ who = .host → Ends (.qspiCommand who w) s u) ∧
        (w.getLsbD 31 = true → who ≠ .host → Ends (.qspiCommand who w) s
          (({ x with hq := { x.hq with qspiBusy := true, qspiCtrl := c } } : State).setF Reg.HQ_QSPI_CTRL 30 1 1)) ∧
        Ends (.qspiDone data) s q) ∧
      (s.hq.qspiBusy = true →
        let u := ({ q with hq := { s.hq with qspiBusy := false } } : State).setF Reg.HQ_QSPI_CTRL 30 1 0
        let got := data.take (qspiLen s.hq.qspiCtrl)
        (fld s.hq.qspiCtrl 29 1 = 1 → Ends (.qspiDone data) s u) ∧
        (fld s.hq.qspiCtrl 29 1 = 0 → Ends (.qspiDone data) s
          (u.setWords (Reg.HQ_QSPI_BUF 0) (wordsOf (got ++ (u.qspiBytes 256).drop got.length) 64)))) ∧
      (let n := count.toNat
       let bytes := (List.range ((n + 3) / 4)).flatMap fun k => leBytes 4 (s.i2cWord ((index.toNat + k) % 2 ^ 16))
       Ends (.i2cRead index count) s
         (({ q with hq := { s.hq with i2cIndex := (index.toNat + n / 4) % 2 ^ 16 } } : State).emit (.i2c (bytes.take n)))) ∧
      (s.hq.uartRx.length < 64 → Ends (.uartRx b) s (({ q with hq := { s.hq with uartRx := s.hq.uartRx ++ [b] } } : State).showUart)) ∧
      (64 ≤ s.hq.uartRx.length → Ends (.uartRx b) s (q.count Reg.HQ_UART_LOST_CNT)) ∧
      (s.hq.uartTx.length < 64 → Ends (.uartDataWrite who w) s
        (({ q with hq := { s.hq with uartTx := s.hq.uartTx ++ [w.setWidth 8] } } : State).showUart)) ∧
      (64 ≤ s.hq.uartTx.length → Ends (.uartDataWrite who w) s q) ∧
      (s.hq.uartRx = [] → Ends (.uartDataRead who) s (q.emit (.read 0))) ∧
      (∀ b t, s.hq.uartRx = b :: t → Ends (.uartDataRead who) s
        ((({ q with hq := { s.hq with uartRx := t } } : State).showUart).emit (.read (b.setWidth 64)))) ∧
      (s.hq.uartTx = [] → Ends .uartTx s q) ∧
      (∀ b t, s.hq.uartTx = b :: t → Ends .uartTx s ((({ q with hq := { s.hq with uartTx := t } } : State).showUart).emit (.uart b))) ∧
      (s.lc = lcManufacture ∨ s.lc = lcProvisioned ∨ s.lc = lcReturned → Ends (.coreDebugAccess core halt) s
        { q with hq := { s.hq with halted := (s.hq.halted.filter fun k => k ≠ core.val) ++ (if halt then [core.val] else []) } }) ∧
      (s.lc = lcDeployed ∨ s.lc = lcRetired → Ends (.coreDebugAccess core halt) s q)) ∧
    (let by_ := fun (ir : JtagIr) (reg : List Bool) (n : List Bool) =>
       ({ q with hq := { s.hq with jtagIr := ir } } : State).emit (.tdo ((reg ++ n).take n.length))
     let scan := fun (ir : JtagIr) =>
       ({ by_ ir pins tdi with hq := { (by_ ir pins tdi).hq with boundary := (pins ++ tdi).drop tdi.length } } : State)
     (s.pwr.state ≠ .hold →
       Ends (.bypass tdi) s (by_ .bypass [false] tdi) ∧ Ends (.clamp tdi) s (by_ .clamp [false] tdi) ∧ Ends (.highz tdi) s (by_ .highz [false] tdi) ∧
       Ends .idcode s (by_ .idcode idcodeBits (List.replicate 32 false)) ∧
       Ends (.samplePreload pins tdi) s (scan .samplePreload) ∧ Ends (.extest pins tdi) s (scan .extest)) ∧
     (s.pwr.state = .hold →
       Ends (.bypass tdi) s q ∧ Ends (.clamp tdi) s q ∧ Ends (.highz tdi) s q ∧ Ends .idcode s q ∧ Ends (.samplePreload pins tdi) s q ∧
       Ends (.extest pins tdi) s q))

/-- REGISTER_WRITE of KEY_TAMP_CFG: in MANUFACTURE and PROVISIONED its twelve bits take the value written, its other bits stay, and every
other register and every memory byte stays; in every other state the write is ignored, with no record of it. -/
def Obligations.TamperConfigLocked : Prop :=
  ∀ (s : State) (who : Party) (v : BitVec 64), s.takes who Reg.KEY_TAMP_CFG = true →
    let i := Instr.registerWrite who (BitVec.ofNat 26 Reg.KEY_TAMP_CFG) .b4 v
    (s.lc = lcManufacture ∨ s.lc = lcProvisioned → Gives i s fun t =>
      (∀ j, j < 32 → (t.rn Reg.KEY_TAMP_CFG).testBit j = if j < 12 then v.getLsbD j else (s.rn Reg.KEY_TAMP_CFG).testBit j) ∧
      RegsBut (· = Reg.KEY_TAMP_CFG) s t ∧ MemKept s t ∧ t.hold = s.hold ∧ t.heldLo = s.heldLo) ∧
    (s.lc ≠ lcManufacture → s.lc ≠ lcProvisioned → Ends i s s.quiet)

/-- RESULT's codes are 0 OK to 10 UNSUPPORTED in the rule's order. The end of a command of mailbox m with RESULT r shows r in
KEY_MBX_STATUS[m], adds 1 to KEY_CMD_CNT, and adds 1 to KEY_CMD_ERR_CNT where r is not 0. -/
def Obligations.ResultCodes : Prop :=
  [krOk, krSlotUnusable, krAuth, krDigest, krNonce, krUid, krRevokedDuring, krParam, krTransition, krBusy, krUnsupported] = List.range 11 ∧
  ∀ (s : State) (m : Fin 2) (r : Nat), r ≤ 10 →
    let t := s.keyEnd m.val r
    t.rn (Reg.KEY_MBX_STATUS m.val) = r * 2 ^ 8 ∧ t.rn Reg.KEY_CMD_CNT = (s.rn Reg.KEY_CMD_CNT + 1) % 2 ^ 48 ∧
    (r ≠ 0 → t.rn Reg.KEY_CMD_ERR_CNT = (s.rn Reg.KEY_CMD_ERR_CNT + 1) % 2 ^ 48) ∧ (r = 0 → t.rn Reg.KEY_CMD_ERR_CNT = s.rn Reg.KEY_CMD_ERR_CNT)

/-- DTAKE with a valid slot and no running activation reads THREAD, PRIO, BUF and VALID, and the slotted thread becomes RUNNING with dtok
and dentry latching its values. Otherwise it reads zero and nothing changes. A write of shared SRAM, where argument blocks lie, leaves the
DLM buffers as they are. -/
def Obligations.DtakeReads : Prop :=
  (∀ (s : State) (core : Fin 8), s.coresRun = true →
    let k := core.val
    let x := s.core k
    (∀ t, x.slot = some t → t < 1024 → x.valid = true → x.running = none → Gives (.dtake core) s fun u =>
      Output.read (BitVec.ofNat 64 (2 ^ 17 + (t + thrPrio (s.pat 17) t * 2 ^ 10 + 2 ^ 16 * x.slotBuf))) ∈ u.out ∧
      (u.thread t).state = 3 ∧ (u.core k).running = some t ∧ (u.core k).slot = none ∧
      (u.core k).dtok = BitVec.ofNat 64 (dtokWord (s.thread t).act) ∧ (u.core k).dentry = BitVec.ofNat 64 (thrWord (s.pat 17) t 1)) ∧
    (x.slot = none ∨ x.valid = false ∨ x.running.isSome = true → Ends (.dtake core) s (s.quiet.emit (.read 0)))) ∧
  (∀ (s : State) (a : Nat) (bytes : List Byte), (s.sramWrite a bytes).disp = s.disp)

/-- Outside HOLD and with no reset sequence: POR, PIN_RESET, SOFT_RESET with its key, LINK_RESET without LINK_MODE, and WDT_RESET at a
second expiry start their sequence and enter the cause. RESET_SEQUENCE_END ends a warm one. DDR_TRAINED of a channel not in service takes
its outcome and its size. WDT_START with a period starts the watchdog, WDT_KICK with its key restarts it and ends source 28, and WDT_WARN
warns at its first expiry. PARK_REQUEST, RUN_REQUEST and HOLD_REQUEST with the key become the move in progress where the state differs and
nothing waits, HOLD at once where the engines hold no instant. PWR_STATE makes the move. SUPPLY_WARN and SUPPLY_DIP set and clear the
supply warning. THERMAL writes the temperature. What the spec leaves open in it the model reads as log entries 93, 94, 95 and 96 say. -/
def Obligations.ResetAndPowerCommandsComplete : Prop :=
  ∀ (s : State) (supply lost ok : Bool) (who : Party) (w : Word) (size : BitVec 8) (k : ResetKind) (mv temp : BitVec 12),
    let q := s.quiet
    let starts := fun (i : Instr) (k : ResetKind) => Gives i s fun t => t.pwr.seq = some k ∧ t.bit Reg.PWR_RESET_CAUSE (resetRank k) = true
    let key := decide (w.extractLsb' 16 16 = 0x9A7E)
    let moves := decide (s.imgState ≠ 1) && s.key.migr.isNone
    let ended := ((({ q with pwr := { s.pwr with seq := none } } : State).count (Reg.PWR_RST_CNT (resetRank k))).raise 126).showDdr.showSlots.showRunning
    let toHold : State := (({ q with pwr := { s.pwr with moving := some .hold } } : State).showPower)
    (s.alive = true →
      starts (.por supply lost) .por ∧ starts .pinReset .pin ∧
      (w.extractLsb' 16 16 = 0xA5C3 → starts (.softReset who w) .soft) ∧
      (s.bit Reg.PWR_CFG 0 = false → starts .linkReset .link) ∧
      (s.wdtExpired = true → s.bit Reg.PWR_WDT_STATE 1 = true → starts .wdtReset .wdt) ∧
      (s.pwr.ddr0 = false → Gives (.ddrTrained 0 ok size) s fun t => t.pwr.ddr0 = ok ∧ t.pwr.size0 = size.toNat) ∧
      (s.pwr.ddr1 = false → Gives (.ddrTrained 1 ok size) s fun t => t.pwr.ddr1 = ok ∧ t.pwr.size1 = size.toNat) ∧
      (s.bit Reg.PWR_WDT_CFG 31 = false → w.getLsbD 31 = true → w.extractLsb' 0 16 ≠ 0 → Gives (.wdtStart who w) s fun t =>
        t.rn Reg.PWR_WDT_CFG = w.toNat &&& 0x8000FFFF ∧ t.pwr.wdtTicks = 0) ∧
      (w.extractLsb' 0 16 = 0x4B1D → s.bit Reg.PWR_WDT_CFG 31 = true → Gives (.wdtKick who w) s fun t =>
        t.pwr.wdtTicks = 0 ∧ t.levelHolds 28 = false) ∧
      (s.wdtExpired = true → s.bit Reg.PWR_WDT_STATE 1 = false → Gives .wdtWarn s fun t =>
        t.pwr.wdtTicks = s.pwr.wdtTicks - s.wdtPeriod ∧ t.levelHolds 28 = true ∧ t.evPending 124 = true) ∧
      (key = true → w.toNat % 4 = 1 → s.pwr.state ≠ .park → moves = true → Gives (.parkRequest who w) s fun t => t.pwr.moving = some .park) ∧
      (key = true → w.toNat % 4 = 0 → s.pwr.state ≠ .run → moves = true → Gives (.runRequest who w) s fun t => t.pwr.moving = some .run) ∧
      (key = true → w.toNat % 4 = 2 → moves = true →
        (toHold.enginesIdle = true → Ends (.holdRequest who w) s toHold.enterHold) ∧ (toHold.enginesIdle = false → Ends (.holdRequest who w) s toHold)) ∧
      (s.enginesIdle = true → s.pwr.moving = some .park → Ends .pwrState s
        (((({ q.stopMeasuring with pwr := { q.stopMeasuring.pwr with state := .park, moving := none } } : State).showPower).raise 125).releaseCheck)) ∧
      (s.pwr.moving = some .run → Ends .pwrState s
        (((({ q with pwr := { s.pwr with state := Power.run, moving := none } } : State).showPower).raise 125).beginAll.unpark.answerHeld)) ∧
      (mv.toNat < s.rf Reg.PWR_SUPMON_CFG 0 10 → s.pwr.supLow = false → Ends (.supplyWarn mv) s
        ((((q.setSupLow true).count Reg.PWR_SUPPLY_WARN_CNT).raise 121).closeCycles.trigSave saveWarning)) ∧
      (s.rf Reg.PWR_SUPMON_CFG 0 10 + 20 < mv.toNat → s.pwr.supLow = true → Gives (.supplyDip mv) s fun t =>
        t.pwr.supLow = false ∧ t.bit Reg.PWR_STATE 2 = false ∧ t.evPending 122 = true) ∧
      Gives (.thermal temp) s fun t => t.rn Reg.PWR_TEMP = temp.toNat ∧
        t.pwr.hot = decide (sInt 12 (s.rn Reg.PWR_TEMP_WARN) < temp.toInt) ∧
        t.levelHolds 42 = decide (sInt 12 (s.rn Reg.PWR_TEMP_CRIT) < temp.toInt)) ∧
    (k ≠ .por → k ≠ .pin → s.pwr.seq = some k → Ends .resetSequenceEnd s ended.releaseCheck)
end

