-- ==== Sys2Proof/Laws/State.lean ====
section
/-! SUPPORT. What each shared update of the state leaves alone: one lemma for each update and field, true by unfolding. -/
namespace Sys2Proof.Machine
open Sys2Proof

variable (s t : State)

/-! ## setReg -/

@[simp] theorem State.setReg_hold (a v : Nat) : (s.setReg a v).hold = s.hold := rfl
@[simp] theorem State.setReg_heldLo (a v : Nat) : (s.setReg a v).heldLo = s.heldLo := rfl
@[simp] theorem State.setReg_img (a v : Nat) : (s.setReg a v).img = s.img := rfl
@[simp] theorem State.setReg_fldl (a v : Nat) : (s.setReg a v).fldl = s.fldl := rfl
@[simp] theorem State.setReg_time (a v : Nat) : (s.setReg a v).time = s.time := rfl
@[simp] theorem State.setReg_flt (a v : Nat) : (s.setReg a v).flt = s.flt := rfl
@[simp] theorem State.setReg_pwr (a v : Nat) : (s.setReg a v).pwr = s.pwr := rfl
@[simp] theorem State.setReg_eth (a v : Nat) : (s.setReg a v).eth = s.eth := rfl
@[simp] theorem State.setReg_hq (a v : Nat) : (s.setReg a v).hq = s.hq := rfl
@[simp] theorem State.setReg_key (a v : Nat) : (s.setReg a v).key = s.key := rfl
@[simp] theorem State.setReg_dec (a v : Nat) : (s.setReg a v).dec = s.dec := rfl
@[simp] theorem State.setReg_seam (a v : Nat) : (s.setReg a v).seam = s.seam := rfl
@[simp] theorem State.setReg_fab (a v : Nat) : (s.setReg a v).fab = s.fab := rfl
@[simp] theorem State.setReg_se (a v : Nat) : (s.setReg a v).se = s.se := rfl
@[simp] theorem State.setReg_floe (a v : Nat) : (s.setReg a v).floe = s.floe := rfl
@[simp] theorem State.setReg_thr (a v : Nat) : (s.setReg a v).thr = s.thr := rfl
@[simp] theorem State.setReg_osc (a v : Nat) : (s.setReg a v).osc = s.osc := rfl
@[simp] theorem State.setReg_alm (a v : Nat) : (s.setReg a v).alm = s.alm := rfl
@[simp] theorem State.setReg_disp (a v : Nat) : (s.setReg a v).disp = s.disp := rfl
@[simp] theorem State.setReg_stn (a v : Nat) : (s.setReg a v).stn = s.stn := rfl
@[simp] theorem State.setReg_aux (a v : Nat) : (s.setReg a v).aux = s.aux := rfl
@[simp] theorem State.setReg_cap (a v : Nat) : (s.setReg a v).cap = s.cap := rfl
@[simp] theorem State.setReg_firn (a v : Nat) : (s.setReg a v).firn = s.firn := rfl
@[simp] theorem State.setReg_ndk (a v : Nat) : (s.setReg a v).ndk = s.ndk := rfl
@[simp] theorem State.setReg_radio (a v : Nat) : (s.setReg a v).radio = s.radio := rfl
@[simp] theorem State.setReg_ddr (a v : Nat) : (s.setReg a v).ddr = s.ddr := rfl
@[simp] theorem State.setReg_sram (a v : Nat) : (s.setReg a v).sram = s.sram := rfl
@[simp] theorem State.setReg_out (a v : Nat) : (s.setReg a v).out = s.out := rfl
@[simp] theorem State.setReg_draws (a v : Nat) : (s.setReg a v).draws = s.draws := rfl
@[simp] theorem State.setReg_pending (a v : Nat) : (s.setReg a v).pending = s.pending := rfl

/-! ## setThru -/

@[simp] theorem State.setThru_hold (a v : Nat) : (s.setThru a v).hold = s.hold := rfl
@[simp] theorem State.setThru_heldLo (a v : Nat) : (s.setThru a v).heldLo = s.heldLo := rfl
@[simp] theorem State.setThru_img (a v : Nat) : (s.setThru a v).img = s.img := rfl
@[simp] theorem State.setThru_fldl (a v : Nat) : (s.setThru a v).fldl = s.fldl := rfl
@[simp] theorem State.setThru_time (a v : Nat) : (s.setThru a v).time = s.time := rfl
@[simp] theorem State.setThru_flt (a v : Nat) : (s.setThru a v).flt = s.flt := rfl
@[simp] theorem State.setThru_eth (a v : Nat) : (s.setThru a v).eth = s.eth := rfl
@[simp] theorem State.setThru_hq (a v : Nat) : (s.setThru a v).hq = s.hq := rfl
@[simp] theorem State.setThru_key (a v : Nat) : (s.setThru a v).key = s.key := rfl
@[simp] theorem State.setThru_dec (a v : Nat) : (s.setThru a v).dec = s.dec := rfl
@[simp] theorem State.setThru_seam (a v : Nat) : (s.setThru a v).seam = s.seam := rfl
@[simp] theorem State.setThru_fab (a v : Nat) : (s.setThru a v).fab = s.fab := rfl
@[simp] theorem State.setThru_se (a v : Nat) : (s.setThru a v).se = s.se := rfl
@[simp] theorem State.setThru_floe (a v : Nat) : (s.setThru a v).floe = s.floe := rfl
@[simp] theorem State.setThru_thr (a v : Nat) : (s.setThru a v).thr = s.thr := rfl
@[simp] theorem State.setThru_osc (a v : Nat) : (s.setThru a v).osc = s.osc := rfl
@[simp] theorem State.setThru_alm (a v : Nat) : (s.setThru a v).alm = s.alm := rfl
@[simp] theorem State.setThru_disp (a v : Nat) : (s.setThru a v).disp = s.disp := rfl
@[simp] theorem State.setThru_stn (a v : Nat) : (s.setThru a v).stn = s.stn := rfl
@[simp] theorem State.setThru_aux (a v : Nat) : (s.setThru a v).aux = s.aux := rfl
@[simp] theorem State.setThru_cap (a v : Nat) : (s.setThru a v).cap = s.cap := rfl
@[simp] theorem State.setThru_firn (a v : Nat) : (s.setThru a v).firn = s.firn := rfl
@[simp] theorem State.setThru_ndk (a v : Nat) : (s.setThru a v).ndk = s.ndk := rfl
@[simp] theorem State.setThru_radio (a v : Nat) : (s.setThru a v).radio = s.radio := rfl
@[simp] theorem State.setThru_ddr (a v : Nat) : (s.setThru a v).ddr = s.ddr := rfl
@[simp] theorem State.setThru_sram (a v : Nat) : (s.setThru a v).sram = s.sram := rfl
@[simp] theorem State.setThru_out (a v : Nat) : (s.setThru a v).out = s.out := rfl
@[simp] theorem State.setThru_draws (a v : Nat) : (s.setThru a v).draws = s.draws := rfl
@[simp] theorem State.setThru_pending (a v : Nat) : (s.setThru a v).pending = s.pending := rfl
@[simp] theorem State.setThru_alive (a v : Nat) : (s.setThru a v).alive = s.alive := rfl
@[simp] theorem State.setThru_ticking (a v : Nat) : (s.setThru a v).ticking = s.ticking := rfl
@[simp] theorem State.quiet_thru (a : Nat) : (s.quiet).thru a = s.thru a := rfl
@[simp] theorem State.quiet_thruBit (a i : Nat) : (s.quiet).thruBit a i = s.thruBit a i := rfl
@[simp] theorem State.drawn_thru (a : Nat) : (s.drawn).thru a = s.thru a := rfl
@[simp] theorem State.drawn_thruBit (a i : Nat) : (s.drawn).thruBit a i = s.thruBit a i := rfl
@[simp] theorem State.setReg_thru (a v : Nat) (b : Nat) : (s.setReg a v).thru b = s.thru b := rfl
@[simp] theorem State.setF_thru (a lo len x : Nat) (b : Nat) : (s.setF a lo len x).thru b = s.thru b := rfl
@[simp] theorem State.count_thru (a : Nat) (b : Nat) : (s.count a).thru b = s.thru b := rfl
@[simp] theorem State.raise_thru (n : Nat) (b : Nat) : (s.raise n).thru b = s.thru b := rfl
@[simp] theorem State.emit_thru (x : Output) (b : Nat) : (s.emit x).thru b = s.thru b := rfl

/-! ## setF -/

@[simp] theorem State.setF_hold (a lo len x : Nat) : (s.setF a lo len x).hold = s.hold := rfl
@[simp] theorem State.setF_heldLo (a lo len x : Nat) : (s.setF a lo len x).heldLo = s.heldLo := rfl
@[simp] theorem State.setF_img (a lo len x : Nat) : (s.setF a lo len x).img = s.img := rfl
@[simp] theorem State.setF_fldl (a lo len x : Nat) : (s.setF a lo len x).fldl = s.fldl := rfl
@[simp] theorem State.setF_time (a lo len x : Nat) : (s.setF a lo len x).time = s.time := rfl
@[simp] theorem State.setF_flt (a lo len x : Nat) : (s.setF a lo len x).flt = s.flt := rfl
@[simp] theorem State.setF_pwr (a lo len x : Nat) : (s.setF a lo len x).pwr = s.pwr := rfl
@[simp] theorem State.setF_eth (a lo len x : Nat) : (s.setF a lo len x).eth = s.eth := rfl
@[simp] theorem State.setF_hq (a lo len x : Nat) : (s.setF a lo len x).hq = s.hq := rfl
@[simp] theorem State.setF_key (a lo len x : Nat) : (s.setF a lo len x).key = s.key := rfl
@[simp] theorem State.setF_dec (a lo len x : Nat) : (s.setF a lo len x).dec = s.dec := rfl
@[simp] theorem State.setF_seam (a lo len x : Nat) : (s.setF a lo len x).seam = s.seam := rfl
@[simp] theorem State.setF_fab (a lo len x : Nat) : (s.setF a lo len x).fab = s.fab := rfl
@[simp] theorem State.setF_se (a lo len x : Nat) : (s.setF a lo len x).se = s.se := rfl
@[simp] theorem State.setF_floe (a lo len x : Nat) : (s.setF a lo len x).floe = s.floe := rfl
@[simp] theorem State.setF_thr (a lo len x : Nat) : (s.setF a lo len x).thr = s.thr := rfl
@[simp] theorem State.setF_osc (a lo len x : Nat) : (s.setF a lo len x).osc = s.osc := rfl
@[simp] theorem State.setF_alm (a lo len x : Nat) : (s.setF a lo len x).alm = s.alm := rfl
@[simp] theorem State.setF_disp (a lo len x : Nat) : (s.setF a lo len x).disp = s.disp := rfl
@[simp] theorem State.setF_stn (a lo len x : Nat) : (s.setF a lo len x).stn = s.stn := rfl
@[simp] theorem State.setF_aux (a lo len x : Nat) : (s.setF a lo len x).aux = s.aux := rfl
@[simp] theorem State.setF_cap (a lo len x : Nat) : (s.setF a lo len x).cap = s.cap := rfl
@[simp] theorem State.setF_firn (a lo len x : Nat) : (s.setF a lo len x).firn = s.firn := rfl
@[simp] theorem State.setF_ndk (a lo len x : Nat) : (s.setF a lo len x).ndk = s.ndk := rfl
@[simp] theorem State.setF_radio (a lo len x : Nat) : (s.setF a lo len x).radio = s.radio := rfl
@[simp] theorem State.setF_ddr (a lo len x : Nat) : (s.setF a lo len x).ddr = s.ddr := rfl
@[simp] theorem State.setF_sram (a lo len x : Nat) : (s.setF a lo len x).sram = s.sram := rfl
@[simp] theorem State.setF_out (a lo len x : Nat) : (s.setF a lo len x).out = s.out := rfl
@[simp] theorem State.setF_draws (a lo len x : Nat) : (s.setF a lo len x).draws = s.draws := rfl
@[simp] theorem State.setF_pending (a lo len x : Nat) : (s.setF a lo len x).pending = s.pending := rfl

/-! ## countBy -/

@[simp] theorem State.countBy_hold (a n : Nat) : (s.countBy a n).hold = s.hold := rfl
@[simp] theorem State.countBy_heldLo (a n : Nat) : (s.countBy a n).heldLo = s.heldLo := rfl
@[simp] theorem State.countBy_img (a n : Nat) : (s.countBy a n).img = s.img := rfl
@[simp] theorem State.countBy_fldl (a n : Nat) : (s.countBy a n).fldl = s.fldl := rfl
@[simp] theorem State.countBy_time (a n : Nat) : (s.countBy a n).time = s.time := rfl
@[simp] theorem State.countBy_flt (a n : Nat) : (s.countBy a n).flt = s.flt := rfl
@[simp] theorem State.countBy_pwr (a n : Nat) : (s.countBy a n).pwr = s.pwr := rfl
@[simp] theorem State.countBy_eth (a n : Nat) : (s.countBy a n).eth = s.eth := rfl
@[simp] theorem State.countBy_hq (a n : Nat) : (s.countBy a n).hq = s.hq := rfl
@[simp] theorem State.countBy_key (a n : Nat) : (s.countBy a n).key = s.key := rfl
@[simp] theorem State.countBy_dec (a n : Nat) : (s.countBy a n).dec = s.dec := rfl
@[simp] theorem State.countBy_seam (a n : Nat) : (s.countBy a n).seam = s.seam := rfl
@[simp] theorem State.countBy_fab (a n : Nat) : (s.countBy a n).fab = s.fab := rfl
@[simp] theorem State.countBy_se (a n : Nat) : (s.countBy a n).se = s.se := rfl
@[simp] theorem State.countBy_floe (a n : Nat) : (s.countBy a n).floe = s.floe := rfl
@[simp] theorem State.countBy_thr (a n : Nat) : (s.countBy a n).thr = s.thr := rfl
@[simp] theorem State.countBy_osc (a n : Nat) : (s.countBy a n).osc = s.osc := rfl
@[simp] theorem State.countBy_alm (a n : Nat) : (s.countBy a n).alm = s.alm := rfl
@[simp] theorem State.countBy_disp (a n : Nat) : (s.countBy a n).disp = s.disp := rfl
@[simp] theorem State.countBy_stn (a n : Nat) : (s.countBy a n).stn = s.stn := rfl
@[simp] theorem State.countBy_aux (a n : Nat) : (s.countBy a n).aux = s.aux := rfl
@[simp] theorem State.countBy_cap (a n : Nat) : (s.countBy a n).cap = s.cap := rfl
@[simp] theorem State.countBy_firn (a n : Nat) : (s.countBy a n).firn = s.firn := rfl
@[simp] theorem State.countBy_ndk (a n : Nat) : (s.countBy a n).ndk = s.ndk := rfl
@[simp] theorem State.countBy_radio (a n : Nat) : (s.countBy a n).radio = s.radio := rfl
@[simp] theorem State.countBy_ddr (a n : Nat) : (s.countBy a n).ddr = s.ddr := rfl
@[simp] theorem State.countBy_sram (a n : Nat) : (s.countBy a n).sram = s.sram := rfl
@[simp] theorem State.countBy_out (a n : Nat) : (s.countBy a n).out = s.out := rfl
@[simp] theorem State.countBy_draws (a n : Nat) : (s.countBy a n).draws = s.draws := rfl
@[simp] theorem State.countBy_pending (a n : Nat) : (s.countBy a n).pending = s.pending := rfl

/-! ## count -/

@[simp] theorem State.count_hold (a : Nat) : (s.count a).hold = s.hold := rfl
@[simp] theorem State.count_heldLo (a : Nat) : (s.count a).heldLo = s.heldLo := rfl
@[simp] theorem State.count_img (a : Nat) : (s.count a).img = s.img := rfl
@[simp] theorem State.count_fldl (a : Nat) : (s.count a).fldl = s.fldl := rfl
@[simp] theorem State.count_time (a : Nat) : (s.count a).time = s.time := rfl
@[simp] theorem State.count_flt (a : Nat) : (s.count a).flt = s.flt := rfl
@[simp] theorem State.count_pwr (a : Nat) : (s.count a).pwr = s.pwr := rfl
@[simp] theorem State.count_eth (a : Nat) : (s.count a).eth = s.eth := rfl
@[simp] theorem State.count_hq (a : Nat) : (s.count a).hq = s.hq := rfl
@[simp] theorem State.count_key (a : Nat) : (s.count a).key = s.key := rfl
@[simp] theorem State.count_dec (a : Nat) : (s.count a).dec = s.dec := rfl
@[simp] theorem State.count_seam (a : Nat) : (s.count a).seam = s.seam := rfl
@[simp] theorem State.count_fab (a : Nat) : (s.count a).fab = s.fab := rfl
@[simp] theorem State.count_se (a : Nat) : (s.count a).se = s.se := rfl
@[simp] theorem State.count_floe (a : Nat) : (s.count a).floe = s.floe := rfl
@[simp] theorem State.count_thr (a : Nat) : (s.count a).thr = s.thr := rfl
@[simp] theorem State.count_osc (a : Nat) : (s.count a).osc = s.osc := rfl
@[simp] theorem State.count_alm (a : Nat) : (s.count a).alm = s.alm := rfl
@[simp] theorem State.count_disp (a : Nat) : (s.count a).disp = s.disp := rfl
@[simp] theorem State.count_stn (a : Nat) : (s.count a).stn = s.stn := rfl
@[simp] theorem State.count_aux (a : Nat) : (s.count a).aux = s.aux := rfl
@[simp] theorem State.count_cap (a : Nat) : (s.count a).cap = s.cap := rfl
@[simp] theorem State.count_firn (a : Nat) : (s.count a).firn = s.firn := rfl
@[simp] theorem State.count_ndk (a : Nat) : (s.count a).ndk = s.ndk := rfl
@[simp] theorem State.count_radio (a : Nat) : (s.count a).radio = s.radio := rfl
@[simp] theorem State.count_ddr (a : Nat) : (s.count a).ddr = s.ddr := rfl
@[simp] theorem State.count_sram (a : Nat) : (s.count a).sram = s.sram := rfl
@[simp] theorem State.count_out (a : Nat) : (s.count a).out = s.out := rfl
@[simp] theorem State.count_draws (a : Nat) : (s.count a).draws = s.draws := rfl
@[simp] theorem State.count_pending (a : Nat) : (s.count a).pending = s.pending := rfl

/-! ## raise -/

@[simp] theorem State.raise_hold (n : Nat) : (s.raise n).hold = s.hold := rfl
@[simp] theorem State.raise_heldLo (n : Nat) : (s.raise n).heldLo = s.heldLo := rfl
@[simp] theorem State.raise_img (n : Nat) : (s.raise n).img = s.img := rfl
@[simp] theorem State.raise_fldl (n : Nat) : (s.raise n).fldl = s.fldl := rfl
@[simp] theorem State.raise_time (n : Nat) : (s.raise n).time = s.time := rfl
@[simp] theorem State.raise_flt (n : Nat) : (s.raise n).flt = s.flt := rfl
@[simp] theorem State.raise_pwr (n : Nat) : (s.raise n).pwr = s.pwr := rfl
@[simp] theorem State.raise_eth (n : Nat) : (s.raise n).eth = s.eth := rfl
@[simp] theorem State.raise_hq (n : Nat) : (s.raise n).hq = s.hq := rfl
@[simp] theorem State.raise_key (n : Nat) : (s.raise n).key = s.key := rfl
@[simp] theorem State.raise_dec (n : Nat) : (s.raise n).dec = s.dec := rfl
@[simp] theorem State.raise_seam (n : Nat) : (s.raise n).seam = s.seam := rfl
@[simp] theorem State.raise_fab (n : Nat) : (s.raise n).fab = s.fab := rfl
@[simp] theorem State.raise_se (n : Nat) : (s.raise n).se = s.se := rfl
@[simp] theorem State.raise_floe (n : Nat) : (s.raise n).floe = s.floe := rfl
@[simp] theorem State.raise_thr (n : Nat) : (s.raise n).thr = s.thr := rfl
@[simp] theorem State.raise_osc (n : Nat) : (s.raise n).osc = s.osc := rfl
@[simp] theorem State.raise_alm (n : Nat) : (s.raise n).alm = s.alm := rfl
@[simp] theorem State.raise_disp (n : Nat) : (s.raise n).disp = s.disp := rfl
@[simp] theorem State.raise_stn (n : Nat) : (s.raise n).stn = s.stn := rfl
@[simp] theorem State.raise_aux (n : Nat) : (s.raise n).aux = s.aux := rfl
@[simp] theorem State.raise_cap (n : Nat) : (s.raise n).cap = s.cap := rfl
@[simp] theorem State.raise_firn (n : Nat) : (s.raise n).firn = s.firn := rfl
@[simp] theorem State.raise_ndk (n : Nat) : (s.raise n).ndk = s.ndk := rfl
@[simp] theorem State.raise_radio (n : Nat) : (s.raise n).radio = s.radio := rfl
@[simp] theorem State.raise_ddr (n : Nat) : (s.raise n).ddr = s.ddr := rfl
@[simp] theorem State.raise_sram (n : Nat) : (s.raise n).sram = s.sram := rfl
@[simp] theorem State.raise_out (n : Nat) : (s.raise n).out = s.out := rfl
@[simp] theorem State.raise_draws (n : Nat) : (s.raise n).draws = s.draws := rfl
@[simp] theorem State.raise_pending (n : Nat) : (s.raise n).pending = s.pending := rfl

/-! ## quiet -/

@[simp] theorem State.quiet_regs : (s.quiet).regs = s.regs := rfl
@[simp] theorem State.quiet_hold : (s.quiet).hold = s.hold := rfl
@[simp] theorem State.quiet_heldLo : (s.quiet).heldLo = s.heldLo := rfl
@[simp] theorem State.quiet_img : (s.quiet).img = s.img := rfl
@[simp] theorem State.quiet_fldl : (s.quiet).fldl = s.fldl := rfl
@[simp] theorem State.quiet_time : (s.quiet).time = s.time := rfl
@[simp] theorem State.quiet_flt : (s.quiet).flt = s.flt := rfl
@[simp] theorem State.quiet_pwr : (s.quiet).pwr = s.pwr := rfl
@[simp] theorem State.quiet_eth : (s.quiet).eth = s.eth := rfl
@[simp] theorem State.quiet_hq : (s.quiet).hq = s.hq := rfl
@[simp] theorem State.quiet_key : (s.quiet).key = s.key := rfl
@[simp] theorem State.quiet_dec : (s.quiet).dec = s.dec := rfl
@[simp] theorem State.quiet_seam : (s.quiet).seam = s.seam := rfl
@[simp] theorem State.quiet_fab : (s.quiet).fab = s.fab := rfl
@[simp] theorem State.quiet_se : (s.quiet).se = s.se := rfl
@[simp] theorem State.quiet_floe : (s.quiet).floe = s.floe := rfl
@[simp] theorem State.quiet_thr : (s.quiet).thr = s.thr := rfl
@[simp] theorem State.quiet_osc : (s.quiet).osc = s.osc := rfl
@[simp] theorem State.quiet_alm : (s.quiet).alm = s.alm := rfl
@[simp] theorem State.quiet_disp : (s.quiet).disp = s.disp := rfl
@[simp] theorem State.quiet_stn : (s.quiet).stn = s.stn := rfl
@[simp] theorem State.quiet_aux : (s.quiet).aux = s.aux := rfl
@[simp] theorem State.quiet_cap : (s.quiet).cap = s.cap := rfl
@[simp] theorem State.quiet_firn : (s.quiet).firn = s.firn := rfl
@[simp] theorem State.quiet_ndk : (s.quiet).ndk = s.ndk := rfl
@[simp] theorem State.quiet_radio : (s.quiet).radio = s.radio := rfl
@[simp] theorem State.quiet_ddr : (s.quiet).ddr = s.ddr := rfl
@[simp] theorem State.quiet_sram : (s.quiet).sram = s.sram := rfl
@[simp] theorem State.quiet_draws : (s.quiet).draws = s.draws := rfl
@[simp] theorem State.quiet_pending : (s.quiet).pending = s.pending := rfl

/-! ## emit -/

@[simp] theorem State.emit_regs (x : Output) : (s.emit x).regs = s.regs := rfl
@[simp] theorem State.emit_hold (x : Output) : (s.emit x).hold = s.hold := rfl
@[simp] theorem State.emit_heldLo (x : Output) : (s.emit x).heldLo = s.heldLo := rfl
@[simp] theorem State.emit_img (x : Output) : (s.emit x).img = s.img := rfl
@[simp] theorem State.emit_fldl (x : Output) : (s.emit x).fldl = s.fldl := rfl
@[simp] theorem State.emit_time (x : Output) : (s.emit x).time = s.time := rfl
@[simp] theorem State.emit_flt (x : Output) : (s.emit x).flt = s.flt := rfl
@[simp] theorem State.emit_pwr (x : Output) : (s.emit x).pwr = s.pwr := rfl
@[simp] theorem State.emit_eth (x : Output) : (s.emit x).eth = s.eth := rfl
@[simp] theorem State.emit_hq (x : Output) : (s.emit x).hq = s.hq := rfl
@[simp] theorem State.emit_key (x : Output) : (s.emit x).key = s.key := rfl
@[simp] theorem State.emit_dec (x : Output) : (s.emit x).dec = s.dec := rfl
@[simp] theorem State.emit_seam (x : Output) : (s.emit x).seam = s.seam := rfl
@[simp] theorem State.emit_fab (x : Output) : (s.emit x).fab = s.fab := rfl
@[simp] theorem State.emit_se (x : Output) : (s.emit x).se = s.se := rfl
@[simp] theorem State.emit_floe (x : Output) : (s.emit x).floe = s.floe := rfl
@[simp] theorem State.emit_thr (x : Output) : (s.emit x).thr = s.thr := rfl
@[simp] theorem State.emit_osc (x : Output) : (s.emit x).osc = s.osc := rfl
@[simp] theorem State.emit_alm (x : Output) : (s.emit x).alm = s.alm := rfl
@[simp] theorem State.emit_disp (x : Output) : (s.emit x).disp = s.disp := rfl
@[simp] theorem State.emit_stn (x : Output) : (s.emit x).stn = s.stn := rfl
@[simp] theorem State.emit_aux (x : Output) : (s.emit x).aux = s.aux := rfl
@[simp] theorem State.emit_cap (x : Output) : (s.emit x).cap = s.cap := rfl
@[simp] theorem State.emit_firn (x : Output) : (s.emit x).firn = s.firn := rfl
@[simp] theorem State.emit_ndk (x : Output) : (s.emit x).ndk = s.ndk := rfl
@[simp] theorem State.emit_radio (x : Output) : (s.emit x).radio = s.radio := rfl
@[simp] theorem State.emit_ddr (x : Output) : (s.emit x).ddr = s.ddr := rfl
@[simp] theorem State.emit_sram (x : Output) : (s.emit x).sram = s.sram := rfl
@[simp] theorem State.emit_draws (x : Output) : (s.emit x).draws = s.draws := rfl
@[simp] theorem State.emit_pending (x : Output) : (s.emit x).pending = s.pending := rfl

/-! ## drawn -/

@[simp] theorem State.drawn_regs : (s.drawn).regs = s.regs := rfl
@[simp] theorem State.drawn_hold : (s.drawn).hold = s.hold := rfl
@[simp] theorem State.drawn_heldLo : (s.drawn).heldLo = s.heldLo := rfl
@[simp] theorem State.drawn_img : (s.drawn).img = s.img := rfl
@[simp] theorem State.drawn_fldl : (s.drawn).fldl = s.fldl := rfl
@[simp] theorem State.drawn_time : (s.drawn).time = s.time := rfl
@[simp] theorem State.drawn_flt : (s.drawn).flt = s.flt := rfl
@[simp] theorem State.drawn_pwr : (s.drawn).pwr = s.pwr := rfl
@[simp] theorem State.drawn_eth : (s.drawn).eth = s.eth := rfl
@[simp] theorem State.drawn_hq : (s.drawn).hq = s.hq := rfl
@[simp] theorem State.drawn_key : (s.drawn).key = s.key := rfl
@[simp] theorem State.drawn_dec : (s.drawn).dec = s.dec := rfl
@[simp] theorem State.drawn_seam : (s.drawn).seam = s.seam := rfl
@[simp] theorem State.drawn_fab : (s.drawn).fab = s.fab := rfl
@[simp] theorem State.drawn_se : (s.drawn).se = s.se := rfl
@[simp] theorem State.drawn_floe : (s.drawn).floe = s.floe := rfl
@[simp] theorem State.drawn_thr : (s.drawn).thr = s.thr := rfl
@[simp] theorem State.drawn_osc : (s.drawn).osc = s.osc := rfl
@[simp] theorem State.drawn_alm : (s.drawn).alm = s.alm := rfl
@[simp] theorem State.drawn_disp : (s.drawn).disp = s.disp := rfl
@[simp] theorem State.drawn_stn : (s.drawn).stn = s.stn := rfl
@[simp] theorem State.drawn_aux : (s.drawn).aux = s.aux := rfl
@[simp] theorem State.drawn_cap : (s.drawn).cap = s.cap := rfl
@[simp] theorem State.drawn_firn : (s.drawn).firn = s.firn := rfl
@[simp] theorem State.drawn_ndk : (s.drawn).ndk = s.ndk := rfl
@[simp] theorem State.drawn_radio : (s.drawn).radio = s.radio := rfl
@[simp] theorem State.drawn_ddr : (s.drawn).ddr = s.ddr := rfl
@[simp] theorem State.drawn_sram : (s.drawn).sram = s.sram := rfl
@[simp] theorem State.drawn_out : (s.drawn).out = s.out := rfl
@[simp] theorem State.drawn_pending : (s.drawn).pending = s.pending := rfl

/-! ## settle -/

@[simp] theorem settle_regs : (settle s t).regs = t.regs := rfl
@[simp] theorem settle_hold : (settle s t).hold = t.hold := rfl
@[simp] theorem settle_heldLo : (settle s t).heldLo = t.heldLo := rfl
@[simp] theorem settle_img : (settle s t).img = t.img := rfl
@[simp] theorem settle_fldl : (settle s t).fldl = t.fldl := rfl
@[simp] theorem settle_time : (settle s t).time = t.time := rfl
@[simp] theorem settle_flt : (settle s t).flt = t.flt := rfl
@[simp] theorem settle_pwr : (settle s t).pwr = t.pwr := rfl
@[simp] theorem settle_eth : (settle s t).eth = t.eth := rfl
@[simp] theorem settle_key : (settle s t).key = t.key := rfl
@[simp] theorem settle_dec : (settle s t).dec = t.dec := rfl
@[simp] theorem settle_seam : (settle s t).seam = t.seam := rfl
@[simp] theorem settle_fab : (settle s t).fab = t.fab := rfl
@[simp] theorem settle_se : (settle s t).se = t.se := rfl
@[simp] theorem settle_floe : (settle s t).floe = t.floe := rfl
@[simp] theorem settle_thr : (settle s t).thr = t.thr := rfl
@[simp] theorem settle_osc : (settle s t).osc = t.osc := rfl
@[simp] theorem settle_alm : (settle s t).alm = t.alm := rfl
@[simp] theorem settle_disp : (settle s t).disp = t.disp := rfl
@[simp] theorem settle_stn : (settle s t).stn = t.stn := rfl
@[simp] theorem settle_aux : (settle s t).aux = t.aux := rfl
@[simp] theorem settle_cap : (settle s t).cap = t.cap := rfl
@[simp] theorem settle_firn : (settle s t).firn = t.firn := rfl
@[simp] theorem settle_ndk : (settle s t).ndk = t.ndk := rfl
@[simp] theorem settle_radio : (settle s t).radio = t.radio := rfl
@[simp] theorem settle_ddr : (settle s t).ddr = t.ddr := rfl
@[simp] theorem settle_sram : (settle s t).sram = t.sram := rfl
@[simp] theorem settle_draws : (settle s t).draws = t.draws := rfl
@[simp] theorem settle_pending : (settle s t).pending = t.pending := rfl
@[simp] theorem settle_hq_linkUp : (settle s t).hq.linkUp = t.hq.linkUp := rfl
@[simp] theorem settle_hq_bme : (settle s t).hq.bme = t.hq.bme := rfl
@[simp] theorem settle_hq_d3hot : (settle s t).hq.d3hot = t.hq.d3hot := rfl
@[simp] theorem settle_hq_msixEn : (settle s t).hq.msixEn = t.hq.msixEn := rfl
@[simp] theorem settle_hq_ring0 : (settle s t).hq.ring0 = t.hq.ring0 := rfl
@[simp] theorem settle_hq_ring1 : (settle s t).hq.ring1 = t.hq.ring1 := rfl
@[simp] theorem settle_hq_seamQ : (settle s t).hq.seamQ = t.hq.seamQ := rfl
@[simp] theorem settle_hq_seamWatch : (settle s t).hq.seamWatch = t.hq.seamWatch := rfl
@[simp] theorem settle_hq_almWatch : (settle s t).hq.almWatch = t.hq.almWatch := rfl
@[simp] theorem settle_hq_uartRx : (settle s t).hq.uartRx = t.hq.uartRx := rfl
@[simp] theorem settle_hq_uartTx : (settle s t).hq.uartTx = t.hq.uartTx := rfl
@[simp] theorem settle_hq_qspiBusy : (settle s t).hq.qspiBusy = t.hq.qspiBusy := rfl
@[simp] theorem settle_hq_i2cIndex : (settle s t).hq.i2cIndex = t.hq.i2cIndex := rfl
@[simp] theorem settle_hq_jtagIr : (settle s t).hq.jtagIr = t.hq.jtagIr := rfl
@[simp] theorem settle_hq_boundary : (settle s t).hq.boundary = t.hq.boundary := rfl
@[simp] theorem settle_hq_halted : (settle s t).hq.halted = t.hq.halted := rfl
@[simp] theorem settle_hq_parked : (settle s t).hq.parked = t.hq.parked := rfl

/-! ## Predicates of the operating state -/

@[simp] theorem State.setReg_alive (a v : Nat) : (s.setReg a v).alive = s.alive := rfl
@[simp] theorem State.setF_alive (a lo len x : Nat) : (s.setF a lo len x).alive = s.alive := rfl
@[simp] theorem State.countBy_alive (a n : Nat) : (s.countBy a n).alive = s.alive := rfl
@[simp] theorem State.count_alive (a : Nat) : (s.count a).alive = s.alive := rfl
@[simp] theorem State.raise_alive (n : Nat) : (s.raise n).alive = s.alive := rfl
@[simp] theorem State.quiet_alive : (s.quiet).alive = s.alive := rfl
@[simp] theorem State.emit_alive (x : Output) : (s.emit x).alive = s.alive := rfl
@[simp] theorem State.drawn_alive : (s.drawn).alive = s.alive := rfl
@[simp] theorem State.setReg_ticking (a v : Nat) : (s.setReg a v).ticking = s.ticking := rfl
@[simp] theorem State.setF_ticking (a lo len x : Nat) : (s.setF a lo len x).ticking = s.ticking := rfl
@[simp] theorem State.countBy_ticking (a n : Nat) : (s.countBy a n).ticking = s.ticking := rfl
@[simp] theorem State.count_ticking (a : Nat) : (s.count a).ticking = s.ticking := rfl
@[simp] theorem State.raise_ticking (n : Nat) : (s.raise n).ticking = s.ticking := rfl
@[simp] theorem State.quiet_ticking : (s.quiet).ticking = s.ticking := rfl
@[simp] theorem State.emit_ticking (x : Output) : (s.emit x).ticking = s.ticking := rfl
@[simp] theorem State.drawn_ticking : (s.drawn).ticking = s.ticking := rfl
@[simp] theorem settle_alive : (settle s t).alive = t.alive := rfl
@[simp] theorem settle_ticking : (settle s t).ticking = t.ticking := rfl
@[simp] theorem State.quiet_rn (b : Nat) : (s.quiet).rn b = s.rn b := rfl
@[simp] theorem State.emit_rn (x : Output) (b : Nat) : (s.emit x).rn b = s.rn b := rfl
@[simp] theorem State.drawn_rn (b : Nat) : (s.drawn).rn b = s.rn b := rfl
@[simp] theorem settle_rn (b : Nat) : (settle s t).rn b = t.rn b := rfl
@[simp] theorem State.quiet_rf (b lo len : Nat) : (s.quiet).rf b lo len = s.rf b lo len := rfl
@[simp] theorem State.emit_rf (x : Output) (b lo len : Nat) : (s.emit x).rf b lo len = s.rf b lo len := rfl
@[simp] theorem State.drawn_rf (b lo len : Nat) : (s.drawn).rf b lo len = s.rf b lo len := rfl
@[simp] theorem settle_rf (b lo len : Nat) : (settle s t).rf b lo len = t.rf b lo len := rfl
@[simp] theorem State.quiet_bit (b i : Nat) : (s.quiet).bit b i = s.bit b i := rfl
@[simp] theorem State.emit_bit (x : Output) (b i : Nat) : (s.emit x).bit b i = s.bit b i := rfl
@[simp] theorem State.drawn_bit (b i : Nat) : (s.drawn).bit b i = s.bit b i := rfl
@[simp] theorem settle_bit (b i : Nat) : (settle s t).bit b i = t.bit b i := rfl

end Sys2Proof.Machine
end

