-- ==== Sys2Proof/Laws/Tbl.lean ====
section
/-! SUPPORT. Sparse tables, byte memories and registers: a read after a write, and the canonical form that every write keeps. -/
namespace Sys2Proof.Machine
open Sys2Proof

/-! ## Reading after writing -/

theorem Tbl.get_del_other {α : Type} (m : Tbl α) {j k : Nat} (d : α) (h : j ≠ k) : Tbl.get (Tbl.del m k) j d = Tbl.get m j d := by
  induction m with
  | nil => rfl
  | cons e t ih =>
    obtain ⟨i, v⟩ := e
    by_cases hk : i = k
    · subst hk; simp [Tbl.del, Tbl.get, ih, Ne.symm h]
    · simp only [Tbl.del, hk, if_false, Tbl.get, ih]

theorem Tbl.get_del_same {α : Type} (m : Tbl α) (k : Nat) (d : α) : Tbl.get (Tbl.del m k) k d = d := by
  induction m with
  | nil => rfl
  | cons e t ih =>
    obtain ⟨i, v⟩ := e
    by_cases hk : i = k <;> simp [Tbl.del, Tbl.get, hk, ih]

theorem Tbl.get_place_other {α : Type} (m : Tbl α) {j k : Nat} (v d : α) (h : j ≠ k) : Tbl.get (Tbl.place m k v) j d = Tbl.get m j d := by
  induction m with
  | nil => simp [Tbl.place, Tbl.get, Ne.symm h]
  | cons e t ih =>
    obtain ⟨i, w⟩ := e
    by_cases hk : k < i
    · simp [Tbl.place, Tbl.get, hk, Ne.symm h]
    · simp only [Tbl.place, hk, if_false, Tbl.get, ih]

/-- No entry of `m` has key `k`. -/
def Tbl.lacks {α : Type} (m : Tbl α) (k : Nat) : Prop := ∀ e ∈ m, e.1 ≠ k

theorem Tbl.del_lacks {α : Type} (m : Tbl α) (k : Nat) : Tbl.lacks (Tbl.del m k) k := by
  induction m with
  | nil => simp [Tbl.del, Tbl.lacks]
  | cons e t ih =>
    obtain ⟨i, v⟩ := e
    by_cases hk : i = k
    · simpa [Tbl.del, hk] using ih
    · simp only [Tbl.del, hk, if_false, Tbl.lacks, List.mem_cons]
      rintro x (rfl | hx)
      · exact hk
      · exact ih x hx

theorem Tbl.get_place_same {α : Type} (m : Tbl α) (k : Nat) (v d : α) (h : Tbl.lacks m k) : Tbl.get (Tbl.place m k v) k d = v := by
  induction m with
  | nil => simp [Tbl.place, Tbl.get]
  | cons e t ih =>
    obtain ⟨i, w⟩ := e
    have hi : i ≠ k := h (i, w) (by simp)
    by_cases hk : k < i
    · simp [Tbl.place, Tbl.get, hk]
    · simp only [Tbl.place, hk, if_false, Tbl.get, hi]
      exact ih fun x hx => h x (by simp [hx])

/-- A read of the key written. -/
@[simp] theorem Tbl.get_set_same {α : Type} [DecidableEq α] (m : Tbl α) (k : Nat) (v d : α) : Tbl.get (Tbl.set m k v d) k d = v := by
  by_cases h : v = d
  · simp [Tbl.set, h, Tbl.get_del_same]
  · simp [Tbl.set, h, Tbl.get_place_same _ _ _ _ (Tbl.del_lacks m k)]

/-- A read of another key. -/
theorem Tbl.get_set_other {α : Type} [DecidableEq α] (m : Tbl α) {j k : Nat} (v d d' : α) (h : j ≠ k) :
    Tbl.get (Tbl.set m k v d) j d' = Tbl.get m j d' := by
  by_cases hv : v = d
  · simp [Tbl.set, hv, Tbl.get_del_other m d' h]
  · simp [Tbl.set, hv, Tbl.get_place_other _ v d' h, Tbl.get_del_other m d' h]

/-! ## The canonical form -/

/-- Every key of `m` lies above `k`. -/
def Tbl.above {α : Type} (k : Nat) (m : Tbl α) : Prop := ∀ e ∈ m, k < e.1

theorem Tbl.sorted_cons {α : Type} (j : Nat) (v : α) (t : Tbl α) : Tbl.sorted ((j, v) :: t) = true ↔ Tbl.above j t ∧ Tbl.sorted t = true := by
  induction t generalizing j v with
  | nil => simp [Tbl.sorted, Tbl.above]
  | cons e t ih =>
    obtain ⟨k, w⟩ := e
    simp only [Tbl.sorted, Bool.and_eq_true, decide_eq_true_eq, ih k w, Tbl.above, List.mem_cons, forall_eq_or_imp]
    constructor
    · rintro ⟨hjk, h, hs⟩
      exact ⟨⟨hjk, fun e he => Nat.lt_trans hjk (h e he)⟩, h, hs⟩
    · rintro ⟨⟨hjk, _⟩, h, hs⟩
      exact ⟨hjk, h, hs⟩

theorem Tbl.mem_del {α : Type} {m : Tbl α} {k : Nat} {e : Nat × α} (h : e ∈ Tbl.del m k) : e ∈ m := by
  induction m with
  | nil => simp [Tbl.del] at h
  | cons x t ih =>
    obtain ⟨i, v⟩ := x
    by_cases hk : i = k
    · simp only [Tbl.del, hk, if_true] at h; exact List.mem_cons_of_mem _ (ih h)
    · simp only [Tbl.del, hk, if_false, List.mem_cons] at h
      rcases h with h | h
      · simp [h]
      · exact List.mem_cons_of_mem _ (ih h)

theorem Tbl.mem_place {α : Type} {m : Tbl α} {k : Nat} {v : α} {e : Nat × α} (h : e ∈ Tbl.place m k v) : e = (k, v) ∨ e ∈ m := by
  induction m with
  | nil => simpa [Tbl.place] using h
  | cons x t ih =>
    obtain ⟨i, w⟩ := x
    by_cases hk : k < i
    · simpa [Tbl.place, hk] using h
    · simp only [Tbl.place, hk, if_false, List.mem_cons] at h
      rcases h with h | h
      · exact .inr (by simp [h])
      · rcases ih h with h | h
        · exact .inl h
        · exact .inr (List.mem_cons_of_mem _ h)

theorem Tbl.sorted_del {α : Type} (m : Tbl α) (k : Nat) (h : Tbl.sorted m = true) : Tbl.sorted (Tbl.del m k) = true := by
  induction m with
  | nil => rfl
  | cons x t ih =>
    obtain ⟨i, v⟩ := x
    rw [Tbl.sorted_cons] at h
    by_cases hk : i = k
    · simpa [Tbl.del, hk] using ih h.2
    · simp only [Tbl.del, hk, if_false, Tbl.sorted_cons]
      exact ⟨fun e he => h.1 e (Tbl.mem_del he), ih h.2⟩

theorem Tbl.sorted_place {α : Type} (m : Tbl α) (k : Nat) (v : α) (hl : Tbl.lacks m k) (h : Tbl.sorted m = true) :
    Tbl.sorted (Tbl.place m k v) = true := by
  induction m with
  | nil => rfl
  | cons x t ih =>
    obtain ⟨i, w⟩ := x
    have hi : i ≠ k := hl (i, w) (by simp)
    have hs := (Tbl.sorted_cons i w t).1 h
    by_cases hk : k < i
    · simp only [Tbl.place, hk, if_true, Tbl.sorted_cons k v]
      refine ⟨fun e he => ?_, h⟩
      rcases List.mem_cons.1 he with rfl | he
      · exact hk
      · exact Nat.lt_trans hk (hs.1 e he)
    · simp only [Tbl.place, hk, if_false, Tbl.sorted_cons i w]
      refine ⟨fun e he => ?_, ih (fun y hy => hl y (List.mem_cons_of_mem _ hy)) hs.2⟩
      rcases Tbl.mem_place he with rfl | he
      · exact Nat.lt_of_le_of_ne (Nat.le_of_not_lt hk) hi
      · exact hs.1 e he

/-- A write keeps the canonical form. -/
theorem Tbl.wf_set {α : Type} [DecidableEq α] (m : Tbl α) (k : Nat) (v d : α) (h : Tbl.wf m d = true) : Tbl.wf (Tbl.set m k v d) d = true := by
  simp only [Tbl.wf, Bool.and_eq_true, List.all_eq_true, Bool.not_eq_true', decide_eq_false_iff_not] at h ⊢
  by_cases hv : v = d
  · simp only [Tbl.set, hv, if_true]
    exact ⟨Tbl.sorted_del m k h.1, fun e he => h.2 e (Tbl.mem_del he)⟩
  · simp only [Tbl.set, hv, if_false]
    refine ⟨Tbl.sorted_place _ k v (Tbl.del_lacks m k) (Tbl.sorted_del m k h.1), fun e he => ?_⟩
    rcases Tbl.mem_place he with rfl | he
    · exact hv
    · exact h.2 e (Tbl.mem_del he)

/-! ## Byte memories -/

theorem Memory.byte_setByte_same (m : List Host.Cell) (a : Nat) (b : Byte) : Memory.byte (Memory.setByte m a b) a = b :=
  Tbl.get_set_same m a b 0

theorem Memory.byte_setByte_other (m : List Host.Cell) {a c : Nat} (b : Byte) (h : c ≠ a) :
    Memory.byte (Memory.setByte m a b) c = Memory.byte m c := Tbl.get_set_other m b 0 0 h

theorem Memory.wf_setByte (m : List Host.Cell) (a : Nat) (b : Byte) (h : Memory.wf m = true) : Memory.wf (Memory.setByte m a b) = true :=
  Tbl.wf_set m a b 0 h

theorem Memory.wf_write (m : List Host.Cell) (a : Nat) (bs : List Byte) (h : Memory.wf m = true) : Memory.wf (Memory.write m a bs) = true := by
  induction bs generalizing m a with
  | nil => exact h
  | cons b t ih => exact ih _ _ (Memory.wf_setByte m a b h)

/-- A byte outside the run written. -/
theorem Memory.byte_write_other (m : List Host.Cell) (a c : Nat) (bs : List Byte) (h : c < a ∨ a + bs.length ≤ c) :
    Memory.byte (Memory.write m a bs) c = Memory.byte m c := by
  induction bs generalizing m a with
  | nil => rfl
  | cons b t ih =>
    simp only [List.length_cons] at h
    rw [Memory.write, ih _ _ (by omega), Memory.byte_setByte_other _ _ (by omega)]

/-- The bytes written are read back. -/
theorem Memory.read_write_same (m : List Host.Cell) (a : Nat) (bs : List Byte) : Memory.read (Memory.write m a bs) a bs.length = bs := by
  induction bs generalizing m a with
  | nil => rfl
  | cons b t ih =>
    simp only [List.length_cons, Memory.read, Memory.write, ih]
    rw [Memory.byte_write_other _ _ _ _ (by omega), Memory.byte_setByte_same]

/-! ## Registers -/

/-- The register written reads as the value, in its 80 bits. -/
@[simp] theorem State.rn_setReg_same (s : State) (a v : Nat) : (s.setReg a v).rn a = v % 2 ^ 80 := by
  simp [State.rn, State.reg, State.setReg]

/-- Another register reads as before. -/
theorem State.rn_setReg_other (s : State) {a b : Nat} (v : Nat) (h : b ≠ a) : (s.setReg a v).rn b = s.rn b := by
  simp [State.rn, State.reg, State.setReg, Tbl.get_set_other _ _ _ _ h]

/-- Another register keeps its fields. -/
theorem State.rf_setReg_other (s : State) {a b : Nat} (v lo len : Nat) (h : b ≠ a) : (s.setReg a v).rf b lo len = s.rf b lo len := by
  simp [State.rf, State.rn_setReg_other s v h]

end Sys2Proof.Machine
end

