-- ==== Sys2Proof/Laws/Run.lean ====
section
/-! SUPPORT. What each wrapper of a meaning does: the effect on a part that works, nothing but the outputs' clearing on one that does
not; and the registers that a run of words leaves alone. -/
namespace Sys2Proof.Machine
open Sys2Proof

@[simp] theorem State.quiet_regOpen (s : State) (who : Party) (a : Nat) : s.quiet.regOpen who a = s.regOpen who a := rfl
@[simp] theorem State.quiet_feat (s : State) (n : Nat) : s.quiet.feat n = s.feat n := rfl
@[simp] theorem State.quiet_pat (s : State) (t : Nat) : s.quiet.pat t = s.pat t := rfl
@[simp] theorem State.quiet_patAt (s : State) (t a : Nat) : s.quiet.patAt t a = s.patAt t a := rfl
@[simp] theorem State.quiet_pend (s : State) : s.quiet.pend = s.pend := rfl
@[simp] theorem State.quiet_actNs (s : State) : s.quiet.actNs = s.actNs := rfl
@[simp] theorem State.quiet_nowNs (s : State) : s.quiet.nowNs = s.nowNs := rfl
@[simp] theorem State.quiet_nowT80 (s : State) : s.quiet.nowT80 = s.nowT80 := rfl
@[simp] theorem State.quiet_disc (s : State) : s.quiet.disc = s.disc := rfl
@[simp] theorem State.quiet_measuring (s : State) : s.quiet.measuring = s.measuring := rfl
@[simp] theorem State.quiet_stopping (s : State) : s.quiet.stopping = s.stopping := rfl
@[simp] theorem State.quiet_standby (s : State) : s.quiet.standby = s.standby := rfl
@[simp] theorem State.quiet_role (s : State) (p : Nat) : s.quiet.role p = s.role p := rfl
@[simp] theorem State.quiet_isLead (s : State) (p : Nat) : s.quiet.isLead p = s.isLead p := rfl
@[simp] theorem State.quiet_pnlInst (s : State) (p : Nat) : s.quiet.pnlInst p = s.pnlInst p := rfl
@[simp] theorem State.quiet_epoch (s : State) : s.quiet.epoch = s.epoch := rfl
@[simp] theorem State.quiet_imgState (s : State) : s.quiet.imgState = s.imgState := rfl

/-- A command on the compute die while it works. -/
theorem live_on {f : State → State} {s : State} (h : s.alive = true) : live f s = .next (settle s (f s.quiet)) := by
  simp [live, done, h]

/-- A command on the compute die while it does not. -/
theorem live_off {f : State → State} {s : State} (h : s.alive = false) : live f s = .next (settle s s.quiet) := by
  simp [live, done, h]

/-- A command on a part that runs through WDT, SOFT and LINK resets, while it works. -/
theorem running_on {f : State → State} {s : State} (h : s.ticking = true) : running f s = .next (settle s (f s.quiet)) := by
  simp [running, done, h]

/-- A command of the cores or the dispatcher while they run. -/
theorem coring_on {f : State → State} {s : State} (h : s.coresRun = true) : coring f s = .next (settle s (f s.quiet)) := by
  simp only [State.coresRun, Bool.and_eq_true, decide_eq_true_eq] at h
  simp [coring, done, h.1, h.2]

/-- A check that finds nothing, by a checker with no injection armed, changes nothing. -/
theorem State.check_ok {s : State} {n info : Nat} (h : s.injects n = false) : s.check n info .ok = (.ok, s) := by
  unfold State.injects at h
  unfold State.check State.injected State.injectionUsed
  split at h <;> simp_all [errFound, errAgain]

/-- An access that no injection meets on the bridge. -/
theorem State.accessCrossing_ok {s : State} {a : Nat} (h : (bridged a && s.injects 4) = false) : s.accessCrossing a = s := by
  unfold State.accessCrossing State.crossing
  split
  · rename_i hb
    rw [hb, Bool.true_and] at h
    rw [State.check_ok h]
  · rfl

/-- A register write that has its effect at once. -/
theorem live_takes {who : Party} {a : Nat} {w : Word} {f : State → State} {s : State} (h : s.takes who a = true) :
    live (written who a w f) s = .next (settle s (f s.quiet)) := by
  simp only [State.takes, Bool.and_eq_true, Bool.not_eq_true', Bool.and_eq_false_iff, decide_eq_false_iff_not] at h
  obtain ⟨⟨⟨ha, ho⟩, hp⟩, hb⟩ := h
  have hc : s.quiet.accessCrossing a = s.quiet := State.accessCrossing_ok (by
    show (bridged a && s.injects 4) = false
    rcases hb with hb | hb <;> simp [hb])
  rw [live_on ha]
  simp only [written, State.quiet_regOpen, ho, Bool.not_true, Bool.false_eq_true, if_false, State.quiet_pwr, hc]
  rcases hp with hp | hp <;> simp [hp]

/-- A register outside a run of words written reads as before. -/
theorem State.rn_setWords_other (s : State) (b off : Nat) (ws : List Nat) (h : b < off ∨ off + 4 * ws.length ≤ b) :
    (s.setWords off ws).rn b = s.rn b := by
  induction ws generalizing s off with
  | nil => rfl
  | cons w t ih =>
    simp only [List.length_cons] at h
    rw [State.setWords, ih _ _ (by omega), State.rn_setReg_other _ _ (by omega)]

/-- A field of a register that reads as before. -/
theorem State.rf_congr {s t : State} {a : Nat} (h : t.rn a = s.rn a) (lo len : Nat) : t.rf a lo len = s.rf a lo len := by
  simp only [State.rf, h]

/-- A bit of a register that reads as before. -/
theorem State.bit_congr {s t : State} {a : Nat} (h : t.rn a = s.rn a) (i : Nat) : t.bit a i = s.bit a i := by
  simp only [State.bit, State.rf_congr h]

/-- A run of words written changes registers alone. -/
theorem State.setWords_eq (s : State) (off : Nat) (ws : List Nat) : s.setWords off ws = { s with regs := (s.setWords off ws).regs } := by
  induction ws generalizing s off with
  | nil => rfl
  | cons w t ih =>
    simp only [State.setWords]
    rw [ih]
    rfl

end Sys2Proof.Machine
end

