-- ==== Sys2Proof/Laws/Fledal.lean ====
section
/-! SUPPORT. What a request posted in the Fledal mailbox leaves alone, and that firmware or the boot ROM then answers it. -/
namespace Sys2Proof.Machine
open Sys2Proof

theorem toWords_length (b : List Byte) : (toWords b).length = (b.length + 3) / 4 := by simp [toWords]

/-- A request stands within FLDL_REQ: every register outside it reads as before. -/
theorem State.rn_fldlRequest (s : State) (cmd tag : Nat) (p : List Byte) {a : Nat} (h : a < 0x20000 ∨ 0x30000 ≤ a) :
    (s.fldlRequest cmd tag p).rn a = s.rn a := by
  apply State.rn_setWords_other
  simp only [List.length_cons, toWords_length, List.length_take, Reg.FLDL_REQ]
  omega

/-- A request in the buffer changes registers alone. -/
theorem State.fldlRequest_eq (s : State) (cmd tag : Nat) (p : List Byte) :
    s.fldlRequest cmd tag p = { s with regs := (s.fldlRequest cmd tag p).regs } := State.setWords_eq s _ _

/-- A core set shows in its own DISP_CORE register alone. -/
theorem State.rn_setCore (s : State) (k : Nat) (x : Core) {a : Nat} (h : a ≠ Reg.DISP_CORE k) : (s.setCore k x).rn a = s.rn a := by
  simp only [State.setCore, State.showCore]
  rw [State.rn_setReg_other _ _ h]
  rfl

/-- A posted request changes its buffer, FLDL_STATUS and the register of the mailbox's core alone. -/
theorem State.rn_posted (s : State) (cmd : Nat) (tag : BitVec 16) (p : List Byte) {a : Nat} (h : a < 0x20000 ∨ 0x30000 ≤ a)
    (hs : a ≠ Reg.FLDL_STATUS) (hc : a < 0x1401000) : (s.posted cmd tag p).rn a = s.rn a := by
  have e : (s.posted cmd tag p).rn a =
      (((s.fldlRequest cmd tag.toNat p).setF Reg.FLDL_STATUS 0 1 1).setCore
        (((s.fldlRequest cmd tag.toNat p).setF Reg.FLDL_STATUS 0 1 1).rf Reg.FLDL_CFG 0 3)
        { ((s.fldlRequest cmd tag.toNat p).setF Reg.FLDL_STATUS 0 1 1).core
            (((s.fldlRequest cmd tag.toNat p).setF Reg.FLDL_STATUS 0 1 1).rf Reg.FLDL_CFG 0 3) with msip := true }).rn a := rfl
  rw [e, State.rn_setCore _ _ _ (by simp only [Reg.DISP_CORE]; omega), State.setF, State.rn_setReg_other _ _ hs, State.rn_fldlRequest _ _ _ _ h]

/-- Another register's field, as before. -/
theorem State.rf_posted (s : State) (cmd : Nat) (tag : BitVec 16) (p : List Byte) {a : Nat} (lo len : Nat) (h : a < 0x20000 ∨ 0x30000 ≤ a)
    (hs : a ≠ Reg.FLDL_STATUS) (hc : a < 0x1401000) : (s.posted cmd tag p).rf a lo len = s.rf a lo len := by
  simp only [State.rf, State.rn_posted s cmd tag p h hs hc]

/-- A command that need not wait is answered at its doorbell. -/
theorem fldlPost_answers (s : State) (cmd : Nat) (i : Instr) (tag : BitVec 16) (p : List Byte)
    (hb : s.bit Reg.FLDL_STATUS 0 = false) (hw : (s.posted cmd tag p).fldlWaits i = false) :
    fldlPost cmd i tag p s = fldlAnswer i (s.posted cmd tag p) := by
  have e : (s.fldlRequest cmd tag.toNat p).bit Reg.FLDL_STATUS 0 = false := by
    exact (State.bit_congr (State.rn_fldlRequest s cmd tag.toNat p (by decide)) 0).trans hb
  have w : ∀ c, ({ s.posted cmd tag p with img := { (s.posted cmd tag p).img with heldCmd := c } } : State).fldlWaits i =
    (s.posted cmd tag p).fldlWaits i := fun _ => rfl
  simp only [fldlPost, fldlRing, e, Bool.false_eq_true, if_false]
  have a := w (some i)
  rw [hw] at a
  show State.answerHeld { s.posted cmd tag p with img := { (s.posted cmd tag p).img with heldCmd := some i } } = _
  simp only [State.answerHeld, a, Bool.false_eq_true, if_false]
  rfl

end Sys2Proof.Machine
end

