-- ==== Sys2Proof/WellFormed.lean ====
section
/-! DEFINITION. Commands whose operands the interface can carry: lengths and ranges that the operand types leave open. -/
namespace Sys2Proof

/-- A Fledal payload fits the 17-bit LEN field (R462). -/
def payloadWf (p : List Byte) : Bool := decide (p.length < 2 ^ 17)

/-- A firing names a node of a tile (R176). -/
def firingWf (f : Firing) : Bool := decide (f.node < 1024)

/-- The operands of a command are in range. -/
def Instr.wf : Instr → Bool
  | .registerWrite _ _ _ _ => true
  | .hello _ p | .features _ p | .negotiate _ p | .imageStage _ p | .imageCommit _ p | .imageStatus _ p | .bye _ p | .timeOfDay _ p
  | .fwStage _ p | .fwBoot _ p => payloadWf p
  -- an image is at most 128 MiB (R26)
  | .autonomousLoad image => decide (image.length ≤ 2 ^ 27)
  -- a ring holds at most 65,536 descriptors (R108)
  | .hostRingWrite _ bufs => decide (bufs.length ≤ 2 ^ 16)
  | .mul _ f | .macc _ f | .msub _ f | .cmac _ f | .extr _ f | .clr _ f | .accadd _ f | .add _ f | .sub _ f | .neg _ f | .abs _ f
  | .min _ f | .max _ f | .cmplt _ f | .cmpge _ f | .and _ f | .or _ f | .xor _ f | .shl _ f | .shra _ f | .sel _ f | .movi _ f
  | .rot _ f | .vec _ f | .sincos _ f | .atan2 _ f | .div _ f | .recip _ f | .sqrt _ f | .rsqrt _ f | .ld40 _ f | .ld64 _ f
  | .st40 _ f | .st64 _ f | .ldx40 _ f | .stx40 _ f | .sendLocal _ f | .sendRing _ f | .sendCnt _ f | .sendAlarm _ f | .sendDone _ f
  | .sendBlock _ f | .nop _ f | .loopTok _ f | .endSeq _ f | .trap _ f => firingWf f
  -- eight phasors, FREQ and ROCOF of a bay; sixteen phasors, FREQ, ROCOF and two magnitudes
  | .bayCycleEnd _ m => decide (m.vals.length = 18)
  | .localPmuItem m _ => decide (m.vals.length = 36)
  -- four levels in each of the 4 × R modulator clocks of an output sample (R292)
  | .stnOutputSample mdat _ => decide (mdat.length ≤ 6944)
  -- a PSDU is 9 to 2,047 octets (R378)
  | .radioFrameReceive rx _ _ => decide (rx.psdu.length ≤ 2047)
  -- a PCI Express request moves 1 to 4,096 bytes within BAR2 (R453, R455)
  | .bar2Read off len _ => decide (1 ≤ len.toNat) && decide (len.toNat ≤ 4096) && decide (off.toNat + len.toNat ≤ 2 ^ 32)
  | .bar2Write off data _ => decide (1 ≤ data.length) && decide (data.length ≤ 4096) && decide (off.toNat + data.length ≤ 2 ^ 32)
  -- LEN of HQ_QSPI_CTRL is 0 to 256 (R472)
  | .qspiDone data => decide (data.length ≤ 256)
  | _ => true

end Sys2Proof
end

