-- ==== Sys2Proof/Tests/Slice0.lean ====
section
/-! SUPPORT. Tests: ill-formed commands are refused by WellFormed; small one-step checks whose expected values stand in the rules; and for
every statement with hypotheses a witness wit_<Name> that concrete states and operands meet them, clause by clause. -/
namespace Sys2Proof.Tests
open Sys2Proof Sys2Proof.Machine
set_option Elab.async false

/-! ## States -/

/-- The device up after its reset sequence, in RUN. -/
def up : State := { State.reset with pwr := { State.reset.pwr with seq := none } }

/-- Registers given values. -/
def wr (s : State) (l : List (Nat × Nat)) : State := l.foldl (fun s p => s.setReg p.1 p.2) s

/-- A body of `n` words, those of `l` as given and the others zero. -/
def body (n : Nat) (l : Tbl Nat) : List Byte := (List.range n).flatMap fun i => leBytes 4 (Tbl.get l i 0)

/-- A body in force. -/
def pat (s : State) (t n : Nat) (l : Tbl Nat) : State := { s with img := { s.img with bodies := Tbl.set s.img.bodies t (body n l) [] } }

/-- An image in force (LOADED) with every offered feature accepted. -/
def on : State :=
  let s := wr up [(Reg.FEAT_IMG_STATE, 2), (Reg.FEAT_ACC 0, 0x03FF1FFF), (Reg.FEAT_ACC 1, 0x0F3F001F), (Reg.FEAT_ACC 2, 0x03010707)]
  { s with img := { s.img with inForce := true }, time := { s.time with everLoaded := true } }

/-- Firmware runs and the mailbox is free; with a session; and the boot ROM in recovery. -/
def fw : State := wr up [(Reg.DISP_BOOT, 6)]
def ses : State := wr fw [(Reg.FLDL_STATUS, 4)]
def rec : State := wr up [(Reg.DISP_BOOT, 4)]
def park (s : State) : State := { s with pwr := { s.pwr with state := .park } }
def tk (s : State) (n : Nat) : State := { s with time := { s.time with ticks := n } }

/-! ## Ill-formed commands -/

/-- A check of a length refuses a list one too long and takes the longest. -/
theorem test_wf_lengths (n : Nat) (b : Byte) (d : BitVec 64) :
    (Instr.imageStage 0 (List.replicate n b)).wf = decide (n < 131072) ∧
    (Instr.autonomousLoad (List.replicate n b)).wf = decide (n ≤ 134217728) ∧
    (Instr.hostRingWrite 0 (List.replicate n d)).wf = decide (n ≤ 65536) ∧ (Instr.qspiDone (List.replicate n b)).wf = decide (n ≤ 256) := by
  refine ⟨?_, ?_, ?_, ?_⟩ <;> simp only [Instr.wf, payloadWf, List.length_replicate] <;> rfl
theorem test_wf_radio (n : Nat) : (Instr.radioFrameReceive ⟨List.replicate n 0, false, false, 0, 0, 0⟩ .ok []).wf = decide (n ≤ 2047) := by simp only [Instr.wf, List.length_replicate]
theorem test_wf_firing : (Instr.mul 0 ⟨1024, 0, 0, .ok, .ok, .ok⟩).wf = false ∧ (Instr.trap 0 ⟨1023, 0, 0, .ok, .ok, .ok⟩).wf = true := by decide
theorem test_wf_bay : (Instr.bayCycleEnd 0 ⟨List.replicate 17 0⟩).wf = false := by decide
theorem test_wf_local : (Instr.localPmuItem ⟨List.replicate 37 0⟩ .ok).wf = false := by decide
theorem test_wf_sample (n : Nat) : (Instr.stnOutputSample (List.replicate n 0) []).wf = decide (n ≤ 6944) := by
  simp only [Instr.wf, List.length_replicate]
theorem test_wf_bar2 : (Instr.bar2Read 0xFFFFFFFF 2 .ok).wf = false ∧ (Instr.bar2Read 0 0 .ok).wf = false ∧
    (Instr.bar2Write 0 [] .ok).wf = false := by decide


/-! ## Witnesses: steps, registers, windows -/

theorem wit_StepIdles : State.reset.pending = [] := rfl
theorem wit_PbaSoundKept : State.reset.pbaSound ∧ ∃ t, step { State.reset with pending := [.timeTick] } = .next t :=
  ⟨fun v _ h => by simp [State.reset] at h, _, rfl⟩
theorem wit_RegisterAccessForms : up.alive = true ∧ up.regOpen .host 0x3FFFFFC = false ∧ served 6 .b4 = false ∧
    pairWord Reg.TIME_SVO_OFS = some 0 ∧ pairWord (Reg.TIME_SVO_OFS + 4) = some 1 ∧ pairWord Reg.TIME_SRC = none := by decide +kernel
theorem wit_PairRead : up.alive = true ∧ up.regOpen .host Reg.TIME_SVO_OFS = true ∧ up.regOpen .host (Reg.TIME_SVO_OFS + 4) = true ∧
    ((rowOf Reg.TIME_SVO_OFS).any fun x => x.1.pair && x.2 = 0) = true ∧
    ((rowOf (Reg.TIME_SVO_OFS + 4)).any fun x => x.1.pair && x.2 = 1) = true ∧ Reg.TIME_SVO_OFS ≠ Reg.KEY_BAT_TICKS := by decide +kernel
theorem wit_PairWrite : up.takes .host Reg.TIME_SVO_OFS = true ∧ up.takes .host (Reg.TIME_SVO_OFS + 4) = true ∧
    Party.core 0 ≠ Party.host := by decide +kernel
theorem wit_RouteWrite : up.takes .host (Reg.FLT_EVT_ROUTE 0) = true ∧ up.takes (.core 7) (Reg.FLT_EVT_ROUTE 127) = true := by decide +kernel
theorem wit_WritesGated : up.regOpen .host 0x3FFFFFC = false ∧ (decide ((park on).pwr.state = .park) && parkGated 0x400000) = true ∧
    on.regOpen .host 0x1000000 = true ∧ bridged 0x1000000 = true ∧ (decide (on.pwr.state = .park) && parkGated 0x1000000) = false ∧
    on.regOpen .host (Reg.FLT_EVT_ROUTE 0) = true ∧ bridged (Reg.FLT_EVT_ROUTE 0) = false := by decide +kernel
theorem wit_ParkHoldsWrites : (park on).alive = true ∧ (park on).regOpen .host 0x400000 = true ∧ (park on).pwr.state = .park ∧
    parkGated 0x400000 = true := by decide +kernel

/-- One window, number 1 of 4,096, of register index 5. -/
def win (desc : Nat) : State :=
  wr { on with img := { on.img with winOf := [(5, 2)] } } [(Reg.FAB_PWIN_MIN 1, 0), (Reg.FAB_PWIN_MAX 1, 7), (Reg.FAB_PWIN_VAL 1, 7), (Reg.FAB_PWIN_DESC 1, desc)]

theorem wit_WindowCommit : (win 0x20).takes .host (Reg.FAB_PWIN_VAL 1 + 4) = true ∧
    ((win 0x20).loHeld .host (Reg.FAB_PWIN_VAL 1)).getD ((win 0x20).rn (Reg.FAB_PWIN_VAL 1) % 2 ^ 32) = 7 ∧
    sInt 40 ((win 0x20).rn (Reg.FAB_PWIN_MAX 1)) = 7 ∧ ((win 0x20).rn (Reg.FAB_PWIN_DESC 1)).testBit 5 = true ∧
    ((win 0x44).rn (Reg.FAB_PWIN_DESC 1)).testBit 5 = false := by decide +kernel

/-! ## Witnesses: Fledal and image loads -/

/-- A payload whose first word is `w`, of `n` octets. -/
def pay (n w : Nat) : List Byte := (leBytes 4 w ++ List.replicate (n - 4) 0).take n

theorem wit_FledalSession : fw.mailboxFree = true ∧ ses.mailboxFree = true ∧ (∀ b : Byte, (List.replicate 65528 b).length ≤ 65528) ∧
    word (pay 4 0x100) 0 / 256 % 256 = 1 ∧ word (pay 4 0x200) 0 / 256 % 256 ≠ 1 ∧ (pay 3 0).length < 4 ∧ ses.session = true ∧ fw.session = false ∧
    ses.imgState = 0 ∧ (wr ses [(Reg.FEAT_IMG_STATE, 3)]).imgState = 3 ∧ (wr ses [(Reg.FEAT_IMG_STATE, 2)]).imgState = 2 ∧
    ses.feat 34 = false ∧ (wr ses [(Reg.FEAT_ACC 1, 4)]).feat 34 = true ∧ (wr ses [(Reg.FEAT_ACC 1, 4)]).session = true := by
  refine ⟨?_, ?_, fun b => Nat.le_of_eq List.length_replicate, ?_⟩ <;> decide +kernel
theorem wit_FledalStaging : ses.img.load = none ∧ (pay 20 0).length = 20 ∧
    word (pay 20 134217712) 0 = (wr ses [(Reg.FLDL_STAGED, 134217712)]).rn Reg.FLDL_STAGED ∧ 134217712 + 16 = 2 ^ 27 ∧
    (wr ses [(Reg.FLDL_STAGED, 134217712)]).mailboxFree = true ∧ word (pay 20 16) 0 ≠ ses.rn Reg.FLDL_STAGED ∧ word (pay 20 16) 0 ≠ 0 ∧
    rec.mailboxRecovery = true ∧ word (pay 20 0) 0 = rec.fldl.fwStaged ∧ ses.img.unload = false ∧ 12 ≤ (pay 12 0).length ∧
    ses.takes (.core 0) Reg.FLDL_RESP = true ∧ (wr ses [(Reg.FLDL_STATUS, 5)]).takes (.core 0) Reg.FLDL_RESP = true ∧
    (wr ses [(Reg.FLDL_STATUS, 5)]).bit Reg.FLDL_STATUS 0 = true := by decide +kernel
theorem wit_DoorbellWhileBusy : (wr ses [(Reg.FLDL_STATUS, 5)]).alive = true ∧ (wr ses [(Reg.FLDL_STATUS, 5)]).bit Reg.FLDL_STATUS 0 = true := by
  decide +kernel
theorem wit_FirmwareBoot : rec.mailboxRecovery = true ∧ (pay 0 0).length ≤ 65528 := by decide +kernel

/-- A load whose checks run, of 16 staged bytes of zeros; one that passed; and a partial image pending with A at 0. -/
def ld (passed : Bool) : State := { ses with img := { ses.img with load := some { before := .none, staged := 16, passed := passed } } }
def pend (s : State) (act : Nat) : State := wr s [(Reg.FEAT_IMG_STATE, 0x10002), (Reg.FEAT_IMG_ACT, act), (Reg.FEAT_IMG_PEND, 0x800)]

theorem wit_ImageLoadEnds : fw.coresRun = true ∧ fw.imgState = 0 ∧ fw.img.hello = false ∧ fw.rf Reg.DISP_BOOT 0 4 = 6 ∧
    word (body 4 [(3, 0x20000)]) 3 / 2 ^ 17 % 2 = 1 ∧ (ld false).coresRun = true ∧
    ((ld false).img.load.any fun l => l.passed = false && ((ld false).quiet.checkImage l).1 = 1) = true ∧
    ((ld true).img.load.any fun l => l.passed) = true ∧ (ld true).enginesIdle = true ∧
    (pend on 0).pend = true ∧ (pend on 0).img.activated = false ∧ (pend on 0).actNs ≤ (pend on 0).nowNs ∧
    (∀ t ∈ [4, 5, 12, 15, 16], (pend on 0).replaces t = false) ∧ (pend on 1).nowNs < (pend on 1).actNs ∧ fw.pend = false := by decide +kernel

/-- A staged image of 8,192 bytes with sound first words, and a load of it. -/
def staged (ver feat : Nat) : State := ses.ddrWrite 0 (body 20 [(0, 0x46494E57), (1, 0x00800001), (2, 4800), (4, ver), (10, feat)])
def stagedLoad : Load := { before := .none, staged := 4800 }

theorem wit_ImageChecksInOrder : word ((staged 1 0).stagedImage stagedLoad) 0 = 0x46494E57 ∧ word ((staged 1 0).stagedImage stagedLoad) 1 = 0x00800001 ∧
    word ((staged 1 0).stagedImage stagedLoad) 2 ≤ 4800 ∧ (staged 1 0).lc ≠ 4 ∧
    (wr (staged 1 0) [(Reg.KEY_STATUS, 4)]).lc = 4 ∧ word (up.stagedImage stagedLoad) 0 ≠ 0x46494E57 := by decide +kernel


/-! ## Witnesses: time -/

/-- The counter at `ns` nanoseconds of second 0, less one in 2^32 of it where `less`. -/
def at_ (ns frac : Nat) : State := { up with time := { up.time with ns := BitVec.ofNat 32 ns, frac := BitVec.ofNat 32 frac } }
/-- Discipline state `d`, the source 7 of type 1, offset `ofs`. -/
def disc (d ofs thr : Nat) : State :=
  wr on [(Reg.TIME_STATE, d), (Reg.TIME_SRC, 65543), (Reg.TIME_SVO_OFS, ofs), (Reg.TIME_JUMP_THR, thr)]

theorem wit_TickAdvancesCounter : up.ticking = true ∧ up.time.ns.toNat < 1000000000 ∧ up.incRun < 2 ^ 40 ∧ up.time.samples = [] ∧
    (at_ 999999995 0xFFFFFFFF).time.ns.toNat * 2 ^ 32 + (at_ 999999995 0xFFFFFFFF).time.frac.toNat + (at_ 0 0).incRun + 1 = 1000000000 * 2 ^ 32 ∧
    (at_ 999999996 0).time.ns.toNat * 2 ^ 32 + (at_ 999999996 0).incRun = 1000000000 * 2 ^ 32 := by decide +kernel
/-- A tick at 999,999,996 ns carries into the seconds (R52). -/
theorem test_tick_carry : (timeTick (at_ 999999996 5)).time.sec = 1 ∧ (timeTick (at_ 999999996 5)).time.ns = 0 ∧
    (timeTick (at_ 999999996 5)).time.frac = 5 := by decide +kernel

/-- A slew of `n` ticks at 5 ns per tick. -/
def slew (n : Nat) : State := wr { up with time := { up.time with slewInc := some 0x500000000 } } [(Reg.TIME_SLEW_TICKS, n)]

theorem wit_TickRates : (slew 1).slewing = true ∧ (slew 0).slewing = false ∧ up.ticking = true ∧ up.time.samples = [] ∧
    up.thru Reg.TIME_MANG_STATE = 0 ∧ (up.setThru Reg.TIME_MANG_STATE 2).thru Reg.TIME_MANG_STATE ≠ 0 ∧
    ({ up with pwr := { up.pwr with seq := some .pin } } : State).pwr.state ≠ .hold ∧
    ({ up with pwr := { up.pwr with state := .hold } } : State).pwr.state = .hold ∧ State.reset.pwr.seq = some .por := by decide +kernel

theorem wit_ServoSamples : (disc 0 0 5).takes .host Reg.TIME_SVO_POST = true ∧ (disc 0 0 5).time.everLoaded = true ∧ up.time.everLoaded = false ∧
    on.time.samples = [] ∧ ({ on with time := { on.time with samples := [⟨7, 1, true, 0⟩] } } : State).time.samples = [⟨7, 1, true, 0⟩] ∧
    ((disc stLocked 5 5).takeSample ⟨7, 1, false, 5⟩).rn Reg.TIME_STEP_CNT = (disc stLocked 5 5).rn Reg.TIME_STEP_CNT ∧
    ((disc 0 0 5).takeSample ⟨7, 1, true, 0⟩).rn Reg.TIME_STEP_CNT ≠ (disc 0 0 5).rn Reg.TIME_STEP_CNT ∧
    (disc 0 0 5).rn Reg.TIME_SRC = 7 + 2 ^ 16 * 1 ∧ (disc 0 0 5).rn Reg.TIME_SRC ≠ 7 + 2 ^ 16 * 2 ∧
    (disc 0 0 5).disc = stUnset ∧ (disc 1 0 5).disc = stArmed ∧
    (disc stLocked 5 5).disc = stLocked ∧ (sInt 64 5).natAbs ≤ (disc stLocked 5 5).rn Reg.TIME_JUMP_THR ∧
    (disc stHoldover 5 5).disc = stHoldover ∧ (disc stHoldover 5 5).rf Reg.TIME_STATE 4 3 ≠ 2 ∧
    (disc (stHoldover + 32) 5 5).disc = stHoldover ∧ (disc (stHoldover + 32) 5 5).rf Reg.TIME_STATE 4 3 = 2 ∧
    (disc stLocked 6 5).rn Reg.TIME_JUMP_THR < (sInt 64 (2 ^ 64 - 6)).natAbs ∧
    (disc stRefused 0 5).disc = stRefused := by decide +kernel
/-- A stepping sample of offset 1,000 ns taken in UNSET at 2,000 ns locks, and the counter reads 1,000 ns (R56, R58). -/
theorem test_step_locks :
    let s := { disc 0 1000 5 with time := { on.time with ns := 2000 } }
    let t := s.takeSample ⟨7, 1, true, 1000⟩
    t.disc = stLocked ∧ t.time.ns = 1000 ∧ t.epoch = 1 ∧ t.rn Reg.TIME_STEP_CNT = 1 := by decide +kernel

theorem wit_RateWrites : (disc stLocked 0 0).takes .host (Reg.TIME_INC + 4) = true ∧ (disc stLocked 0 0).disc ≠ stRefused ∧
    (disc stRefused 0 0).disc = stRefused ∧ (disc stLocked 0 0).takes .host Reg.TIME_SLEW_TICKS = true ∧ up.ticking = true ∧
    0xFF7CED91 + 3 * 2 ^ 32 = 0x03FF7CED91 ∧ 0x0083126F + 4 * 2 ^ 32 = 0x040083126F ∧ up.rn Reg.TIME_INC % 2 ^ 32 + 3 * 2 ^ 32 < 0x03FF7CED91 ∧
    0x040083126F < up.rn Reg.TIME_INC % 2 ^ 32 + 5 * 2 ^ 32 ∧ (slew 0).time.slewInc.isSome = true ∧ (slew 0).rn Reg.TIME_SLEW_TICKS = 0 ∧
    (slew 1).rn Reg.TIME_SLEW_TICKS ≠ 0 ∧ (1 : Word) ≠ 0 := by decide +kernel

/-- A verified TIME_REARM at tick 0, `n` ticks ago, in state `d`. -/
def armed (d n : Nat) : State := tk { disc d 0 0 with key := { on.key with rearmAt := some 0 } } n

theorem wit_RearmOnce : (armed stLocked 249999999).takes .host Reg.TIME_CTRL = true ∧ (1 : Word).getLsbD 0 = true ∧
    (armed stLocked 249999999).key.rearmAt = some 0 ∧ (armed stLocked 249999999).time.ticks < 0 + 250000000 ∧
    (armed stLocked 249999999).disc = stLocked ∧ (armed stHoldover 0).disc = stHoldover ∧ (armed stRefused 0).disc = stRefused ∧
    on.key.rearmAt = none ∧ 0 + 250000000 ≤ (armed stLocked 250000000).time.ticks ∧ (armed stUnset 0).disc = stUnset ∧
    (armed stArmed 0).disc = stArmed := by decide +kernel

theorem wit_DisciplineEvents : ({ disc stLocked 0 0 with time := { on.time with srcNew := true } } : State).time.srcNew = true ∧
    ({ disc stHoldover 0 0 with time := { on.time with srcNew := true } } : State).disc = stHoldover ∧ on.time.srcNew = false ∧ on.disc ≠ stLocked ∧
    on.disc ≠ stHoldover ∧ (disc stLocked 0 0).time.everLoaded = true ∧ (disc stLocked 0 0).takes .host Reg.TIME_SRC = true ∧ (disc stLocked 0 0).rn Reg.TIME_SRC ≠ 7 ∧
    (disc stLocked 0 0).rn Reg.TIME_SRC = 65543 ∧ (disc stHoldover 0 0).disc = stHoldover ∧ (disc stLocked 0 0).ticking = true ∧
    250000 * (disc stLocked 0 0).rn Reg.TIME_HOLD_TMO ≤ (disc stLocked 0 0).time.sinceAccept ∧
    (disc stLocked 0 0).time.sinceAccept < (wr (disc stLocked 0 0) [(Reg.TIME_HOLD_TMO, 1)]).rn Reg.TIME_HOLD_TMO * 250000 ∧
    on.rn Reg.TIME_ERR_LIMIT < on.rn Reg.TIME_EST_ERR ∧ ({ on with time := { on.time with errAbove := false } } : State).time.errAbove = false ∧
    (wr on [(Reg.TIME_EST_ERR, 1000)]).rn Reg.TIME_EST_ERR ≤ on.rn Reg.TIME_ERR_LIMIT ∧ on.time.errAbove = true := by decide +kernel

/-- The last PPS edge at tick 0, `n` ticks ago. -/
def pps (n : Nat) : State := tk { on with time := { on.time with ppsAt := some 0 } } n

theorem wit_UtcAndPps : on.takes .host Reg.TIME_UTCOFS = true ∧ (0x30000 : Word).getLsbD 16 = true ∧ (0x30000 : Word).getLsbD 17 = true ∧
    (0x10025 : Word).getLsbD 17 = false ∧ (wr on [(Reg.TIME_UTCOFS, 0x10000)]).bit Reg.TIME_UTCOFS 16 = true ∧
    (wr on [(Reg.TIME_UTCOFS, 0x20000)]).bit Reg.TIME_UTCOFS 17 = true ∧ on.time.leapDay ≤ on.utcDay ∧ on.feat 34 = true ∧
    on.img.inForce = true ∧ on.ticking = true ∧ true = !(wf (on.pat 3) 0 4 1 = 1) ∧ on.time.ppsAt = none ∧
    (pps 125000000).time.ppsAt = some 0 ∧ 0 + 125000000 ≤ (pps 125000000).time.ticks ∧ up.feat 34 = false ∧
    (pps 275000000).time.ppsMissed = false ∧ 0 + 275000000 ≤ (pps 275000000).time.ticks := by decide +kernel

/-- One transmit timestamp waiting, latched for the host. -/
def txts : State :=
  let e : TxTs := { port := 3, msgType := 1, seqId := 65535, epoch := 3, time := 2 ^ 79 }
  { up with time := { up.time with txts := [e], txtsLatch := Tbl.set [] Party.host.num (some e) none } }

theorem wit_LatchedTimeReads : up.alive = true ∧ up.time.txts = [] ∧ txts.time.txts ≠ [] ∧ txts.alive = true ∧
    (Tbl.get txts.time.txtsLatch Party.host.num none).isSome = true ∧ Tbl.get up.time.txtsLatch Party.host.num none = none ∧ up.ticking = true ∧
    (∀ k ∈ [0, 1, 2, 3], (up.setThru Reg.TIME_MANG_STATE k).thru Reg.TIME_MANG_STATE = k) ∧
    up.injects 4 = false ∧ on.mangInRange 3689348814741 0 = true ∧ on.mangInRange 0 0 = false := by decide +kernel

/-- Tack 63, due at 0 on the UTC counter, enabled and pending. -/
def tack : State := wr { on with time := { on.time with tacks := [(63, { live := true })], ticks := 1 } } [(Reg.TACK_ENTRY 63 0, 1)]
/-- The transmit timestamp FIFO with a stale time, unread for `n` ticks. -/
def stale (n : Nat) : State := pat (tk { on with time := txts.time } n) 3 3 [(2, 65536)]

theorem wit_TacksAndStaleTails : on.takes .host (Reg.TACK_ENTRY 63 0) = true ∧ on.feat 36 = true ∧ tackShort [5, 0, 0, 0, 0, 1000, 0] = false ∧
    tackShort [5, 0, 0, 0, 0, 999, 0] = true ∧ tack.ticking = true ∧ (tack.tack 63).live = true ∧
    tack.bit (Reg.TACK_ENTRY 63 0) 0 = true ∧ (tack.tackPast 63).isSome = true ∧ tack.tackDue 63 ≠ none ∧ (on.tack 0).live = false ∧ on.tackDue 0 = none ∧
    (Tbl.get on.time.tpo 7 (0, false)).1 ≤ on.time.ticks ∧
    on.time.ticks < (Tbl.get ({ on with time := { on.time with tpo := [(7, (1, true))] } } : State).time.tpo 7 (0, false)).1 ∧
    on.alive = true ∧ (on.fifoView .txts).2.1 = true ∧ ((stale 250).fifoView .txts).2.1 = false ∧ ((stale 250).fifoView .txts).2.2 ≠ 0 ∧
    (stale 250).staleDue ((stale 250).fifoView .txts).1 ((stale 250).fifoView .txts).2.2 = true ∧
    (stale 249).staleDue ((stale 249).fifoView .txts).1 ((stale 249).fifoView .txts).2.2 = false := by decide +kernel


/-! ## Witnesses: Ethernet -/

/-- A frame of `n` octets with the FCS: zero addresses, an EtherType, `l`, and padding. -/
def fr (n ety : Nat) (l : List Byte) : RxFrame :=
  { octets := (List.replicate 12 0 ++ beBytes 2 ety ++ l ++ List.replicate (n - 14 - l.length) 0).take n, phyErr := false, fcsErr := false, skew := 0 }
/-- An IPv4 packet with an empty UDP datagram. -/
def udp : List Byte := [0x45, 0, 0, 28, 0, 0, 0, 0, 0x40, 17, 0x7A, 0xD2, 0, 0, 0, 0, 0, 0, 0, 0, 0, 0, 0, 0, 0, 8, 0, 0]
/-- Ports enabled and up, at most 1,522 octets, with one rule of word 0 `w`; none where `w` is 0. -/
def eth (w w0 : Nat) : State :=
  pat (pat ((List.range 4).foldl (fun s p => s.setThru (Reg.ETH_PORT_STATUS p) 1) on) 2 40 [(0, 15 + w0), (1, 1522), (2, 1), (3, if w = 0 then 0 else 65536), (7, 1), (32, w)])
    3 4 [(0, 0xF00)]
def cls (s : State) (x : RxFrame) : RxClass :=
  let f := x.octets.take (x.octets.length - 4)
  s.classify 0 f (parse f)

theorem wit_FrameReception : (eth 0 0).alive = true ∧ on.rxOpen 0 = false ∧ (eth 0 0).rxOpen 0 = true ∧
    (eth 0 0).addrOk 0 (fr 64 0 []).octets = true ∧ (eth 0 0).addrOk 0 [2, 0, 0, 0, 0, 0] = false ∧
    cls (eth 0 0) (fr 64 0x8808 []) = .macControl ∧ cls (eth 0x2F 0) (fr 64 0x800 []) = .drop ∧ cls (eth 0 0) (fr 64 0x88F7 []) = .time ∧
    ((eth 0 0).rxCond (fr 63 0x88F7 [])).clean = false ∧ ((eth 0 0).rxCond (fr 512 0x88F7 [])).clean = true ∧
    ((eth 0 0).rxCond (fr 513 0x88F7 [])).clean = true ∧ ((eth 0 0).ptpPass []).1 = true ∧
    cls (eth 0xF 0) (fr 64 0x800 udp) = .measurement 0 0 ∧ (eth 0xF 0).pwr.state = .run ∧ (eth 0xF 0).stopping = false ∧
    (eth 0xF 0).prpOn 0 = false ∧ ((parse ((fr 64 0x800 udp).octets.take 60)).frag || (parse ((fr 64 0x800 udp).octets.take 60)).ipErr ||
      (parse ((fr 64 0x800 udp).octets.take 60)).l4Err) = false ∧
    cls (eth 0x1DF 0) (fr 64 0x800 udp) = .host 7 0 ∧ cls (eth 0 0x10000) (fr 64 0 []) = .unmatched ∧ wf ((eth 0 0x10000).pat 2) 0 16 1 = 1 ∧
    wf ((eth 0 0).pat 2) 0 16 1 ≠ 1 := by decide +kernel
/-- The address, size, FCS and class rules count a frame once (R89 to R91, R97). -/
theorem test_receive_counts :
    (frameReceive 0 (fr 63 0 []) (eth 0 0)).rn (Reg.ETH_RX_RUNT 0) = 1 ∧ (frameReceive 0 (fr 63 0 []) (eth 0 0)).rn (Reg.ETH_RX_FRAMES 0) = 0 ∧
    (frameReceive 0 (fr 64 0 []) (eth 0 0)).rn (Reg.ETH_RX_OCTETS 0) = 64 ∧ (frameReceive 0 (fr 64 0 []) (eth 0 0)).rn (Reg.ETH_RX_DROP 0) = 1 := by
  decide +kernel

theorem wit_MeasurementQueueBound (b : Byte) : (List.replicate 4194304 b).length ≤ 4194304 := Nat.le_of_eq List.length_replicate
theorem wit_PrpSecondCopyDiscarded : ((on.prpJudge 0 (List.replicate 6 0) 5).1 = true) ∧
    let s := (on.prpJudge 0 (List.replicate 6 0) 63).2
    (∀ w, w < 4 → (s.node 0 (prpSet (List.replicate 6 0)) w).used = true → (s.node 0 (prpSet (List.replicate 6 0)) w).mac = leNat (List.replicate 6 (0 : Byte)) →
      -64 < sInt 16 (65536 + 0 - (s.node 0 (prpSet (List.replicate 6 0)) w).high)) ∧
    (s.prpJudge 0 (List.replicate 6 0) 0).1 = true := by decide +kernel

/-- A frame of `ety` in queue 4 of port 0; and pair 0 in PRP with port 0 silent for twice PRP_LIFECHK of 1 ms. -/
def txq (ety : Nat) : State :=
  { eth 0 0 with eth := { (eth 0 0).eth with txq := [(0, [{ queue := 4, octets := (fr 60 ety [3]).octets }])] } }
def prp (n : Nat) : State := tk { eth 0 0x400 with eth := { (eth 0 0x400).eth with lastRct := [(1, 1)] } } n

theorem wit_TransmissionAndPrp : (txq 0x88F7).thruBit (Reg.ETH_PORT_STATUS 0) 0 = true ∧
    (pickTx 0 (Tbl.get ((txq 0x88F7).queueGiven 0 []).eth.txq 0 [])).isSome = true ∧ (pickTx 0 (Tbl.get (on.queueGiven 0 []).eth.txq 0 [])) = none ∧
    (ptpEvent (fr 60 0x88F7 [3]).octets).isSome = true ∧ ptpEvent (fr 60 0 []).octets = none ∧ wf ((txq 0x88F7).pat 3) 0 3 1 ≠ 1 ∧
    (parse (fr 60 0 []).octets).etype ≠ 0x88F7 ∧ on.thruBit (Reg.ETH_PORT_STATUS 0) 0 = false ∧ (prp 500000).prpOn 0 = true ∧
    Tbl.get (prp 250000).eth.supAt 0 0 + (prp 250000).lifechk = (prp 250000).time.ticks ∧ on.prpOn 0 = false ∧ (prp 0).ticking = true ∧
    (prp 500000).bit (Reg.ETH_PRP_STATUS 0) 0 = false ∧ Tbl.get (prp 500000).eth.lastRct 0 0 + 2 * (prp 500000).lifechk = (prp 500000).time.ticks ∧
    (prp 500000).time.ticks < Tbl.get (prp 500000).eth.lastRct 1 0 + 2 * (prp 500000).lifechk ∧
    (wr (prp 500000) [(Reg.ETH_PRP_STATUS 0, 1)]).bit (Reg.ETH_PRP_STATUS 0) 0 = true := by decide +kernel

/-- Port 0 may use low-power idle, enabled, with the status given. -/
def lpi (st : Nat) : State := wr ((eth 0 0x100000).setThru (Reg.ETH_PORT_STATUS 0) st) [(Reg.ETH_LPI_CTRL 0, 1), (Reg.ETH_LPI_IDLE 0, 1)]

theorem wit_PortsAndLinks : (lpi 0).ticking = true ∧ (lpi 0).img.inForce = true ∧ (lpi 0).portEn 0 = true ∧ (lpi 0).thruBit (Reg.ETH_PORT_STATUS 0) 0 = false ∧
    up.portEn 0 = false ∧ (lpi 1).thruBit (Reg.ETH_PORT_STATUS 0) 0 = true ∧ (lpi 1).lpiOk 0 = true ∧ (lpi 1).bit (Reg.ETH_LPI_CTRL 0) 0 = true ∧
    (lpi 1).thruBit (Reg.ETH_PORT_STATUS 0) 1 = false ∧ Tbl.get (lpi 1).eth.txq 0 [] = [] ∧
    Tbl.get (tk (lpi 1) 250).eth.idleSince 0 0 + (lpi 1).rn (Reg.ETH_LPI_IDLE 0) * 250 = (tk (lpi 1) 250).time.ticks ∧ up.lpiOk 0 = false ∧
    (lpi 3).thruBit (Reg.ETH_PORT_STATUS 0) 1 = true ∧ (lpi 1).thruBit (Reg.ETH_PORT_STATUS 0) 2 = false ∧ (lpi 5).thruBit (Reg.ETH_PORT_STATUS 0) 2 = true ∧
    (lpi 5).lpiOk 0 = true := by decide +kernel

/-- Ring 0 of DDR5, two descriptors, one frame staged, with TAIL. -/
def hrx (cfg tail : Nat) : State :=
  let h : HostFrame := { octets := List.replicate 60 0, ring := 0, port := 0, flags := 0, epoch := 0, rule := 0, vid := 0, tagged := false, pcp := 0, rxts := 0, flen := 64 }
  wr { on with eth := { on.eth with staged := [h], rings := [(0, { log2n := 1, bufsz := 256, firmware := true, since := 1 })] } }
    [(Reg.ETH_HRX_CFG 0, cfg), (Reg.ETH_HRX_TAIL 0, tail), (Reg.ETH_HRX_IRQ 0, 0x10001)]
/-- One frame in the time queue; connection 0 of the hardware with a segment unacknowledged. -/
def tq : State := { on with eth := { on.eth with tqCount := 1, tqHead := 255 } }
def tcp : State := wr { eth 0 0 with eth := { (eth 0 0).eth with tcp := [(0, { unacked := 1 })] } } [(Reg.ETH_TCP_CONN 0 0, 1)]

theorem wit_HostReceiveRings : on.takes .host (Reg.ETH_HRX_CFG 7) = true ∧ on.bit (Reg.ETH_HRX_CFG 7) 17 = false ∧
    (0x20000 &&& 0x37F1F) / 2 ^ 17 % 2 = 1 ∧ on.takes .host (Reg.ETH_HRX_TAIL 7) = true ∧ tq.takes .host Reg.ETH_TQ_POP = true ∧ 0 < tq.eth.tqCount ∧
    on.eth.staged.find? (fun h => h.ring = 0) = none ∧ ((hrx 0 0).eth.staged.find? fun h => h.ring = 0).isSome = true ∧
    (hrx 0 0).bit (Reg.ETH_HRX_CFG 0) 17 = false ∧ (hrx 0x20000 0).bit (Reg.ETH_HRX_CFG 0) 17 = true ∧ (hrx 0x20000 0).pwr.state = .run ∧
    (on.hrx 0).firmware = false ∧ on.dmaOn = false ∧ ((hrx 0x20000 1).rn (Reg.ETH_HRX_TAIL 0) + 2 ^ 1 - (hrx 0x20000 1).rn (Reg.ETH_HRX_HEAD 0)) % 2 ^ 1 = 1 ∧
    fillBufs 256 60 1 61 = ([60], 0) ∧ ((hrx 0 0).hrx 0).since ≠ 0 ∧ (hrx 0 0).rf (Reg.ETH_HRX_IRQ 0) 0 16 ≠ 0 ∧
    ((hrx 0 0).hrx 0).firstAt + (hrx 0 0).rf (Reg.ETH_HRX_IRQ 0) 16 16 * 250 = (tk (hrx 0 0) 250).time.ticks ∧
    (hrx 0 0).bit Reg.ETH_HRX_PEND 0 = false ∧ (on.hrx 0).since = 0 ∧ tcp.alive = true ∧ tcp.conn 0 0 % 4 = 1 ∧ (tcp.tcpHw 0).unacked ≠ 0 ∧
    (tcp.tcpHw 0).firstAt + wf (tcp.pat 2) 7 16 16 * 250 ≤ tcp.time.ticks ∧ on.conn 0 0 % 4 ≠ 1 := by decide +kernel


/-! ## Witnesses: decoding and seams -/

/-- A C37.118 data frame of 18 octets: IDCODE 7, SOC 0, FRACSEC `frac`. -/
def c37 (id frac : Nat) (good : Bool) : List Byte :=
  let f := [0xAA, 1] ++ beBytes 2 18 ++ beBytes 2 id ++ beBytes 4 0 ++ beBytes 4 frac ++ [0, 0]
  f ++ beBytes 2 ((crcCcitt f).toNat + (if good then 0 else 1))
/-- Stream 0 of IDCODE 7 and protocol `proto`, of `len` octets at 50 frames/s, resent after 1 s, and a frame in the measurement queue. -/
def src (proto len tmpl : Nat) (f : List Byte) : State :=
  let s := pat on 4 24 [(0, 1), (3, 256), (16, 0x70000 + proto), (17, len), (18, 1000000 + 50 * 2 ^ 24), (21, tmpl)]
  let h : HostFrame := { octets := f, ring := 0, port := 0, flags := 0, epoch := 0, rule := 0, vid := 0, tagged := false, pcp := 0, rxts := 0, flen := 64 }
  let m : MqFrame := { payload := f, target := 0, port := 0, v6 := false, saddr := 0, daddr := 0, sport := 0, dport := 0, conn := 0, rxts := 0, epoch := 0, host := h }
  { s with eth := { s.eth with mq := [m] } }
def ctx : FrameCtx := { proto := 0, v6 := false, saddr := 0, conn := 0, arr := 0, epoch := 0, reinj := false, host := none }

theorem wit_FrameDecoding : (src 0 18 0 []).alive = true ∧ up.img.inForce = false ∧ on.eth.mq = [] ∧ on.dec.reinj = none ∧ (src 0 18 0 []).flt.inject = none ∧
    (c37 7 0 true).length = 18 ∧ oct (c37 7 0 true) 0 = 0xAA ∧ be16 (c37 7 0 true) 2 = 18 ∧ ((c37 7 0 true).take 17).length < 18 ∧
    be16 (c37 7 0 true) 16 = (crcCcitt ((c37 7 0 true).take 16)).toNat ∧ be16 (c37 7 0 false) 16 ≠ (crcCcitt ((c37 7 0 false).take 16)).toNat ∧
    oct (c37 7 0 true) 1 / 16 % 8 = 0 ∧ (src 0 18 0 []).bankFor ctx 8 0 0 = none ∧ (src 0 18 0 []).bankFor ctx 7 0 0 = some ((src 0 18 0 []).pat 4, 0) ∧
    fld (strWord ((src 0 20 0 []).pat 4) 0 1) 0 16 ≠ 18 ∧ frameKey 0 1 1000000 50 0 0 = none ∧ frameKey 0 0 1000000 50 0 0 = some (0, 0) := by
  decide +kernel
/-- The checks of R122 in order: each frame adds to the one counter of the first check it fails. -/
theorem test_decode_order :
    (decodeFrame false .ok (src 0 18 0 (c37 7 0 true))).rn Reg.DEC_FRAMES_CNT = 1 ∧
    (decodeFrame false .ok (src 0 18 0 (c37 7 1 true))).rn Reg.DEC_OFFGRID_CNT = 1 ∧
    (decodeFrame false .ok (src 0 20 0 (c37 7 0 true))).rn (Reg.DEC_STREAM_SHAPE 0) = 1 ∧
    (decodeFrame false .ok (src 0 18 0 (c37 8 0 false))).rn Reg.DEC_CHK_ERR_CNT = 1 := by decide +kernel

/-- `n` commands for stream `k` queued, the last sent at tick 0. -/
def cmds (s : State) (n k : Nat) : State := { s with dec := { s.dec with cmds := List.replicate n (k, 2), cmdAt := some 0 } }
def busy : State := { on with dec := { on.dec with reinj := some { octets := [], conn := 0, ts := 0, epoch := 0 } } }

theorem wit_ReinjectionAndCommands : on.takes .host Reg.DEC_REINJ_GO = true ∧ (0x80000003 : Word).getLsbD 31 = true ∧ on.img.inForce = true ∧
    on.dec.reinj = none ∧ busy.dec.reinj.isSome = true ∧ busy.takes .host Reg.DEC_REINJ_GO = true ∧ on.takes .host Reg.DEC_CMD = true ∧
    (cmds on 15 0).dec.cmds.length = 15 ∧ (cmds on 16 0).dec.cmds.length = 16 ∧ on.dec.cmds = [] ∧
    (cmds on 1 0).time.ticks < 0 + 250 ∧ 0 + 250 ≤ (tk (cmds on 1 0) 250).time.ticks ∧ wf (cmds on 1 0).srcNow 0 0 15 = 0 ∧
    wf (src 0 18 0 []).srcNow 0 0 15 = 1 ∧ fld (strWord (src 3 18 0 []).srcNow 0 0) 0 2 = 3 ∧ fld (strWord (src 1 18 0 []).srcNow 0 0) 0 2 = 1 ∧
    fld (strWord (src 0 18 0x7FF []).srcNow 0 5) 0 11 = 0x7FF ∧ fld (strWord (src 0 18 0 []).srcNow 0 5) 0 11 ≠ 0x7FF ∧
    (src 0 18 0 []).resendTicks = 250000000 ∧ (src 0 18 0 []).bit (Reg.DEC_STREAM_FLAGS 0) 0 = false ∧
    (wr (src 0 18 0 []) [(Reg.DEC_STREAM_FLAGS 0, 1)]).bit (Reg.DEC_STREAM_FLAGS 0) 0 = true ∧ (src 2 18 0 []).img.inForce = true ∧
    max (src 0 18 0 []).dec.base (Tbl.get (src 0 18 0 []).dec.lastPass 0 0 - 1) + (src 0 18 0 []).resendTicks =
      (tk (src 0 18 0 []) 250000000).time.ticks ∧
    Tbl.get (src 0 18 0 []).dec.lastResend 0 0 + (src 0 18 0 []).resendTicks ≤ (tk (src 0 18 0 []) 250000000).time.ticks + 1 := by decide +kernel

/-- One upstream stream at 50 frames/s with `n` items of source 0; source 0 in group 0, with seam `x`; device 1 of two in a mirror. -/
def ups (n : Nat) (x : Option Group) (nd : Nat) : State :=
  let s := pat (pat (pat on 12 24 [(0, 1), (5, 50), (10, n * 2 ^ 17)]) 5 40 [(0, 1), (16, 50), (17, 65536), (18, 1), (26, 0xFFFF)]) 18 8 [(0, nd)]
  { s with seam := { s.seam with groups := [(0, x)] } }
def seam0 (i lo : Nat) (r : Option Nat) (pr : List Nat) : Group :=
  { lo := lo, hi := i, ways := [(i % 8, some { inst := i, rate := 50, t0 := 0, epoch := 0, dl := 0, quorum := 1, present := pr, ready := r })] }
def views (s : State) : List UpView := (upItems (s.pat 12) 0).map fun k => s.upView (s.pat 12) k (instT0 50 1)

theorem wit_UpstreamFrames : (ups 0 none 0).alive = true ∧ on.upNext 0 = none ∧ (ups 0 none 0).upNext 0 = some ((ups 0 none 0).pat 12, 1) ∧
    (ups 0 none 0).measuring = true ∧ views (ups 1 (some (seam0 1 1 none [])) 0) = [.wait] ∧ views (ups 1 (some (seam0 1 2 none [])) 0) = [.discarded] ∧
    views (ups 1 none 0) = [.slot {} false] ∧ views (ups 0 none 0) = [] ∧ (ups 0 none 0x800).standby = true ∧ (ups 0 none 0).standby = false := by
  decide +kernel

theorem wit_ReportingInstants : 0 < (50 : Nat) ∧ (49 : Nat) < 50 := by decide
/-- T0 of the last instant of a second at 60 frames/s, rounded down (R6). -/
theorem test_inst : instT0 60 119 = 1983333333 ∧ latestInst 60 1983333332 = 118 ∧ latestInst 60 1983333333 = 119 := by decide

/-- An item of source `k` at instant `n` of second 0, and a state that admits it: LOCKED, group 0 as given. -/
def item (k n : Nat) : Item := { src := k, sec := 0, n := n, rate := 50, arr := 0, epoch := 0, payload := {} }
def adm (k n : Nat) (x : Group) (st : Nat) : State :=
  let s := wr (ups 0 (some x) 0) [(Reg.TIME_STATE, st)]
  { s with seam := { s.seam with ingress := [item k n] } }

/-- The bank before the last release of a state: its GROUPS as now, its group 0 as given, for every instant. -/
def past (s : State) (x : Option Group) : State :=
  { s with img := { s.img with oldUntil := 2 ^ 64, oldGroups := s.pat 5 }, seam := { s.seam with past := [(0, x)] } }

theorem wit_ItemAdmission : (item 0 1).t0 < (past on none).img.oldUntil ∧ groupOfSrc (past (ups 0 none 0) none).img.oldGroups 0 = some 0 ∧
    (past (ups 0 none 0) none).pastGroup 0 = none ∧ (past (ups 0 none 0) (some (seam0 1 1 none []))).pastGroup 0 = some (seam0 1 1 none []) ∧ (adm 0 1 (seam0 0 0 none []) 2).alive = true ∧ up.measuring = false ∧ (ups 0 none 0).seam.ingress = [] ∧
    (adm 0 1 (seam0 0 0 none []) 2).measuring = true ∧ ((adm 0 1 (seam0 0 0 none []) 2).quiet.popItem.1.any fun i => 0 ≤ i.t0) = true ∧
    groupOfSrc ((adm 5 1 (seam0 0 0 none []) 2).patAt 5 0) 5 = none ∧ groupOfSrc ((adm 0 1 (seam0 0 0 none []) 2).patAt 5 0) 0 = some 0 ∧
    (adm 0 1 (seam0 0 0 none []) 0).disc = stUnset ∧ (adm 0 1 (seam0 0 0 none []) 2).nowNs + 65535 * 1000 < instT0 50 4 ∧
    ¬ (adm 0 1 (seam0 0 0 none []) 2).nowNs + 65535 * 1000 < instT0 50 3 ∧ (adm 0 1 (seam0 0 0 none []) 2).pend = false ∧
    ((adm 0 1 (seam0 3 2 none []) 2).group false 0).isSome = true ∧ 1 < (seam0 3 2 none []).lo ∧ (seam0 0 1 none []).lo ≤ 1 := by decide +kernel
theorem wit_SlotWrite : (ups 0 (some (seam0 1 1 none [])) 0).group false 0 = some (seam0 1 1 none []) ∧
    ((seam0 1 1 none []).seamOf 1).isSome = true ∧ (∀ m, (seam0 1 1 none []).seamOf 1 = some m → m.present.contains 0 = false) ∧
    (∀ m, (seam0 1 1 none [0]).seamOf 1 = some m → m.present.contains 0 = true) := by
  refine ⟨by decide +kernel, by decide +kernel, fun m h => ?_, fun m h => ?_⟩ <;> (cases h; rfl)

/-- GROUPS with one member, MUST, released by quorum or not. -/
def quo (q : Nat) : List Byte := body 40 [(0, 1), (16, 50 + q * 512), (17, 65536), (32, 0x4000)]
theorem wit_SeamReadiness : (ups 0 none 0).alive = true ∧ (members (quo 1) 0).all (fun r => [0].contains (fld r 0 14)) = true ∧
    (members (quo 1) 0).all (fun r => ([] : List Nat).contains (fld r 0 14)) = false ∧ fld (grpWord (quo 1) 0 0) 9 1 = 1 ∧
    (members (quo 1) 0).all (fun r => fld r 14 1 = 0 || [0].contains (fld r 0 14)) = true ∧ fld (grpWord (quo 0) 0 0) 9 1 = 0 ∧
    (ups 0 (some (seam0 1 1 (some 0) [])) 0).group true 0 = none ∧ ((seam0 1 1 (some 0) []).openSeams.map Seam.inst) = [1] ∧
    ((seam0 1 1 (some 0) []).openSeams.map Seam.ready) = [some 0] ∧ ((seam0 1 1 none []).openSeams.map Seam.ready) = [none] ∧
    (ups 0 none 0).disc = stUnset ∧ (adm 0 1 (seam0 0 0 none []) 2).disc ≠ stUnset ∧ (adm 0 1 (seam0 0 0 none []) 2).pend = false ∧
    grpRate ((adm 0 1 (seam0 0 0 none []) 2).pat 5) 0 ≠ 0 := by decide +kernel

def tok0 : Token := { group := 0, cause := 0, bank := 0, epoch := 0, short := false, gap := 0, present := 1, nbad := 0, seq := 0, n := 0, way := 0, sec := 0, ofs := 0, dl := 0, t0 := 0, at_ := 0 }
def ctl : State :=
  let s := ups 0 none 0
  { s with seam := { s.seam with mendCount := 1, mendHead := 1023, slotSel := some (16383, 7), hist := [(tok0, [0])] } }

theorem wit_SeamControls : errFound .ok ≠ .ue ∧ errAgain .ok = false ∧ grpCnt (ctl.patAt 5 ctl.nowNs) = 1 ∧ ctl.takes .host Reg.SEAM_LRN_RESET = true ∧ (0x80000000 : Word).getLsbD 31 = true ∧ 0 < grpCnt (ctl.pat 5) ∧ grpCnt (ctl.pat 5) ≤ 1 ∧
    ctl.takes .host Reg.SEAM_MEND_POP = true ∧ 0 < ctl.seam.mendCount ∧ on.seam.mendCount = 0 ∧ ctl.takes .host Reg.SEAM_SLOT_SEL = true ∧
    on.seam.slotSel = none ∧ ctl.seam.slotSel = some (16383, 7) ∧ ctl.flt.inject = none ∧ on.seam.hist = [] ∧ ctl.seam.hist = [(tok0, [0])] ∧
    ctl.pwr.state = .run ∧ (park ctl).pwr.state ≠ .run := by decide +kernel


/-! ## Witnesses: the analytic fabric -/

/-- A microcode word: CLASS, OP, two ports, A from port 0, B from port 1, C from register 0, DST register 5, ACC 2, with low bits `lo`. -/
def uw (c o lo : Nat) : Nat :=
  c * 2 ^ 60 + o * 2 ^ 56 + 2 * 2 ^ 54 + 64 * 2 ^ 47 + 65 * 2 ^ 40 + 5 * 2 ^ 27 + 2 * 2 ^ 24 + lo
/-- A FABRIC pattern: panel 0 of role `role`, the lead of instance 0, with entries `l`; node 0 of its tile 0 is `w`. -/
def fab (role w : Nat) (l : Tbl Nat) : State := pat on 1 560 ([(2, 2176), (16, role + 8)] ++ l ++ [(544, w % 2 ^ 32), (545, w / 2 ^ 32)])
/-- Node 0 ready to fire with values `a` and `b`. -/
def mc (w : Nat) (a b : Int) : State :=
  let s := fab 5 w []
  let k := fun p v => some ({ node := 0, port := p, tag := 3, inst := 1, value := BitVec.ofInt 40 v } : Tok)
  { s with fab := { s.fab with tiles := [(0, { store := [{ node := 0, tag := 3, inst := 1, ports := [k 0 a, k 1 b, none] }] })] } }
def fir : Firing := { node := 0, tag := 3, inst := 1, uerr := .ok, derr := .ok }
/-- The forty-nine operations, by CLASS and OP. -/
def ops : List (Nat × Nat) :=
  [(0, 7), (1, 15), (2, 4), (3, 4), (4, 6), (5, 6), (6, 4)].flatMap fun c => (List.range c.2).map fun o => (c.1, o)
/-- What State.fires asks of a state. -/
def ready (c o : Nat) (s : State) : Bool :=
  s.alive && s.measuring && s.role 0 ≠ 0 && s.ucode 0 0 / 2 ^ 60 % 16 = c && s.ucode 0 0 / 2 ^ 56 % 16 = o && (s.quiet.takeFire 0 fir).isSome &&
    s.flt.inject = none && !(s.tile 0).poison.contains 0
def after (i : Instr) (s : State) : State :=
  match exec i s with
  | .next t => t
  | _ => s

theorem wit_fires : (ops.all fun p => ready p.1 p.2 (mc (uw p.1 p.2 0) 2 3)) = true := by decide +kernel
theorem wit_MicroAccumulate : ready 0 0 (mc (uw 0 0 0) 2 3) = true ∧ ready 0 6 (mc (uw 0 6 0) 2 3) = true := by decide +kernel
theorem wit_MicroAlu : ready 1 0 (mc (uw 1 0 0) 2 3) = true ∧ ready 1 14 (mc (uw 1 14 0) 2 3) = true := by decide +kernel
theorem wit_MicroSpecialUnits : ready 2 0 (mc (uw 2 0 0) 2 3) = true ∧ ready 3 3 (mc (uw 3 3 0) 2 3) = true := by decide +kernel
theorem wit_MicroMemoryAndSend : ready 4 0 (mc (uw 4 0 52427) 2 3) = true ∧ fld (uw 4 0 52427) 0 16 = 52427 ∧ fld (uw 4 0 52428) 0 16 = 52428 ∧
    uNat 40 (((fld (uw 4 4 52427) 0 16 : Nat) : Int) + 0) = 52427 ∧ uNat 40 (((fld (uw 4 4 52427) 0 16 : Nat) : Int) + 1) = 52428 ∧
    ((mc (uw 4 0 0) 2 3).quiet.takeFire 0 fir).any (fun y => y.1.bg = false && y.1.derr = .ok && y.1.cerr = .ok) = true := by decide +kernel
theorem wit_MicroControl : ready 6 1 (mc (uw 6 1 0) 4 0) = true ∧
    ((mc (uw 6 1 0) 4 0).quiet.takeFire 0 fir).any (fun y => decide ((y.1.tag : Int) < (y.2.opA y.1).1) && (y.1.ports.getD 0 none).isSome) = true ∧
    ((mc (uw 6 1 0) 3 0).quiet.takeFire 0 fir).any (fun y => decide ((y.2.opA y.1).1 ≤ (y.1.tag : Int))) = true ∧
    on.measuring = true ∧ on.role 0 = 0 ∧ (fab 5 (uw 1 0 0) []).quiet.takeFire 0 fir = none ∧ up.measuring = false := by decide +kernel
theorem wit_AccumulatorSaturates : (7 : Nat) < 8 ∧ -(2 ^ 95) ≤ (2 ^ 95 - 1 : Int) ∧ (2 ^ 95 - 1 : Int) < 2 ^ 95 ∧ -(2 ^ 95) - 1 < -(2 ^ 95 : Int) := by decide
theorem wit_DivideAndRoot : (1 : Int) ≠ 0 ∧ (0 : Int) ≤ 0 ∧ (-1 : Int) < 0 ∧ (2 ^ 39 - 1 : Int).toNat * 2 ^ 63 < 2 ^ 192 := by decide
/-- Results of single firings (R178 to R181): 2 + 3 and 2 − 3 in register 5, the largest sum saturates, 2 × −3 in accumulator 2. -/
theorem test_micro :
    (after (.add 0 fir) (mc (uw 1 0 0) 2 3)).ureg 0 5 = (5, false) ∧ (after (.sub 0 fir) (mc (uw 1 1 0) 2 3)).ureg 0 5 = (-1, false) ∧
    (after (.add 0 fir) (mc (uw 1 0 (2 ^ 21)) (2 ^ 39 - 1) 1)).ureg 0 5 = (2 ^ 39 - 1, false) ∧
    (after (.add 0 fir) (mc (uw 1 0 0) (2 ^ 39 - 1) 1)).ureg 0 5 = (-(2 ^ 39), false) ∧
    (after (.mul 0 fir) (mc (uw 0 0 0) 2 (-3))).uacc 0 2 = (-6, false) ∧ (after (.cmplt 0 fir) (mc (uw 1 6 0) (-1) 0)).ureg 0 5 = (1, false) ∧
    (after (.shra 0 fir) (mc (uw 1 12 1) (-3) 0)).ureg 0 5 = (-2, false) ∧ (after (.div 0 fir) (mc (uw 3 0 0) (-1) 0)).ureg 0 5 = (-(2 ^ 39 - 1), true) := by
  decide +kernel
/-- Rounding modes of RND (R180): half to even, down, towards zero, and half away, of −5/2 and 5/2. -/
theorem test_round : rnd 0 5 2 = 2 ∧ rnd 0 (-5) 2 = -2 ∧ rnd 1 (-5) 2 = -3 ∧ rnd 2 (-5) 2 = -2 ∧ divFix 0 0 7 2 = (4, false) := by decide

/-- Panel 0 of role `r` with an instant taken, queued, a token in its crossing, and a BLOCK cell; running where `st`, its DONE sent where nothing is queued. -/
def pnl (r : Nat) (taken queue st : Bool) : State :=
  let s := fab r 0 []
  let x : Pending := { t0 := 0 }
  let b : Block := { tile := 0, lane := 0, cntr := 0, bg := false, data := [1] }
  tk { s with
    fab := { s.fab with panels := [(0, { taken := if taken then some x else none, queue := if queue then [x] else [], started := st, doneSent := st && !queue, cells := [.block 1 b], released := some 5 })] }
    seam := { s.seam with tokens := [(0, [tok0])] } } 1000

theorem wit_EngineInstantFlow : (pnl 5 true true false).alive = true ∧ up.measuring = false ∧ (pnl 5 true true false).measuring = true ∧
    (on.quiet.popToken 0).1 = none ∧ ((pnl 5 true true false).quiet.popToken 0).1 = some tok0 ∧ (pnl 5 true true false).tokenStale 0 5 = true ∧
    (pnl 5 true true false).tokenStale 0 6 = false ∧ ((pnl 5 true true false).panel 0).taken.isSome = true ∧ (on.panel 0).queue = [] ∧
    (pnl 5 false true false).stopping = false ∧ ((pnl 5 false true false).panel 0).taken = none ∧ ((pnl 5 false true false).panel 0).queue ≠ [] ∧
    (tk (pnl 5 true false false) 999).mayStart 0 = false ∧ (pnl 5 true false false).mayStart 0 = true ∧ (pnl 1 true false false).mayStart 0 = true ∧
    (pnl 1 true false false).role 0 = 1 ∧ (pnl 1 true false false).isLead 0 = true ∧ (pnl 5 true false false).role 0 ≠ 1 ∧
    (pnl 5 true false false).allRun 0 0 = false ∧ (pnl 5 true false true).allRun 0 0 = true ∧ (pnl 5 true false true).isLead 0 = true ∧
    ((pnl 5 true false true).panel 0).doneSent = true ∧ ((pnl 5 true true true).panel 0).doneSent = false := by decide +kernel
theorem wit_EngineInstantFlow_decides :
    (let h := fun r : Nat => { (pnl r true false true).quiet with img := { (pnl r true false true).img with held := some [] } }
     ((h 5).decideInstant 0 { t0 := 0 } [] []).isSome = true ∧ ((h 2).decideInstant 0 { t0 := 0 } [] []).isNone = true) := by decide +kernel

def tk0 (st : Bool) (src : Nat := 17) : Tok := { node := 1, port := 0, tag := 0, inst := 0, value := 0, stalled := st, src := src }
/-- Tile 0 of an assigned panel with a token waiting, and `n` entries of a node. -/
def til (st : Bool) (n node : Nat) (ports : List (Option Tok)) (src : Nat := 17) : State :=
  let s := pnl 5 true false true
  { s with fab := { s.fab with tiles := [(0, { inbox := [tk0 st src], store := List.replicate n { node := node, tag := 0, inst := 0, ports := ports } })] } }

theorem wit_TokensAndCounters : on.alive = true ∧ nextTok (on.tile 0).inbox = none ∧ nextTok ((til false 0 0 []).tile 0).inbox = some (tk0 false) ∧
    on.role 0 = 0 ∧ (til false 0 0 []).role 0 = 5 ∧ nextTok ((til false 0 0 [] 16).tile 0).inbox = some (tk0 false 16) ∧ (til false 0 0 []).injects 20 = false ∧
    (matchOf ((til false 1 1 [none, none, none]).tile 0).store (tk0 false)).isSome = true ∧
    (matchOf ((til false 511 2 []).tile 0).store (tk0 false)) = none ∧ ((til false 511 2 []).tile 0).store.length < 512 ∧
    512 ≤ ((til true 512 2 []).tile 0).store.length ∧ (tk0 true).stalled = true ∧ (fab 5 0 [(32, 2176)]).cntEntry 0 0 = (0, 0, 0) ∧
    ((fab 5 7 [(32, 2176)]).cntEntry 0 0).1 = 7 ∧ (fab 5 7 [(32, 2176)]).rn (Reg.FAB_PNL_CNT 0 0) = 0 ∧
    nextBlock (on.panel 0).cells = none ∧ (nextBlock ((pnl 5 true false true).panel 0).cells).any (fun y => !y.2.bg) = true ∧
    (let s := (fab 5 7 [(32, 2176)]).setPanel 0 { zero := [0] }
     (s.panel 0).zero.contains 0 = true ∧ (on.panel 0).zero.contains 0 = false ∧ (s.setReg (Reg.FAB_PNL_CNT 0 0) 1).rn (Reg.FAB_PNL_CNT 0 0) = 1 ∧
      (s.setReg (Reg.FAB_PNL_CNT 0 0) 2).rn (Reg.FAB_PNL_CNT 0 0) = 2) ∧ (pnl 5 true false true).flt.inject = none := by decide +kernel

theorem wit_ScrubAndTileWindow : (fab 5 0 []).alive = true ∧ on.role 0 = 0 ∧ (fab 5 0 []).role 0 ≠ 0 ∧ (fab 5 0 []).measuring = true ∧
    (((fab 5 0 []).quiet.scrubDue 0).tile 0).due = 0 ∧
    (let s : State := { fab 5 0 [] with fab := { tiles := [(0, { scrub := 33790, due := 3 })], panels := [], twin := some (15, 32767) } }
     ((s.quiet.scrubDue 0).tile 0).scrub + 1 < 33792 ∧ ((s.quiet.scrubDue 0).tile 0).due ≠ 0 ∧ ((s.quiet.scrubDue 0).tile 0).scrub = 33790 ∧ ((s.quiet.bgGrant 0).tileCheck 0 1 1022 .ue).1 = .ue ∧ (s.tile 0).poison.contains 1022 = false ∧
     s.fab.twin = some (15, 32767) ∧ s.role (15 / 16) ≠ 0) ∧ on.fab.twin = none ∧ on.takes .host Reg.FAB_TWIN_SEL = true ∧
    (0x80000000 : Word).getLsbD 31 = true := by decide +kernel


/-! ## Witnesses: engines, alarms, station inputs, capture, control cores -/

/-- An estimator of instance 0 with an empty topology, led by panel 0, panel 1 its refactorisation helper. -/
def se (x : SeInst) : State :=
  let s := wr (pat (pat (fab 1 0 [(48, 6)]) 6 20 [(0, 1)]) 2 4 []) [(Reg.SE_BUSES 0, 2), (Reg.SE_CHANS 0, 2)]
  { s with se := [(0, x)] }
def thr : State := wr (fab 4 0 []) [(Reg.THR_MON1 0, 2)]

theorem wit_EngineSnapshots : (se {}).takes .host (Reg.SE_REFAC_CTRL 0) = true ∧ ((se {}).seTopo 0).isSome = true ∧ (1 : Word).getLsbD 0 = true ∧
    (se {}).img.inForce = true ∧ ((se {}).seI 0).reqs = [] ∧ ((se { reqs := [0], refac := 1 }).seI 0).refac = 1 ∧
    ((se { reqs := [0] }).seI 0).reqs ≠ [] ∧ ((se { reqs := [0] }).seI 0).refac = 0 ∧ (se { reqs := [0] }).canRefac 0 = true ∧
    (se { refac := 1 }).measuring = true ∧ (se {}).takes .host (Reg.SE_BUS_SEL 0) = true ∧ (se {}).rn (Reg.SE_BUSES 0) ≤ 2 ∧ 1 < (se {}).rn (Reg.SE_BUSES 0) ∧
    ((se { outs := [{ t0 := 0, v := [], mag := [], ang := [], pred := [] }] }).seI 0).outs ≠ [] ∧ (se {}).takes .host (Reg.SE_CHAN_SEL 0) = true ∧
    (se {}).rn (Reg.SE_CHANS 0) ≤ 2 ∧ 1 < (se {}).rn (Reg.SE_CHANS 0) ∧ thr.takes .host (Reg.THR_MON_SEL 0) = true ∧ thr.rn (Reg.THR_MON1 0) ≤ 2 ∧
    1 < thr.rn (Reg.THR_MON1 0) ∧ (fab 3 0 []).takes .host (Reg.OSC_PAIR_SEL 0) = true ∧ (se {}).alive = true := by decide +kernel

/-- An ALARMS pattern of one class (with LATCH or not) and one template; class 0 in state `st`; `n` instants open from T0 1; an entry waiting. -/
def alm (latch st n : Nat) (kind : Nat) : State :=
  let s := wr (pat on 11 200 [(0, 1 + 65536), (16, latch * 256)]) [(Reg.ALM_CLASS 0, st)]
  { s with
    alm := { s.alm with instants := (List.range n).map fun i => { t0 := i + 1, opened := 0, late := i = 0 }, merged := some 0 }
    seam := { s.seam with alarms := [{ kind := kind, inst := 0, t0 := 9 }] } }

theorem wit_AlarmPath : (alm 0 0 0 1).alive = true ∧ up.img.inForce = false ∧ (alm 0 0 0 1).img.inForce = true ∧ (on.quiet.popAlarm).1 = none ∧
    (alm 0 0 0 1).quiet.popAlarm.1 = some { kind := 1, inst := 0, t0 := 9 } ∧ (alm 0 0 0 1).entryStale 0 = true ∧ (alm 0 0 0 1).entryStale 1 = false ∧
    ((alm 0 0 8 1).alm.instants.any fun x => x.t0 = 8) = true ∧ ((alm 0 0 7 1).alm.instants.any fun x => x.t0 = 9) = false ∧
    (alm 0 0 7 1).alm.instants.length < 8 ∧ on.alm.instants = [] ∧ (alm 0 0 1 1).almDue { t0 := 1, opened := 0, late := true } = true ∧
    (let s := pat (alm 0 0 1 1) 11 200 [(0, 1), (1, 1)]
     s.almDue { t0 := 1, opened := 0 } = true) ∧
    0 < almTmplCnt (alm 0 0 0 1).almBody ∧ (alm 0 0 0 1).standby = false ∧ (Tbl.get (alm 0 0 0 1).alm.goose 0 {}).due ≤ (alm 0 0 0 1).time.ticks ∧
    almTmplCnt on.almBody ≤ 0 ∧ (alm 1 2 0 1).ticking = true ∧ (alm 1 2 0 1).clsState 0 = 2 ∧ ((alm 1 2 0 1).almClass 0).holdEnd ≤ (alm 1 2 0 1).time.ticks ∧ (alm 1 2 0 1).mergeDue = false ∧
    (alm 1 2 1 1).mergeDue = true ∧
    fld (classRec (alm 1 2 0 1).almBody 0 0) 8 1 = 1 ∧ fld (classRec (alm 0 2 0 1).almBody 0 0) 8 1 ≠ 1 ∧ on.takes .host Reg.ALM_ACK = true ∧
    (0x80000000 : Word).getLsbD 31 = true ∧ (alm 1 3 0 1).clsState 0 = 3 ∧ (alm 0 0 0 1).clsState 0 ≠ 2 ∧ on.takes .host Reg.ALM_PIN_FORCE = true := by decide +kernel

/-- Class 255 in state `st` with `n` floe conditions, its timer ending at tick 5. -/
def clsS (st n latch : Nat) : State :=
  let s := wr (pat on 11 2000 [(0, 256), (1036, latch * 256)]) [(Reg.ALM_CLASS 255, st)]
  { s with alm := { s.alm with classes := [(255, { floe := List.range n, holdEnd := 5 })] } }

theorem wit_AlarmClassStates : (255 : Nat) < 256 ∧ (∀ st ∈ [0, 1, 2, 3], (clsS st 0 0).clsState 255 = st) ∧ ((clsS 0 0 0).almClass 255).count = 0 ∧
    ((clsS 0 1 0).almClass 255).count = 1 ∧ ¬ ((clsS 1 0 0).almClass 255).holdEnd < (tk (clsS 1 0 0) 5).time.ticks ∧
    ((clsS 1 0 0).almClass 255).holdEnd < (tk (clsS 1 0 0) 6).time.ticks ∧ fld (classRec ((clsS 1 0 1).pat 11) 255 0) 8 1 = 1 ∧
    fld (classRec ((clsS 1 0 0).pat 11) 255 0) 8 1 ≠ 1 := by decide +kernel

/-- A STATION pattern of words `l`; inputs active; status `st`; losses `loss`. -/
def stn (st loss : Nat) (l : Tbl Nat) : State := (wr (pat on 14 1200 l) [(Reg.STN_STATUS, st)]).setThru Reg.STN_MOD_LOSS loss
/-- Signal 0 with a crossing due at 1,000 ns. -/
def zc (last : Option Nat) : State := let s := stn 1 0 []; { s with stn := { s.stn with zc := [(0, { due := [1000], last := last })] } }

theorem wit_StationSignals : (stn 1 0 []).ticking = true ∧ on.bit Reg.STN_STATUS 0 = false ∧ chanEn ((stn 1 0 []).pat 14) 23 = false ∧
    (stn 1 0 []).bit Reg.STN_STATUS 0 = true ∧ chanEn ((stn 1 0 [(108, 1)]).pat 14) 23 = true ∧ (stn 1 (2 ^ 23) []).thruBit Reg.STN_MOD_LOSS 23 = true ∧
    (stn 1 0 []).thruBit Reg.STN_MOD_LOSS 23 = false ∧ (stn 5 0 []).bit Reg.STN_STATUS 2 = true ∧ (stn 5 0 []).stn.fadeAt < 2 ^ wf ((stn 5 0 []).pat 14) 2 8 4 ∧
    2 ^ wf ((stn 5 0 []).pat 14) 2 8 4 ≤ ({ stn 5 0 [] with stn := { (stn 5 0 []).stn with fadeAt := 1 } } : State).stn.fadeAt ∧
    (stn 0x85 0 []).bit Reg.STN_STATUS 7 = true ∧ (stn 5 0 []).bit Reg.STN_STATUS 7 = false ∧ (stn 1 0 []).rangeDue ((stn 1 0 []).pat 14) 0 = none ∧
    ((stn 1 0 []).zdet 0).due = [] ∧ ((zc none).zdet 0).due = [1000] ∧ ((zc none).zdet 0).last = none ∧ ((zc (some 0)).zdet 0).last = some 0 ∧
    (stn 1 0 [(0, 434), (2, 65535 * 2 ^ 16), (108, 1)]).rf Reg.STN_STATUS 0 1 = 1 ∧ wf ((stn 1 0 [(0, 434), (2, 65535 * 2 ^ 16)]).pat 14) 2 16 16 = 65535 ∧
    wf ((stn 1 0 [(0, 434)]).pat 14) 0 0 9 = 434 ∧ ((stn 1 0 [(0, 434)]).chain 23).run + 4 * 434 < 65535 ∧
    wf ((stn 1 0 [(2, 16 * 2 ^ 16), (0, 4), (108, 1)]).pat 14) 2 16 16 ≤ ((stn 1 0 [(0, 4)]).chain 23).run + 4 * wf ((stn 1 0 [(0, 4)]).pat 14) 0 0 9 ∧
    (List.replicate 6944 (0 : BitVec 24)).length = 16 * wf ((stn 1 0 [(0, 434)]).pat 14) 0 0 9 ∧ (stn 1 0 []).sampleDue = true ∧
    ({ stn 1 0 [] with stn := { (stn 1 0 []).stn with lastK := some 0 } } : State).sampleDue = false ∧
    zcEn ((stn 1 0 [(16, 64)]).pat 14) 0 = true ∧ (stn 1 0 [(16, 64)]).bit Reg.STN_ZC_LOST 0 = false ∧
    ((stn 1 0 [(11, 1)]).zdet 0).since + wf ((stn 1 0 [(11, 1)]).pat 14) 11 0 16 * 250000 = (tk (stn 1 0 []) 250000).time.ticks ∧
    (stn 1 0 []).bit Reg.STN_STATUS 1 = false ∧ (∀ c, c < 24 → chanEn ((stn 1 0 []).pat 14) c = false) ∧
    (∀ z, z < 16 → zcEn ((stn 1 0 []).pat 14) z = false) ∧ on.takes .host Reg.STN_BANK_SWAP = true ∧ (0x80000001 : Word).getLsbD 31 = true ∧
    on.feat 48 = true ∧ (stn 1 0 []).activeBank = 0 ∧ (stn 9 0 []).activeBank = 1 := by decide +kernel
/-- A current whose main path is lost and that may change range is due to the fallback path (R299). -/
theorem wit_StationSignals_range : (stn 1 16 [(32, 129), (48, 1)]).rangeDue ((stn 1 16 [(32, 129), (48, 1)]).pat 14) 0 = some true ∧
    (stn 1 0 [(32, 129), (48, 1)]).rangeDue ((stn 1 0 [(32, 129), (48, 1)]).pat 14) 0 ≠ some true := by decide +kernel

/-- A verified CLEAR_STATS open since tick 0. -/
def ecl (s : State) (e f : Bool) (n : Nat) : State := tk { s with key := { s.key with statsAt := some { since := 0, periods := 7, firn := f, energy := e } } } n
def save (k kind : Nat) : State := let s := wr on [(Reg.STN_SAVE_PERIOD, 1)]; { s with stn := { s.stn with save := some (k, { kind := kind }) } }
def epo (act : Bool) : State :=
  let s := wr (pat on 14 1200 [(1136, 1 + 65536)]) [(Reg.STN_EPO_OWED 0, 1)]
  { s with stn := { s.stn with epo := [(0, { active := act })], bays := [(0, { n := 1 })] } }
/-- A local source at 50 frames/s in a window of one cycle, with samples since `f`. -/
def pmu (f : Option Nat) : State :=
  let s := wr (pat (pat on 4 40 [(0, 1), (16, 3), (18, 50 * 2 ^ 24)]) 14 1200 []) [(Reg.STN_STATUS, 1)]
  { s with stn := { s.stn with firstT := f }, time := { s.time with sec := 1 } }

theorem wit_EnergyAndSaves : on.ticking = true ∧ on.injects 4 = false ∧ (epo true).bit Reg.STN_STATUS 0 = false ∧ (wr (epo true) [(Reg.STN_STATUS, 1)]).bit Reg.STN_STATUS 0 = true ∧
    ((epo true).bay 0).n ≠ 0 ∧ (epo false).epoOn ((epo false).pat 14) 0 = true ∧ ((epo false).epo 0).active = false ∧ ((epo true).epo 0).active = true ∧
    (epo false).rn (Reg.STN_EPO_OWED 0) ≠ 0 ∧ ((epo false).epo 0).since + fld (epoWord ((epo false).pat 14) 0 0) 16 16 * 2500 = (tk (epo false) 2500).time.ticks ∧
    on.epoOn (on.pat 14) 0 = false ∧ (save 0 0).rn Reg.STN_SAVE_PERIOD ≠ 0 ∧ on.feat 52 = true ∧
    (save 0 0).stn.saveAt + (save 0 0).rn Reg.STN_SAVE_PERIOD * 250000000 = (tk (save 0 0) 250000000).time.ticks ∧ on.stn.save = none ∧
    ((save 0 0).stn.save.map fun y => y.2.kind) = some 0 ∧ ((save 1 1).stn.save.map fun y => y.2.kind) = some 1 ∧ on.rn Reg.STN_SAVE_PERIOD = 0 ∧
    localStream (on.pat 4) = none ∧ localStream ((pmu none).pat 4) = some 0 ∧ (pmu none).measuring = true ∧
    fld (strWord ((pmu none).pat 4) 0 2) 24 8 = 50 ∧ (pmu none).pmuWindow ((pmu none).pat 14) ≠ 0 ∧ (pmu none).stn.firstT = none ∧ (pmu none).stn.pmuT = none ∧
    0 + (pmu (some 0)).pmuWindow ((pmu (some 0)).pat 14) / 2 ≤
      instT0 50 (latestInst 50 (((pmu (some 0)).nowNs : Int) - ((pmu (some 0)).pmuWindow ((pmu (some 0)).pat 14) / 2 : Nat) - 1944444).toNat) ∧
    (ecl on true true 249999999).takes .host Reg.STN_ECLR = true ∧ (0x80000000 : Word).getLsbD 31 = true ∧
    (ecl on true true 249999999).time.ticks < 0 + 250000000 ∧ on.key.statsAt = none ∧ 0 + 250000000 ≤ (ecl on true true 250000000).time.ticks := by decide +kernel

/-- An AUXSEQ of `n` entries, continuous each 1 µs, a scan running of it, `u` urgent conversions waiting behind one that runs. -/
def aux (n w0 : Nat) (run : Bool) (held : Option Nat) (u : Nat) : State :=
  let s := pat on 15 80 [(0, n), (1, 1), (4, w0)]
  { s with aux := { s.aux with run := if run then some { body := s.pat 15, entry := 0 } else none, held := held, urgent := List.replicate u 5, urg := if u = 0 then none else some 5 } }
/-- A firn update waiting; record (0, 0, 0) poisoned or not; a boundary passed. -/
def firn (bad : Bool) : State :=
  let s := wr on (if bad then [(Reg.FIRN_POISON 0, 0x80002000)] else [])
  { s with firn := { s.firn with queue := [{ qty := 0, v := 0, t := 0 }] }, time := { s.time with sec := 60 } }

theorem wit_AuxAndFirn : on.takes .host Reg.AUX_CTRL = true ∧ (0x80000000 : Word).getLsbD 31 = true ∧ on.feat 53 = true ∧ auxCnt on.auxBody ≤ 0 ∧
    0 < auxCnt (aux 1 0 false none 0).auxBody ∧ (aux 1 0 false none 0).aux.run = none ∧ (aux 1 0 true none 0).aux.run.isSome = true ∧
    (aux 1 0 true none 0).aux.held = none ∧ (aux 1 0 true (some 0) 0).aux.held.isSome = true ∧ on.takes .host Reg.AUX_URGENT = true ∧
    (aux 1 0 true none 3).aux.urgent.length < 4 ∧ 4 ≤ (aux 1 0 true none 4).aux.urgent.length ∧ wf on.auxBody 1 0 16 = 0 ∧
    wf (aux 1 0 false none 0).auxBody 1 0 16 ≠ 0 ∧ (tk (aux 1 0 false none 0) 250).aux.contAt + 1 * 250 = (tk (aux 1 0 false none 0) 250).time.ticks ∧
    (aux 1 0 true none 0).aux.urg = none ∧ (aux 1 0 true none 1).aux.urg = some 5 ∧ (aux 1 0 true none 1).aux.urg.isSome = true ∧
    (aux 1 0 false none 0).converting = false ∧ (aux 1 0 true none 0).converting = true ∧ (aux 1 0 true none 4).converting = true ∧
    (aux 1 0 true none 0).aux.since + 0 + 250 ≤ (tk (aux 1 0 true none 0) 250).time.ticks ∧ ((aux 1 0 true none 0).aux.run.map fun x => x.ext) = some 0 ∧
    (tk (aux 1 0 true none 0) 249).time.ticks < (aux 1 0 true none 0).aux.since + 250 ∧ 1 < 2 ^ fld (auxWord ((aux 1 16 true none 0).pat 15) 0 0) 4 3 ∧
    2 ^ fld (auxWord ((aux 1 0 true none 0).pat 15) 0 0) 4 3 ≤ 1 ∧ auxCnt ((aux 1 0 true none 0).pat 15) ≤ 0 + 1 ∧
    0 + 1 < auxCnt ((aux 2 0 true none 0).pat 15) ∧ fld (auxWord ((aux 2 0 true none 0).pat 15) 0 0) 12 1 = 0 ∧ on.firn.queue = [] ∧ (firn false).firn.queue ≠ [] ∧
    (firn true).firnBad 0 0 0 = true ∧ (firn false).firnBad 0 0 0 = false ∧ (firn false).flt.inject = none ∧ on.feat 58 = true ∧
    ((on.utcNs / 1000000000).toNat / 60 * 60) ≤ Tbl.get on.firn.bound 0 0 ∧
    Tbl.get (firn false).firn.bound 0 0 < ((firn false).utcNs / 1000000000).toNat / 60 * 60 ∧ on.takes .host Reg.FIRN_CLR = true ∧
    (ecl on true true 249999999).time.ticks < 0 + 250000000 ∧ (7 &&& 7 : Nat) = 7 := by decide +kernel

/-- A RECORD of one plan and one enabled trigger of KIND `kind`; the plan in state `st`; the trigger armed where `arm`. -/
def cap (kind st arm : Nat) : State :=
  let s := wr (pat on 16 40 [(0, 1 + 256), (4, 1), (16, 1), (24, 1 + kind * 2)]) [(Reg.CAP_PLAN_STATE 0, st), (Reg.CAP_TRIG_ARMED_LO, arm)]
  { s with cap := { s.cap with due := [(0, some 7)], plans := [(0, { waiting := [{ t := 0, epoch := 0, step := false, elems := [], stats := [] }] })]
                               spill := [{ plan := 0, slot := 0, addr := 0, len := 64, seq := 0 }] } }

theorem wit_CaptureRecords : trigNeedArm (cap 0 0 0).recBody 0 = false ∧ fld (trigWord (cap 0 0 0).recBody 0 0) 4 4 = 0 ∧
    (cap 0 capPost 0).planState 0 = capPost ∧ (cap 0 capStopped 0).planState 0 ≠ capPost ∧ (cap 0 capStopped 0).planState 0 ≠ capArmed ∧
    on.takes .host Reg.CAP_TRIG_ARM = true ∧ (0x80000000 : Word).getLsbD 31 = true ∧ trigCnt on.recBody ≤ 0 ∧ 0 < trigCnt (cap 0 0 0).recBody ∧
    trigEn (cap 0 0 0).recBody 0 = true ∧ (cap 0 0 0).trigArmed 0 = false ∧ (cap 0 0 1).trigArmed 0 = true ∧ trigKind (cap 0 0 0).recBody 0 = 0 ∧
    trigKind (cap 2 0 0).recBody 0 ≠ 0 ∧ on.takes .host Reg.CAP_TRIG_FIRE = true ∧ on.takes .host Reg.CAP_PLAN_CTRL = true ∧
    0 < planCnt (cap 0 0 0).recBody ∧ planCnt (cap 0 0 0).recBody ≤ 1 ∧ (cap 0 capArmed 0).planState 0 = capArmed ∧
    (cap 0 capStopped 0).planState 0 = capStopped ∧ (0x300 : Word).getLsbD 9 = true ∧ (0x300 : Word).getLsbD 8 = true ∧
    Tbl.get on.cap.due 0 none = none ∧ Tbl.get (cap 0 0 0).cap.due 0 none = some 7 ∧ (Tbl.get (cap 0 0 0).cap.due 0 none).isSome = true ∧ on.capComplete 0 = false ∧ (on.plan 0).waiting = [] ∧
    ((cap 0 0 0).plan 0).waiting ≠ [] ∧ (cap 0 0 0).cap.spill ≠ [] ∧ on.cap.spill = [] ∧ (cap 0 0 0).bit Reg.CAP_SPILL_STATE 0 = false ∧
    (cap 0 0 0).spillFits (cap 0 0 0).recBody 64 = true ∧ (cap 0 0 0).spillW + 64 ≤ spillSize (cap 0 0 0).recBody ∧
    on.takes .host Reg.CAP_SPILL_RPTR_HI = true ∧ on.feat 57 = true := by decide +kernel
theorem wit_CaptureRecords_complete :
    (let s := cap 0 capPost 0
     ({ s with cap := { s.cap with plans := [(0, { trow := some 0, fill := 1 })] } } : State).capComplete 0) = true := by decide +kernel

/-- A DISPATCH of one thread of word `t0` and one job of word `j0`, the cores released. -/
def dsp (t0 j0 : Nat) : State := wr (pat on 17 40 [(0, 1 + 65536), (1, 0x10000000), (16, t0), (20, j0)]) [(Reg.DISP_CORE_RUN, 255), (Reg.DISP_BOOT, 6)]
/-- Thread 0 in state `st`; core 7 with a slot and a running thread. -/
def thd (st : Nat) (slot : Option Nat) (v : Bool) (run : Option Nat) : State :=
  let s := dsp 0x3FF81 0
  { s with disp := { s.disp with threads := [(0, { state := st })], cores := [(7, { slot := slot, valid := v, running := run })], ready := if st = 1 then [(0, [0])] else [] } }
def post0 : Post := { thread := 0, port := 0, value := 0, src := 0 }
def bufs (n : Nat) (i : List Post) : State := let s := dsp 1 0; { s with disp := { s.disp with posts := List.replicate n post0, intake := i } }

theorem wit_DispatcherTokens : up.img.inForce = false ∧ thrExists (on.pat 17) 0 = false ∧ (dsp 0x101 0).img.inForce = true ∧
    thrExists ((dsp 0x101 0).pat 17) 0 = true ∧ thrNtok ((dsp 0x101 0).pat 17) 0 = 2 ∧ Tbl.get ((dsp 0x101 0).thread 0).filed 1 none = none ∧
    ((dsp 0x101 0).thread 0).complete 2 = false ∧ ((thd 3 none false none).thread 0).state ≠ 0 ∧ (dsp 1 0).coresRun = true ∧
    (bufs 63 []).disp.posts.length < 64 ∧ 64 ≤ (bufs 64 []).disp.posts.length ∧ (bufs 0 [post0]).fireJobs.disp.intake ≠ [] ∧ (bufs 1 []).fireJobs.disp.intake = [] ∧
    (bufs 1 []).fireJobs.disp.posts ≠ [] ∧ on.fireJobs.disp.posts = [] ∧ on.fireJobs.disp.intake = [] ∧ ((thd 0 none false none).thread 0).state = 0 ∧
    ({ state := 0, filed := [(0, some 1), (1, some 2)] } : Thread).complete 2 = true ∧ on.disp.cancels.contains 0 = false ∧
    Tbl.get on.disp.zeroT 0 0 < (tk on 1).time.ticks ∧ (wr (dsp 1 1) [(Reg.DISP_JOB 0, 2)]).rn (Reg.DISP_JOB 0) = 2 ∧
    (wr (dsp 1 1) [(Reg.DISP_JOB 0, 1)]).rn (Reg.DISP_JOB 0) = 1 ∧ jobCnt (on.pat 17) ≤ 0 ∧ 0 < jobCnt ((dsp 1 1).pat 17) ∧ fld (jobWord ((dsp 1 0).pat 17) 0 0) 0 16 = 0 ∧
    fld (jobWord ((dsp 1 1).pat 17) 0 0) 0 16 ≠ 0 ∧ (dsp 1 1).rn (Reg.DISP_JOB 0) = 0 ∧ (wr (dsp 1 1) [(Reg.DISP_JOB 0, 1)]).rn (Reg.DISP_JOB 0) ≠ 0 ∧
    on.quiet.popNote.1 = none ∧ ({ on with seam := { on.seam with notes := [.merge] } } : State).quiet.popNote.1 = some .merge ∧ on.disp.trace = [] ∧
    (wr on [(Reg.DISP_TRACE_WPTR, 65535)]).rn Reg.DISP_TRACE_WPTR % 2 ^ 16 = 65535 ∧ on.rn Reg.DISP_TRACE_WPTR % 2 ^ 16 ≠ 65535 ∧
    on.takes .host Reg.DISP_JOB_DEC = true ∧ on.takes .host Reg.DISP_POST = true ∧ (bufs 0 (List.replicate 63 post0)).disp.intake.length < 64 ∧ (dsp 1 0).pwr.state = .run := by decide +kernel

theorem wit_DispatcherCores : (dsp 1 0).coresRun = true ∧ (thd 1 (some 0) false none).coreRuns 7 = true ∧
    (thd 1 none false none).bestFor ((thd 1 none false none).pat 17) 7 0 64 = some 0 ∧ (thd 0 none false none).bestFor ((thd 0 none false none).pat 17) 7 0 64 = none ∧
    ((thd 2 (some 0) false none).core 7).slot = some 0 ∧ ((thd 2 (some 0) false none).core 7).valid = false ∧ ((thd 2 (some 0) true none).core 7).valid = true ∧
    ((thd 2 (some 0) true none).core 7).running = none ∧ ((thd 3 none false (some 0)).core 7).running = some 0 ∧ on.img.inForce = true ∧
    thrExists (on.pat 17) 0 = false ∧ thrExists ((thd 1 none false none).pat 17) 0 = true ∧ ((thd 0 none false none).thread 0).state = 0 ∧ (thd 2 none false none).coreRuns 7 = true ∧ (dsp 1 0).coreRuns 7 = true ∧
    ((thd 1 none false none).thread 0).state = 1 ∧ ((thd 3 none false none).thread 0).state = 3 ∧ (dsp 1 0).rf Reg.DISP_BOOT 0 4 ≠ 0 ∧
    on.rf Reg.DISP_BOOT 0 4 = 0 ∧ rec.rf Reg.DISP_BOOT 0 4 = 4 ∧ on.takes .host Reg.DISP_CANCEL = true ∧ on.takes .host Reg.DISP_CORE_RUN = true := by decide +kernel


/-! ## Witnesses: station link -/

/-- A NODUKO pattern of own number 1 with word 0 as given besides; NDK_STATUS `st`; the clock at tick `n`. -/
def ndk (w0 st n : Nat) : State :=
  tk (wr (pat on 18 20 [(0, 1 + w0), (1, 0x10001), (2, 0x20001), (3, 0x10001), (4, 1)]) [(Reg.NDK_STATUS, st)]) n
/-- A stored cell due at tick 10 sent `n` times; an acknowledgement to device 2 due at tick 10; a round out since tick 0. -/
def ndkDue (w0 st n sends : Nat) : State :=
  let s := ndk w0 st n
  { s with ndk := { s.ndk with store := [{ seq := 1, left := 4, sends := sends, due := 10, cell := [] }]
                               peers := [(2, { ackDue := some 10 })], round := some 0 } }
/-- A standby device of mirror role `r` and peer 2, its state decided or not. -/
def mir (r n : Nat) (decided : Bool) (serial : Option Nat) : State :=
  let s := ndk (r * 2 ^ 11 + 2 * 2 ^ 13) 3 n
  { s with ndk := { s.ndk with decided := decided, peers := [(2, { serial := serial, active := serial.isSome })] } }

theorem wit_StationLinkTimers : on.ndkOn = false ∧ (ndk 0 3 0).ndkOn = true ∧ (ndk 0 3 0).ticking = true ∧ (ndk 0 3 0).alive = true ∧
    (ndk 0 2 0).laneUp 0 = true ∧ (ndk 0 2 0).laneUp 1 = false ∧ (ndk 0 1 0).laneUp 1 = true ∧ (ndk 0 1 0).laneUp 0 = false ∧
    (ndk 0 6 0).bit Reg.NDK_STATUS (2 + 0) = true ∧ (ndk 0 3 0).bit Reg.NDK_STATUS (2 + 0) = false ∧
    Tbl.get (ndk 0 6 249999).ndk.upAt 0 0 + wf (ndk 0 6 0).ndkBody 3 16 16 * 250000 ≤ (ndk 0 6 249999).time.ticks + 1 ∧
    (ndk 0 6 249998).time.ticks + 1 < Tbl.get (ndk 0 6 0).ndk.upAt 0 0 + wf (ndk 0 6 0).ndkBody 3 16 16 * 250000 ∧
    (ndk 0 3 0).ndk.store = [] ∧ ((ndkDue 0 3 10 1).ndk.store.find? (fun x => x.due ≤ 10)).isSome = true ∧
    ((ndkDue 0 3 9 1).ndk.store.find? (fun x => x.due ≤ 9)).isSome = false ∧ wf (ndk 0 3 0).ndkBody 2 16 4 = 2 ∧
    (ndkDue 0 3 10 1).flt.inject = none ∧ ((ndk 0 3 0).ndkPeer 2).ackDue = none ∧ ((ndkDue 0 3 9 1).ndkPeer 2).ackDue = some 10 ∧
    (ndk 8 3 0).ndkMaster = false ∧ (ndk 8 19 0).ndkMaster = true ∧ wf (ndk 0 3 0).ndkBody 0 3 1 ≠ 1 ∧ wf (ndk 8 3 0).ndkBody 0 3 1 = 1 ∧
    (ndk 0 3 0).ndkAlone = false ∧ (ndk 0 0 0).ndkAlone = true ∧
    (ndk 8 3 500).ndk.lastPoll + wf (ndk 8 3 0).ndkBody 1 16 16 * 250 * (1 + (ndk 8 3 0).devNum) = (ndk 8 3 500).time.ticks ∧
    (ndkDue 8 19 0 1).ndk.round = some 0 ∧ (ndk 8 19 0).ndk.round = none ∧ 0 + wf (ndk 8 19 0).ndkBody 1 0 16 * 250 = (ndk 8 19 250).time.ticks ∧
    (ndk 8 19 0).ndk.timeAt + wf (ndk 8 19 0).ndkBody 4 0 10 * 250000 = (ndk 8 19 250000).time.ticks ∧
    on.standby = false ∧ (mir 1 0 false none).standby = true ∧ (mir 1 0 false none).ndk.decided = false ∧
    (mir 1 250 false none).ndk.loadAt + wf (mir 1 0 false none).ndkBody 3 0 16 * 250 = (mir 1 250 false none).time.ticks ∧ (mir 1 0 false none).mrole = 1 ∧
    ((mir 1 0 false none).ndkPeer 2).active = false ∧ (mir 2 0 false none).mrole ≠ 1 ∧ (mir 1 0 false none).ndkPeerNum = 2 ∧
    ((mir 1 0 false (some 0)).ndkPeer 2).active = true ∧ (mir 1 0 true none).ndk.decided = true ∧
    ((mir 1 0 true (some 0)).ndkPeer 2).serial = some ((mir 1 0 true none).rn Reg.FEAT_IMG_SERIAL) ∧
    ((mir 1 0 true none).ndkPeer 2).serial ≠ some ((mir 1 0 true none).rn Reg.FEAT_IMG_SERIAL) ∧ (mir 1 0 true none).bit Reg.NDK_MIRROR 1 = false ∧
    (wr (mir 1 0 true none) [(Reg.NDK_MIRROR, 2)]).bit Reg.NDK_MIRROR 1 = true ∧
    (max ((mir 1 250 true none).ndkPeer 2).heard (mir 1 250 true none).ndk.loadAt + wf (mir 1 0 true none).ndkBody 3 0 16 * 250 = (mir 1 250 true none).time.ticks) ∧ on.takes .host Reg.NDK_MIRROR_CTRL = true := by
  decide +kernel

/-- A cell of kind `k` from device `d` to device 1, its first word besides `w`, of sequence `n`. -/
def cell (k d w n : Nat) : List Byte := ndkFinish (ndkCell (k + d * 8 + 2 * 64 + w) n 0 [] [])
/-- The last data sequence delivered of device 2 was 64, with its window; its last control sequence 4. -/
def heard (win : BitVec 64) : State :=
  let s := ndk 0 3 0
  { s with ndk := { s.ndk with peers := [(2, { high := some 64, win := win, ctl := some 4 })] } }

theorem leNat_leBytes4 (n : Nat) (h : n < 2 ^ 32) : leNat (leBytes 4 n) = n := by
  simp only [leBytes, leNat, BitVec.toNat_ofNat]; omega
/-- A finished cell of 240 bytes carries the CRC of those bytes; of two cells of the same 240 bytes that differ in the CRC field, one does not. -/
theorem wit_StationLinkCells_crc (c : List Byte) (h : c.length = 240) :
    leNat (slice (ndkFinish c) 240 4) = (crc32 ((ndkFinish c).take 240)).toNat ∧
    (leNat (slice (c ++ ([0, 0, 0, 0] ++ List.replicate 12 0)) 240 4) ≠ (crc32 ((c ++ ([0, 0, 0, 0] ++ List.replicate 12 0)).take 240)).toNat ∨
      leNat (slice (c ++ ([1, 0, 0, 0] ++ List.replicate 12 0)) 240 4) ≠ (crc32 ((c ++ ([1, 0, 0, 0] ++ List.replicate 12 0)).take 240)).toNat) := by
  have e : ∀ a b : List Byte, (c ++ (a ++ b)).take 240 = c := fun a b => by rw [← h, List.take_left]
  have f : ∀ a b : List Byte, a.length = 4 → slice (c ++ (a ++ b)) 240 4 = a := fun a b k => by
    rw [slice, ← h, List.drop_left, ← k, List.take_left]
  refine ⟨?_, ?_⟩
  · rw [ndkFinish, List.take_of_length_le (by omega), List.append_assoc, e, f _ _ (by simp [leBytes]),
      leNat_leBytes4 _ (BitVec.isLt _)]
  · rw [e, e, f _ _ rfl, f _ _ rfl, show leNat ([0, 0, 0, 0] : List Byte) = 0 from rfl, show leNat ([1, 0, 0, 0] : List Byte) = 1 from rfl]
    omega

theorem wit_StationLinkCells : (ndk 0 3 0).alive = true ∧ on.ndkOn = false ∧ (ndk 0 3 0).ndkOn = true ∧ (ndk 0 3 0).laneUp 0 = true ∧
    (cell 2 2 0 1).length = 256 ∧ ((cell 2 2 0 1).take 255).length < 256 ∧ 256 < (cell 2 2 0 1 ++ [0]).length ∧
    wf (cell 0 2 0 1) 0 0 3 = 0 ∧ wf (cell 1 2 0 1) 0 0 3 = 1 ∧ wf (cell 2 2 0 1) 0 3 3 ≠ (ndk 0 3 0).devNum ∧
    wf (cell 2 1 0 1) 0 3 3 = (ndk 0 3 0).devNum ∧ (heard 0).controlNew 2 5 = true ∧ (heard 0).controlNew 2 4 = false ∧ (ndk 0 3 0).controlNew 2 0 = true ∧
    fld (wf (cell 2 2 0 1) 0 6 8) 1 1 ≠ 0 ∧ fld (wf (cell 2 2 0 1) 0 6 8) 3 1 = 0 ∧ ((ndk 0 3 0).openCell (cell 2 2 (2 ^ 14) 1)).1 = none ∧
    ((ndk 0 3 0).openCell (cell 3 2 0 1)).1.isSome = true ∧ wf (cell 3 2 0 1) 0 0 3 = 3 ∧ wf (cell 4 2 0 1) 0 0 3 = 4 ∧ wf (cell 5 2 0 1) 0 0 3 = 5 ∧
    ((ndk 0 3 0).ndkPeer 2).high = none ∧ ((heard 1).ndkPeer 2).high = some 64 ∧ sInt 48 (65 + 2 ^ 48 - 64) = 1 ∧ sInt 48 (127 + 2 ^ 48 - 64) = 63 ∧
    sInt 48 (128 + 2 ^ 48 - 64) = 64 ∧ sInt 48 (64 + 2 ^ 48 - 64) = 0 ∧ sInt 48 (1 + 2 ^ 48 - 64) = -63 ∧ sInt 48 (0 + 2 ^ 48 - 64) = -64 ∧
    ((heard 1).ndkPeer 2).win.getLsbD 63 = false ∧ ((heard 1).ndkPeer 2).win.getLsbD 0 = true := by decide +kernel

/-! ## Witnesses: radio -/

/-- One sensor of address 9, level 5, binding 0, with a wake-up receiver; superframes of 1 s, guard 100 µs, PAN 0x77, own address 5; the time LOCKED, at `ns`. -/
def rad (ns : Nat) : State :=
  let s := wr (pat on 19 24 [(0, 2 ^ 16), (3, 1000000), (5, 1000), (6, 100 * 2 ^ 16), (8, 0), (10, 0x77), (11, 5), (16, 9), (18, 1 + 5 * 2 ^ 21 + 2 ^ 24)])
    [(Reg.TIME_STATE, stLocked), (Reg.RADIO_RXQ_BASE, 0x10000000)]
  { s with time := { s.time with ns := BitVec.ofNat 32 ns } }
/-- Key slot 1 usable by the radio under binding 0, key index 3. -/
def radKey (s : State) : State :=
  let s := wr s [(Reg.KEY_SLOT_HDR 1 0, 1 + 2 ^ 7 + 2 ^ 13), (Reg.KEY_SLOT_HDR 1 1, 3), (Reg.KEY_BIND 0, 1 + 255 * 2 ^ 8)]
  { s with key := { s.key with roots := [(0, 1)], slots := [(1, { material := List.replicate 16 7, sealedBy := 1, tagOk := true })] } }
/-- A secured data frame from address `a`, with a 4-octet MIC field, its counter and its FCS field. -/
def radFrame (a ctr : Nat) : List Byte :=
  leBytes 2 (1 + 2 ^ 3 + 2 ^ 5 + 3 * 2 ^ 10 + 2 * 2 ^ 12 + 3 * 2 ^ 14) ++ [1] ++ leBytes 2 0x77 ++ leBytes 8 5 ++ leBytes 8 a ++ [13] ++ leBytes 4 ctr ++
    [3, 0, 0, 0, 0]
/-- That frame as received, with its FCS or with one of its octets wrong. -/
def radRx (f : List Byte) (ms bad : Bool) : RadioRx :=
  { psdu := if bad then f ++ (leBytes 2 ((fcs16 f).toNat ^^^ 1)) else withRadioFcs false f, ms := ms, fcs4 := false, sfd := 0, rssi := 0, lqi := 0 }
/-- The frame as parsed. -/
def mhr (ar ctr : Nat) (rest : List Byte) : Mhr :=
  { fcf := 0xEC09 + ar * 2 ^ 5, seq := some 1, dpan := some 0x77, dst := some 5, src := some 9, level := 5, keyMode := 1, ctr := ctr, keyId := 3, rest := rest }

theorem wit_RadioReception : on.radioOn = false ∧ (rad 0).radioOn = true ∧ (rad 0).ticking = true ∧ (rad 0).alive = true ∧ (rad 0).disc ≠ stUnset ∧ on.disc = stUnset ∧
    (rad 0).radio.next * sfNs (rad 0).radBody ≤ (rad 0).nowNs ∧
    (({ rad 0 with radio := { (rad 0).radio with next := 1 } } : State).nowNs < 1 * sfNs (rad 0).radBody) ∧ (rad 0).utcHour = (rad 0).radio.hour ∧
    ({ rad 0 with time := { (rad 0).time with sec := 3600 } } : State).utcHour ≠ (rad 0).radio.hour ∧ ((rad 0).windowOf 0 0).isSome = true ∧
    ((rad 0).windowOf 0 100000).isSome = true ∧ ((rad 0).windowOf 0 100001).isSome = false ∧ snsOn (rad 0).radBody 0 = true ∧
    snsOn (rad 0).radBody 1 = false ∧ (rad 1000000).slotEnded 0 0 = true ∧ (rad 999999).slotEnded 0 0 = false ∧ (rad 0).slotIn 0 0 = true ∧
    (parseMhr (radFrame 9 5)).isSome = true ∧ (parseMhr ((radFrame 9 5).take 9)).isSome = false ∧ (radRx (radFrame 9 5) false false).psdu.length ≥ 9 ∧
    (parseMhr (radFrame 9 5)).map (fun m => (rad 0).radioSource m) = some (some 0) ∧ (parseMhr (radFrame 8 5)).map (fun m => (rad 0).radioSource m) = some none ∧
    (rad 0).ackAwaited = none ∧ fld 0x2002 0 3 = 2 ∧ fld 0x2002 12 2 = 2 ∧
    withRadioFcs false (radFrame 9 5) = (radRx (radFrame 9 5) false false).psdu ∧
    withRadioFcs false (radFrame 9 5) ≠ (radRx (radFrame 9 5) false true).psdu ∧ (radRx [] false false).psdu.length < 9 ∧ ((rad 0).radioKey 0 (mhr 0 5 [])).1 = none ∧ ((radKey (rad 0)).radioKey 0 (mhr 0 5 [])).1.isSome = true ∧
    openFrame [] 9 (mhr 0 5 []) = none ∧ (mhr 0 0xFFFFFFFF []).ctr = 0xFFFFFFFF ∧ (mhr 0 5 []).ctr ≠ 0xFFFFFFFF ∧ fld (mhr 0 5 []).fcf 5 1 = 0 ∧
    fld (mhr 1 5 []).fcf 5 1 = 1 ∧ on.takes .host Reg.RADIO_RXQ_POP = true ∧ on.radio.rxCount = 0 ∧
    ({ rad 0 with radio := { (rad 0).radio with rxCount := 1 } } : State).radio.rxCount ≠ 0 := by decide +kernel
/-- A frame whose MIC field holds what CCM* gives for it, of the 4 octets of level 5, opens. -/
theorem wit_RadioReception_opens (h : (Config.ccmMic [] (ccmNonce 9 5 5) [] (Config.ccmCtr [] (ccmNonce 9 5 5) []) 4).length = 4) :
    openFrame [] 9 (mhr 0 5 (Config.ccmMic [] (ccmNonce 9 5 5) [] (Config.ccmCtr [] (ccmNonce 9 5 5) []) 4)) =
      some (Config.ccmCtr [] (ccmNonce 9 5 5) []) := by
  simp [openFrame, mhr, micLen, h]
/-- The checks of R385 in order: each frame adds to the counter of the first check it fails. -/
theorem test_radio_order :
    ((rad 0).radioChecks 0 (radRx (radFrame 9 5) true true)).rn Reg.RADIO_SHORT_CNT = 1 ∧
    ((rad 0).radioChecks 0 (radRx (radFrame 9 5) false true)).rn Reg.RADIO_FCS_ERR_CNT = 1 ∧
    ((rad 0).radioChecks 0 (radRx (radFrame 8 5) false false)).rn Reg.RADIO_UNKNOWN_CNT = 1 ∧
    ((rad 0).radioChecks 100001 (radRx (radFrame 9 5) false false)).rn Reg.RADIO_SLOT_ERR_CNT = 1 ∧
    ((rad 0).radioChecks 100000 (radRx (radFrame 9 5) false false)).rn Reg.RADIO_AUTH_FAIL_CNT = 1 := by decide +kernel

/-- An acknowledgement due at tick 10; a wake-up for superframe 1; a downlink frame due at tick 10 and awaited until then, sent `n` times. -/
def radOut (tick ns n : Nat) (q : Bool) : State :=
  let s := tk (rad ns) tick
  { s with radio := { s.radio with
      ack := some { due := 10, sensor := 0, key := [], keyId := 3, err := 0, seq := none, tnom := 0, accepted := true }
      sensors := [(0, { wakeIn := some 1 })], down := some (10, 0), await := some (10, 0)
      txq := if q then [{ sensor := 0, data := [], sends := n }] else [] } }
def radHold (s : State) : State := wr s [(Reg.RADIO_STATUS, 2)]

theorem wit_RadioSending : (rad 0).alive = true ∧ (rad 0).radio.ack = none ∧ (radOut 10 0 0 true).radio.ack.isSome = true ∧ (radOut 9 0 0 true).time.ticks < 10 ∧
    (radOut 10 0 0 true).radioOn = true ∧ (radHold (radOut 10 0 0 true)).dutyHold = true ∧ (radOut 10 0 0 true).dutyHold = false ∧
    0xFFFFFFFF ≤ (wr (rad 0) [(Reg.RADIO_SNS_TXCTR 0, 0xFFFFFFFE)]).rn (Reg.RADIO_SNS_TXCTR 0) + 1 ∧
    (wr (rad 0) [(Reg.RADIO_SNS_TXCTR 0, 0xFFFFFFFD)]).rn (Reg.RADIO_SNS_TXCTR 0) + 1 < 0xFFFFFFFF ∧ ((rad 0).sensor 0).wakeIn = none ∧
    ((radOut 0 0 0 true).sensor 0).wakeIn = some 1 ∧ (radOut 0 0 0 true).nowNs + (wf (rad 0).radBody 8 0 16 + 960 * 1) * 1000 < 1 * sfNs (rad 0).radBody ∧
    1 * sfNs (rad 0).radBody ≤ (radOut 0 999040000 0 true).nowNs + (wf (rad 0).radBody 8 0 16 + 960 * 1) * 1000 ∧ (rad 0).wakes 0 = true ∧
    (wr (rad 0) [(Reg.FEAT_ACC 2, 0x300)]).wakes 0 = false ∧ (rad 0).radio.down = none ∧ (radOut 0 0 0 true).radio.down = some (10, 0) ∧
    ((radOut 0 0 0 false).radio.txq.find? fun x => x.sensor = 0) = none ∧ ((radOut 0 0 2 true).radio.txq.find? fun x => x.sensor = 0).isSome = true ∧
    ((rad 0).takeBound engRadio 0 3 false).1 = none ∧ ((radKey (rad 0)).takeBound engRadio 0 3 false).1.isSome = true ∧
    ((rad 0).advanceCtr (Reg.RADIO_SNS_TXCTR 0)).1 = some 1 ∧
    ((wr (rad 0) [(Reg.RADIO_SNS_TXCTR 0, 0xFFFFFFFE)]).advanceCtr (Reg.RADIO_SNS_TXCTR 0)).1 = none ∧ (rad 0).radio.await = none ∧
    (radOut 0 0 0 true).radio.await = some (10, 0) ∧ (radOut 9 0 0 true).ackAwaited = some 0 ∧ on.takes .host Reg.RADIO_TXQ_CTRL = true ∧ (0x80000000 : Word).getLsbD 31 = true ∧
    (rad 0).radio.txq.length < 16 := by decide +kernel

/-! ## Witnesses: keys, faults, resets, host interface -/

/-- Mailbox 1's words, its BUSY bit, the life-cycle state, and a migration to `g`; root 0 is filled. -/
def kst (mb : Tbl Nat) (busy lc : Nat) (g : Option Nat) : State :=
  let s := wr on ([(Reg.KEY_MBX_STATUS 1, busy), (Reg.KEY_STATUS, lc)] ++ mb.map fun e => (Reg.KEY_MBX_BUF 1 e.1, e.2))
  { s with key := { s.key with roots := [(0, 1)], migr := g.map fun t => { target := t, mbx := 1, since := 0 } } }

theorem wit_KeyCommands : (kst [] 0 0 none).alive = true ∧ mbxParty 1 (.core 0) = true ∧ mbxParty 1 .host = false ∧
    (kst [] 0 0 none).bit (Reg.KEY_MBX_STATUS 1) 0 = false ∧ (kst [] 1 0 none).bit (Reg.KEY_MBX_STATUS 1) 0 = true ∧
    (kst [] 0 4 none).lc = 4 ∧ (kst [(0, 1), (1, 1 + 2 ^ 13)] 0 0 none).writeAllowed 1 (1 + 2 ^ 13) = true ∧ (kst [] 0 4 none).writeAllowed 1 0 = false ∧
    (kst [] 0 0 (some 1)).key.migr.isSome = true ∧ (kst [] 0 0 none).key.migr = none ∧ (radKey on).slotState 1 = slotUsable ∧ on.slotState 1 ≠ slotUsable ∧
    (radKey on).bindSlot 0 true = 255 ∧ on.bindSlot 0 true ≠ 255 ∧ (pat on 20 8 [(0, 1)]).bindCnt = 1 ∧ on.feat 80 = true ∧ fw.feat 80 = false ∧
    (on.coreBytes 0x10000000 2592).isSome = true ∧ (on.coreBytes 0 2592).isSome = false ∧
    ([0, 1, 2, 3] : List Nat).contains (kst [] 0 4 none).lc = false ∧ ([0, 1, 2, 3] : List Nat).contains (kst [] 0 3 none).lc = true := by decide +kernel
/-- GENERATE from mailbox 1 in MANUFACTURE of a good header ends OK with the slot usable; slot 64 ends PARAM; during a migration it ends BUSY (R406, R413). -/
theorem test_generate :
    let ok := keyGenerate 1 (.core 0) 0 (kst [(0, 1), (1, 1 + 2 ^ 13)] 0 0 none)
    (keyGenerate 1 (.core 0) 0 (kst [(0, 64), (1, 1 + 2 ^ 13)] 0 0 none)).rn (Reg.KEY_MBX_STATUS 1) = krParam * 256 ∧
    (keyGenerate 1 (.core 0) 0 (kst [(0, 1), (1, 1 + 2 ^ 13)] 0 0 (some 1))).rn (Reg.KEY_MBX_STATUS 1) = krBusy * 256 ∧
    ok.rn (Reg.KEY_MBX_STATUS 1) = 0 ∧ ok.hdr 1 0 1 = 1 ∧ ok.rn (Reg.KEY_SLOT_HDR 1 2) = 1 := by decide +kernel

theorem wit_PrivilegedCommands : (kst [(0, 1)] 0 0 none).mbx 1 0 % 2 ^ 8 = 1 ∧ (kst [(0, 5), (13, 1)] 0 0 none).privParam 1 % 2 ^ 6 ≠ 0 ∧
    (kst [(0, 5)] 0 4 none).lc = lcRetired ∧ (kst [(0, 1)] 0 0 (some 1)).key.migr.isSome = true ∧ ((kst [(0, 1)] 0 0 none).privChecks 1 none).1 = krNonce ∧
    (kst [(0, 1)] 0 0 none).alive = true ∧ (kst [(0, 1)] 0 0 none).ticking = true ∧ Tbl.get on.key.nonces 1 none = none ∧
    (Tbl.get ({ on with key := { on.key with nonces := [(1, some ([], 0))] } } : State).key.nonces 1 none).isSome = true ∧
    0 + 15000000000 ≤ (tk on 15000000000).time.ticks ∧ (tk on 14999999999).time.ticks < 0 + 15000000000 ∧ on.key.statsAt = none ∧ on.key.rearmAt = none ∧
    ({ on with key := { on.key with statsAt := some { since := 0, periods := 0, firn := true, energy := false } } } : State).key.statsAt.isSome = true ∧
    (armed stLocked 250000000).key.rearmAt = some 0 ∧ transitionOk 0 lcProvisioned 1 = true ∧ transitionOk 0 lcDeployed 1 = false ∧
    on.bit Reg.PWR_STATE 2 = false ∧ (wr on [(Reg.PWR_STATE, 4)]).bit Reg.PWR_STATE 2 = true ∧ on.imgState = 2 ∧ hdrOk (pkHeader (1 + 32 * 2 ^ 6 + 2 ^ 15)) = true := by
  decide +kernel
/-- A block that carries the mailbox's nonce of now and the device's UID, signed under a usable slot for USE 6 whose digest and signature agree, passes. -/
theorem wit_PrivilegedCommands_pass (n : List Byte) (s : State) (ticks : s.time.ticks < 15000000000) (nonce : s.mbxBytes 1 20 32 = n)
    (uid : leNat (s.mbxBytes 1 4 16) = Config.uid.toNat)
    (sig : (s.verifySig (fld (s.mbx 1 0) 8 6) 6 (s.mbxBytes 1 128 2592) (Config.sha3_512 (s.mbxBytes 1 0 128)) (s.mbxBytes 1 2720 4627)).1 = krOk) :
    (s.privChecks 1 (some (n, 0))).1 = krOk := by
  simp [State.privChecks, ticks, nonce, uid, sig]

theorem wit_KeyDomainEvents : on.alive = true ∧ on.key.migr = none ∧ (kst [] 1 0 (some 3)).key.migr.isSome = true ∧
    (kst [] 1 0 none).bit (Reg.KEY_MBX_STATUS 1) 0 = true ∧ (kst [] 0 0 none).bit (Reg.KEY_MBX_STATUS 1) 0 = false ∧ on.tamperSeen 0 = false ∧
    (wr on [(Reg.KEY_TAMP_CFG, 1)]).tamperSeen 0 = true ∧ on.tamperSeen 2 = false ∧ (kst [] 0 1 none).tamperSeen 2 = true ∧
    (kst [] 0 1 none).alive = true ∧ State.reset.alive = false ∧ on.time.ticks < 900000000000 + on.key.sweptAt ∧
    (let s : State := { on with time := { on.time with ticks := 900000000000 + on.key.sweptAt } }; s.alive = true ∧
      900000000000 + s.key.sweptAt ≤ s.time.ticks) := by decide +kernel

/-- A level condition of source 34 held; source 34 sticky. -/
def lvl : State := { on with flt := { on.flt with levels := [(34, 0)] } }
def stk : State := wr on [(Reg.FLT_STICKY 1, 4)]
theorem wit_FaultMerged : stk.sticky 34 = true ∧ isLevel 34 = true ∧ lvl.levelHolds 34 = true ∧ on.levelHolds 34 = false := by decide +kernel
theorem wit_FaultsAndEvents : on.sticky 34 = false ∧ on.sticky 95 = false ∧ isLevel 0 = false ∧ isLevel 95 = false ∧ on.alive = true ∧ (0 : Word).getLsbD 31 = false ∧
    (0x80000000 : Word).getLsbD 31 = true ∧ (kst [] 0 4 none).lc = lcRetired ∧ on.lc ≠ lcRetired ∧ hasChecker 49 = true ∧ hasChecker 50 = false ∧
    hasChecker 34 = false ∧ fld (0x80010000 : Word).toNat 16 8 = 1 ∧ fld (0x80000000 : Word).toNat 16 8 = 0 := by decide +kernel
/-- A fault that is cleared while its condition holds is detected anew (R431). -/
theorem test_fault_clear_level : (lvl.detect 34 5 false).sticky 34 = true ∧ ((lvl.detect 34 5 false).clearFault 34).sticky 34 = true ∧
    ((on.detect 34 5 false).clearFault 34).sticky 34 = false := by decide +kernel

/-- A sequence of a kind that runs. -/
def seqOf (k : Option ResetKind) : State := { on with pwr := { on.pwr with seq := k } }
def held (p : Power) : State := { on with pwr := { on.pwr with state := p } }
/-- The watchdog runs with a period of 1 ms, warned or not, `n` ticks after its last start: it expires once they pass the period. -/
def wdt (warned n : Nat) : State :=
  let s := wr on [(Reg.PWR_WDT_CFG, 0x80000001), (Reg.PWR_WDT_STATE, 1 + 2 * warned)]
  { s with pwr := { s.pwr with wdtTicks := n } }

theorem wit_Resets : (seqOf none).pwr.seq = none ∧ (seqOf (some .soft)).pwr.seq = some .soft ∧ resetRank .por < resetRank .soft ∧
    resetRank .soft ≤ resetRank .link ∧ on.pwr.state ≠ .hold ∧ (held .hold).pwr.state = .hold ∧ (wr on [(Reg.PWR_CFG, 1)]).bit Reg.PWR_CFG 0 = true ∧
    on.bit Reg.PWR_CFG 0 = false ∧ (seqOf (some .soft)).pwr.seq.isSome = true ∧ State.reset.pwr.seq = some .por ∧ on.alive = true ∧
    (0xA5C30000 : Word).extractLsb' 16 16 = 0xA5C3 ∧ (0xA5C20000 : Word).extractLsb' 16 16 ≠ 0xA5C3 ∧ on.pwr.ddr0 = false ∧ on.pwr.ddr1 = false ∧
    ({ on with pwr := { on.pwr with ddr0 := true, ddr1 := true } } : State).pwr.ddr0 = true ∧
    ({ on with pwr := { on.pwr with ddr0 := true, ddr1 := true } } : State).pwr.ddr1 = true ∧ on.bit Reg.PWR_WDT_CFG 31 = false ∧
    (wdt 0 0).bit Reg.PWR_WDT_CFG 31 = true ∧ (0x80000001 : Word).toNat &&& 0x8000FFFF ≠ 0x80000000 ∧ (0x80000001 : Word).getLsbD 31 = true ∧
    (1 : Word).getLsbD 31 = false ∧ (0x4B1D : Word).extractLsb' 0 16 = 0x4B1D ∧ (0x4B1C : Word).extractLsb' 0 16 ≠ 0x4B1D ∧
    (wdt 0 250001).wdtExpired = true ∧ (wdt 0 250000).wdtExpired = false ∧ (wdt 0 250001).bit Reg.PWR_WDT_STATE 1 = false ∧
    (wdt 1 250001).wdtExpired = true ∧ (wdt 1 250001).bit Reg.PWR_WDT_STATE 1 = true := by decide +kernel
/-- A SOFT reset during a LINK sequence restarts it as SOFT; a LINK reset during a SOFT sequence leaves it (R438). -/
theorem test_reset_ranks : ((seqOf (some .link)).startReset .soft 0 false).pwr.seq = some .soft ∧ ((seqOf (some .soft)).startReset .link 0 false).pwr.seq = some .soft := by
  decide +kernel

/-- A move to `p` under way, panel 0 holding an instant where `busy`. -/
def moveTo (p : Option Power) (busy : Bool) : State :=
  { on with pwr := { on.pwr with moving := p }, fab := { on.fab with panels := [(0, { taken := if busy then some { t0 := 0 } else none })] } }
def low (x : Bool) (warn : Nat) : State := let s := wr on [(Reg.PWR_SUPMON_CFG, warn)]; { s with pwr := { s.pwr with supLow := x } }

/-- A critical temperature of 400 (its reset value goes by the part's grade). -/
def crit : State := { up with regs := [(Reg.PWR_TEMP_CRIT, 400)] }

theorem wit_OperatingStates : on.alive = true ∧ (0x9A7E0002 : Word).extractLsb' 16 16 = 0x9A7E ∧ (0x9A7E0002 : Word).toNat % 2 ^ 2 = 2 ∧
    (0x9A7E0001 : Word).toNat % 2 ^ 2 = 1 ∧ (0x9A7E0000 : Word).toNat % 2 ^ 2 = 0 ∧ (0 : Word).extractLsb' 16 16 ≠ 0x9A7E ∧
    (wr on [(Reg.FEAT_IMG_STATE, 1)]).imgState = 1 ∧ (kst [] 0 0 (some 1)).key.migr.isSome = true ∧ on.imgState ≠ 1 ∧
    on.pwr.state = .run ∧ (held .park).pwr.state = .park ∧ on.key.migr = none ∧ (moveTo none false).enginesIdle = true ∧ (moveTo none true).pwr.moving = none ∧
    (moveTo none true).enginesIdle = false ∧ (moveTo none false).enginesIdle = true ∧ (moveTo (some .park) true).pwr.moving = some .park ∧
    (moveTo (some .hold) false).pwr.moving = some .hold ∧ (moveTo (some .run) false).pwr.moving = some .run ∧ (low false 900).rf Reg.PWR_SUPMON_CFG 0 10 = 900 ∧
    (899 : BitVec 12).toNat < 900 ∧ (low false 900).pwr.supLow = false ∧ (low true 900).pwr.supLow = true ∧ 900 + 20 < (921 : BitVec 12).toNat ∧
    (920 : BitVec 12).toNat ≤ 900 + 20 ∧ (low false 900).pwr.state ≠ .hold ∧ (low true 900).pwr.seq ≠ some .por ∧ (held .hold).pwr.state = .hold ∧ on.ticking = true ∧
    sInt 12 (crit.rn Reg.PWR_TEMP_CRIT) < (401 : BitVec 12).toInt ∧
    (400 : BitVec 12).toInt ≤ sInt 12 (crit.rn Reg.PWR_TEMP_CRIT) := by decide +kernel

theorem wit_ResetAndPowerCommandsComplete : on.alive = true ∧ (0xA5C30000 : Word).extractLsb' 16 16 = 0xA5C3 ∧ on.bit Reg.PWR_CFG 0 = false ∧
    (wdt 1 250001).alive = true ∧ (wdt 1 250001).wdtExpired = true ∧ (wdt 1 250001).bit Reg.PWR_WDT_STATE 1 = true ∧
    (wdt 0 250001).wdtExpired = true ∧ (wdt 0 250001).bit Reg.PWR_WDT_STATE 1 = false ∧ on.pwr.ddr0 = false ∧ on.pwr.ddr1 = false ∧
    on.bit Reg.PWR_WDT_CFG 31 = false ∧ (0x80000001 : Word).getLsbD 31 = true ∧ (0x80000001 : Word).extractLsb' 0 16 ≠ 0 ∧
    (0x4B1D : Word).extractLsb' 0 16 = 0x4B1D ∧ (wdt 0 0).bit Reg.PWR_WDT_CFG 31 = true ∧ (0x9A7E0001 : Word).extractLsb' 16 16 = 0x9A7E ∧
    (0x9A7E0001 : Word).toNat % 4 = 1 ∧ (0x9A7E0000 : Word).toNat % 4 = 0 ∧ (0x9A7E0002 : Word).toNat % 4 = 2 ∧ on.pwr.state ≠ .park ∧ on.imgState ≠ 1 ∧
    on.key.migr.isNone = true ∧ (held .park).pwr.state ≠ .run ∧ (held .park).alive = true ∧ (held .park).imgState ≠ 1 ∧
    (({ on.quiet with pwr := { on.pwr with moving := some .hold } } : State).showPower).enginesIdle = true ∧
    (({ moveTo none true with pwr := { on.pwr with moving := some .hold } } : State).showPower).enginesIdle = false ∧
    (moveTo (some .park) false).enginesIdle = true ∧ (moveTo (some .park) false).pwr.moving = some .park ∧ (moveTo (some .run) false).pwr.moving = some .run ∧
    (moveTo (some .park) false).alive = true ∧ (899 : BitVec 12).toNat < (low false 900).rf Reg.PWR_SUPMON_CFG 0 10 ∧ (low false 900).pwr.supLow = false ∧
    (low true 900).rf Reg.PWR_SUPMON_CFG 0 10 + 20 < (921 : BitVec 12).toNat ∧ (low true 900).pwr.supLow = true ∧ (low true 900).alive = true ∧
    (seqOf (some .soft)).pwr.seq = some .soft ∧ ResetKind.soft ≠ .por ∧ ResetKind.soft ≠ .pin := by decide +kernel

/-- Ring 0 and 1 enabled with `2 ^ 4` entries, HEAD `h`, TAIL 0, one entry waiting for each, DMA allowed, one entry counted at tick 0. -/
def rings (h : Nat) : State :=
  let s := wr on [(Reg.HQ_RING_CFG 0, 0x104), (Reg.HQ_RING_CFG 1, 0x104), (Reg.HQ_RING_HEAD 0, h), (Reg.HQ_RING_HEAD 1, h), (Reg.HQ_RING_IRQ 0, 2 + 2 ^ 16)]
  { s with hq := { s.hq with linkUp := true, bme := true, ring0 := { log2n := 4, since := 1 }, ring1 := { log2n := 4 }, seamQ := [[1]] }, alm := { s.alm with queue := [[2]] } }
/-- DDR5 channel 0 in service with 2 GiB. -/
def ddr : State := let s := wr on [(Reg.HQ_DDR_SIZE, 8)]; { s with pwr := { s.pwr with ddr0 := true, size0 := 8 } }

theorem wit_HostQueues : on.alive = true ∧ on.hq.bme = false ∧ (rings 0).hq.bme = true ∧ (rings 0).hq.d3hot = false ∧
    ({ on with hq := { on.hq with d3hot := true } } : State).hq.d3hot = true ∧ on.takes .host (Reg.HQ_RING_CFG 0) = true ∧ (0x104 : Word).getLsbD 8 = true ∧
    (4 : Word).getLsbD 8 = false ∧ (rings 0).hringOn 0 = true ∧ on.hringOn 0 = false ∧ on.hringRoom 0 = false ∧ (rings 14).hringRoom 0 = true ∧
    (rings 15).hringRoom 0 = false ∧ (on.quiet.takeEntry 0).1 = none ∧ ((rings 0).quiet.takeEntry 0).1 = some [2] ∧ ((rings 0).quiet.takeEntry 1).1 = some [1] ∧
    (on.hring 0).since = 0 ∧ ((rings 0).hring 0).since ≠ 0 ∧ (rings 0).rn (Reg.HQ_RING_IRQ 0) % 2 ^ 16 ≠ 0 ∧ on.rn (Reg.HQ_RING_IRQ 0) % 2 ^ 16 = 0 ∧
    ((rings 0).hring 0).firstAt + fld ((rings 0).rn (Reg.HQ_RING_IRQ 0)) 16 16 * 250 ≤ (tk (rings 0) 250).time.ticks ∧
    (tk (rings 0) 249).time.ticks < ((rings 0).hring 0).firstAt + fld ((rings 0).rn (Reg.HQ_RING_IRQ 0)) 16 16 * 250 ∧ on.ddrServed 0 = false ∧
    ddr.ddrServed 0 = true ∧ ddr.pwr.state = .run ∧ (park ddr).pwr.state ≠ .run ∧ (park ddr).ddrServed 0 = true ∧ (ddr.quiet.ddrCheck 0 .ue).1 = .ue ∧
    (ddr.quiet.ddrCheck 0 .ok).1 ≠ .ue := by decide +kernel
/-- A BAR2 read in service gives the bytes of DDR5; one not in service gives zeros (R455). -/
theorem test_bar2 : (bar2Read 0 2 .ok (ddr.ddrWrite 0 [5, 6])).out = [.completion [5, 6] false] ∧ (bar2Read 0 2 .ok (on.ddrWrite 0 [5, 6])).out = [.completion [0, 0] false] := by
  decide +kernel

/-- The flash busy; its control word; UART queues of given lengths. -/
def qspi (ctrl : Nat) : State := let s := wr on [(Reg.HQ_QSPI_CTRL, ctrl)]; { s with hq := { s.hq with qspiBusy := true } }
def uart (n : Nat) : State := { on with hq := { on.hq with uartRx := List.replicate n 65, uartTx := List.replicate n 66 } }

theorem wit_FlashSerialDebug : on.alive = true ∧ (qspi 0).hq.qspiBusy = true ∧ on.hq.qspiBusy = false ∧ (0x80000000 : Word).getLsbD 31 = true ∧ (.core 0 : Party) ≠ .host ∧
    ((({ (qspi (2 ^ 29)).quiet with hq := { (qspi 0).hq with qspiBusy := false } } : State).setF Reg.HQ_QSPI_CTRL 30 1 0).bit Reg.HQ_QSPI_CTRL 29) = true ∧
    ((({ (qspi 0).quiet with hq := { (qspi 0).hq with qspiBusy := false } } : State).setF Reg.HQ_QSPI_CTRL 30 1 0).bit Reg.HQ_QSPI_CTRL 29) = false ∧
    (uart 63).hq.uartRx.length < 64 ∧ 64 ≤ (uart 64).hq.uartRx.length ∧ (uart 63).hq.uartTx.length < 64 ∧ 64 ≤ (uart 64).hq.uartTx.length ∧ on.hq.uartRx = [] ∧
    on.hq.uartTx = [] ∧ (uart 1).hq.uartRx = [65] ∧ (uart 1).hq.uartTx = [66] ∧ on.lc = lcManufacture ∧ (kst [] 0 1 none).lc = lcProvisioned ∧
    (kst [] 0 3 none).lc = lcReturned ∧ (kst [] 0 2 none).lc = lcDeployed ∧ (kst [] 0 4 none).lc = lcRetired ∧ (held .park).pwr.state ≠ .hold ∧
    (held .hold).pwr.state = .hold := by decide +kernel

theorem wit_TamperConfigLocked : on.takes .host Reg.KEY_TAMP_CFG = true ∧ on.lc = lcManufacture ∧ (kst [] 0 1 none).takes (.core 0) Reg.KEY_TAMP_CFG = true ∧
    (kst [] 0 1 none).lc = lcProvisioned ∧ (kst [] 0 2 none).takes .host Reg.KEY_TAMP_CFG = true ∧ (kst [] 0 2 none).lc ≠ lcManufacture ∧
    (kst [] 0 2 none).lc ≠ lcProvisioned := by decide +kernel
theorem wit_ResultCodes : krUnsupported ≤ 10 ∧ krOk ≤ 10 ∧ krBusy ≠ 0 := by decide
theorem wit_DtakeReads : (thd 2 (some 0) true none).coresRun = true ∧ ((thd 2 (some 0) true none).core 7).slot = some 0 ∧ (0 : Nat) < 1024 ∧
    ((thd 2 (some 0) true none).core 7).valid = true ∧ ((thd 2 (some 0) true none).core 7).running = none ∧ ((thd 0 none false none).core 7).slot = none ∧
    ((thd 2 (some 0) false none).core 7).valid = false ∧ ((thd 2 none true (some 0)).core 7).running.isSome = true := by decide +kernel

end Sys2Proof.Tests
end

section
/-! SUPPORT. Fields of registers: a field read after a field written, and what the shared updates leave of the registers. -/
namespace Sys2Proof.Machine
open Sys2Proof

/-! ## Fields of a number -/

/-- A number with a field written, cut below and above the field. -/
theorem putFld_eq (v lo len x : Nat) :
    putFld v lo len x = v % 2 ^ lo + 2 ^ lo * (x % 2 ^ len + 2 ^ len * (v / 2 ^ (lo + len))) := by
  rw [putFld, Nat.mul_add, ← Nat.mul_assoc, ← Nat.pow_add, Nat.mul_comm (v / _), Nat.mul_comm (x % _)]
  omega

/-- The field written reads as the value, in its bits. -/
theorem fld_putFld_same (v lo len x : Nat) : fld (putFld v lo len x) lo len = x % 2 ^ len := by
  have hlow : v % 2 ^ lo < 2 ^ lo := Nat.mod_lt _ (Nat.two_pow_pos lo)
  rw [fld, putFld_eq, Nat.add_mul_div_left _ _ (Nat.two_pow_pos lo), Nat.div_eq_of_lt hlow, Nat.zero_add, Nat.add_mul_mod_self_left,
    Nat.mod_mod]

/-- A number of `len` bits above one of `lo` bits. -/
theorem mul_two_pow_add_lt {x y lo len : Nat} (hx : x < 2 ^ len) (hy : y < 2 ^ lo) : x * 2 ^ lo + y < 2 ^ (lo + len) :=
  calc x * 2 ^ lo + y < (x + 1) * 2 ^ lo := by rw [Nat.add_one_mul]; omega
    _ ≤ 2 ^ len * 2 ^ lo := Nat.mul_le_mul_right _ hx
    _ = 2 ^ (lo + len) := by rw [Nat.mul_comm, Nat.pow_add]

/-- A field below the one written reads as before. -/
theorem fld_putFld_below (v lo len x : Nat) {lo' len' : Nat} (h : lo' + len' ≤ lo) : fld (putFld v lo len x) lo' len' = fld v lo' len' := by
  obtain ⟨d, rfl⟩ := Nat.exists_eq_add_of_le h
  have hmod : putFld v (lo' + len' + d) len x % 2 ^ (lo' + len') = v % 2 ^ (lo' + len') := by
    rw [putFld_eq, Nat.pow_add 2 (lo' + len') d, Nat.mul_assoc (2 ^ (lo' + len')), Nat.add_mul_mod_self_left, Nat.mod_mul_right_mod]
  have hfld : ∀ u : Nat, fld u lo' len' = u % 2 ^ (lo' + len') / 2 ^ lo' := fun u => by
    rw [fld, Nat.pow_add, Nat.mod_mul_right_div_self]
  rw [hfld, hfld, hmod]

/-- A field written within `n` bits leaves a number of `n` bits. -/
theorem putFld_lt {v lo len n : Nat} (x : Nat) (hv : v < 2 ^ n) (h : lo + len ≤ n) : putFld v lo len x < 2 ^ n := by
  obtain ⟨d, rfl⟩ := Nat.exists_eq_add_of_le h
  have htop : v / 2 ^ (lo + len) < 2 ^ d := Nat.div_lt_of_lt_mul (by rwa [← Nat.pow_add])
  rw [putFld, Nat.add_assoc]
  exact mul_two_pow_add_lt htop (mul_two_pow_add_lt (Nat.mod_lt _ (Nat.two_pow_pos len)) (Nat.mod_lt _ (Nat.two_pow_pos lo)))

/-! ## Fields of a register -/

variable (s : State)

theorem State.rn_lt (a : Nat) : s.rn a < 2 ^ 80 := (s.reg a).isLt

/-- The field written reads as the value, in its bits. -/
theorem State.rf_setF_same (a : Nat) {lo len : Nat} (x : Nat) (h : lo + len ≤ 80) : (s.setF a lo len x).rf a lo len = x % 2 ^ len := by
  rw [State.rf, State.setF, State.rn_setReg_same, Nat.mod_eq_of_lt (putFld_lt x (s.rn_lt a) h), fld_putFld_same]

/-- A field of the same register below the one written reads as before. -/
theorem State.rf_setF_below (a : Nat) {lo len lo' len' : Nat} (x : Nat) (h : lo + len ≤ 80) (hd : lo' + len' ≤ lo) :
    (s.setF a lo len x).rf a lo' len' = s.rf a lo' len' := by
  rw [State.rf, State.setF, State.rn_setReg_same, Nat.mod_eq_of_lt (putFld_lt x (s.rn_lt a) h), fld_putFld_below _ _ _ _ hd, State.rf]

/-- An event raised pends. -/
theorem State.evPending_raise_same (n : Nat) : (s.raise n).evPending n = true := by
  have h := s.rf_setF_same (Reg.FLT_EVT_PEND (n / 32)) (lo := n % 32) (len := 1) 1 (by omega)
  simp [State.evPending, State.bit, State.raise, h]

/-! ## Other registers -/

theorem State.rn_setF_other {a b : Nat} (lo len x : Nat) (h : b ≠ a) : (s.setF a lo len x).rn b = s.rn b := s.rn_setReg_other _ h

/-- Raising an event changes a register of FLT_EVT_PEND alone, all of which lie from 0x1800040 on. -/
theorem State.rn_raise_other (n : Nat) {b : Nat} (h : b < 0x1800040) : (s.raise n).rn b = s.rn b :=
  s.rn_setF_other _ _ _ (by simp only [Reg.FLT_EVT_PEND]; omega)

end Sys2Proof.Machine
end

section
/-! SUPPORT. The operations of the time domain: what the discipline leaves of the registers. -/
namespace Sys2Proof.Machine
open Sys2Proof

variable (s : State)

/-! ## The discipline state and the published estimate -/

/-- The tick at which LOCKED is left is all that the note of it can change (R137). -/
theorem State.noteLeft_eq (st : Nat) : ∃ v, s.noteLeft st = { s with time := { s.time with leftLock := v } } := by
  unfold State.noteLeft
  split
  · exact ⟨_, rfl⟩
  · exact ⟨s.time.leftLock, rfl⟩

theorem State.noteLeft_rn (st b : Nat) : (s.noteLeft st).rn b = s.rn b := by
  obtain ⟨v, hnote⟩ := s.noteLeft_eq st
  rw [hnote]; rfl

/-- The discipline state set changes TIME_STATE alone among the registers. -/
theorem State.rn_setDisc_other (st cause : Nat) {b : Nat} (h : b ≠ Reg.TIME_STATE) : (s.setDisc st cause).rn b = s.rn b := by
  rw [State.setDisc, State.rn_setF_other _ _ _ _ h, State.rn_setF_other _ _ _ _ h, State.noteLeft_rn]

/-- The discipline state set reads as the three bits given. -/
theorem State.disc_setDisc (st cause : Nat) : (s.setDisc st cause).disc = st % 2 ^ 3 := by
  rw [State.disc, State.setDisc, State.rf_setF_below _ _ _ (by decide) (by decide), State.rf_setF_same _ _ _ (by decide)]

@[simp] theorem State.setDisc_key (st cause : Nat) : (s.setDisc st cause).key = s.key := by
  obtain ⟨v, hnote⟩ := s.noteLeft_eq st
  rw [State.setDisc, State.setF_key, State.setF_key, hnote]

@[simp] theorem State.publish_key : s.publish.key = s.key := rfl

/-- The estimate published changes TIME_EST_ERR and TIME_QUAL alone among the registers. -/
theorem State.rn_publish_other {b : Nat} (he : b ≠ Reg.TIME_EST_ERR) (hq : b ≠ Reg.TIME_QUAL) : s.publish.rn b = s.rn b := by
  show ((s.setReg Reg.TIME_EST_ERR s.estErr).setReg Reg.TIME_QUAL (s.qualOf s.estErr)).rn b = s.rn b
  rw [State.rn_setReg_other _ _ hq, State.rn_setReg_other _ _ he]

/-- Raising an event keeps the discipline state. -/
theorem State.disc_raise (n : Nat) : (s.raise n).disc = s.disc := State.rf_congr (s.rn_raise_other n (by decide)) 0 3

/-- Publishing the estimate keeps the discipline state. -/
theorem State.disc_publish : s.publish.disc = s.disc := State.rf_congr (s.rn_publish_other (by decide) (by decide)) 0 3

/-- Publishing the estimate keeps the pending events. -/
theorem State.evPending_publish (n : Nat) : s.publish.evPending n = s.evPending n :=
  State.bit_congr (s.rn_publish_other (by simp only [Reg.FLT_EVT_PEND, Reg.TIME_EST_ERR]; omega)
    (by simp only [Reg.FLT_EVT_PEND, Reg.TIME_QUAL]; omega)) _

end Sys2Proof.Machine
end

section
/-! PROOF. The re-arm (R61). -/
namespace Sys2Proof.Machine
open Sys2Proof

/-- A re-arm within its authorisation, of a state that allows it, takes effect. -/
theorem rearm_authorised {s : State} {w : Word} {at_ : Nat} (hw : w.getLsbD 0 = true) (hat : s.key.rearmAt = some at_)
    (hticks : s.time.ticks < 250000000 + at_) (hdisc : s.disc = stLocked ∨ s.disc = stHoldover ∨ s.disc = stRefused) :
    rearm w s = (((({ s with key := { s.key with rearmAt := none } } : State).setDisc stArmed 0)).raise 4).publish := by
  have hstate : (s.disc = stLocked || s.disc = stHoldover || s.disc = stRefused) = true := by
    simpa [or_assoc] using hdisc
  simp only [rearm, hw, hat, Option.any_some, hticks, decide_true, hstate, Bool.and_true, if_true]

/-- Without an authorisation that still runs a re-arm does nothing. -/
theorem rearm_unauthorised {s : State} (w : Word) (h : ∀ at_, s.key.rearmAt = some at_ → 250000000 + at_ ≤ s.time.ticks) :
    rearm w s = s := by
  have hnone : s.key.rearmAt.any (fun t => s.time.ticks < 250000000 + t) = false := by
    cases hat : s.key.rearmAt with
    | none => rfl
    | some at_ => simpa using h at_ hat
  simp [rearm, hnone]

/-- In UNSET and ARMED a re-arm does nothing. -/
theorem rearm_unset_or_armed {s : State} (w : Word) (h : s.disc = stUnset ∨ s.disc = stArmed) : rearm w s = s := by
  have hstate : (s.disc = stLocked || s.disc = stHoldover || s.disc = stRefused) = false := by
    rcases h with h | h <;> rw [h] <;> rfl
  simp only [rearm, hstate, Bool.and_false, Bool.false_eq_true, if_false]

/-- Settles O15: the write has its effect at once, and `rearm` then has one of three cases. -/
theorem rearmOnce : Obligations.RearmOnce := by
  intro s who w htakes hw
  have hexec : exec (.rearm who w) s = .next (settle s (rearm w s.quiet)) := live_takes htakes
  have hkept (h : rearm w s.quiet = s.quiet) : Ends (.rearm who w) s s.quiet := by rw [Ends, hexec, h]
  refine ⟨fun at_ hat hticks hdisc => ?_, fun hnone => ?_, fun at_ hat hticks => ?_, fun hdisc => ?_⟩
  · have heffect := rearm_authorised (s := s.quiet) hw hat hticks hdisc
    refine ⟨by rw [Ends, hexec, heffect]; rfl, _, hexec, ?_, ?_, ?_⟩
    · show (rearm w s.quiet).disc = stArmed
      rw [heffect, State.disc_publish, State.disc_raise, State.disc_setDisc]; rfl
    · rw [settle_key, heffect, State.publish_key, State.raise_key, State.setDisc_key]
    · show (rearm w s.quiet).evPending 4 = true
      rw [heffect, State.evPending_publish, State.evPending_raise_same]
  · exact hkept (rearm_unauthorised w fun t ht => by simp [hnone] at ht)
  · refine hkept (rearm_unauthorised w fun t ht => ?_)
    obtain rfl : at_ = t := Option.some.inj (hat.symm.trans ht)
    exact hticks
  · exact hkept (rearm_unset_or_armed w hdisc)

end Sys2Proof.Machine
end

section
/-! PROOF. The tick (R52): the counter takes the increment in force, and what waits for the tick leaves the counter where no sample steps it. -/
namespace Sys2Proof.Machine
open Sys2Proof

/-! ## Repeated updates -/

/-- What each of a range of updates keeps, the range keeps. -/
theorem State.forRange_keeps {β : Type} (p : State → β) (f : Nat → State → State) (h : ∀ i s, p (f i s) = p s) (s : State) (n k : Nat) :
    p (s.forRange f n k) = p s := by
  induction k generalizing s n with
  | zero => rfl
  | succ j ih => rw [State.forRange, ih, h]

/-- What the updates for the elements of a list each keep, the list keeps. -/
theorem State.forEach_keeps {α β : Type} (p : State → β) (f : α → State → State) (xs : List α) (h : ∀ x ∈ xs, ∀ s, p (f x s) = p s)
    (s : State) : p (s.forEach f xs) = p s := by
  induction xs generalizing s with
  | nil => rfl
  | cons x xs ih =>
    rw [State.forEach, ih (fun y hy => h y (List.mem_cons_of_mem _ hy)), h x List.mem_cons_self]

/-! ## The counter's fields -/

/-- The three fields of the counter (R52). -/
def Time.counter (t : Time) : BitVec 48 × BitVec 32 × BitVec 32 := (t.sec, t.ns, t.frac)

/-- The counter, and how often it has been stepped (R58): what a sample that asks for no step leaves alone. -/
def State.clock (s : State) : (BitVec 48 × BitVec 32 × BitVec 32) × Nat := (s.time.counter, s.rn Reg.TIME_STEP_CNT)

variable (s : State)

theorem State.clock_setReg (a v : Nat) (h : Reg.TIME_STEP_CNT ≠ a) : (s.setReg a v).clock = s.clock := by
  rw [State.clock, State.rn_setReg_other _ _ h, State.setReg_time, State.clock]

theorem State.clock_count (a : Nat) (h : Reg.TIME_STEP_CNT ≠ a) : (s.count a).clock = s.clock := s.clock_setReg _ _ h

@[simp] theorem State.clock_raise (n : Nat) : (s.raise n).clock = s.clock :=
  s.clock_setReg _ _ (by simp only [Reg.TIME_STEP_CNT, Reg.FLT_EVT_PEND]; omega)

@[simp] theorem State.clock_publish : s.publish.clock = s.clock := by
  rw [State.clock, State.rn_publish_other _ (by decide) (by decide)]; rfl

@[simp] theorem State.clock_setDisc (st cause : Nat) : (s.setDisc st cause).clock = s.clock := by
  obtain ⟨v, hnote⟩ := s.noteLeft_eq st
  rw [State.clock, State.rn_setDisc_other _ _ _ (by decide), State.setDisc, State.setF_time, State.setF_time, hnote]
  rfl

@[simp] theorem State.clock_accept : s.accept.clock = s.clock := rfl

@[simp] theorem State.clock_endSlew : s.endSlew.clock = s.clock := by
  rw [State.endSlew, State.showInc, State.clock_setReg _ _ _ (by decide), State.clock_setReg _ _ _ (by decide)]; rfl

/-! ## The discipline's part of a tick -/

/-- A source change leaves the counter. -/
theorem State.clock_srcTick : s.srcTick.clock = s.clock := by
  have hflag : ({ s with time := { s.time with srcNew := false } } : State).clock = s.clock := rfl
  unfold State.srcTick
  split
  · dsimp only
    split
    · rw [State.clock_publish, State.clock_raise, State.clock_setDisc, hflag]
    · split
      · rw [State.clock_setDisc, hflag]
      · exact hflag
  · rfl

/-- A sample judged that asks for no step leaves the counter, in every row of R64. -/
theorem State.clock_judge (ofs : Int) : (s.judge ofs false).clock = s.clock := by
  have hchange : (s.accept.count Reg.TIME_MCHG_CNT).clock = s.clock := by rw [State.clock_count _ _ (by decide), State.clock_accept]
  have hrefuse : (s.endSlew.count Reg.TIME_REFUSE_CNT).clock = s.clock := by rw [State.clock_count _ _ (by decide), State.clock_endSlew]
  simp only [State.judge, Bool.false_eq_true, if_false]
  split
  · rfl
  · split
    · split
      · simp only [State.clock_publish, State.clock_setDisc, apply_ite State.clock, State.clock_raise, State.clock_accept, hchange, ite_self]
      · rw [State.clock_publish, State.clock_raise, State.clock_setDisc, hrefuse]
    · rfl

/-- A sample that asks for no step leaves the counter. -/
theorem State.clock_takeSample (x : Sample) (h : x.step = false) : (s.takeSample x).clock = s.clock := by
  unfold State.takeSample
  split
  · exact s.clock_count _ (by decide)
  · rw [h, State.clock_judge, State.clock_setReg _ _ _ (by decide)]

/-- With no step counted nothing follows outside the time domain. -/
theorem State.clock_sampleTick (x : Sample) (h : x.step = false) : (s.sampleTick x).clock = s.clock := by
  have hclock := s.clock_takeSample x h
  have hsteps : (s.takeSample x).rn Reg.TIME_STEP_CNT = s.rn Reg.TIME_STEP_CNT := congrArg Prod.snd hclock
  simp only [State.sampleTick, hsteps, ne_eq, not_true_eq_false, if_false, hclock]

/-- What waits for the tick leaves the counter where no sample asks for a step. -/
theorem State.clock_disciplineTick (h : ∀ x ∈ s.time.samples, x.step = false) : s.disciplineTick.clock = s.clock := by
  rw [State.disciplineTick, State.forEach_keeps State.clock _ _ fun x hx t => t.clock_sampleTick x (h x hx)]
  exact s.clock_srcTick

/-! ## The firn recorder's part of a tick -/

theorem State.firnPush_time (u : FirnUpd) : (s.firnPush u).time = s.time := by
  simp only [State.firnPush]; split <;> rfl

theorem State.firnAll_time (kind t : Nat) (f : Nat → Nat → Option (Option Int)) : (s.firnAll kind t f).time = s.time := by
  unfold State.firnAll
  dsimp only
  split
  · rfl
  · refine State.forRange_keeps State.time _ (fun k u => ?_) s 0 _
    split
    · split
      · rfl
      · rfl
      · exact u.firnPush_time _
    · rfl

/-! ## The counter's part of a tick -/

theorem State.showWdt_time : s.showWdt.time = s.time := by
  unfold State.showWdt
  split
  · exact s.setF_time _ _ _ _
  · rfl

/-- A tick adds the increment in force to the counter, and itself takes no sample. -/
theorem timeTick_time (h : s.pwr.state ≠ Power.hold) :
    (timeTick s).time.counter = (s.time.advance s.incRun).counter ∧ (timeTick s).time.samples = s.time.samples := by
  unfold timeTick
  rw [if_neg h]
  extract_lets inc slewed t power ticked shown
  have hslewed : slewed.time = s.time := by
    simp only [slewed]; split <;> rfl
  have hshown : shown.time = ticked.time := by
    simp only [shown]; split
    · exact ticked.showWdt_time
    · rfl
  have hcounter : ticked.time.counter = (slewed.time.advance inc).counter := rfl
  have hsamples : ticked.time.samples = slewed.time.samples := rfl
  constructor
  · calc shown.showInc.publish.time.counter = shown.time.counter := rfl
      _ = (s.time.advance s.incRun).counter := by rw [hshown, hcounter, hslewed]
  · calc shown.showInc.publish.time.samples = shown.time.samples := rfl
      _ = s.time.samples := by rw [hshown, hsamples, hslewed]

/-- A whole tick with no sample that asks for a step adds the increment in force to the counter, and no more. -/
theorem tick_counter (h : s.pwr.state ≠ Power.hold) (hx : ∀ x ∈ s.time.samples, x.step = false) :
    (tick s).time.counter = (s.time.advance s.incRun).counter := by
  obtain ⟨hcounter, hsamples⟩ := timeTick_time s h
  obtain ⟨u, htick, htime⟩ : ∃ u : State, tick s = u.disciplineTick ∧ u.time = (timeTick s).time := by
    by_cases hsec : (timeTick s).time.sec = s.time.sec
    · exact ⟨timeTick s, by simp only [tick, hsec, if_true], rfl⟩
    · exact ⟨(timeTick s).firnSecond, by simp only [tick, hsec, if_false], (timeTick s).firnAll_time _ _ _⟩
  have hclock : u.disciplineTick.clock = u.clock := u.clock_disciplineTick (by rwa [htime, hsamples])
  calc (tick s).time.counter = u.disciplineTick.time.counter := by rw [htick]
    _ = u.time.counter := congrArg Prod.fst hclock
    _ = (timeTick s).time.counter := by rw [htime]
    _ = (s.time.advance s.incRun).counter := hcounter

/-- The advance of R52: below a second the 32.32 sum stands as it is; from a second on it loses one second, which the seconds take. -/
theorem Time.advance_spec (t : Time) {inc : Nat} (hns : t.ns.toNat < 1000000000) (hinc : inc < 2 ^ 40) :
    let v := 2 ^ 32 * t.ns.toNat + t.frac.toNat + inc
    let u := t.advance inc
    u.ns.toNat < 1000000000 ∧
    (v < 1000000000 * 2 ^ 32 → 2 ^ 32 * u.ns.toNat + u.frac.toNat = v ∧ u.sec = t.sec) ∧
    (1000000000 * 2 ^ 32 ≤ v → 2 ^ 32 * u.ns.toNat + u.frac.toNat = v - 1000000000 * 2 ^ 32 ∧ u.sec = t.sec + 1) := by
  intro v u
  have hv : v < 1000000000 * 2 ^ 32 + 2 ^ 40 := by
    have hfrac : t.frac.toNat < 2 ^ 32 := t.frac.isLt
    simp only [v]; omega
  have hfrac : u.frac.toNat = v % 2 ^ 32 := BitVec.toNat_ofNat _ _
  by_cases hcarry : 1000000000 ≤ v / 2 ^ 32
  · have hsec : u.sec = t.sec + 1 := if_pos hcarry
    have hnsu : u.ns.toNat = v / 2 ^ 32 - 1000000000 := by
      simp only [u, Time.advance, v, hcarry, if_true, BitVec.toNat_ofNat] at hv ⊢
      omega
    exact ⟨by omega, fun hlt => by omega, fun _ => ⟨by omega, hsec⟩⟩
  · have hsec : u.sec = t.sec := if_neg hcarry
    have hnsu : u.ns.toNat = v / 2 ^ 32 := by
      simp only [u, Time.advance, v, hcarry, if_false, BitVec.toNat_ofNat] at hv ⊢
      omega
    exact ⟨by omega, fun _ => ⟨by omega, hsec⟩, fun hge => by omega⟩

/-- Settles O12: a tick adds the increment in force to the counter, and `Time.advance` carries one second. -/
theorem tickAdvancesCounter : Obligations.TickAdvancesCounter := by
  intro s hticking hx hns hinc
  have hhold : s.pwr.state ≠ Power.hold := by
    simp only [State.ticking, Bool.and_eq_true, decide_eq_true_eq] at hticking
    obtain ⟨⟨hhold, -⟩, -⟩ := hticking
    exact hhold
  have htick : anyTick s.quiet = tick s.quiet := if_pos hticking
  have hcounter : (settle s (anyTick s.quiet)).time.counter = (s.time.advance s.incRun).counter := by
    rw [settle_time, htick]; exact tick_counter s.quiet hhold hx
  simp only [Time.counter, Prod.mk.injEq] at hcounter
  obtain ⟨hsec, hns', hfrac⟩ := hcounter
  refine ⟨settle s (anyTick s.quiet), rfl, ?_⟩
  simp only [hsec, hns', hfrac]
  exact Time.advance_spec s.time hns hinc

end Sys2Proof.Machine
end

section
/-! SUPPORT. Threads, cores and the decision trace: what a thread and a core read after an update of the dispatcher; and the outputs, which
a command adds to. -/
namespace Sys2Proof.Machine
open Sys2Proof

variable (s : State)

/-! ## A thread set -/

@[simp] theorem State.thread_setThread_same (t : Nat) (x : Thread) : (s.setThread t x).thread t = x := Tbl.get_set_same _ _ _ _

/-! ## A core set -/

@[simp] theorem State.core_setCore_same (k : Nat) (x : Core) : (s.setCore k x).core k = x := Tbl.get_set_same _ _ _ _

@[simp] theorem State.thread_setCore (k : Nat) (x : Core) (t : Nat) : (s.setCore k x).thread t = s.thread t := rfl

/-! ## A trace entry -/

/-- A trace entry changes the trace buffer, the count of entries lost and registers, and nothing else (R359, R360). -/
theorem State.traceAdd_eq (kind core thread prio port src value : Nat) : ∃ regs trace lost,
    s.traceAdd kind core thread prio port src value =
      { s with regs := regs, disp := { s.disp with trace := trace, traceLost := lost } } := by
  unfold State.traceAdd
  split
  · exact ⟨_, _, _, rfl⟩
  · extract_lets e lost l u
    split
    · exact ⟨_, _, _, rfl⟩
    · exact ⟨_, _, _, rfl⟩

@[simp] theorem State.thread_traceThr (kind core t value t' : Nat) : (s.traceThr kind core t value).thread t' = s.thread t' := by
  obtain ⟨regs, trace, lost, h⟩ := s.traceAdd_eq kind core t (thrPrio (s.pat 17) t) 0 4 value
  rw [State.traceThr, h]; rfl

@[simp] theorem State.core_traceThr (kind core t value k : Nat) : (s.traceThr kind core t value).core k = s.core k := by
  obtain ⟨regs, trace, lost, h⟩ := s.traceAdd_eq kind core t (thrPrio (s.pat 17) t) 0 4 value
  rw [State.traceThr, h]; rfl

/-! ## Counters and outputs -/

@[simp] theorem State.thread_count (a t : Nat) : (s.count a).thread t = s.thread t := rfl
@[simp] theorem State.core_count (a k : Nat) : (s.count a).core k = s.core k := rfl
@[simp] theorem State.thread_emit (x : Output) (t : Nat) : (s.emit x).thread t = s.thread t := rfl
@[simp] theorem State.core_emit (x : Output) (k : Nat) : (s.emit x).core k = s.core k := rfl

/-- The output just emitted is among the outputs. -/
theorem State.mem_out_emit (x : Output) : x ∈ (s.emit x).out := List.mem_append_right _ (List.mem_singleton_self x)

/-- The interrupt messages of a command join its outputs, which all stay. -/
theorem mem_out_settle {u : State} {x : Output} (h : x ∈ u.out) : x ∈ (settle s u).out := List.mem_append_left _ h

end Sys2Proof.Machine
end

section
/-! PROOF. The read of dtake (R355). -/
namespace Sys2Proof.Machine
open Sys2Proof

/-- Core `k` once it has taken thread `t`: its slot is empty, and its CSRs hold the activation. -/
def State.takerCore (s : State) (k t : Nat) : Core := { s.core k with
  slot := none, valid := false, running := some t, buf := (s.core k).slotBuf
  dtok := BitVec.ofNat 64 (dtokWord (s.thread t).act), dentry := BitVec.ofNat 64 (thrWord (s.pat 17) t 1) }

/-- Thread `t` RUNNING on core `k`. -/
def State.startThread (s : State) (k t : Nat) : State := (s.setThread t { s.thread t with state := 3 }).setCore k (s.takerCore k t)

section
variable {s : State} {k t : Nat} (hslot : (s.core k).slot = some t) (hvalid : (s.core k).valid = true)
  (hrunning : (s.core k).running = none)
include hslot hvalid hrunning

/-- A core with a valid slot and no activation takes the slotted thread, counts and traces it, and reads its word. -/
theorem dtake_takes :
    dtake k s = ((((s.startThread k t).count Reg.DISP_TAKE_CNT).count (Reg.DISP_CORE_TAKE_CNT k)).traceThr trTake k t 0).emit
      (.read (BitVec.ofNat 64 (2 ^ 17 + (t + thrPrio (s.pat 17) t * 2 ^ 10 + 2 ^ 16 * (s.core k).slotBuf)))) := by
  simp only [dtake, hslot, hrunning, hvalid, Bool.not_true, Bool.false_eq_true, if_false]
  rfl

/-- The thread taken is RUNNING and otherwise as before. -/
theorem thread_dtake : (dtake k s).thread t = { s.thread t with state := 3 } := by
  rw [dtake_takes hslot hvalid hrunning, State.thread_emit, State.thread_traceThr, State.thread_count, State.thread_count,
    State.startThread, State.thread_setCore, State.thread_setThread_same]

/-- The core that takes the thread runs it, with its slot empty and the activation latched. -/
theorem core_dtake : (dtake k s).core k = s.takerCore k t := by
  rw [dtake_takes hslot hvalid hrunning, State.core_emit, State.core_traceThr, State.core_count, State.core_count,
    State.startThread, State.core_setCore_same]

end

/-- With no slot, a slot not yet valid or an activation running, dtake reads the blank item and changes nothing. -/
theorem dtake_blank {s : State} {k : Nat}
    (h : (s.core k).slot = none ∨ (s.core k).valid = false ∨ (s.core k).running.isSome = true) : dtake k s = s.emit (.read 0) := by
  unfold dtake
  dsimp only
  split
  next t hslot hrunning =>
    have hvalid : (s.core k).valid = false := by simpa [hslot, hrunning] using h
    simp [hvalid]
  next => rfl

/-- Settles O59: `dtake` takes the slotted thread or reads the blank item, and a write of shared SRAM leaves the dispatcher alone. -/
theorem dtakeReads : Obligations.DtakeReads := by
  refine ⟨fun s core hrun => ?_, fun s a bytes => rfl⟩
  have hexec : exec (.dtake core) s = .next (settle s (dtake core.val s.quiet)) := coring_on hrun
  refine ⟨fun t hslot _ hvalid hrunning => ⟨_, hexec, ?_⟩, fun hblank => ?_⟩
  · have hthread := thread_dtake (s := s.quiet) hslot hvalid hrunning
    have hcore := core_dtake (s := s.quiet) hslot hvalid hrunning
    refine ⟨mem_out_settle _ ?_, congrArg Thread.state hthread, congrArg Core.running hcore, congrArg Core.slot hcore,
      congrArg Core.dtok hcore, congrArg Core.dentry hcore⟩
    rw [dtake_takes (s := s.quiet) hslot hvalid hrunning]
    exact State.mem_out_emit _ _
  · rw [Ends, hexec, dtake_blank (s := s.quiet) hblank]

end Sys2Proof.Machine
end

section
/-! SUPPORT. Register writes: the bits that a store sets, and the path of a 32-bit write to its effect. -/
namespace Sys2Proof.Machine
open Sys2Proof

variable (s : State)

/-! ## The bits of a store (R8, R9) -/

theorem fld_testBit (v lo len j : Nat) : (fld v lo len).testBit j = (decide (j < len) && v.testBit (lo + j)) := by
  rw [fld, Nat.testBit_mod_two_pow, Nat.testBit_div_two_pow, Nat.add_comm]

/-- Within the field written, the register has the bits of the value. -/
theorem State.testBit_setF_same (a : Nat) {lo len j : Nat} (x : Nat) (hlen : lo + len ≤ 80) (hj : j < len) :
    ((s.setF a lo len x).rn a).testBit (lo + j) = x.testBit j := by
  have hfield := congrArg (Nat.testBit · j) (s.rf_setF_same a x hlen)
  simpa [State.rf, fld_testBit, Nat.testBit_mod_two_pow, hj] using hfield

/-- A store in a register without limits of its own: a writable bit takes the bit written, any other stays, and a 1 written to a
write-1-to-clear bit clears it. -/
theorem State.testBit_store {a i rw j : Nat} (w1c : Nat) (w : Word) (hclamp : ∀ v, regClamp a v = v) (hi : 32 * i + 32 ≤ 80) (hj : j < 32) :
    ((s.store a i rw w1c w).rn a).testBit (32 * i + j) =
      ((if rw.testBit j then w.getLsbD j else (s.rn a).testBit (32 * i + j)) && !(w.getLsbD j && w1c.testBit j)) := by
  have hones : Nat.testBit 0xFFFFFFFF j = true := by
    rw [show 0xFFFFFFFF = 2 ^ 32 - 1 from rfl, Nat.testBit_two_pow_sub_one, decide_eq_true hj]
  have hword : w.toNat.testBit j = w.getLsbD j := rfl
  simp only [State.store, hclamp, ite_self]
  rw [State.testBit_setF_same _ _ _ hi hj]
  simp only [Nat.testBit_and, Nat.testBit_or, Nat.testBit_xor, State.rf, fld_testBit, hones, hword, hj, decide_true, Bool.true_and,
    Bool.true_xor]
  cases rw.testBit j <;> simp

/-- A store changes its own register alone. -/
theorem State.rn_store_other {a b : Nat} (i rw w1c : Nat) (w : Word) (h : b ≠ a) : (s.store a i rw w1c w).rn b = s.rn b :=
  s.rn_setF_other _ _ _ h

@[simp] theorem State.store_hold (a i rw w1c : Nat) (w : Word) : (s.store a i rw w1c w).hold = s.hold := rfl
@[simp] theorem State.store_heldLo (a i rw w1c : Nat) (w : Word) : (s.store a i rw w1c w).heldLo = s.heldLo := rfl

/-- A command whose effect is a store keeps every memory byte. -/
theorem memKept_settle_store (a i rw w1c : Nat) (w : Word) : MemKept s (settle s (s.quiet.store a i rw w1c w)) :=
  fun _ => ⟨rfl, rfl, rfl⟩

/-! ## The path of a write (R6) -/

/-- The key store's registers below its mailboxes hold no command: a write of one is a store. -/
theorem regWriteAt_key (who : Party) {a : Nat} (w : Word) (hlo : 0x1700000 ≤ a) (hhi : a < 0x1701000) :
    regWriteAt who a w s = regStore who a w s := by
  have hring : arrIx a (Reg.HQ_RING_CFG 0) 0x40 2 = none := by
    have hbelow : ¬ Reg.HQ_RING_CFG 0 ≤ a := by simp only [Reg.HQ_RING_CFG]; omega
    simp [arrIx, hbelow]
  have hservice : regWriteAt who a w s = serviceWrite who a w s := by
    unfold regWriteAt
    iterate 13 rw [if_neg (by omega)]
  rw [hservice]
  simp only [serviceWrite, hring]
  iterate 15 rw [if_neg (by simp only [Reg.FLDL_DOORBELL, Reg.FLDL_RESP, Reg.KEY_MBX_CTRL, Reg.FLT_STICKY, Reg.FLT_INJ,
    Reg.FLT_EVT_PEND, Reg.HQ_RING_PEND, Reg.HQ_UART_DATA, Reg.HQ_QSPI_CTRL]; omega)]

/-- A 32-bit write of an aligned register below the power registers that has its effect at once. -/
theorem exec_registerWrite_word {s : State} {who : Party} {a : Nat} (v : BitVec 64) (h : s.takes who a = true) (halign : a % 4 = 0)
    (hpwr : a < Reg.PWR_STATE_CTRL) :
    exec (.registerWrite who (BitVec.ofNat 26 a) .b4 v) s = .next (settle s (regWriteAt who a (v.extractLsb' 0 32) s.quiet)) := by
  simp only [Reg.PWR_STATE_CTRL] at hpwr
  have haddr : (BitVec.ofNat 26 a).toNat = a := by rw [BitVec.toNat_ofNat, Nat.mod_eq_of_lt (by omega)]
  have hwrite : registerWrite who a .b4 v = regWrite who a (v.extractLsb' 0 32) := by
    funext u; simp only [registerWrite, halign, ne_eq, not_true_eq_false, if_false]
  calc exec (.registerWrite who (BitVec.ofNat 26 a) .b4 v) s
      = live (registerWrite who (BitVec.ofNat 26 a).toNat .b4 v) s := rfl
    _ = live (regWrite who a (v.extractLsb' 0 32)) s := by rw [haddr, hwrite]
    _ = .next (settle s (regWriteAt who a (v.extractLsb' 0 32) s.quiet)) := by
      refine (live_takes h).trans ?_
      iterate 4 rw [if_neg (by simp only [Reg.PWR_STATE_CTRL, Reg.PWR_RESET, Reg.PWR_WDT_CFG, Reg.PWR_WDT_KICK]; omega)]

end Sys2Proof.Machine
end

section
/-! PROOF. The lock of KEY_TAMP_CFG (R416). -/
namespace Sys2Proof.Machine
open Sys2Proof

/-- The row of KEY_TAMP_CFG (R427): twelve writable bits in its one word. -/
theorem rowOf_tampCfg : rowOf Reg.KEY_TAMP_CFG = some (⟨Reg.KEY_TAMP_CFG, 1, false, [], 0xFFF, 0, .b⟩, 0) := by decide +kernel

/-- No limit of a register's own changes a value of KEY_TAMP_CFG. -/
theorem regClamp_tampCfg (v : Nat) : regClamp Reg.KEY_TAMP_CFG v = v := rfl

/-- A write of KEY_TAMP_CFG stores its twelve writable bits, or nothing past PROVISIONED. -/
theorem regStore_tampCfg (who : Party) (w : Word) (s : State) :
    regStore who Reg.KEY_TAMP_CFG w s = if 1 < s.lc then s else s.store Reg.KEY_TAMP_CFG 0 0xFFF 0 w := by
  have hlocked : s.locked Reg.KEY_TAMP_CFG = decide (1 < s.lc) := if_pos rfl
  simp only [regStore, rowOf_tampCfg, hlocked, decide_eq_true_eq]
  rfl

/-- A bit of the mask of twelve ones. -/
theorem testBit_twelve_ones (j : Nat) : Nat.testBit 0xFFF j = decide (j < 12) := Nat.testBit_two_pow_sub_one 12 j

/-- The low twelve bits take those written, the other bits of the word stay. -/
theorem testBit_store_tampCfg (s : State) (v : BitVec 64) {j : Nat} (hj : j < 32) :
    ((s.store Reg.KEY_TAMP_CFG 0 0xFFF 0 (v.extractLsb' 0 32)).rn Reg.KEY_TAMP_CFG).testBit j =
      if j < 12 then v.getLsbD j else (s.rn Reg.KEY_TAMP_CFG).testBit j := by
  have hbit := s.testBit_store (i := 0) (rw := 0xFFF) 0 (v.extractLsb' 0 32) regClamp_tampCfg (by omega) hj
  simpa [testBit_twelve_ones, BitVec.getLsbD_extractLsb', hj] using hbit

/-- A write of KEY_TAMP_CFG that has its effect at once is a store. -/
theorem exec_write_tampCfg {s : State} {who : Party} (v : BitVec 64) (h : s.takes who Reg.KEY_TAMP_CFG = true) :
    exec (.registerWrite who (BitVec.ofNat 26 Reg.KEY_TAMP_CFG) .b4 v) s =
      .next (settle s (regStore who Reg.KEY_TAMP_CFG (v.extractLsb' 0 32) s.quiet)) := by
  rw [exec_registerWrite_word v h (by decide) (by decide), regWriteAt_key _ _ _ (by decide) (by decide)]

/-- Settles O57: the write reaches `regStore`, which the lock alone keeps from storing. -/
theorem tamperConfigLocked : Obligations.TamperConfigLocked := by
  intro s who v htakes i
  have hexec : exec i s = _ := exec_write_tampCfg v htakes
  have hlc : s.quiet.lc = s.lc := rfl
  rw [regStore_tampCfg, hlc] at hexec
  refine ⟨fun hopen => ?_, fun hmanufacture hprovisioned => ?_⟩
  · have hunlocked : ¬ 1 < s.lc := by rcases hopen with hopen | hopen <;> rw [hopen] <;> decide
    rw [if_neg hunlocked] at hexec
    refine ⟨_, hexec, fun j hj => ?_, fun a ha => ?_, memKept_settle_store _ _ _ _ _ _, ?_, ?_⟩
    · rw [settle_rn, testBit_store_tampCfg _ _ hj, State.quiet_rn]
    · rw [settle_rn, State.rn_store_other _ _ _ _ _ ha, State.quiet_rn]
    · rw [settle_hold, State.store_hold, State.quiet_hold]
    · rw [settle_heldLo, State.store_heldLo, State.quiet_heldLo]
  · have hlocked : 1 < s.lc := by
      simp only [lcManufacture, lcProvisioned] at hmanufacture hprovisioned
      omega
    rw [Ends, hexec, if_pos hlocked]

end Sys2Proof.Machine
end

section
/-! PROOF. The end of a mailbox command (R426): its RESULT and what it counts. -/
namespace Sys2Proof.Machine
open Sys2Proof

variable (s : State)

/-! ## Counters (R49) -/

/-- The counter raised reads one more, modulo 2^48. -/
theorem State.rn_count_same (a : Nat) : (s.count a).rn a = (s.rn a + 1) % 2 ^ 48 := by
  rw [State.count, State.countBy, State.rn_setReg_same, Nat.mod_eq_of_lt (by omega)]

theorem State.rn_count_other {a b : Nat} (h : b ≠ a) : (s.count a).rn b = s.rn b := s.rn_setReg_other _ h

/-! ## The registers of a command's end -/

/-- The status of mailbox `m` shown and the command counted, as at the end of every command. -/
def State.keyShown (m r : Nat) : State := (s.setReg (Reg.KEY_MBX_STATUS m) (r * 256)).count Reg.KEY_CMD_CNT

/-- Below the pending events, a command that ends OK leaves its status and its count. -/
theorem State.rn_keyEnd_ok (m : Nat) {b : Nat} (hb : b < 0x1800040) : (s.keyEnd m krOk).rn b = (s.keyShown m krOk).rn b :=
  State.rn_raise_other _ 112 hb

/-- Below the pending events, a command that ends with another RESULT counts an error besides. -/
theorem State.rn_keyEnd_error (m : Nat) {r b : Nat} (hr : r ≠ krOk) (hb : b < 0x1800040) :
    (s.keyEnd m r).rn b = ((s.keyShown m r).count Reg.KEY_CMD_ERR_CNT).rn b := by
  have hend : s.keyEnd m r = ((s.keyShown m r).count Reg.KEY_CMD_ERR_CNT).raise 112 := by
    simp only [State.keyEnd, State.keyShown, hr, if_false]
  rw [hend, State.rn_raise_other _ 112 hb]

/-- Apart from the count of errors, every end of a command leaves the same registers. -/
theorem State.rn_keyEnd (m r : Nat) {b : Nat} (hb : b < 0x1800040) (herr : b ≠ Reg.KEY_CMD_ERR_CNT) :
    (s.keyEnd m r).rn b = (s.keyShown m r).rn b := by
  by_cases hr : r = krOk
  · rw [hr, s.rn_keyEnd_ok m hb]
  · rw [s.rn_keyEnd_error m hr hb, State.rn_count_other _ herr]

/-- The count of errors is neither the status nor the count of commands. -/
theorem State.rn_keyShown_errCnt (m r : Nat) : (s.keyShown m r).rn Reg.KEY_CMD_ERR_CNT = s.rn Reg.KEY_CMD_ERR_CNT := by
  rw [State.keyShown, State.rn_count_other _ (by decide),
    State.rn_setReg_other _ _ (by simp only [Reg.KEY_CMD_ERR_CNT, Reg.KEY_MBX_STATUS]; omega)]

/-- Settles O58: each register of the statement, read off the end of a command. -/
theorem resultCodes : Obligations.ResultCodes := by
  refine ⟨rfl, fun s m r hr => ?_⟩
  have hm : m.val < 2 := m.isLt
  refine ⟨?_, ?_, fun herror => ?_, fun hok => ?_⟩
  · rw [s.rn_keyEnd m r (by simp only [Reg.KEY_MBX_STATUS]; omega) (by simp only [Reg.KEY_CMD_ERR_CNT, Reg.KEY_MBX_STATUS]; omega),
      State.keyShown, State.rn_count_other _ (by simp only [Reg.KEY_CMD_CNT, Reg.KEY_MBX_STATUS]; omega), State.rn_setReg_same]
    omega
  · rw [s.rn_keyEnd m r (by decide) (by decide), State.keyShown, State.rn_count_same,
      State.rn_setReg_other _ _ (by simp only [Reg.KEY_CMD_CNT, Reg.KEY_MBX_STATUS]; omega)]
  · rw [s.rn_keyEnd_error m herror (by decide), State.rn_count_same, State.rn_keyShown_errCnt]
  · rw [hok, s.rn_keyEnd_ok m (by decide), State.rn_keyShown_errCnt]

end Sys2Proof.Machine
end

section
/-! SUPPORT. Fields above the one written, and the detections of a fault source (R430, R431): which registers each leaves alone. -/
namespace Sys2Proof.Machine
open Sys2Proof

/-! ## A field above the one written -/

/-- A number with a field written has its own bits above the field. -/
theorem putFld_div_above (v lo len x : Nat) : putFld v lo len x / 2 ^ (lo + len) = v / 2 ^ (lo + len) := by
  have hlow : x % 2 ^ len * 2 ^ lo + v % 2 ^ lo < 2 ^ (lo + len) :=
    mul_two_pow_add_lt (Nat.mod_lt _ (Nat.two_pow_pos len)) (Nat.mod_lt _ (Nat.two_pow_pos lo))
  rw [putFld, Nat.add_assoc, Nat.mul_comm (v / _), Nat.mul_add_div (Nat.two_pow_pos _), Nat.div_eq_of_lt hlow, Nat.add_zero]

/-- A field above the one written reads as before. -/
theorem fld_putFld_above (v lo len x : Nat) {lo' len' : Nat} (h : lo + len ≤ lo') : fld (putFld v lo len x) lo' len' = fld v lo' len' := by
  obtain ⟨d, rfl⟩ := Nat.exists_eq_add_of_le h
  rw [fld, fld, Nat.pow_add 2 (lo + len) d, ← Nat.div_div_eq_div_mul, ← Nat.div_div_eq_div_mul, putFld_div_above]

variable (s : State)

/-- A field of the same register above the one written reads as before. -/
theorem State.rf_setF_above (a : Nat) {lo len lo' len' : Nat} (x : Nat) (h : lo + len ≤ 80) (hd : lo + len ≤ lo') :
    (s.setF a lo len x).rf a lo' len' = s.rf a lo' len' := by
  rw [State.rf, State.setF, State.rn_setReg_same, Nat.mod_eq_of_lt (putFld_lt x (s.rn_lt a) h), fld_putFld_above _ _ _ _ hd, State.rf]

/-- A bit set reads 1. -/
theorem State.bit_setF_same (a : Nat) {i : Nat} (h : i < 80) : (s.setF a i 1 1).bit a i = true := by
  simp [State.bit, s.rf_setF_same a 1 (show i + 1 ≤ 80 by omega)]

/-- A bit of the same register above the field written reads as before. -/
theorem State.bit_setF_above (a : Nat) {lo len i : Nat} (x : Nat) (h : lo + len ≤ 80) (hi : lo + len ≤ i) :
    (s.setF a lo len x).bit a i = s.bit a i := by
  rw [State.bit, s.rf_setF_above a x h hi, State.bit]

/-! ## A detection merged into a record (R431) -/

/-- Record `n` with MERGED set, and INJ where the merged detection was injected. -/
def State.mergeRec (n : Nat) (inj : Bool) : State :=
  let s := s.setF (Reg.FLT_REC_INFO n) 30 1 1
  if inj then s.setF (Reg.FLT_REC_INFO n) 29 1 1 else s

theorem State.rn_mergeRec_other (n : Nat) (inj : Bool) {b : Nat} (h : b ≠ Reg.FLT_REC_INFO n) : (s.mergeRec n inj).rn b = s.rn b := by
  unfold State.mergeRec
  cases inj
  · exact s.rn_setF_other _ _ _ h
  · exact (State.rn_setF_other _ _ _ _ h).trans (s.rn_setF_other _ _ _ h)

/-- A merge keeps the record's fields below INJ: among them INFO. -/
theorem State.rf_mergeRec_below (n : Nat) (inj : Bool) {lo len : Nat} (h : lo + len ≤ 29) :
    (s.mergeRec n inj).rf (Reg.FLT_REC_INFO n) lo len = s.rf (Reg.FLT_REC_INFO n) lo len := by
  have hmerged : (s.setF (Reg.FLT_REC_INFO n) 30 1 1).rf (Reg.FLT_REC_INFO n) lo len = s.rf (Reg.FLT_REC_INFO n) lo len :=
    s.rf_setF_below _ _ (by decide) (by omega)
  unfold State.mergeRec
  cases inj
  · exact hmerged
  · exact (State.rf_setF_below _ _ _ (by decide) h).trans hmerged

/-- INJ lies below MERGED and VALID, so setting it keeps both. -/
theorem State.bit_mergeRec_above (n : Nat) (inj : Bool) {i : Nat} (h : 30 ≤ i) :
    (s.mergeRec n inj).bit (Reg.FLT_REC_INFO n) i = (s.setF (Reg.FLT_REC_INFO n) 30 1 1).bit (Reg.FLT_REC_INFO n) i := by
  unfold State.mergeRec
  cases inj
  · rfl
  · exact State.bit_setF_above _ _ _ (by decide) h

theorem State.bit_mergeRec_merged (n : Nat) (inj : Bool) : (s.mergeRec n inj).bit (Reg.FLT_REC_INFO n) 30 = true := by
  rw [s.bit_mergeRec_above n inj (by decide), s.bit_setF_same _ (by decide)]

theorem State.bit_mergeRec_valid (n : Nat) (inj : Bool) :
    (s.mergeRec n inj).bit (Reg.FLT_REC_INFO n) 31 = s.bit (Reg.FLT_REC_INFO n) 31 := by
  rw [s.bit_mergeRec_above n inj (by decide), s.bit_setF_above _ _ (by decide) (by decide)]

@[simp] theorem State.mergeRec_flt (n : Nat) (inj : Bool) : (s.mergeRec n inj).flt = s.flt := by
  unfold State.mergeRec
  split
  · rw [State.setF_flt, State.setF_flt]
  · rw [State.setF_flt]

/-! ## A first detection (R430, R432) -/

@[simp] theorem State.rn_drawn (b : Nat) : s.drawn.rn b = s.rn b := rfl

theorem State.rn_writeRec_other (n info : Nat) (inj noRec : Bool) {b : Nat} (ht : b ≠ Reg.FLT_REC_T n) (hi : b ≠ Reg.FLT_REC_INFO n) :
    (s.writeRec n info inj noRec).rn b = s.rn b := by
  unfold State.writeRec
  split
  · rw [State.rn_drawn, State.rn_setReg_other _ _ hi, State.rn_drawn, State.rn_setReg_other _ _ ht]
  · rw [State.rn_setReg_other _ _ hi, State.rn_setReg_other _ _ ht]

/-- A first detection changes no register above the records: all it writes lies below the sources' counters. -/
theorem State.rn_firstFault_above {n : Nat} (info : Nat) (inj noRec : Bool) (hn : n < 96) {b : Nat} (hb : Reg.FLT_SRC_CNT 0 ≤ b) :
    (s.firstFault n info inj noRec).rn b = s.rn b := by
  simp only [Reg.FLT_SRC_CNT] at hb
  have hsticky : b ≠ Reg.FLT_STICKY (n / 32) := by simp only [Reg.FLT_STICKY]; omega
  have htime : b ≠ Reg.FLT_REC_T n := by simp only [Reg.FLT_REC_T]; omega
  have hinfo : b ≠ Reg.FLT_REC_INFO n := by simp only [Reg.FLT_REC_INFO]; omega
  have hfirst : b ≠ Reg.FLT_FIRST := by simp only [Reg.FLT_FIRST]; omega
  have hevent : b ≠ Reg.FLT_EVT_PEND (120 / 32) := by simp only [Reg.FLT_EVT_PEND]; omega
  rw [State.firstFault, State.raise, State.rn_setF_other _ _ _ _ hevent]
  split
  · rw [State.rn_writeRec_other _ _ _ _ _ htime hinfo, State.rn_setF_other _ _ _ _ hsticky]
  · rw [State.rn_setReg_other _ _ hfirst, State.rn_writeRec_other _ _ _ _ _ htime hinfo, State.rn_setF_other _ _ _ _ hsticky]

@[simp] theorem State.writeRec_flt (n info : Nat) (inj noRec : Bool) : (s.writeRec n info inj noRec).flt = s.flt := by
  cases noRec <;> rfl

@[simp] theorem State.firstFault_flt (n info : Nat) (inj noRec : Bool) : (s.firstFault n info inj noRec).flt = s.flt := by
  rw [State.firstFault, State.raise_flt]
  split
  · rw [State.writeRec_flt, State.setF_flt]
  · rw [State.setReg_flt, State.writeRec_flt, State.setF_flt]

/-! ## A detection, first or not -/

/-- Counting a detection leaves the sticky bits. -/
theorem State.sticky_count_srcCnt {n : Nat} (k : Nat) (hn : n < 96) : (s.count (Reg.FLT_SRC_CNT k)).sticky n = s.sticky n :=
  State.bit_congr (s.rn_count_other (by simp only [Reg.FLT_STICKY, Reg.FLT_SRC_CNT]; omega)) _

/-- A detection counts, then merges into the record of a sticky source, or is the source's first. -/
theorem State.detectRec_eq {n : Nat} (info : Nat) (inj noRec : Bool) (hn : n < 96) :
    s.detectRec n info inj noRec =
      if s.sticky n then (s.count (Reg.FLT_SRC_CNT n)).mergeRec n inj else (s.count (Reg.FLT_SRC_CNT n)).firstFault n info inj noRec := by
  rw [← s.sticky_count_srcCnt n hn]
  rfl

/-- Every detection, merged or first, counts once. -/
theorem State.rn_detectRec_srcCnt {n : Nat} (info : Nat) (inj noRec : Bool) (hn : n < 96) :
    (s.detectRec n info inj noRec).rn (Reg.FLT_SRC_CNT n) = (s.rn (Reg.FLT_SRC_CNT n) + 1) % 2 ^ 48 := by
  rw [s.detectRec_eq info inj noRec hn]
  split
  · rw [State.rn_mergeRec_other _ _ _ (by simp only [Reg.FLT_SRC_CNT, Reg.FLT_REC_INFO]; omega), State.rn_count_same]
  · rw [State.rn_firstFault_above _ _ _ _ hn (by simp only [Reg.FLT_SRC_CNT]; omega), State.rn_count_same]

@[simp] theorem State.detectRec_flt (n info : Nat) (inj noRec : Bool) : (s.detectRec n info inj noRec).flt = s.flt := by
  unfold State.detectRec
  dsimp only
  split
  · exact State.mergeRec_flt _ n inj
  · exact State.firstFault_flt _ n info inj noRec

/-! ## The onset of a level condition -/

/-- The entry placed is in the table. -/
theorem Tbl.mem_place_self {α : Type} (m : Tbl α) (k : Nat) (v : α) : (k, v) ∈ Tbl.place m k v := by
  induction m with
  | nil => exact List.mem_singleton_self _
  | cons e t ih =>
    rw [Tbl.place]
    split
    · exact List.mem_cons_self
    · exact List.mem_cons_of_mem _ ih

/-- The condition of level source `n` holds, with what its onset told. -/
def State.withLevel (n info : Nat) : State :=
  { s with flt := { s.flt with levels := Tbl.place (Tbl.del s.flt.levels n) n info } }

theorem State.levelHolds_withLevel (n info : Nat) : (s.withLevel n info).levelHolds n = true :=
  List.any_eq_true.2 ⟨(n, info), Tbl.mem_place_self _ n info, decide_eq_true rfl⟩

theorem State.levelOnset_held {n : Nat} (info : Nat) (noRec : Bool) (h : s.levelHolds n = true) : s.levelOnset n info noRec = s := by
  simp [State.levelOnset, h]

theorem State.levelOnset_new {n : Nat} (info : Nat) (noRec : Bool) (hlevel : isLevel n = true) (h : s.levelHolds n = false) :
    s.levelOnset n info noRec = (s.withLevel n info).detectRec n info false noRec := by
  simp [State.levelOnset, State.withLevel, hlevel, h]

end Sys2Proof.Machine
end

section
/-! PROOF. A merged detection, and the onsets of a level source (R431). -/
namespace Sys2Proof.Machine
open Sys2Proof

section
variable {s : State} {n : Nat} (info : Nat) (inj noRec : Bool) (hn : n < 96) (hsticky : s.sticky n = true)
include hn hsticky

/-- A detection of a sticky source counts and marks its record, whatever the detection tells. -/
theorem State.detectRec_sticky : s.detectRec n info inj noRec = (s.count (Reg.FLT_SRC_CNT n)).mergeRec n inj := by
  rw [s.detectRec_eq info inj noRec hn, if_pos hsticky]

/-- A merged detection changes its counter and its record's flags, and no other register. -/
theorem State.rn_detectRec_sticky {b : Nat} (hc : b ≠ Reg.FLT_SRC_CNT n) (hi : b ≠ Reg.FLT_REC_INFO n) :
    (s.detectRec n info inj noRec).rn b = s.rn b := by
  rw [State.detectRec_sticky info inj noRec hn hsticky, State.rn_mergeRec_other _ _ _ hi, State.rn_count_other _ hc]

/-- A merged detection sets no sticky bit and raises no event: their registers lie below the records. -/
theorem State.rn_detectRec_sticky_below {b : Nat} (hb : b < Reg.FLT_REC_T 0) : (s.detectRec n info inj noRec).rn b = s.rn b := by
  simp only [Reg.FLT_REC_T] at hb
  exact State.rn_detectRec_sticky info inj noRec hn hsticky (by simp only [Reg.FLT_SRC_CNT]; omega)
    (by simp only [Reg.FLT_REC_INFO]; omega)

end

/-- Settles O51: a sticky source's detection is a count and a `mergeRec`; a level source is detected at an onset alone. -/
theorem faultMerged : Obligations.FaultMerged := by
  intro s src info inj noRec n t
  have hn : n < 96 := src.isLt
  refine ⟨fun hsticky => ?_, fun _ hholds => ?_, fun hlevel hholds => ?_⟩
  · have hmerged : t = (s.count (Reg.FLT_SRC_CNT n)).mergeRec n inj := State.detectRec_sticky _ inj noRec hn hsticky
    have hbelow : ∀ {b : Nat}, b < Reg.FLT_REC_T 0 → t.rn b = s.rn b := State.rn_detectRec_sticky_below _ inj noRec hn hsticky
    have hinfo : (s.count (Reg.FLT_SRC_CNT n)).rn (Reg.FLT_REC_INFO n) = s.rn (Reg.FLT_REC_INFO n) :=
      s.rn_count_other (by simp only [Reg.FLT_SRC_CNT, Reg.FLT_REC_INFO]; omega)
    refine ⟨?_, ?_, ?_, ?_, ?_, s.rn_detectRec_srcCnt _ inj noRec hn, fun e he => ?_⟩
    · exact (State.bit_congr (hbelow (by simp only [Reg.FLT_STICKY, Reg.FLT_REC_T]; omega)) _).trans hsticky
    · exact State.rn_detectRec_sticky _ inj noRec hn hsticky (by simp only [Reg.FLT_REC_T, Reg.FLT_SRC_CNT]; omega)
        (by simp only [Reg.FLT_REC_T, Reg.FLT_REC_INFO]; omega)
    · rw [hmerged, State.rf_mergeRec_below _ _ _ (by decide), State.rf_congr hinfo]
    · rw [hmerged, State.bit_mergeRec_valid, State.bit_congr hinfo]
    · rw [hmerged, State.bit_mergeRec_merged]
    · exact State.bit_congr (hbelow (by simp only [Reg.FLT_EVT_PEND, Reg.FLT_REC_T]; omega)) _
  · show done (fun u => u.levelOnset n info.toNat noRec) s = _
    rw [done, s.quiet.levelOnset_held _ _ hholds]
  · have honset : s.quiet.levelOnset n info.toNat noRec = (s.quiet.withLevel n info.toNat).detectRec n info.toNat false noRec :=
      s.quiet.levelOnset_new _ _ hlevel hholds
    refine ⟨settle s (s.quiet.levelOnset n info.toNat noRec), rfl, ?_, ?_⟩
    · rw [honset, State.levelHolds, settle_flt, State.detectRec_flt]
      exact s.quiet.levelHolds_withLevel n info.toNat
    · rw [honset, settle_rn, State.rn_detectRec_srcCnt _ _ _ _ hn]
      rfl

end Sys2Proof.Machine
end

section
/-! PROOF. Every command completes (log entry 5), and what its end leaves of the MSI-X pending-bit array (R437, R456). -/
namespace Sys2Proof.Machine
open Sys2Proof

/-! ## Every arm ends in a next state -/

/-- Each command of the table ends in a settled state, whatever its effect. -/
theorem exec_settles (c : Instr) (s : State) : ∃ u, exec c s = .next (settle s u) := by
  cases c <;> exact ⟨_, rfl⟩

/-- Settles O4: every arm ends in a settled state. -/
theorem everyCommandCompletes : Obligations.EveryCommandCompletes := by
  intro c s
  obtain ⟨u, hu⟩ := exec_settles c s
  exact ⟨settle s u, hu⟩

/-- Settles O1: by the two cases of the queue. -/
theorem stepRunsFront : Obligations.StepRunsFront := by
  refine ⟨fun _ _ _ => rfl, fun s hs => ?_⟩
  rw [step, hs]

/-! ## The pending-bit array -/

/-- A bit set in the array sets that bit alone. -/
theorem getLsbD_setBit (p : BitVec 68) {v n : Nat} (hn : n < 68) :
    (p ||| (1#68 <<< n)).getLsbD v = (decide (v = n) || p.getLsbD v) := by
  by_cases h : v = n
  · subst h; simp [hn]
  · by_cases hlt : v < n
    · simp [h, hlt]
    · have hone : (1#68).getLsbD (v - n) = false := by
        rw [BitVec.getLsbD_one]; simp; omega
      simp [h, hlt, hone]

/-- A bit cleared in the array clears that bit alone. -/
theorem getLsbD_clearBit (p : BitVec 68) {v n : Nat} (hn : n < 68) :
    (p &&& ~~~(1#68 <<< n)).getLsbD v = (!decide (v = n) && p.getLsbD v) := by
  by_cases h : v = n
  · subst h; simp [hn]
  · by_cases hv : v < 68
    · by_cases hlt : v < n
      · simp [h, hlt, hv]
      · have hne : v - n ≠ 0 := by omega
        simp [h, hlt, hv, hne]
    · simp [BitVec.getLsbD_of_ge p v (by omega)]

/-- After the vectors below `n` were judged, a set bit below `n` stands for a due vector that may not be sent. -/
theorem vectorsStep_bit (s0 s1 : State) {n v : Nat} (hn : n ≤ 68) (hv : v < n) (hbit : (vectorsStep s0 s1 n).2.getLsbD v = true) :
    s1.msixInUse = true ∧ s1.vector v = true ∧ s1.msixOpen v = false := by
  induction n with
  | zero => omega
  | succ n ih =>
    have hkeep : v ≠ n → (vectorsStep s0 s1 n).2.getLsbD v = true → s1.msixInUse = true ∧ s1.vector v = true ∧ s1.msixOpen v = false :=
      fun hne => ih (by omega) (by omega)
    simp only [vectorsStep] at hbit
    split at hbit
    · rw [getLsbD_clearBit _ (by omega)] at hbit
      simp only [Bool.and_eq_true, Bool.not_eq_true', decide_eq_false_iff_not] at hbit
      exact hkeep hbit.1 hbit.2
    · next hopen =>
      split at hbit
      · next hdue =>
        by_cases hne : v = n
        · subst hne
          simp only [hdue, Bool.true_and, Bool.not_eq_true] at hopen
          simp only [Bool.and_eq_true] at hdue
          exact ⟨hdue.1.1, hdue.1.2, hopen⟩
        · rw [getLsbD_setBit _ (by omega)] at hbit
          simp only [hne, decide_false, Bool.false_or] at hbit
          exact hkeep hne hbit
      · rw [getLsbD_clearBit _ (by omega)] at hbit
        simp only [Bool.and_eq_true, Bool.not_eq_true', decide_eq_false_iff_not] at hbit
        exact hkeep hbit.1 hbit.2

/-- A settled state's array is sound, whatever came before. -/
theorem pbaSound_settle (s0 s1 : State) : (settle s0 s1).pbaSound := fun _ hv hbit => vectorsStep_bit s0 s1 (Nat.le_refl 68) hv hbit

/-- Settles O3: an idle step keeps the state, and every command ends in a settled one. -/
theorem pbaSoundKept : Obligations.PbaSoundKept := by
  intro s t hs hstep
  unfold step at hstep
  split at hstep
  · cases hstep
    exact hs
  · next c rest _ =>
    obtain ⟨u, hu⟩ := exec_settles c { s with pending := rest }
    rw [hu] at hstep
    cases hstep
    exact pbaSound_settle _ u

end Sys2Proof.Machine
end

section
/-! PROOF. What reset leaves (R10, R438, log entries 4 and 9). -/
namespace Sys2Proof.Machine
open Sys2Proof

/-- Right after a POR is recognised every register reads as its reset value. -/
theorem State.rn_reset (a : Nat) : State.reset.rn a = (regReset a).toNat := rfl

/-- Every event's route and every word of pending events is zero at reset. -/
theorem regReset_events : ∀ e : Fin 128, regReset (Reg.FLT_EVT_ROUTE e.val) = 0 ∧ regReset (Reg.FLT_EVT_PEND (e.val / 32)) = 0 := by
  decide

theorem State.evPending_reset (e : Fin 128) : State.reset.evPending e.val = false := by
  have h : State.reset.rn (Reg.FLT_EVT_PEND (e.val / 32)) = 0 := by rw [State.rn_reset, (regReset_events e).2]; rfl
  simp [State.evPending, State.bit, State.rf, h, fld]

/-- An array with no bit set is sound. -/
theorem State.pbaSound_reset : State.reset.pbaSound := by
  intro v _ h
  have hz : State.reset.hq.pba.getLsbD v = false := BitVec.getLsbD_zero
  simp [hz] at h

/-- Settles O2: each register reads its reset value, and each memory lists nothing. -/
theorem resetLeaves : Obligations.ResetLeaves := by
  refine ⟨rfl, rfl, rfl, rfl, rfl, State.pbaSound_reset, ?_, ?_, rfl, ?_, ?_, ?_, ?_, ?_, fun e => ⟨?_, State.evPending_reset e⟩, ?_⟩
  · rw [State.rn_reset]; decide
  · rw [State.imgState, State.rf, State.rn_reset]; decide
  · rw [State.rn_reset]; decide
  · rw [State.rn_reset]; decide
  · rw [State.rn_reset]; decide
  · rw [State.rn_reset]; decide
  · rw [State.rn_reset]; decide
  · rw [State.rn_reset, (regReset_events e).1]; rfl
  · have hseq : State.reset.pwr.seq = some .por := rfl
    simp [State.faultLow, hseq]

end Sys2Proof.Machine
end

section
/-! SUPPORT. From a command's arm to the next state its statement gives: one rule for each wrapper of a meaning. -/
namespace Sys2Proof.Machine
open Sys2Proof

variable {i : Instr} {f : State → State} {s t : State}

/-- A command that always has its effect. -/
theorem Ends.of_done (hexec : exec i s = done f s) (heffect : f s.quiet = t) : Ends i s t := by
  rw [Ends, hexec, done, heffect]

/-- A command on the compute die while it works. -/
theorem Ends.of_live (hexec : exec i s = live f s) (ha : s.alive = true) (heffect : f s.quiet = t) : Ends i s t := by
  rw [Ends, hexec, live_on ha, heffect]

/-- A command on a part that runs through WDT, SOFT and LINK resets, while it works. -/
theorem Ends.of_running (hexec : exec i s = running f s) (ht : s.ticking = true) (heffect : f s.quiet = t) : Ends i s t := by
  rw [Ends, hexec, running_on ht, heffect]

/-- A command of the cores or the dispatcher while they run. -/
theorem Ends.of_coring (hexec : exec i s = coring f s) (hc : s.coresRun = true) (heffect : f s.quiet = t) : Ends i s t := by
  rw [Ends, hexec, coring_on hc, heffect]

/-- A register write that has its effect at once. -/
theorem Ends.of_takes {who : Party} {a : Nat} {w : Word} (hexec : exec i s = live (written who a w f) s) (htakes : s.takes who a = true)
    (heffect : f s.quiet = t) : Ends i s t := by
  rw [Ends, hexec, live_takes htakes, heffect]

/-- What holds of the state an effect ends in. -/
theorem Gives.of_ends {p : State → Prop} (h : Ends i s t) (hp : p (settle s t)) : Gives i s p := ⟨_, h, hp⟩

end Sys2Proof.Machine
end

section
/-! PROOF. The forms of register accesses (R6, R44, R51, R453) and the latching rule of pairs (R7). -/
namespace Sys2Proof.Machine
open Sys2Proof

/-! ## Writes of a register -/

section
variable {s : State} {who : Party} {a : Nat} {w : Word} {f : State → State}

/-- The silent rule keeps a write from any effect. -/
theorem written_closed (h : s.regOpen who a = false) : written who a w f s = s := by
  simp [written, h]

/-- In PARK a write of a gated block joins those held. -/
theorem written_parked (ho : s.regOpen who a = true) (hp : (decide (s.pwr.state = .park) && parkGated a) = true) :
    written who a w f s = { s with hq := { s.hq with parked := s.hq.parked ++ [{ who := who, addr := a, value := w }] } } := by
  simp [written, ho, hp]

/-- Otherwise it has its effect, over the bridge where its block lies beyond it. -/
theorem written_effect (ho : s.regOpen who a = true) (hp : (decide (s.pwr.state = .park) && parkGated a) = false) :
    written who a w f s = f (s.accessCrossing a) := by
  simp [written, ho, hp]

end

/-- A write that is misaligned or narrow has no effect. -/
theorem registerWrite_ignored {who : Party} {a : Nat} {size : AccessSize} (v : BitVec 64) (s : State)
    (h : a % 4 ≠ 0 ∨ size = .b1 ∨ size = .b2) : registerWrite who a size v s = s := by
  rcases h with h | rfl | rfl
  · simp [registerWrite, h]
  · simp [registerWrite]
  · simp [registerWrite]

/-- A 32-bit write of an aligned address. -/
theorem registerWrite_word {a : Nat} (who : Party) (v : BitVec 64) (s : State) (h : a % 4 = 0) :
    registerWrite who a .b4 v s = regWrite who a (v.extractLsb' 0 32) s := by
  simp [registerWrite, h]

/-- A 64-bit write of an aligned address: the lower address first. -/
theorem registerWrite_double {a : Nat} (who : Party) (v : BitVec 64) (s : State) (h : a % 4 = 0) :
    registerWrite who a .b8 v s = regWrite who (a + 4) (v.extractLsb' 32 32) (regWrite who a (v.extractLsb' 0 32) s) := by
  simp [registerWrite, h]

/-- A read under the silent rule is zero, without effect. -/
theorem State.read32_closed {s : State} {who : Party} {a : Nat} (h : s.regOpen who a = false) : s.read32 who a = (0, s) := by
  simp [State.read32, h]

/-- Settles O5: each form of an access is one case of the definitions. -/
theorem registerAccessForms : Obligations.RegisterAccessForms := by
  intro s who a size v w ha
  refine ⟨fun h => ?_, fun h => ?_, fun h => ?_, written_closed, fun _ => State.read32_closed, fun h => ?_, fun h => ?_, fun h => ?_,
    fun h => ?_, fun h => ?_, fun h => ?_⟩
  · exact .of_live rfl ha (registerWrite_ignored v _ h)
  · exact .of_live rfl ha (registerWrite_word who v _ h)
  · exact .of_live rfl ha (registerWrite_double who v _ h)
  · exact .of_live rfl ha (if_pos (by rw [h]; rfl))
  · exact .of_live rfl ha (if_neg (by rw [h]; exact Bool.false_ne_true))
  · exact .of_live rfl ha (if_pos h)
  · exact .of_live rfl ha (if_neg h)
  · exact .of_live rfl ha (if_pos h)
  · exact .of_live rfl ha (if_neg h)

/-! ## Reads of a pair (R7) -/

theorem party_num_lt (p : Party) : p.num < 16 := by
  cases p with
  | host => decide
  | core k => simp only [Party.num]; omega

theorem party_num_inj {p q : Party} (h : p.num = q.num) : p = q := by
  cases p with
  | host => cases q with
    | host => rfl
    | core k => simp [Party.num] at h
  | core j => cases q with
    | host => simp [Party.num] at h
    | core k => simp only [Party.num, Nat.add_right_cancel_iff] at h; rw [Fin.ext h]

/-- Another register or another party has another key in the tables kept by both. -/
theorem party_key_ne {a b : Nat} {p q : Party} (h : b ≠ a ∨ p ≠ q) : b * 16 + p.num ≠ a * 16 + q.num := by
  intro e
  have hp := party_num_lt p
  have hq := party_num_lt q
  have hnum : p.num = q.num := by omega
  rcases h with h | h
  · omega
  · exact h (party_num_inj hnum)

section
variable {s : State} {who : Party} {a : Nat} {r : RegRow} (hopen : s.regOpen who a = true) (hpair : r.pair = true) (hword : a % 4 = 0)
  (hbat : a ≠ Reg.KEY_BAT_TICKS) (hbridge : (bridged a && s.injects 4) = false)
include hopen hpair hword hbat hbridge

/-- A read of a pair's first word returns its low 32 bits and latches the rest. -/
theorem State.read32_pair_lo (hrow : rowOf a = some (r, 0)) : s.read32 who a =
    (s.readValue who a % 2 ^ 32, { s with hold := Tbl.set s.hold (a * 16 + who.num) (s.readValue who a / 2 ^ 32) 0 }) := by
  have hbase : a / 4 * 4 = a := by omega
  simp [State.read32, hopen, State.accessCrossing_ok hbridge, hbat, State.readWord, State.latch, hbase, hrow, hpair]

/-- A read of a pair's second word returns what the reader's holding register has. -/
theorem State.read32_pair_hi (hrow : rowOf a = some (r, 1)) : s.read32 who a =
    (Tbl.get s.hold ((a - 4) * 16 + who.num) 0 % 2 ^ 32, s) := by
  have hbase : a / 4 * 4 = a := by omega
  simp [State.read32, hopen, State.accessCrossing_ok hbridge, hbat, State.readWord, State.latch, hbase, hrow, hpair]

end

/-- A 32-bit read of an aligned address. -/
theorem pairLoRead_word {who : Party} {a : Nat} (s : State) (h : a % 4 = 0) :
    pairLoRead who a .b4 s = (s.read32 who a).2.emit (.read (BitVec.ofNat 64 (s.read32 who a).1)) := by
  have hbase : a / 4 * 4 = a := by omega
  simp [pairLoRead, served, h, hbase]

/-! ## Writes of a pair (R7): TIME_SVO_OFS -/

theorem rowOf_svoOfs : rowOf Reg.TIME_SVO_OFS = some (⟨Reg.TIME_SVO_OFS, 2, true, [], 0xffffffffffffffff, 0, .n⟩, 0) ∧
    rowOf (Reg.TIME_SVO_OFS + 4) = some (⟨Reg.TIME_SVO_OFS, 2, true, [], 0xffffffffffffffff, 0, .n⟩, 1) := by decide +kernel

/-- A write in the TIME and TACK ranges. -/
theorem regWriteAt_time (who : Party) {a : Nat} (w : Word) (s : State) (hlo : 0x100000 ≤ a) (hhi : a < 0x200000) :
    regWriteAt who a w s = timeWrite who a w s := by
  unfold regWriteAt
  rw [if_neg (by omega), if_pos hhi]

/-- The words of TIME_SVO_OFS hold no command: a write of one is a store. -/
theorem regWriteAt_svoOfs (who : Party) {a : Nat} (w : Word) (s : State) (h : a = Reg.TIME_SVO_OFS ∨ a = Reg.TIME_SVO_OFS + 4) :
    regWriteAt who a w s = regStore who a w s := by
  simp only [Reg.TIME_SVO_OFS] at h
  rw [regWriteAt_time _ _ _ (by omega) (by omega)]
  simp only [timeWrite, Bool.and_eq_true, decide_eq_true_eq]
  simp only [Reg.TIME_INC, Reg.TIME_SLEW_TICKS, Reg.TIME_SVO_POST, Reg.TIME_SRC, Reg.TIME_CTRL, Reg.TIME_UTCOFS, Reg.TACK_ENTRY]
  iterate 8 refine (if_neg (by omega)).trans ?_
  rfl

/-- No lock covers the time registers. -/
theorem State.locked_time (s : State) {a : Nat} (h : a < Reg.STN_BANK 0 0) : s.locked a = false := by
  have hkey : a ≠ Reg.KEY_TAMP_CFG := by simp only [Reg.STN_BANK, Reg.KEY_TAMP_CFG] at *; omega
  have hbank : ¬ Reg.STN_BANK 0 0 ≤ a := by omega
  simp [State.locked, hkey, hbank]

/-- A LO write of TIME_SVO_OFS is held for its party. -/
theorem regWriteAt_svoOfs_lo (who : Party) (w : Word) (s : State) :
    regWriteAt who Reg.TIME_SVO_OFS w s = s.setLoHeld who Reg.TIME_SVO_OFS (some w.toNat) := by
  rw [regWriteAt_svoOfs _ _ _ (.inl rfl), regStore, rowOf_svoOfs.1]
  simp [s.locked_time (a := Reg.TIME_SVO_OFS) (by decide)]

/-- A HI write of it commits both halves, and the party then holds none. -/
theorem regWriteAt_svoOfs_hi (who : Party) (w : Word) (s : State) :
    regWriteAt who (Reg.TIME_SVO_OFS + 4) w s = (s.setLoHeld who Reg.TIME_SVO_OFS none).setReg Reg.TIME_SVO_OFS
      ((s.loHeld who Reg.TIME_SVO_OFS).getD (s.rn Reg.TIME_SVO_OFS % 2 ^ 32) + 2 ^ 32 * w.toNat) := by
  have hmask : w.toNat &&& 0xffffffff = w.toNat := by
    rw [show 0xffffffff = 2 ^ 32 - 1 from rfl, Nat.and_two_pow_sub_one_eq_mod, Nat.mod_eq_of_lt w.isLt]
  have hslew : Reg.TIME_SVO_OFS ≠ Reg.TIME_SLEW_INC := by decide
  rw [regWriteAt_svoOfs _ _ _ (.inr rfl), regStore, rowOf_svoOfs.2]
  simp [s.locked_time (a := Reg.TIME_SVO_OFS + 4) (by decide), pairCommit, hslew, State.pairValue, hmask]

/-- The 32-bit write of a register below the power registers, past its gates. -/
theorem regWrite_below {who : Party} {a : Nat} {w : Word} {s : State} (hpwr : a < Reg.PWR_STATE_CTRL) :
    regWrite who a w s = written who a w (regWriteAt who a w) s := by
  simp only [Reg.PWR_STATE_CTRL] at hpwr
  unfold regWrite
  congr 1
  funext u
  iterate 4 rw [if_neg (by simp only [Reg.PWR_STATE_CTRL, Reg.PWR_RESET, Reg.PWR_WDT_CFG, Reg.PWR_WDT_KICK]; omega)]

/-- Settles O6: a pair's words are read and written by the latching rule. -/
theorem registerPairs : Obligations.RegisterPairs := by
  refine ⟨fun s who a r ha hopen hpair hword hbat hbridge => ⟨fun hrow => ?_, fun hrow => ?_⟩, fun s who w htakes => ?_⟩
  · have hread := State.read32_pair_lo (s := s.quiet) hopen hpair hword hbat hbridge hrow
    have hends : Ends (.pairLoRead who a .b4) s _ := .of_live rfl ha (pairLoRead_word s.quiet hword)
    rw [hread] at hends
    refine .of_ends hends ⟨mem_out_settle _ (State.mem_out_emit _ _), Tbl.get_set_same _ _ _ _, fun b p hne => ?_, rfl, rfl,
      fun _ => ⟨rfl, rfl, rfl⟩⟩
    exact Tbl.get_set_other _ _ _ _ (party_key_ne hne)
  · have hread := State.read32_pair_hi (s := s.quiet) hopen hpair hword hbat hbridge hrow
    have hends : Ends (.pairLoRead who a .b4) s _ := .of_live rfl ha (pairLoRead_word s.quiet hword)
    rw [hread] at hends
    exact .of_ends hends ⟨mem_out_settle _ (State.mem_out_emit _ _), rfl, rfl, rfl, fun _ => ⟨rfl, rfl, rfl⟩⟩
  · have hlo : (BitVec.ofNat 26 Reg.TIME_SVO_OFS).toNat = Reg.TIME_SVO_OFS := rfl
    have hhi : (BitVec.ofNat 26 (Reg.TIME_SVO_OFS + 4)).toNat = Reg.TIME_SVO_OFS + 4 := rfl
    have hpairLo : pairWord Reg.TIME_SVO_OFS = some 0 := by
      have hcap : Reg.TIME_SVO_OFS ≠ Reg.CAP_SPILL_RPTR_LO ∧ Reg.TIME_SVO_OFS ≠ Reg.CAP_SPILL_RPTR_HI := by decide
      simp [pairWord, hcap, rowOf_svoOfs.1]
    have hpairHi : pairWord (Reg.TIME_SVO_OFS + 4) = some 1 := by
      have hcap : Reg.TIME_SVO_OFS + 4 ≠ Reg.CAP_SPILL_RPTR_LO ∧ Reg.TIME_SVO_OFS + 4 ≠ Reg.CAP_SPILL_RPTR_HI := by decide
      simp [pairWord, hcap, rowOf_svoOfs.2]
    refine ⟨?_, fun htakesHi => ?_, fun p off x hne => ?_, fun x => Tbl.get_set_same _ _ _ _⟩
    · refine .of_takes (w := w) (f := regWriteAt who Reg.TIME_SVO_OFS w) ?_ htakes (regWriteAt_svoOfs_lo who w _)
      show live (fun u => if pairWord (BitVec.ofNat 26 Reg.TIME_SVO_OFS).toNat = some 0 then _ else u) s = _
      simp only [hlo, hpairLo, if_true]
      exact congrArg (live · s) (funext fun u => regWrite_below (by decide))
    · refine .of_takes (w := w) (f := regWriteAt who (Reg.TIME_SVO_OFS + 4) w) ?_ htakesHi (regWriteAt_svoOfs_hi who w _)
      show live (fun u => if pairWord (BitVec.ofNat 26 (Reg.TIME_SVO_OFS + 4)).toNat = some 1 then _ else u) s = _
      simp only [hhi, hpairHi, if_true]
      exact congrArg (live · s) (funext fun u => regWrite_below (by decide))
    · exact Tbl.get_set_other _ _ _ _ (party_key_ne hne.symm)

end Sys2Proof.Machine
end

section
/-! PROOF. Register writes (R8, R9, R453) and window commits (R40, R41). -/
namespace Sys2Proof.Machine
open Sys2Proof

/-! ## The route of an event -/

/-- The offset past the last register of a row. -/
def rowEnd (r : RegRow) : Nat :=
  match r.dims with
  | [] => r.base + 4 * r.words
  | (n, stride) :: _ => r.base + n * stride

/-- Every stride of the register map is above zero. -/
theorem regRows_strides : ∀ r ∈ regRows, ∀ d ∈ r.dims, 0 < d.2 := by decide +kernel

/-- A row serves no address before its first register or past its last. -/
theorem rowWord_out {r : RegRow} {a : Nat} (hs : ∀ d ∈ r.dims, 0 < d.2) (h : a < r.base ∨ rowEnd r ≤ a) : rowWord r a = none := by
  rcases h with h | h
  · simp [rowWord, h]
  · by_cases hb : a < r.base
    · simp [rowWord, hb]
    · simp only [rowWord, hb, if_false]
      cases hd : r.dims with
      | nil =>
        simp only [rowEnd, hd] at h
        have hlen : ¬ a - r.base < 4 * r.words := by omega
        simp [wordIn, hlen]
      | cons d ds =>
        obtain ⟨n, stride⟩ := d
        have hstride : 0 < stride := hs (n, stride) (by simp [hd])
        simp only [rowEnd, hd] at h
        have hcount : n ≤ (a - r.base) / stride := (Nat.le_div_iff_mul_le hstride).2 (by omega)
        simp [wordIn, Nat.not_lt.2 hcount]

/-- A row that alone serves an address is the one found. -/
theorem findRow_unique {l : List RegRow} {r : RegRow} {a w : Nat} (hmem : r ∈ l) (hword : rowWord r a = some w)
    (hother : ∀ q ∈ l, q = r ∨ rowWord q a = none) : findRow l a = some (r, w) := by
  induction l with
  | nil => simp at hmem
  | cons q t ih =>
    rcases hother q List.mem_cons_self with rfl | hq
    · simp [findRow, hword]
    · have hne : r ≠ q := by rintro rfl; rw [hword] at hq; cases hq
      have hrest := ih (List.mem_of_ne_of_mem hne hmem) fun x hx => hother x (List.mem_cons_of_mem _ hx)
      simp [findRow, hq, hrest]

/-- A row between whose bounds no other row lies serves its own addresses. -/
theorem rowOf_array {r : RegRow} {lo hi a w : Nat} (hrow : r ∈ regRows ∧ ∀ q ∈ regRows, q = r ∨ hi ≤ q.base ∨ rowEnd q ≤ lo)
    (hlo : lo ≤ a) (hhi : a < hi) (hword : rowWord r a = some w) : rowOf a = some (r, w) := by
  refine findRow_unique hrow.1 hword fun q hq => ?_
  rcases hrow.2 q hq with h | h | h
  · exact .inl h
  · exact .inr (rowWord_out (regRows_strides q hq) (.inl (by omega)))
  · exact .inr (rowWord_out (regRows_strides q hq) (.inr (by omega)))

/-- The row of the event routes (R449): their writable bits in one word, none cleared by a 1 written. -/
def evtRouteRow : RegRow := ⟨Reg.FLT_EVT_ROUTE 0, 1, false, [(128, 0x4)], 0x3f1f, 0, .w⟩

theorem evtRouteRow_alone : evtRouteRow ∈ regRows ∧ ∀ q ∈ regRows, q = evtRouteRow ∨ 0x1800e00 ≤ q.base ∨ rowEnd q ≤ 0x1800c00 := by
  decide +kernel

theorem rowOf_evtRoute (e : Fin 128) : rowOf (Reg.FLT_EVT_ROUTE e.val) = some (evtRouteRow, 0) := by
  have he : e.val < 128 := e.isLt
  refine rowOf_array evtRouteRow_alone (by simp only [Reg.FLT_EVT_ROUTE]; omega) (by simp only [Reg.FLT_EVT_ROUTE]; omega) ?_
  have hix : Reg.FLT_EVT_ROUTE e.val - Reg.FLT_EVT_ROUTE 0 = 4 * e.val := by simp only [Reg.FLT_EVT_ROUTE]; omega
  have hlo : ¬ Reg.FLT_EVT_ROUTE e.val < Reg.FLT_EVT_ROUTE 0 := by simp only [Reg.FLT_EVT_ROUTE]; omega
  simp [rowWord, evtRouteRow, hix, hlo, wordIn]

/-- Above the commands of the fault registers and below the power registers a write is a store. -/
theorem regWriteAt_flt (who : Party) {a : Nat} (w : Word) (s : State) (hlo : 0x1800050 ≤ a) (hhi : a < 0x1900000) :
    regWriteAt who a w s = regStore who a w s := by
  have hring : arrIx a (Reg.HQ_RING_CFG 0) 0x40 2 = none := by
    have hbelow : ¬ Reg.HQ_RING_CFG 0 ≤ a := by simp only [Reg.HQ_RING_CFG]; omega
    simp [arrIx, hbelow]
  have hservice : regWriteAt who a w s = serviceWrite who a w s := by
    unfold regWriteAt
    iterate 13 rw [if_neg (by omega)]
  rw [hservice]
  simp only [serviceWrite, hring]
  iterate 15 rw [if_neg (by simp only [Reg.FLDL_DOORBELL, Reg.FLDL_RESP, Reg.KEY_MBX_CTRL, Reg.FLT_STICKY, Reg.FLT_INJ,
    Reg.FLT_EVT_PEND, Reg.HQ_RING_PEND, Reg.HQ_UART_DATA, Reg.HQ_QSPI_CTRL]; omega)]

/-- An address before an array, or past its end, names no register of it. -/
theorem arrIx_out {a base stride n : Nat} (hs : 0 < stride) (h : a < base ∨ base + n * stride ≤ a) : arrIx a base stride n = none := by
  unfold arrIx
  rw [if_neg]
  simp only [Bool.and_eq_true, decide_eq_true_eq, not_and, Nat.not_lt]
  intro ⟨hbase, _⟩
  rcases h with h | h
  · omega
  · exact (Nat.le_div_iff_mul_le hs).2 (by omega)

/-- No limit of its own changes a fault register's value. -/
theorem regClamp_flt {a : Nat} (v : Nat) (hlo : 0x1800000 ≤ a) (hhi : a < 0x1900000) : regClamp a v = v := by
  have hlpi : (arrIx a (Reg.ETH_LPI_CTRL 0) 0x10000 4).isSome = false := by
    rw [arrIx_out (by decide) (.inr (by simp only [Reg.ETH_LPI_CTRL]; omega))]; rfl
  have hidle : (arrIx a (Reg.ETH_LPI_IDLE 0) 0x10000 4).isSome = false := by
    rw [arrIx_out (by decide) (.inr (by simp only [Reg.ETH_LPI_IDLE]; omega))]; rfl
  have hspan : (arrIx a (Reg.FAB_PNL_SPAN_MAX 0) 0x1000 16).isSome = false := by
    rw [arrIx_out (by decide) (.inr (by simp only [Reg.FAB_PNL_SPAN_MAX]; omega))]; rfl
  simp only [regClamp, hlpi, hidle, hspan, Bool.false_eq_true, if_false]
  simp only [Reg.TIME_HOLD_DRIFT, Reg.ETH_TQ_BASE, Reg.FAB_SCRUB_SWEEP, Reg.STN_SAVE_PERIOD, Reg.RADIO_TX_PWR, Reg.HQ_SEAM_CFG,
    Reg.HQ_UART_CFG, Reg.PWR_SUPMON_CFG]
  iterate 8 refine (if_neg (by omega)).trans ?_
  rfl

/-- No lock covers the fault registers. -/
theorem State.locked_flt (s : State) {a : Nat} (hlo : 0x1800000 ≤ a) : s.locked a = false := by
  have hkey : a ≠ Reg.KEY_TAMP_CFG := by simp only [Reg.KEY_TAMP_CFG]; omega
  have hbank : ¬ a < Reg.STN_BANK 4 0 := by simp only [Reg.STN_BANK]; omega
  simp [State.locked, hkey, hbank]

/-- A write of an event's route stores its writable bits. -/
theorem regStore_evtRoute (who : Party) (e : Fin 128) (w : Word) (s : State) :
    regStore who (Reg.FLT_EVT_ROUTE e.val) w s = s.store (Reg.FLT_EVT_ROUTE e.val) 0 0x3f1f 0 w := by
  rw [regStore, rowOf_evtRoute e]
  simp [evtRouteRow, s.locked_flt (a := Reg.FLT_EVT_ROUTE e.val) (by simp only [Reg.FLT_EVT_ROUTE]; omega)]

/-- A write of an event's route: its writable bits take those written, and nothing else changes. -/
theorem write_evtRoute {s : State} {who : Party} {e : Fin 128} (v : BitVec 64) (htakes : s.takes who (Reg.FLT_EVT_ROUTE e.val) = true) :
    exec (.registerWrite who (BitVec.ofNat 26 (Reg.FLT_EVT_ROUTE e.val)) .b4 v) s =
      .next (settle s (s.quiet.store (Reg.FLT_EVT_ROUTE e.val) 0 0x3f1f 0 (v.extractLsb' 0 32))) := by
  have he : e.val < 128 := e.isLt
  rw [exec_registerWrite_word v htakes (by simp only [Reg.FLT_EVT_ROUTE]; omega)
      (by simp only [Reg.FLT_EVT_ROUTE, Reg.PWR_STATE_CTRL]; omega),
    regWriteAt_flt _ _ _ (by simp only [Reg.FLT_EVT_ROUTE]; omega) (by simp only [Reg.FLT_EVT_ROUTE]; omega), regStore_evtRoute]

theorem testBit_store_evtRoute (s : State) (e : Fin 128) (v : BitVec 64) {i : Nat} (hi : i < 32) :
    ((s.store (Reg.FLT_EVT_ROUTE e.val) 0 0x3f1f 0 (v.extractLsb' 0 32)).rn (Reg.FLT_EVT_ROUTE e.val)).testBit i =
      if (0x3F1F : Nat).testBit i then v.getLsbD i else (s.rn (Reg.FLT_EVT_ROUTE e.val)).testBit i := by
  have he : e.val < 128 := e.isLt
  have hbit := s.testBit_store (a := Reg.FLT_EVT_ROUTE e.val) (i := 0) (rw := 0x3f1f) 0 (v.extractLsb' 0 32)
    (fun x => regClamp_flt x (by simp only [Reg.FLT_EVT_ROUTE]; omega) (by simp only [Reg.FLT_EVT_ROUTE]; omega)) (by omega) hi
  simpa [BitVec.getLsbD_extractLsb', hi] using hbit

theorem write_parked {s : State} {who : Party} {a : BitVec 26} (v : BitVec 64) (ha : s.alive = true) (hopen : s.regOpen who a.toNat = true)
    (hword : a.toNat % 4 = 0) (hpark : s.pwr.state = .park) (hgated : parkGated a.toNat = true) :
    Ends (.registerWrite who a .b4 v) s { s.quiet with hq := { s.hq with parked := s.hq.parked ++
       [{ who := who, addr := a.toNat, value := v.extractLsb' 0 32 }] } } := by
  have hcond : (decide (s.quiet.pwr.state = .park) && parkGated a.toNat) = true := by simp [hpark, hgated]
  exact .of_live rfl ha ((registerWrite_word who v _ hword).trans (written_parked hopen hcond))

/-- Settles O7: the route's write is a store, and `written` has one case for each gate. -/
theorem registerWrites : Obligations.RegisterWrites := by
  refine ⟨fun s who e v htakes => ?_, fun s who a v ha hopen hword hpark hgated => ?_, fun s who a w f => ⟨written_closed, written_parked,
    fun ho hh hb => ?_, fun ho hh hb => ?_⟩⟩
  · refine ⟨_, write_evtRoute v htakes, fun i hi => ?_, fun a ha => ?_, memKept_settle_store _ _ _ _ _ _, ?_, ?_⟩
    · rw [settle_rn, testBit_store_evtRoute _ _ _ hi, State.quiet_rn]
    · rw [settle_rn, State.rn_store_other _ _ _ _ _ ha, State.quiet_rn]
    · rw [settle_hold, State.store_hold, State.quiet_hold]
    · rw [settle_heldLo, State.store_heldLo, State.quiet_heldLo]
  · exact write_parked v ha hopen hword hpark hgated
  · rw [written_effect ho hh, State.accessCrossing, if_neg (by rw [hb]; decide)]
  · rw [written_effect ho hh, State.accessCrossing, if_pos hb, State.crossing]

/-! ## A window's value -/

/-- Bit `i` of a number as a field. -/
theorem fld_bit (d i : Nat) : decide (fld d i 1 = 1) = d.testBit i := by
  simp [fld, Nat.testBit_eq_decide_div_mod_eq]

/-- A value within a window's bounds, in its format (R41). -/
def winWithin (fmt lo up v : Nat) : Prop :=
  if fmt = 4 then lo % 2 ^ 32 ≤ v ∧ v ≤ up % 2 ^ 32
  else if fmt = 5 then sInt 32 lo ≤ sInt 32 v ∧ sInt 32 v ≤ sInt 32 up
  else sInt 40 lo ≤ sInt 40 v ∧ sInt 40 v ≤ sInt 40 up

/-- A window takes a value of a party that WHO names, within its bounds. -/
theorem State.winTakes_iff (s : State) (who : Party) (n v : Nat) : s.winTakes who n v = true ↔
    (s.rn (Reg.FAB_PWIN_DESC n)).testBit (if who = .host then 5 else 6) = true ∧
      winWithin (s.rn (Reg.FAB_PWIN_DESC n) % 16) (s.rn (Reg.FAB_PWIN_MIN n)) (s.rn (Reg.FAB_PWIN_MAX n)) v := by
  have hfmt : fld (s.rn (Reg.FAB_PWIN_DESC n)) 0 4 = s.rn (Reg.FAB_PWIN_DESC n) % 16 := by simp [fld]
  have hwithin : ∀ b : Bool, (b = true ↔
      winWithin (s.rn (Reg.FAB_PWIN_DESC n) % 16) (s.rn (Reg.FAB_PWIN_MIN n)) (s.rn (Reg.FAB_PWIN_MAX n)) v) →
      ∀ i, (decide (fld (s.rn (Reg.FAB_PWIN_DESC n)) i 1 = 1) && b) = true ↔ (s.rn (Reg.FAB_PWIN_DESC n)).testBit i = true ∧
        winWithin (s.rn (Reg.FAB_PWIN_DESC n) % 16) (s.rn (Reg.FAB_PWIN_MIN n)) (s.rn (Reg.FAB_PWIN_MAX n)) v := fun b hb i => by
    rw [Bool.and_eq_true, fld_bit, hb]
  have hbounds : ∀ b : Bool, b = (if s.rn (Reg.FAB_PWIN_DESC n) % 16 = 4 then
      decide (s.rn (Reg.FAB_PWIN_MIN n) % 2 ^ 32 ≤ v) && decide (v ≤ s.rn (Reg.FAB_PWIN_MAX n) % 2 ^ 32)
    else if s.rn (Reg.FAB_PWIN_DESC n) % 16 = 5 then
      decide (sInt 32 (s.rn (Reg.FAB_PWIN_MIN n)) ≤ sInt 32 v) && decide (sInt 32 v ≤ sInt 32 (s.rn (Reg.FAB_PWIN_MAX n)))
    else decide (sInt 40 (s.rn (Reg.FAB_PWIN_MIN n)) ≤ sInt 40 v) && decide (sInt 40 v ≤ sInt 40 (s.rn (Reg.FAB_PWIN_MAX n)))) →
      (b = true ↔ winWithin (s.rn (Reg.FAB_PWIN_DESC n) % 16) (s.rn (Reg.FAB_PWIN_MIN n)) (s.rn (Reg.FAB_PWIN_MAX n)) v) := by
    rintro b rfl
    unfold winWithin
    split
    · simp
    · split <;> simp
  simp only [State.winTakes, hfmt]
  cases who with
  | host => exact hwithin _ (hbounds _ rfl) 5
  | core k => exact hwithin _ (hbounds _ rfl) 6

/-- A refused value leaves the window, and the party then holds no LO word (log entry 14). -/
theorem pwinCommit_refused {who : Party} {n v : Nat} {hi : Word} {s : State}
    (hv : s.pairValue who (Reg.FAB_PWIN_VAL n) (if 4 ≤ s.rf (Reg.FAB_PWIN_DESC n) 0 4 then 0 else hi.toNat % 256) = v)
    (h : ¬ (s.setLoHeld who (Reg.FAB_PWIN_VAL n) none).winTakes who n v = true) :
    pwinCommit who n hi s = s.setLoHeld who (Reg.FAB_PWIN_VAL n) none := by
  subst hv
  exact if_neg h

/-- A value taken stands in the window, pending where the window changes at a seam boundary. -/
theorem pwinCommit_taken {who : Party} {n v : Nat} {hi : Word} {s : State}
    (hv : s.pairValue who (Reg.FAB_PWIN_VAL n) (if 4 ≤ s.rf (Reg.FAB_PWIN_DESC n) 0 4 then 0 else hi.toNat % 256) = v)
    (h : (s.setLoHeld who (Reg.FAB_PWIN_VAL n) none).winTakes who n v = true) :
    pwinCommit who n hi s = (let t := (s.setLoHeld who (Reg.FAB_PWIN_VAL n) none).setReg (Reg.FAB_PWIN_VAL n) v
      if (s.rn (Reg.FAB_PWIN_DESC n)).testBit 4 then t.setReg (Reg.FAB_PWIN_PEND n) 1 else t) := by
  subst hv
  refine (if_pos h).trans ?_
  have hpend : ∀ t v, ((s.setLoHeld who t none).setReg (Reg.FAB_PWIN_VAL n) v).bit (Reg.FAB_PWIN_DESC n) 4 =
      (s.rn (Reg.FAB_PWIN_DESC n)).testBit 4 := fun t v => by
    rw [State.bit_congr (State.rn_setReg_other _ _ (by simp only [Reg.FAB_PWIN_DESC, Reg.FAB_PWIN_VAL]; omega))]
    exact fld_bit _ 4
  rw [hpend]

/-- Settles O8: the window takes the value exactly where `winTakes` says so. -/
theorem windowCommit : Obligations.WindowCommit := by
  intro s who n hi htakes off d fmt v lo up within named
  have hfmt : s.rf (Reg.FAB_PWIN_DESC n) 0 4 = fmt := by simp [State.rf, fld, fmt, d]
  have hv : s.quiet.pairValue who off (if 4 ≤ s.quiet.rf (Reg.FAB_PWIN_DESC n) 0 4 then 0 else hi.toNat % 256) = v := by
    have hnarrow : (if 4 ≤ fmt then 0 else hi.toNat % 256) = if fmt < 4 then hi.toNat % 256 else 0 := by
      by_cases h : fmt < 4
      · rw [if_pos h, if_neg (by omega)]
      · rw [if_neg h, if_pos (by omega)]
    rw [State.quiet_rf, hfmt, hnarrow]; rfl
  have hwin := (s.quiet.setLoHeld who off none).winTakes_iff who n v
  refine ⟨fun hin => .of_takes rfl htakes (pwinCommit_taken hv (hwin.2 hin)), fun hout => .of_takes rfl htakes (pwinCommit_refused hv ?_)⟩
  rw [hwin]
  rintro ⟨hnamed, hwithin⟩
  rcases hout with hout | hout
  · exact absurd (hnamed.symm.trans hout) (by decide)
  · exact hout hwithin

end Sys2Proof.Machine
end

section
/-! PROOF. The Fledal mailbox: the session's commands, staging and commit, and FW_BOOT (R45, R461 to R466). -/
namespace Sys2Proof.Machine
open Sys2Proof

variable {s : State} {i : Instr} {cmd : Nat} {tag : BitVec 16} {p : List Byte}

/-! ## What a posted request leaves -/

/-- A run of words of registers that read as before. -/
theorem State.words_congr {s t : State} (off n : Nat) (h : ∀ a, off ≤ a → a < off + 4 * n → t.rn a = s.rn a) :
    t.words off n = s.words off n := by
  induction n generalizing off with
  | zero => rfl
  | succ n ih => rw [State.words, State.words, h off (by omega) (by omega), ih _ fun a hlo hhi => h a (by omega) (by omega)]

/-- A posted request leaves the session as it was. -/
theorem State.session_posted (s : State) (cmd : Nat) (tag : BitVec 16) (p : List Byte) : (s.posted cmd tag p).session = s.session := by
  have hcore : (s.posted cmd tag p).rn Reg.FLDL_STATUS = ((s.fldlRequest cmd tag.toNat p).setF Reg.FLDL_STATUS 0 1 1).rn Reg.FLDL_STATUS := by
    exact State.rn_setCore _ _ _ (by simp only [Reg.DISP_CORE, Reg.FLDL_STATUS]; omega)
  have hrequest : (s.fldlRequest cmd tag.toNat p).rn Reg.FLDL_STATUS = s.rn Reg.FLDL_STATUS := s.rn_fldlRequest _ _ _ (.inl (by decide))
  rw [State.session, State.bit_congr hcore, State.bit_setF_above _ _ _ (by decide) (by decide), State.bit_congr hrequest, State.session]

/-- A posted request leaves the stage of the boot. -/
theorem State.boot_posted (s : State) (cmd : Nat) (tag : BitVec 16) (p : List Byte) :
    (s.posted cmd tag p).rf Reg.DISP_BOOT 0 4 = s.rf Reg.DISP_BOOT 0 4 :=
  s.rf_posted cmd tag p 0 4 (.inr (by decide)) (by decide) (by decide)

/-- A posted request leaves every register below the mailbox's own. -/
theorem State.rn_posted_below (s : State) (cmd : Nat) (tag : BitVec 16) (p : List Byte) {a : Nat} (h : a < Reg.FLDL_STATUS) :
    (s.posted cmd tag p).rn a = s.rn a := by
  simp only [Reg.FLDL_STATUS] at h
  exact s.rn_posted cmd tag p (.inl (by omega)) (by simp only [Reg.FLDL_STATUS]; omega) (by omega)

/-- A posted request leaves the operating state, the load, and how the image came. -/
theorem State.posted_keeps (s : State) (cmd : Nat) (tag : BitVec 16) (p : List Byte) :
    (s.posted cmd tag p).pwr = s.pwr ∧ (s.posted cmd tag p).img = { s.img with hello := s.img.hello || cmd = 1, heldCmd := none } ∧
      (s.posted cmd tag p).ddr = s.ddr ∧ (s.posted cmd tag p).sram = s.sram ∧
      (s.posted cmd tag p).fldl = { s.fldl with cmd := cmd, tag := tag.toNat } := by
  have hpwr : (s.fldlRequest cmd tag.toNat p).pwr = s.pwr := by rw [State.fldlRequest_eq]
  have himg : (s.fldlRequest cmd tag.toNat p).img = s.img := by rw [State.fldlRequest_eq]
  have hddr : (s.fldlRequest cmd tag.toNat p).ddr = s.ddr := by rw [State.fldlRequest_eq]
  have hsram : (s.fldlRequest cmd tag.toNat p).sram = s.sram := by rw [State.fldlRequest_eq]
  have hfldl : (s.fldlRequest cmd tag.toNat p).fldl = s.fldl := by rw [State.fldlRequest_eq]
  refine ⟨hpwr, ?_, hddr, hsram, ?_⟩
  · rw [← himg]; rfl
  · rw [← hfldl]; rfl

theorem State.pwr_posted (s : State) (cmd : Nat) (tag : BitVec 16) (p : List Byte) : (s.posted cmd tag p).pwr = s.pwr :=
  (s.posted_keeps cmd tag p).1

theorem State.img_posted (s : State) (cmd : Nat) (tag : BitVec 16) (p : List Byte) :
    (s.posted cmd tag p).img = { s.img with hello := s.img.hello || cmd = 1, heldCmd := none } :=
  have ⟨_, himg, _⟩ := s.posted_keeps cmd tag p
  himg

/-! ## What answers a request -/

/-- What the two states of a mailbox that takes a doorbell have in common. -/
theorem State.mailbox_idle {stage : Nat} (h : (s.coresRun && decide (s.rf Reg.DISP_BOOT 0 4 = stage) && !s.bit Reg.FLDL_STATUS 0) = true) :
    s.alive = true ∧ s.pwr.state = .run ∧ s.rf Reg.DISP_BOOT 0 4 = stage ∧ s.bit Reg.FLDL_STATUS 0 = false := by
  simp only [State.coresRun, Bool.and_eq_true, Bool.not_eq_true', decide_eq_true_eq] at h
  obtain ⟨⟨⟨ha, hr⟩, hb⟩, hs⟩ := h
  exact ⟨ha, hr, hb, hs⟩

/-- The commands that an autonomous load makes wait. -/
def staging : Instr → Bool
  | .imageStage _ _ | .imageCommit _ _ => true
  | _ => false

/-- Any other command waits for the cores alone. -/
theorem State.fldlWaits_false {u : State} (hrun : u.pwr.state = .run) (hboot : u.rf Reg.DISP_BOOT 0 4 = 4 ∨ u.rf Reg.DISP_BOOT 0 4 = 6)
    (hi : staging i = false) : u.fldlWaits i = false := by
  unfold State.fldlWaits
  split
  · cases hi
  · cases hi
  · rcases hboot with hboot | hboot <;> simp [hrun, hboot]

/-- With no load and no unloading, neither of those two waits either. -/
theorem State.fldlWaits_noLoad {u : State} (hrun : u.pwr.state = .run) (hboot : u.rf Reg.DISP_BOOT 0 4 = 6) (hload : u.img.load = none)
    (hi : u.img.unload = false ∨ ∀ tag p, i ≠ .imageCommit tag p) : u.fldlWaits i = false := by
  unfold State.fldlWaits
  split
  · simp [hrun, hboot, hload]
  · next tag p =>
    rcases hi with hi | hi
    · simp [hrun, hboot, hload, hi]
    · exact absurd rfl (hi tag p)
  · simp [hrun, hboot]

section
variable (hexec : exec i s = live (fldlPost cmd i tag p) s)
include hexec

/-- A request that need not wait ends in its answer. -/
theorem Ends.of_posted {t : State} (ha : s.alive = true) (hbusy : s.bit Reg.FLDL_STATUS 0 = false)
    (hw : (s.quiet.posted cmd tag p).fldlWaits i = false) (hanswer : fldlAnswer i (s.quiet.posted cmd tag p) = t) : Ends i s t :=
  .of_live hexec ha ((fldlPost_answers s.quiet cmd i tag p hbusy hw).trans hanswer)

/-- Firmware answers a command that neither stages nor commits. -/
theorem Ends.of_firmware {t : State} (hfree : s.mailboxFree = true) (hi : staging i = false)
    (hanswer : fldlAnswer i (s.quiet.posted cmd tag p) = t) : Ends i s t := by
  obtain ⟨ha, hrun, hboot, hbusy⟩ := State.mailbox_idle hfree
  exact .of_posted hexec ha hbusy (State.fldlWaits_false ((congrArg Pwr.state (s.quiet.pwr_posted cmd tag p)).trans hrun) (.inr ((s.quiet.boot_posted cmd tag p).trans hboot)) hi) hanswer

/-- In recovery the boot ROM answers. -/
theorem Ends.of_recovery {t : State} (hfree : s.mailboxRecovery = true) (hi : staging i = false)
    (hanswer : fldlAnswer i (s.quiet.posted cmd tag p) = t) : Ends i s t := by
  obtain ⟨ha, hrun, hboot, hbusy⟩ := State.mailbox_idle hfree
  exact .of_posted hexec ha hbusy (State.fldlWaits_false ((congrArg Pwr.state (s.quiet.pwr_posted cmd tag p)).trans hrun) (.inl ((s.quiet.boot_posted cmd tag p).trans hboot)) hi) hanswer

/-- A doorbell while BUSY is 1 only counts. -/
theorem Ends.of_busy (ha : s.alive = true) (hbusy : s.bit Reg.FLDL_STATUS 0 = true) :
    Ends i s ((s.quiet.fldlRequest cmd tag.toNat p).count Reg.FLDL_DB_IGN_CNT) := by
  have hstays : (s.quiet.fldlRequest cmd tag.toNat p).bit Reg.FLDL_STATUS 0 = true :=
    (State.bit_congr (s.quiet.rn_fldlRequest cmd tag.toNat p (.inl (by decide))) 0).trans hbusy
  exact .of_live hexec ha (by simp only [fldlPost, fldlRing, hstays, if_true])

end

/-! ## The answers -/

/-- Firmware serves the mailbox in state `u`, and the payload fits the buffer. -/
structure Served (u : State) (p : List Byte) (open_ : Bool) : Prop where
  boot : u.rf Reg.DISP_BOOT 0 4 = 6
  session : u.session = open_
  size : p.length ≤ 65528

section
variable {u : State}

/-- How a command of a session with payload `p` and its own rule `f` is answered: not in recovery, not outside a session, and not where the
payload does not fit the buffer (R462, R463, R466). -/
def sessionRule (p : List Byte) (f : State → State) (u : State) : State :=
  if u.rf Reg.DISP_BOOT 0 4 = 4 then u.fldlRespond fsRecovery []
  else if u.session then (if 65528 < p.length then u.fldlRespond fsBadLen [] else f u)
  else u.fldlRespond fsNoSession []

/-- In a session firmware answers a command by its own rule. -/
theorem Served.answers {f : State → State} (h : Served u p true)
    (hi : fldlAnswer i u = sessionRule p f u) : fldlAnswer i u = f u := by
  rw [hi, sessionRule, h.boot, h.session, if_neg (by decide), if_pos rfl, if_neg (Nat.not_lt.2 h.size)]

/-- Outside a session it answers NO_SESSION. -/
theorem Served.noSession {f : State → State} (h : Served u p false)
    (hi : fldlAnswer i u = sessionRule p f u) :
    fldlAnswer i u = u.fldlRespond 2 [] := by
  rw [hi, sessionRule, h.boot, h.session, if_neg (by decide), if_neg (by decide)]

/-- HELLO is answered by its own rule in a session or not. -/
theorem fldlAnswer_hello (h : p.length ≤ 65528) : fldlAnswer (.hello tag p) u = answerHello p u := by
  have hsize : ¬ 65528 < p.length := Nat.not_lt.2 h
  simp [fldlAnswer, hsize]

/-- The boot ROM in recovery answers FW_STAGE and FW_BOOT by their own rules. -/
theorem fldlAnswer_recovery (hboot : u.rf Reg.DISP_BOOT 0 4 = 4) (h : p.length ≤ 65528) :
    fldlAnswer (.fwStage tag p) u = answerFwStage p u ∧ fldlAnswer (.fwBoot tag p) u = answerFwBoot u := by
  have hsize : ¬ 65528 < p.length := Nat.not_lt.2 h
  simp [fldlAnswer, hboot, hsize]

/-- A posted request of a mailbox that firmware serves. -/
theorem State.served_posted (hfree : s.mailboxFree = true) (hp : p.length ≤ 65528) (cmd : Nat) (tag : BitVec 16) :
    Served (s.quiet.posted cmd tag p) p s.session :=
  have ⟨_, _, hboot, _⟩ := State.mailbox_idle hfree
  ⟨(s.quiet.boot_posted cmd tag p).trans hboot, s.quiet.session_posted cmd tag p, hp⟩

/-- The version of a HELLO's payload. -/
theorem wf_version (p : List Byte) : wf p 0 8 8 = word p 0 / 256 % 256 := rfl

/-- A HELLO too short to hold a version. -/
theorem answerHello_short (h : p.length < 4) : answerHello p u = u.fldlRespond 6 [] := if_pos h

/-- A HELLO of another major version. -/
theorem answerHello_version (h : 4 ≤ p.length) (hv : word p 0 / 256 % 256 ≠ 1) : answerHello p u = u.fldlRespond 4 [0x100] := by
  rw [answerHello, if_neg (by omega), wf_version, if_pos hv]

/-- A HELLO of major version 1, which opens the session. -/
theorem answerHello_opens (h : 4 ≤ p.length) (hv : word p 0 / 256 % 256 = 1) : answerHello p u =
    (u.setF Reg.FLDL_STATUS 2 1 1).fldlRespond 0 ([0x100, (u.setF Reg.FLDL_STATUS 2 1 1).rn Reg.FEAT_IMG_STATE] ++
      words64 ((u.setF Reg.FLDL_STATUS 2 1 1).rn Reg.FEAT_IMG_SERIAL) ++
      [bitAt ((u.setF Reg.FLDL_STATUS 2 1 1).rf Reg.DISP_BOOT 0 4 = 4) 0 + bitAt (u.img.auto && u.img.inForce) 1]) := by
  rw [answerHello, if_neg (by omega), wf_version, if_neg (by omega)]
  rfl

end

section
variable (hfree : s.mailboxFree = true) (hp : p.length ≤ 65528)
include hfree hp

/-- A HELLO of major version 1, posted, shows the image's state and serial as they were. -/
theorem answerHello_posted (h : 4 ≤ p.length) (hv : word p 0 / 256 % 256 = 1) :
    answerHello p (s.quiet.posted 1 tag p) = ((s.quiet.posted 1 tag p).setF Reg.FLDL_STATUS 2 1 1).fldlRespond 0
      ([0x100, s.rn Reg.FEAT_IMG_STATE] ++ words64 (s.rn Reg.FEAT_IMG_SERIAL) ++ [bitAt (s.img.auto && s.img.inForce) 1]) := by
  have hkept : ∀ a, a < Reg.FLDL_STATUS → ((s.quiet.posted 1 tag p).setF Reg.FLDL_STATUS 2 1 1).rn a = s.rn a := fun a ha =>
    (State.rn_setF_other _ _ _ _ (Nat.ne_of_lt ha)).trans (s.quiet.rn_posted_below 1 tag p ha)
  have hboot : ((s.quiet.posted 1 tag p).setF Reg.FLDL_STATUS 2 1 1).rf Reg.DISP_BOOT 0 4 = 6 :=
    (State.rf_congr (State.rn_setF_other _ _ _ _ (by decide)) 0 4).trans (State.served_posted hfree hp 1 tag).boot
  rw [answerHello_opens h hv, hkept _ (by decide), hkept _ (by decide), hboot, State.img_posted]
  simp [bitAt]

end

/-- Settles O9: each request is posted and answered by its own rule. -/
theorem fledalSession : Obligations.FledalSession := by
  intro s tag p hfree hp
  have hserved := fun cmd => State.served_posted (tag := tag) hfree hp cmd
  refine ⟨fun hlen => ⟨fun hv => ?_, fun hv => ?_⟩, fun hlen => ?_, fun hses => ?_, fun hses => ?_⟩
  · exact .of_firmware rfl hfree rfl ((fldlAnswer_hello hp).trans (answerHello_posted hfree hp hlen hv))
  · exact .of_firmware rfl hfree rfl ((fldlAnswer_hello hp).trans (answerHello_version hlen hv))
  · exact .of_firmware rfl hfree rfl ((fldlAnswer_hello hp).trans (answerHello_short hlen))
  · have hopen : ∀ cmd, Served (s.quiet.posted cmd tag p) p true := fun cmd => hses ▸ hserved cmd
    have hstate : ∀ cmd, (s.quiet.posted cmd tag p).imgState = s.imgState := fun cmd =>
      State.rf_congr (s.quiet.rn_posted_below cmd tag p (by decide)) 0 3
    have hkept : ∀ cmd a, a < Reg.FLDL_STATUS → (s.quiet.posted cmd tag p).rn a = s.rn a := fun cmd a =>
      s.quiet.rn_posted_below cmd tag p
    have hwords : ∀ cmd off n, off + 4 * n ≤ Reg.FLDL_STATUS → (s.quiet.posted cmd tag p).words off n = s.words off n := fun cmd off n h =>
      State.words_congr off n fun a _ ha => hkept cmd a (by omega)
    have hfeat : (s.quiet.posted 8 tag p).feat 34 = s.feat 34 := State.bit_congr (hkept 8 _ (by decide)) _
    refine ⟨?_, fun hlen hst => ?_, fun hlen hst => ?_, ?_, ?_, fun hf hlen => ?_, fun hf => ?_⟩
    · refine .of_firmware rfl hfree rfl (((hopen 2).answers rfl).trans ?_)
      rw [answerFeatures, hwords 2 _ _ (by decide)]
    · refine .of_firmware rfl hfree rfl (((hopen 3).answers rfl).trans ?_)
      rw [answerNegotiate, if_neg (by omega), if_pos (by simpa [hstate] using hst)]
    · refine .of_firmware rfl hfree rfl (((hopen 3).answers rfl).trans ?_)
      rw [answerNegotiate, if_neg (by omega), if_neg (by simpa [hstate] using hst), hwords 3 _ _ (by decide)]
    · refine .of_firmware rfl hfree rfl (((hopen 6).answers rfl).trans ?_)
      rw [answerImageStatus, hkept 6 _ (by decide), hkept 6 _ (by decide), hkept 6 _ (by decide)]
    · exact .of_firmware rfl hfree rfl ((hopen 7).answers (f := answerBye) rfl)
    · refine .of_firmware rfl hfree rfl (((hopen 8).answers rfl).trans ?_)
      rw [answerTimeOfDay, hfeat, hf, if_neg (by decide), if_neg (by omega)]
    · refine .of_firmware rfl hfree rfl (((hopen 8).answers rfl).trans ?_)
      rw [answerTimeOfDay, hfeat, hf, if_pos (by decide)]
  · have hclosed : ∀ cmd, Served (s.quiet.posted cmd tag p) p false := fun cmd => hses ▸ hserved cmd
    exact ⟨.of_firmware rfl hfree rfl ((hclosed 2).noSession rfl),
      .of_firmware rfl hfree rfl ((hclosed 3).noSession rfl),
      .of_firmware rfl hfree rfl ((hclosed 6).noSession rfl),
      .of_firmware rfl hfree rfl ((hclosed 7).noSession rfl),
      .of_firmware rfl hfree rfl ((hclosed 8).noSession rfl)⟩

end Sys2Proof.Machine
end

section
/-! PROOF. Staging, commit and FW_BOOT in the Fledal mailbox (R31, R461, R465, R466). -/
namespace Sys2Proof.Machine
open Sys2Proof

variable {s : State} {tag : BitVec 16} {p : List Byte}

/-! ## The ordering rule (R465) -/

/-- A chunk of whole units in order and within the room is written. -/
theorem stageRule_written {staged room : Nat} (hlen : 4 ≤ p.length) (hunit : (p.length - 4) % 16 = 0)
    (hofs : word p 0 = 0 ∨ word p 0 = staged) (hroom : word p 0 + (p.length - 4) ≤ room) :
    stageRule p staged room = (0, word p 0 + (p.length - 4)) := by
  have hshort : ¬ p.length < 4 := by omega
  have horder : ¬ (word p 0 ≠ 0 ∧ word p 0 ≠ staged) := by omega
  have hfit : ¬ room < word p 0 + (p.length - 4) := by omega
  simp [stageRule, hshort, hunit, horder, hfit]

/-- A chunk out of order is refused, and the answer names the staged count. -/
theorem stageRule_refused {staged room : Nat} (hlen : 4 ≤ p.length) (hunit : (p.length - 4) % 16 = 0)
    (hofs : word p 0 ≠ 0 ∧ word p 0 ≠ staged) : stageRule p staged room = (8, staged) := by
  have hshort : ¬ p.length < 4 := by omega
  simp [stageRule, hshort, hunit, hofs]

/-! ## The response buffer -/

/-- A response changes no register below its buffer. -/
theorem State.rn_fldlRespond_below (u : State) (status : Nat) (ws : List Nat) {a : Nat} (h : a < Reg.FLDL_RSP 0) :
    (u.fldlRespond status ws).rn a = u.rn a := u.rn_setWords_other _ _ _ (.inl h)

/-- A response changes registers alone. -/
theorem State.fldlRespond_eq (u : State) (status : Nat) (ws : List Nat) :
    u.fldlRespond status ws = { u with regs := (u.fldlRespond status ws).regs } := u.setWords_eq _ _

/-- The first word of a response: the command, its status and its tag. -/
theorem State.rn_fldlRespond_head (u : State) (status : Nat) (ws : List Nat) :
    (u.fldlRespond status ws).rn (Reg.FLDL_RSP 0) = (u.fldl.cmd + status * 256 + 65536 * u.fldl.tag) % 2 ^ 32 := by
  rw [State.fldlRespond, State.setWords, State.rn_setWords_other _ _ _ _ (.inl (by decide)), State.rn_setReg_same,
    Nat.mod_eq_of_lt (by omega)]

/-! ## The commands -/

section
variable (hfree : s.mailboxFree = true) (hsize : p.length ≤ 65528) (hopen : s.session = true) (hload : s.img.load = none)
include hfree hsize hopen hload

/-- In a session with no load running, IMAGE_STAGE is answered by its own rule. -/
theorem Ends.of_imageStage {t : State} (hanswer : answerImageStage p (s.quiet.posted 4 tag p) = t) : Ends (.imageStage tag p) s t := by
  obtain ⟨ha, hrun, hboot, hbusy⟩ := State.mailbox_idle hfree
  have hserved : Served (s.quiet.posted 4 tag p) p true := hopen ▸ State.served_posted hfree hsize 4 tag
  have hidle : (s.quiet.posted 4 tag p).img.load = none := by rw [State.img_posted]; exact hload
  refine .of_posted rfl ha hbusy (State.fldlWaits_noLoad ?_ hserved.boot hidle (.inr nofun)) ((hserved.answers rfl).trans hanswer)
  exact (congrArg Pwr.state (s.quiet.pwr_posted 4 tag p)).trans hrun

/-- In a session with neither a load nor an unloading, IMAGE_COMMIT is answered by its own rule. -/
theorem Ends.of_imageCommit {t : State} (hunload : s.img.unload = false) (hanswer : answerImageCommit p (s.quiet.posted 5 tag p) = t) :
    Ends (.imageCommit tag p) s t := by
  obtain ⟨ha, hrun, hboot, hbusy⟩ := State.mailbox_idle hfree
  have hserved : Served (s.quiet.posted 5 tag p) p true := hopen ▸ State.served_posted hfree hsize 5 tag
  have hidle : (s.quiet.posted 5 tag p).img.load = none := by rw [State.img_posted]; exact hload
  have hstays : (s.quiet.posted 5 tag p).img.unload = false := by rw [State.img_posted]; exact hunload
  refine .of_posted rfl ha hbusy (State.fldlWaits_noLoad ?_ hserved.boot hidle (.inl hstays)) ((hserved.answers rfl).trans hanswer)
  exact (congrArg Pwr.state (s.quiet.pwr_posted 5 tag p)).trans hrun

end

/-- The state that FW_STAGE of `n` bytes in all leaves, before its response. -/
def State.fwStagedAt (u : State) (n : Nat) (p : List Byte) : State :=
  (({ u with fldl := { u.fldl with fwStaged := n } }).sramWrite (0xC0000 + word p 0) (p.drop 4)).setReg Reg.FLDL_STAGED n

/-- FW_STAGE in order and within the shared SRAM writes its chunk. -/
theorem answerFwStage_written {u : State} (hlen : 4 ≤ p.length) (hunit : (p.length - 4) % 16 = 0)
    (hofs : word p 0 = 0 ∨ word p 0 = u.fldl.fwStaged) (hroom : word p 0 + (p.length - 4) ≤ 3145728 + 7488) :
    answerFwStage p u = (u.fwStagedAt (word p 0 + (p.length - 4)) p).fldlRespond 0 [word p 0 + (p.length - 4)] := by
  simp only [answerFwStage, stageRule_written hlen hunit hofs hroom]
  rfl

/-- Settles O10: each request is posted and answered by its own rule, and a doorbell in between only counts. -/
theorem fledalStaging : Obligations.FledalStaging := by
  refine ⟨fun s tag p hsize => ⟨⟨fun hfree hopen hload hlen hunit => ⟨fun hofs hroom => ?_, fun hofs => ?_⟩,
    fun hrec hlen hunit hofs hroom => ?_⟩, fun hfree hopen hload hunload hlen => ?_, fun who w htakes => ⟨fun hgo hbusy => ?_, fun hno => ?_⟩⟩,
    fun s tag p ha hbusy => ⟨.of_busy rfl ha hbusy, .of_busy rfl ha hbusy, .of_busy rfl ha hbusy⟩, fun s tag p hrec hsize => ?_⟩
  · refine .of_imageStage hfree hsize hopen hload ?_
    rw [answerImageStage, s.quiet.rn_posted 4 tag p (.inl (by decide)) (by decide) (by decide), State.quiet_rn,
      stageRule_written (room := 134217728) hlen hunit hofs hroom]
    rfl
  · refine .of_imageStage hfree hsize hopen hload ?_
    rw [answerImageStage, s.quiet.rn_posted 4 tag p (.inl (by decide)) (by decide) (by decide), State.quiet_rn,
      stageRule_refused hlen hunit hofs]
    rfl
  · obtain ⟨_, _, hddr, hsram, hfldl⟩ := s.quiet.posted_keeps 0x10 tag p
    obtain ⟨_, _, hboot, _⟩ := State.mailbox_idle hrec
    have hstart : (s.quiet.posted 0x10 tag p).fldl.fwStaged = s.fldl.fwStaged := by rw [hfldl]; rfl
    have hanswer := (fldlAnswer_recovery (tag := tag) ((s.quiet.boot_posted 0x10 tag p).trans hboot) hsize).1.trans
      (answerFwStage_written hlen hunit (hstart ▸ hofs) hroom)
    refine .of_ends (.of_recovery rfl hrec rfl hanswer) ⟨?_, ?_, fun a => ?_, ?_, ?_⟩
    · rw [settle_rn, State.rn_fldlRespond_below _ _ _ (by decide), State.fwStagedAt, State.rn_setReg_same]
      omega
    · rw [settle_fldl, State.fldlRespond_eq]; rfl
    · rw [settle_sram, State.fldlRespond_eq]
      show Memory.byte (Memory.write (s.quiet.posted 0x10 tag p).sram _ _) a = _
      rw [hsram]; rfl
    · rw [settle_ddr, State.fldlRespond_eq]
      exact hddr
    · rw [settle_rn, State.rn_fldlRespond_head]
      show ((s.quiet.posted 0x10 tag p).fldl.cmd + 0 * 256 + 65536 * (s.quiet.posted 0x10 tag p).fldl.tag) % 2 ^ 32 = _
      have htag := tag.isLt
      rw [hfldl]
      simp only
      omega
  · refine .of_imageCommit hfree hsize hopen hload hunload ?_
    rw [answerImageCommit, if_neg (by omega), s.quiet.rn_posted 5 tag p (.inl (by decide)) (by decide) (by decide), State.quiet_rn]
  · exact .of_takes rfl htakes (if_pos (by simp [hgo, hbusy]))
  · exact .of_takes rfl htakes (if_neg (by simpa using fun hgo => hno.resolve_left (by simp [hgo])))
  · obtain ⟨_, _, _, hsram, hfldl⟩ := s.quiet.posted_keeps 0x11 tag p
    obtain ⟨_, _, hboot, _⟩ := State.mailbox_idle hrec
    have hanswer := (fldlAnswer_recovery (tag := tag) ((s.quiet.boot_posted 0x11 tag p).trans hboot) hsize).2
    have hobject : Memory.read (s.quiet.posted 0x11 tag p).sram 0xC0000 (s.quiet.posted 0x11 tag p).fldl.fwStaged =
        Memory.read s.sram 0xC0000 s.fldl.fwStaged := by rw [hsram, hfldl]; rfl
    rw [answerFwBoot, hobject] at hanswer
    exact ⟨fun hok => .of_recovery rfl hrec rfl (hanswer.trans (if_pos hok)), fun hfail => .of_recovery rfl hrec rfl (hanswer.trans (if_neg hfail))⟩

end Sys2Proof.Machine
end

section
/-! PROOF. Image loads (R46): an autonomous load waits for the grace period of the image. -/
namespace Sys2Proof.Machine
open Sys2Proof

/-- Before the end of a grace period nothing loads by itself. -/
theorem autonomousLoad_inGrace {s : State} {image : List Byte} (h : s.graceOver image = false) : autonomousLoad image s = s := by
  simp [autonomousLoad, h]

/-- A device in RUN whose firmware serves the mailbox, with no image and no HELLO, and in which no grace period has begun. -/
def noGrace : State := { regs := [(Reg.DISP_BOOT, 6)] }

/-- The first words of an image with AUTONOMOUS = 1. -/
def autonomousHead : List Byte := List.replicate 14 0 ++ [2, 0]

/-- Refutes O11: with no grace period that has ended, the command changes nothing, where the statement has the checks start. -/
theorem not_imageLoads : ¬ Obligations.ImageLoads := by
  intro h
  have hcores : noGrace.coresRun = true := by decide
  have hload := (h.1 noGrace hcores).1 autonomousHead (by decide) rfl (by decide) (by decide) (by decide)
  have hstays : Ends (.autonomousLoad autonomousHead) noGrace noGrace.quiet := .of_coring rfl hcores (autonomousLoad_inGrace rfl)
  rw [Ends, hstays] at hload
  have himg := congrArg (fun o => match o with | Host.Outcome.next t => t.img.load.isSome | _ => false) hload
  exact Bool.false_ne_true himg

end Sys2Proof.Machine
end

section
/-! PROOF. The rates of a tick, and the step of the clock (R52, R53, R58, R73). -/
namespace Sys2Proof.Machine
open Sys2Proof

variable (s : State)

/-! ## What the parts of a tick beside the counter keep -/

/-- The part of the state that source changes and the firn recorder leave alone on a tick: the ticks, the mains angle, the rates and the
memories. -/
def State.rates (s : State) : (Nat × BitVec 96) × (Nat × Nat) × List Host.Cell × List Host.Cell :=
  ((s.time.ticks, s.time.mang), (s.rn Reg.TIME_SLEW_TICKS, s.rn Reg.TIME_INC), s.ddr, s.sram)

theorem State.rates_setReg (a v : Nat) (ht : a ≠ Reg.TIME_SLEW_TICKS) (hi : a ≠ Reg.TIME_INC) : (s.setReg a v).rates = s.rates := by
  simp only [State.rates, State.rn_setReg_other _ _ ht.symm, State.rn_setReg_other _ _ hi.symm, State.setReg_time, State.setReg_ddr,
    State.setReg_sram]

theorem State.rates_raise (n : Nat) : (s.raise n).rates = s.rates :=
  s.rates_setReg _ _ (by simp only [Reg.TIME_SLEW_TICKS, Reg.FLT_EVT_PEND]; omega) (by simp only [Reg.TIME_INC, Reg.FLT_EVT_PEND]; omega)

theorem State.rates_publish : s.publish.rates = s.rates := by
  calc s.publish.rates = ((s.setReg Reg.TIME_EST_ERR s.estErr).setReg Reg.TIME_QUAL (s.qualOf s.estErr)).rates := rfl
    _ = s.rates := by rw [State.rates_setReg _ _ _ (by decide) (by decide), State.rates_setReg _ _ _ (by decide) (by decide)]

theorem State.rates_setDisc (st cause : Nat) : (s.setDisc st cause).rates = s.rates := by
  obtain ⟨v, hnote⟩ := s.noteLeft_eq st
  rw [State.setDisc, State.setF, State.rates_setReg _ _ _ (by decide) (by decide), State.setF,
    State.rates_setReg _ _ _ (by decide) (by decide), hnote]
  rfl

/-- A source change keeps the rates. -/
theorem State.rates_srcTick : s.srcTick.rates = s.rates := by
  have hflag : ({ s with time := { s.time with srcNew := false } } : State).rates = s.rates := rfl
  unfold State.srcTick
  split
  · dsimp only
    split
    · rw [State.rates_publish, State.rates_raise, State.rates_setDisc, hflag]
    · split
      · rw [State.rates_setDisc, hflag]
      · exact hflag
  · rfl

/-- With no sample waiting, what waits for the tick keeps the rates. -/
theorem State.rates_disciplineTick (h : s.time.samples = []) : s.disciplineTick.rates = s.rates := by
  rw [State.disciplineTick, h]
  exact s.rates_srcTick

theorem State.rates_firnPush (u : FirnUpd) : (s.firnPush u).rates = s.rates := by
  simp only [State.firnPush]
  split
  · rw [State.rates_raise, State.count, State.countBy, State.rates_setReg _ _ _ (by decide) (by decide)]
    rfl
  · rfl

/-- The firn recorder's part of a tick keeps the rates. -/
theorem State.rates_firnSecond : s.firnSecond.rates = s.rates := by
  rw [State.firnSecond]
  unfold State.firnAll
  dsimp only
  split
  · rfl
  · refine State.forRange_keeps State.rates _ (fun k u => ?_) s 0 _
    split
    · split
      · rfl
      · exact u.rates_setReg _ _ (by decide) (by decide)
      · exact u.rates_firnPush _
    · rfl

/-! ## The tick itself -/

theorem State.rates_showWdt : s.showWdt.rates = s.rates := by
  unfold State.showWdt
  split
  · exact s.rates_setReg _ _ (by decide) (by decide)
  · rfl

theorem State.rates_showInc : s.showInc.rates = s.rates := s.rates_setReg _ _ (by decide) (by decide)

/-- A tick counts, takes one off a running slew and adds the mains increment outside OFF. -/
theorem rates_timeTick (h : s.pwr.state ≠ Power.hold) : (timeTick s).rates =
    ((s.time.ticks + 1, if s.thru Reg.TIME_MANG_STATE = 0 then s.time.mang else s.time.mang + s.time.mangInc.zeroExtend 96),
      (if s.slewing then (s.rn Reg.TIME_SLEW_TICKS - 1) % 2 ^ 80 else s.rn Reg.TIME_SLEW_TICKS, s.rn Reg.TIME_INC), s.ddr, s.sram) := by
  unfold timeTick
  rw [if_neg h]
  extract_lets inc slewed t power ticked shown
  have hslewed : slewed.rates = ((s.time.ticks, s.time.mang),
      (if s.slewing then (s.rn Reg.TIME_SLEW_TICKS - 1) % 2 ^ 80 else s.rn Reg.TIME_SLEW_TICKS, s.rn Reg.TIME_INC), s.ddr, s.sram) := by
    simp only [slewed]
    split
    · simp only [State.rates, State.rn_setReg_same, State.rn_setReg_other s _ (show Reg.TIME_INC ≠ Reg.TIME_SLEW_TICKS by decide),
        State.setReg_time, State.setReg_ddr, State.setReg_sram]
    · rfl
  have hinc : slewed.time.mangInc = s.time.mangInc := by simp only [slewed]; split <;> rfl
  have hthru : slewed.thru Reg.TIME_MANG_STATE = s.thru Reg.TIME_MANG_STATE := by simp only [slewed]; split <;> rfl
  have hticked : ticked.rates = ((slewed.rates.1.1 + 1, if s.thru Reg.TIME_MANG_STATE = 0 then slewed.rates.1.2 else
      slewed.rates.1.2 + s.time.mangInc.zeroExtend 96), slewed.rates.2) := by
    rw [← hinc, ← hthru]
    rfl
  have hshown : shown.rates = ticked.rates := by
    simp only [shown]
    split
    · exact ticked.rates_showWdt
    · rfl
  rw [State.rates_publish, State.rates_showInc, hshown, hticked, hslewed]

/-- Out of HOLD and of the POR and PIN sequences. -/
theorem State.ticking_not_hold {s : State} (h : s.ticking = true) : s.pwr.state ≠ Power.hold := by
  simp only [State.ticking, Bool.and_eq_true, decide_eq_true_eq] at h
  exact h.1.1

/-- A whole tick with no sample waiting does to the rates what the tick itself does. -/
theorem rates_tick (h : s.ticking = true) (hx : s.time.samples = []) : (tick s).rates = (timeTick s).rates := by
  obtain ⟨_, hsamples⟩ := timeTick_time s (State.ticking_not_hold h)
  unfold tick
  dsimp only
  split
  · exact State.rates_disciplineTick _ (hsamples.trans hx)
  · rw [State.rates_disciplineTick, State.rates_firnSecond]
    exact (congrArg Time.samples ((timeTick s).firnAll_time _ _ _)).trans (hsamples.trans hx)

/-! ## A step of the clock (R58) -/

/-- The counter set from a number of fine units within its seconds reads that number. -/
theorem Time.fine_ofFine (t : Time) {v : Nat} (h : v < 2 ^ 48 * 1000000000 * 2 ^ 32) :
    (t.ofFine v).fine = v ∧ (t.ofFine v).ns.toNat < 1000000000 := by
  simp only [Time.fine, Time.ofFine, BitVec.toNat_ofNat]
  omega

/-- The registers that the end of a slew leaves alone. -/
theorem State.rn_endSlew_other {a : Nat} (ht : a ≠ Reg.TIME_SLEW_TICKS) (hi : a ≠ Reg.TIME_INC_RUN) : s.endSlew.rn a = s.rn a := by
  rw [State.endSlew, State.showInc, State.rn_setReg_other _ _ hi, State.rn_setReg_other _ _ ht]
  rfl

/-- A step's time: the counter less the offset, and its instant noted. -/
def State.steppedTime (ofs : Int) : State :=
  let v := ((s.time.fine : Int) - 2 ^ 32 * ofs) % ((2 ^ 48 * 1000000000 * 2 ^ 32 : Nat) : Int)
  let s := { s with time := s.time.ofFine v.toNat }
  { s with time := { s.time with stepAt := some s.nowNs, stepTick := some s.time.ticks } }

/-- A step writes TIME_STATE, TIME_LAST_STEP, TIME_STEP_CNT and its event after the slew has ended. -/
theorem State.stepClock_eq (ofs : Int) : s.stepClock ofs =
    ((((s.steppedTime ofs).endSlew.setF Reg.TIME_STATE 10 2 ((s.steppedTime ofs).endSlew.epoch + 1)).setReg Reg.TIME_LAST_STEP
      (uNat 64 (-ofs))).count Reg.TIME_STEP_CNT).raise 0 := rfl

theorem State.stepClock_time (ofs : Int) :
    (s.stepClock ofs).time = { (s.steppedTime ofs).time with slewInc := none } := rfl

/-- A remainder by a positive number, as a natural number. -/
theorem toNat_emod_of_pos (x : Int) {m : Nat} (hm : 0 < m) : (x % (m : Int)).toNat < m ∧ (((x % (m : Int)).toNat : Nat) : Int) = x % (m : Int) := by
  have hpos : (0 : Int) < (m : Int) := by exact_mod_cast hm
  have hnonneg := Int.emod_nonneg x (Int.ne_of_gt hpos)
  have hlt := Int.emod_lt_of_pos x hpos
  exact ⟨by omega, Int.toNat_of_nonneg hnonneg⟩

/-- The counter after a step is itself less the offset, modulo its seconds. -/
theorem State.fine_stepClock (ofs : Int) :
    ((s.stepClock ofs).time.fine : Int) = ((s.time.fine : Int) - 2 ^ 32 * ofs) % ((2 ^ 48 * 1000000000 * 2 ^ 32 : Nat) : Int) ∧
    (s.stepClock ofs).time.ns.toNat < 1000000000 := by
  obtain ⟨hlt, hcast⟩ := toNat_emod_of_pos ((s.time.fine : Int) - 2 ^ 32 * ofs) (m := 2 ^ 48 * 1000000000 * 2 ^ 32) (by decide)
  obtain ⟨hfine, hns⟩ := s.time.fine_ofFine hlt
  rw [State.stepClock_time]
  exact ⟨(congrArg Nat.cast hfine).trans hcast, hns⟩

/-- TIME_STATE after a step: EPOCH has advanced, and the fields below it stand. -/
theorem State.rf_stepClock_state (ofs : Int) : (s.stepClock ofs).epoch = (s.epoch + 1) % 4 ∧ (s.stepClock ofs).disc = s.disc := by
  have hstate : (s.stepClock ofs).rn Reg.TIME_STATE =
      ((s.steppedTime ofs).endSlew.setF Reg.TIME_STATE 10 2 ((s.steppedTime ofs).endSlew.epoch + 1)).rn Reg.TIME_STATE := by
    rw [State.stepClock_eq, State.rn_raise_other _ _ (by decide), State.rn_count_other _ (by decide), State.rn_setReg_other _ _ (by decide)]
  have hkept : (s.steppedTime ofs).endSlew.rn Reg.TIME_STATE = s.rn Reg.TIME_STATE :=
    (State.rn_endSlew_other _ (by decide) (by decide)).trans rfl
  constructor
  · exact (State.rf_congr hstate _ _).trans ((State.rf_setF_same _ _ _ (by decide)).trans
      (congrArg (fun e => (e + 1) % 4) (State.rf_congr hkept 10 2)))
  · rw [State.disc, State.rf_congr hstate, State.rf_setF_below _ _ _ (by decide) (by decide), State.rf_congr hkept, State.disc]

theorem State.rn_stepClock_lastStep (ofs : Int) : (s.stepClock ofs).rn Reg.TIME_LAST_STEP = uNat 64 (-ofs) := by
  have hlt : uNat 64 (-ofs) < 2 ^ 80 := by
    have := Int.emod_lt_of_pos (-ofs) (show (0 : Int) < ((2 ^ 64 : Nat) : Int) by decide)
    simp only [uNat]; omega
  rw [State.stepClock_eq, State.rn_raise_other _ _ (by decide), State.rn_count_other _ (by decide), State.rn_setReg_same, Nat.mod_eq_of_lt hlt]

theorem State.rn_stepClock_count (ofs : Int) : (s.stepClock ofs).rn Reg.TIME_STEP_CNT = (s.rn Reg.TIME_STEP_CNT + 1) % 2 ^ 48 := by
  rw [State.stepClock_eq, State.rn_raise_other _ _ (by decide), State.rn_count_same, State.rn_setReg_other _ _ (by decide),
    State.rn_setF_other _ _ _ _ (by decide), State.rn_endSlew_other _ (by decide) (by decide)]
  rfl

/-- Settles O13: the rates of a tick, and each part of a step. -/
theorem tickRates : Obligations.TickRates := by
  refine ⟨fun s => ⟨fun h => if_pos h, fun h => if_neg (by simp [h]), fun h => .of_done rfl (if_pos h), fun h hx => ?_, fun hhold hpin => ?_,
    fun hoff => ?_⟩, fun s o => ?_⟩
  · have hrates : (settle s (anyTick s.quiet)).rates = _ :=
      (congrArg State.rates (if_pos h : anyTick s.quiet = tick s.quiet)).trans
        ((rates_tick s.quiet h hx).trans (rates_timeTick s.quiet (State.ticking_not_hold h)))
    simp only [State.rates, Prod.mk.injEq] at hrates
    obtain ⟨⟨hticks, hmang⟩, ⟨hslew, hinc⟩, hddr, hsram⟩ := hrates
    exact ⟨_, rfl, hticks, fun hs => hslew.trans (if_pos hs), fun hm => hmang.trans (if_pos hm), fun hm => hmang.trans (if_neg hm), hinc, hddr, hsram⟩
  · have hstop : s.quiet.ticking = false := by simp [State.ticking, hpin]
    have hpins : (decide (s.quiet.pwr.state ≠ Power.hold) && decide (s.quiet.pwr.seq = some .pin)) = true := by simp [hhold, hpin]
    exact .of_done rfl (by rw [anyTick, hstop, if_neg (by decide), if_pos hpins]; rfl)
  · have hstop : s.quiet.ticking = false := by rcases hoff with h | h <;> simp [State.ticking, h]
    have hpins : (decide (s.quiet.pwr.state ≠ Power.hold) && decide (s.quiet.pwr.seq = some .pin)) = false := by
      rcases hoff with h | h <;> simp [h]
    exact .of_done rfl (by rw [anyTick, hstop, if_neg (by decide), hpins, if_neg (by decide)])
  · obtain ⟨hfine, hns⟩ := s.fine_stepClock o
    obtain ⟨hepoch, hdisc⟩ := s.rf_stepClock_state o
    have hslew : (s.stepClock o).slewing = false := by rw [State.slewing, State.stepClock_time]; rfl
    exact ⟨hfine, hns, hslew, hepoch, s.rn_stepClock_lastStep o, s.rn_stepClock_count o, State.evPending_raise_same _ 0, hdisc⟩

end Sys2Proof.Machine
end

section
/-! PROOF. Servo samples, base increments, slews, and the events of the discipline (R53, R56 to R65). -/
namespace Sys2Proof.Machine
open Sys2Proof

variable {s : State}

/-! ## A sample judged (R57, R64) -/

/-- The sample's source is that of TIME_SRC. -/
def State.fromSource (s : State) (x : Sample) : Prop := x.ty ≠ 3 ∧ s.rn Reg.TIME_SRC = x.id + 2 ^ 16 * x.ty

/-- One from another source only counts as stale. -/
theorem State.takeSample_stale {x : Sample} (h : ¬ s.fromSource x) : s.takeSample x = s.count Reg.TIME_STALE_CNT := by
  refine if_pos ?_
  rw [Bool.or_eq_true, decide_eq_true_eq, decide_eq_true_eq]
  by_cases hty : x.ty = 3
  · exact .inl hty
  · exact .inr fun hsrc => h ⟨hty, hsrc⟩

/-- One from the source is recorded and judged. -/
theorem State.takeSample_judged {x : Sample} (h : s.fromSource x) :
    s.takeSample x = (s.setReg Reg.TIME_LAST_OFS x.ofs).judge (sInt 64 x.ofs) x.step := by
  refine if_neg ?_
  obtain ⟨hty, hsrc⟩ := h
  simp [hty, hsrc]

/-- The offset recorded leaves the discipline's state, cause and threshold. -/
theorem State.setLastOfs_keeps (s : State) (v : Nat) :
    (s.setReg Reg.TIME_LAST_OFS v).disc = s.disc ∧ (s.setReg Reg.TIME_LAST_OFS v).rf Reg.TIME_STATE 4 3 = s.rf Reg.TIME_STATE 4 3 ∧
    (s.setReg Reg.TIME_LAST_OFS v).rn Reg.TIME_JUMP_THR = s.rn Reg.TIME_JUMP_THR :=
  ⟨s.rf_setReg_other _ _ _ (by decide), s.rf_setReg_other _ _ _ (by decide), s.rn_setReg_other _ (by decide)⟩

section
variable {ofs : Int} {step : Bool}

theorem State.judge_unset (h : s.disc = stUnset ∨ s.disc = stArmed) :
    s.judge ofs step = if step then ((((s.stepClock ofs).accept).setDisc stLocked 0).raise 1).publish else s :=
  if_pos (by rw [Bool.or_eq_true, decide_eq_true_eq, decide_eq_true_eq]; exact h)

/-- A sample accepted in state `st`, with the master change that HOLDOVER of cause SOURCE tells (R64). -/
def State.acceptedIn (s : State) (st : Nat) : State :=
  if st = stHoldover && s.rf Reg.TIME_STATE 4 3 = 2 then (s.accept.count Reg.TIME_MCHG_CNT).raise 5 else s.accept

/-- Such a sample locks, from HOLDOVER with its event. -/
def State.judgedIn (s : State) (st : Nat) : State :=
  ((if st = stHoldover then (s.acceptedIn st).raise 1 else s.acceptedIn st).setDisc stLocked 0).publish

theorem State.acceptedIn_locked : s.acceptedIn stLocked = s.accept := if_neg Bool.false_ne_true

theorem State.acceptedIn_holdover (hcause : s.rf Reg.TIME_STATE 4 3 ≠ 2) : s.acceptedIn stHoldover = s.accept :=
  if_neg (by rw [decide_eq_false hcause, Bool.and_false]; exact Bool.false_ne_true)

theorem State.acceptedIn_source (hcause : s.rf Reg.TIME_STATE 4 3 = 2) :
    s.acceptedIn stHoldover = (s.accept.count Reg.TIME_MCHG_CNT).raise 5 :=
  if_pos (by rw [decide_eq_true hcause, Bool.and_true]; rfl)

theorem State.judgedIn_locked : s.judgedIn stLocked = (s.accept.setDisc stLocked 0).publish := by
  rw [State.judgedIn, State.acceptedIn_locked, if_neg (show ¬ stLocked = stHoldover by decide)]

theorem State.judgedIn_holdover : s.judgedIn stHoldover = (((s.acceptedIn stHoldover).raise 1).setDisc stLocked 0).publish := by
  rw [State.judgedIn, if_pos rfl]

/-- In LOCKED and HOLDOVER a sample goes by the size of its offset. -/
theorem State.judge_running (h : s.disc = stLocked ∨ s.disc = stHoldover) : s.judge ofs step =
    if ofs.natAbs ≤ s.rn Reg.TIME_JUMP_THR then s.judgedIn s.disc
    else (((s.endSlew.count Reg.TIME_REFUSE_CNT).setDisc stRefused 0).raise 3).publish := by
  refine (if_neg ?_).trans (if_pos ?_)
  · obtain h | h := h
    all_goals
      rw [h]
      decide
  · rw [Bool.or_eq_true, decide_eq_true_eq, decide_eq_true_eq]
    exact h

theorem State.judge_accepted {st : Nat} (h : s.disc = st) (hst : st = stLocked ∨ st = stHoldover)
    (hofs : ofs.natAbs ≤ s.rn Reg.TIME_JUMP_THR) : s.judge ofs step = s.judgedIn st := by
  subst h
  exact (State.judge_running hst).trans (if_pos hofs)

theorem State.judge_locked (h : s.disc = stLocked) (hofs : ofs.natAbs ≤ s.rn Reg.TIME_JUMP_THR) :
    s.judge ofs step = (s.accept.setDisc stLocked 0).publish := by
  rw [State.judge_accepted h (.inl rfl) hofs, State.judgedIn_locked]

theorem State.judge_holdover (h : s.disc = stHoldover) (hofs : ofs.natAbs ≤ s.rn Reg.TIME_JUMP_THR) (hcause : s.rf Reg.TIME_STATE 4 3 ≠ 2) :
    s.judge ofs step = ((s.accept.raise 1).setDisc stLocked 0).publish := by
  rw [State.judge_accepted h (.inr rfl) hofs, State.judgedIn_holdover, State.acceptedIn_holdover hcause]

theorem State.judge_holdover_source (h : s.disc = stHoldover) (hofs : ofs.natAbs ≤ s.rn Reg.TIME_JUMP_THR)
    (hcause : s.rf Reg.TIME_STATE 4 3 = 2) :
    s.judge ofs step = ((((s.accept.count Reg.TIME_MCHG_CNT).raise 5).raise 1).setDisc stLocked 0).publish := by
  rw [State.judge_accepted h (.inr rfl) hofs, State.judgedIn_holdover, State.acceptedIn_source hcause]

theorem State.judge_jump (h : s.disc = stLocked ∨ s.disc = stHoldover) (hofs : s.rn Reg.TIME_JUMP_THR < ofs.natAbs) :
    s.judge ofs step = (((s.endSlew.count Reg.TIME_REFUSE_CNT).setDisc stRefused 0).raise 3).publish :=
  (State.judge_running h).trans (if_neg (Nat.not_le.2 hofs))

theorem State.judge_refused (h : s.disc = stRefused) : s.judge ofs step = s := by
  refine (if_neg ?_).trans (if_neg ?_)
  all_goals
    rw [h]
    decide

end

/-! ## What waits for the tick -/

theorem State.samples_setDisc (s : State) (st cause : Nat) : (s.setDisc st cause).time.samples = s.time.samples := by
  obtain ⟨v, hnote⟩ := s.noteLeft_eq st
  rw [State.setDisc, State.setF_time, State.setF_time, hnote]

theorem State.samples_publish (s : State) : s.publish.time.samples = s.time.samples := rfl

/-- A source change takes no sample. -/
theorem State.samples_srcTick (s : State) : s.srcTick.time.samples = s.time.samples := by
  unfold State.srcTick
  split
  · dsimp only
    split
    · rw [State.samples_publish, State.raise_time, State.samples_setDisc]
    · split
      · rw [State.samples_setDisc]
      · rfl
  · rfl

/-- With no sample waiting the tick takes the source change alone. -/
theorem State.disciplineTick_none (h : s.time.samples = []) : s.disciplineTick = s.srcTick := by
  have hnone : s.srcTick.time.samples = [] := s.samples_srcTick.trans h
  have heta : ({ s.srcTick with time := { s.srcTick.time with samples := [] } } : State) = s.srcTick := by rw [← hnone]
  rw [State.disciplineTick, h, heta]
  rfl

/-- One sample waiting is taken after the source change. -/
theorem State.disciplineTick_one {x : Sample} (h : s.time.samples = [x]) :
    s.disciplineTick = ({ s.srcTick with time := { s.srcTick.time with samples := [] } } : State).sampleTick x := by
  rw [State.disciplineTick, h]
  rfl

/-! ## Increments and slews (R53, R58, R59) -/

/-- The bounds of a base increment. -/
theorem clampInc_of_within {v : Nat} (hlo : 0x03FF7CED91 ≤ v) (hhi : v ≤ 0x040083126F) : clampInc v = v := by
  simp only [clampInc, incMin, incMax]; omega

theorem clampInc_of_low {v : Nat} (h : v < 0x03FF7CED91) : clampInc v = 0x03FF7CED91 := by
  simp only [clampInc, incMin, incMax]; omega

theorem clampInc_of_high {v : Nat} (h : 0x040083126F < v) : clampInc v = 0x040083126F := by
  simp only [clampInc, incMin, incMax]; omega

/-- The increment that a write of the HI word commits. -/
def State.incValue (s : State) (who : Party) (hi : Word) : Nat :=
  2 ^ 32 * (hi.toNat % 2 ^ 8) + (Tbl.get s.heldLo (Reg.TIME_INC * 16 + who.num) none).getD (s.rn Reg.TIME_INC % 2 ^ 32)

/-- The party's held LO word dropped. -/
def State.incDropped (s : State) (who : Party) : State :=
  { s with heldLo := Tbl.set s.heldLo (Reg.TIME_INC * 16 + who.num) none none }

section
variable {who : Party} {hi : Word}

theorem timeIncWrite_refused (h : s.disc = stRefused) : timeIncWrite who hi s = s.count Reg.TIME_RATE_REJ_CNT := if_pos h

theorem timeIncWrite_taken (h : s.disc ≠ stRefused) (hc : clampInc (s.incValue who hi) = s.incValue who hi) :
    timeIncWrite who hi s = ((s.incDropped who).setReg Reg.TIME_INC (s.incValue who hi)).showInc := by
  refine (if_neg h).trans ?_
  rw [State.incValue] at hc
  simp only [hc, if_true]
  rfl

theorem timeIncWrite_clamped {b : Nat} (h : s.disc ≠ stRefused) (hc : clampInc (s.incValue who hi) = b) (hne : b ≠ s.incValue who hi) :
    timeIncWrite who hi s = (((s.incDropped who).setF Reg.TIME_STATE 9 1 1).setReg Reg.TIME_INC b).showInc := by
  refine (if_neg h).trans ?_
  rw [State.incValue] at hc hne
  simp only [hc, hne, if_false]
  rfl

end

/-- Settles O14: a sample's fate is one row of R64, and a rate's commit one of its bounds. -/
theorem samplesAndRates : Obligations.SamplesAndRates := by
  refine ⟨fun s who w x => ?_, fun s who w => ⟨fun htakes => ⟨fun hd hlo hhi => ?_, fun hd hlow => ?_, fun hd hhigh => ?_, fun hd => ?_⟩,
      fun htakes => ⟨fun hd hw => ?_, fun hd hw => ?_, fun hd => ?_⟩, fun hticking => ⟨fun hslew hspent => ?_, fun hrest => ?_⟩⟩⟩
  · obtain ⟨hdisc, hcause, hthr⟩ := s.setLastOfs_keeps x.ofs
    refine ⟨fun htakes => ⟨fun hnever => ?_, fun hloaded => ?_⟩, State.disciplineTick_none, State.disciplineTick_one,
      fun hno => if_neg (not_not_intro hno), fun hstep => if_pos hstep, State.takeSample_stale, fun hmine hd hstep => ?_, fun hmine hd hstep => ?_,
      fun hmine hd hofs => ?_, fun hmine hd hofs hc => ?_, fun hmine hd hofs hc => ?_, fun hmine hd hofs => ?_, fun hmine hd => ?_⟩
    · exact .of_takes rfl htakes (if_pos (by simp [hnever]))
    · exact .of_takes rfl htakes ((if_neg (by simp [hloaded])).trans (by simp [fld]))
    · rw [State.takeSample_judged hmine, State.judge_unset (by rwa [hdisc]), hstep, if_pos rfl]
    · rw [State.takeSample_judged hmine, State.judge_unset (by rwa [hdisc]), hstep, if_neg (by decide)]
    · rw [State.takeSample_judged hmine, State.judge_locked (hdisc.trans hd) (by rwa [hthr])]
    · rw [State.takeSample_judged hmine, State.judge_holdover (hdisc.trans hd) (by rwa [hthr]) (by rwa [hcause])]
    · rw [State.takeSample_judged hmine, State.judge_holdover_source (hdisc.trans hd) (by rwa [hthr]) (by rwa [hcause])]
    · rw [State.takeSample_judged hmine, State.judge_jump (by rwa [hdisc]) (by rwa [hthr])]
    · rw [State.takeSample_judged hmine, State.judge_refused (hdisc.trans hd)]
  · exact .of_takes rfl htakes (timeIncWrite_taken hd (clampInc_of_within hlo hhi))
  · exact .of_takes rfl htakes (timeIncWrite_clamped hd (clampInc_of_low hlow) (Nat.ne_of_gt hlow))
  · exact .of_takes rfl htakes (timeIncWrite_clamped hd (clampInc_of_high hhigh) (Nat.ne_of_lt hhigh))
  · exact .of_takes rfl htakes (timeIncWrite_refused hd)
  · exact .of_takes rfl htakes ((if_neg hd).trans (if_pos hw))
  · exact .of_takes rfl htakes ((if_neg hd).trans (if_neg hw))
  · exact .of_takes rfl htakes (if_pos hd)
  · exact .of_running rfl hticking (if_pos (by simp [hslew, hspent]))
  · exact .of_running rfl hticking (if_neg (by rcases hrest with h | h <;> simp [h]))

/-! ## Events of the discipline -/

theorem State.srcTick_none (h : s.time.srcNew = false) : s.srcTick = s := if_neg (by simp [h])

/-- Settles O16: each command by the cases of its condition. -/
theorem disciplineEvents : Obligations.DisciplineEvents := by
  intro s who w
  refine ⟨fun htakes => ⟨fun hne => ?_, fun heq => ?_⟩, ⟨fun hnew hd => ?_, fun hnew hd => ?_, fun hnew hd hd' => ?_, State.srcTick_none⟩,
    fun hticking => ⟨fun hd hl ht => ?_, fun h => ?_, fun hlim ha => ?_, fun h => ?_⟩⟩
  · refine .of_takes rfl htakes ?_
    have hnew : s.quiet.rn Reg.TIME_SRC ≠ w.toNat % 2 ^ 18 := hne
    simp only [timeSrcWrite, hnew, ne_eq, not_false_eq_true, decide_true, Bool.or_true]
  · refine .of_takes rfl htakes ?_
    have hsame : s.quiet.rn Reg.TIME_SRC = w.toNat % 2 ^ 18 := heq
    simp only [timeSrcWrite, hsame, ne_eq, not_true_eq_false, decide_false, Bool.or_false]
  · exact (if_pos hnew).trans (if_pos hd)
  · exact (if_pos hnew).trans ((if_neg (by rw [hd]; decide)).trans (if_pos hd))
  · exact (if_pos hnew).trans ((if_neg hd).trans (if_neg hd'))
  · exact .of_running rfl hticking (if_pos (by simp [hd, hl, ht]))
  · refine .of_running rfl hticking (if_neg ?_)
    rcases h with h | h
    · simp [h]
    · simp [Nat.not_le.2 h]
  · exact .of_running rfl hticking (if_pos (by simp [hlim, ha]))
  · refine .of_running rfl hticking (if_neg ?_)
    rcases h with h | h
    · simp [Nat.not_lt.2 h]
    · simp [h]

end Sys2Proof.Machine
end

section
/-! PROOF. The UTC offset, leap seconds, PPS, latched time reads and the mains angle (R55, R69, R70, R73 to R75, R83). -/
namespace Sys2Proof.Machine
open Sys2Proof

variable {s : State}

/-- The first word and the bits of a UTC offset written, both leap bits together set neither (R55). -/
def utcofsValue (w : Word) : Nat := if w.getLsbD 16 && w.getLsbD 17 then w.toNat % 2 ^ 16 else w.toNat % 2 ^ 18

/-- A write of the UTC offset sets TIME_UTCOFS and the day of the leap. -/
theorem gives_utcofsWrite {who : Party} {w : Word} (htakes : s.takes who Reg.TIME_UTCOFS = true) :
    Gives (.utcofsWrite who w) s fun t => t.rn Reg.TIME_UTCOFS = utcofsValue w ∧ t.time.leapDay = t.utcDay + 1 ∧
      RegsBut (· = Reg.TIME_UTCOFS) s t ∧ MemKept s t := by
  refine .of_ends (.of_takes rfl htakes rfl) ⟨?_, rfl, fun a ha => ?_, fun a => ⟨rfl, rfl, rfl⟩⟩
  · have hlt : utcofsValue w < 2 ^ 80 := by unfold utcofsValue; split <;> omega
    show (s.quiet.setReg Reg.TIME_UTCOFS (utcofsValue w)).rn Reg.TIME_UTCOFS = _
    rw [State.rn_setReg_same, Nat.mod_eq_of_lt hlt]
  · exact s.quiet.rn_setReg_other (utcofsValue w) ha

/-- A leap second falls due at its midnight. -/
theorem leapApplied_due (h : (s.bit Reg.TIME_UTCOFS 16 || s.bit Reg.TIME_UTCOFS 17) = true) (hday : s.time.leapDay ≤ s.utcDay) :
    leapApplied s = ((({ s with time := { s.time with leapAt := some s.time.ticks, leapDel := !s.bit Reg.TIME_UTCOFS 16 } } : State).setReg
      Reg.TIME_UTCOFS (uNat 16 (s.utcOfs + if s.bit Reg.TIME_UTCOFS 16 then 1 else -1))).raise 15) :=
  if_pos (by simp [h, hday])

/-- An edge accepted is timed, and shows PPS present. -/
theorem ppsEdge_accepted {rising : Bool} {half : Fin 8} (hf : s.feat 34 = true) (hi : s.img.inForce = true)
    (hr : rising = !(wf (s.pat 3) 0 4 1 = 1)) (hago : ∀ t, s.time.ppsAt = some t → 125000000 + t ≤ s.time.ticks) :
    ppsEdge rising half s =
      (let d : Int := ((s.nowNs * 16 + half.val * 8 : Nat) : Int) - sInt 32 (s.rn Reg.TIME_PPS_DLY)
       let u := (s.setReg Reg.TIME_PPS_LAST (t80OfNs (roundDiv d 16).toNat)).setF Reg.TIME_STATE 8 1 1
       { u with time := { u.time with ppsAt := some s.time.ticks, ppsMissed := false } }) := by
  refine if_pos ?_
  cases hat : s.time.ppsAt with
  | none => simp [hf, hi, hr]
  | some t => simpa [hf, hi, hr] using hago t hat

/-- An edge without feature 34, or without an image, does nothing. -/
theorem ppsEdge_ignored {rising : Bool} {half : Fin 8} (h : s.feat 34 = false ∨ s.img.inForce = false) : ppsEdge rising half s = s := by
  refine if_neg ?_
  rcases h with h | h <;> simp [h]

theorem ppsMissing_due {t : Nat} (hat : s.time.ppsAt = some t) (hm : s.time.ppsMissed = false) (hlate : 275000000 + t ≤ s.time.ticks) :
    ppsMissing s = (let u := (s.count Reg.TIME_PPS_MISS_CNT).setF Reg.TIME_STATE 8 1 0
      ({ u with time := { u.time with ppsMissed := true } } : State).raise 7) := by
  simp only [ppsMissing, hat, hm, hlate, Bool.not_false, decide_true, Bool.and_true, if_true]

theorem ppsMissing_none (h : s.time.ppsAt = none ∨ s.time.ppsMissed = true) : ppsMissing s = s := by
  unfold ppsMissing
  split
  · next t hat =>
    rcases h with h | h
    · rw [hat] at h; cases h
    · simp [h]
  · rfl

/-- A read of the empty timestamp FIFO returns the blank item and latches none. -/
theorem txtsInfoRead_empty {who : Party} (h : s.time.txts = []) : txtsInfoRead who s =
    (({ s with time := { s.time with txtsLatch := Tbl.set s.time.txtsLatch who.num none none } } : State).emit (.read 0)) := by
  rw [txtsInfoRead, h]; rfl

/-- A read of it otherwise returns its head, and latches it. -/
theorem txtsInfoRead_head {who : Party} {e : TxTs} {rest : List TxTs} (h : s.time.txts = e :: rest) : txtsInfoRead who s =
    (({ s with time := { s.time with txtsLatch := Tbl.set s.time.txtsLatch who.num (some e) none } } : State).emit
      (.read (BitVec.ofNat 64 (2 ^ 31 + (e.seqId % 2 ^ 16 + 2 ^ 16 * (e.msgType % 16) + 2 ^ 20 * (e.port % 4) + 2 ^ 22 * (e.epoch % 4)))))) := by
  rw [txtsInfoRead, h]; rfl

/-- The upper seconds of the entry that a party latched. -/
def State.txtsUpper (s : State) (who : Party) : Nat :=
  match Tbl.get s.time.txtsLatch who.num none with
  | some e => e.time / 2 ^ 64 % 2 ^ 16
  | none => 0

theorem txtsPop_head {who : Party} {x : TxTs} {rest : List TxTs} (h : s.time.txts = x :: rest) : txtsPop who s =
    (({ s with time := { s.time with txts := rest, txtsWatch := { since := s.time.ticks } } } : State).emit
      (.read (BitVec.ofNat 64 (s.txtsUpper who)))) := by
  unfold txtsPop
  rw [h]; rfl

theorem txtsPop_empty {who : Party} (h : s.time.txts = []) : txtsPop who s = s.emit (.read (BitVec.ofNat 64 (s.txtsUpper who))) := by
  have heta : ({ s with time := { s.time with txts := [], txtsWatch := s.time.txtsWatch } } : State) = s := by rw [← h]
  unfold txtsPop
  rw [h]
  simp only [if_true, List.tail_nil, heta]
  rfl

/-- An update in the tracker's range, in ACQUIRE or LOCKED, is taken. -/
theorem mangUpdate_taken {inc : BitVec 64} {f : Fix40} (h : s.thru Reg.TIME_MANG_STATE = 1 ∨ s.thru Reg.TIME_MANG_STATE = 2)
    (hr : s.mangInRange inc f = true) :
    mangUpdate inc f s = ({ s with time := { s.time with mangInc := inc } } : State).setReg Reg.TIME_MANG_FREQ f.toNat :=
  if_pos (by simpa [hr] using h)

/-- A crossing with nothing found and no injection armed changes nothing. -/
theorem State.crossing_ok {into : Nat} (h : s.injects 4 = false) : s.crossing into .ok = s := by
  rw [State.crossing, State.check_ok h]

/-- Settles O17: each command by the cases of its condition. -/
theorem timeInputsAndReads : Obligations.TimeInputsAndReads := by
  refine ⟨fun s who w rising half => ⟨fun htakes => ⟨fun h16 h17 => ?_, fun hone => ?_⟩, fun hticking =>
    ⟨fun h16 hday => ?_, fun h16 h17 hday => ?_, fun hf hi hr hago => .of_running rfl hticking (ppsEdge_accepted hf hi hr hago),
      fun hno => .of_running rfl hticking (ppsEdge_ignored hno), fun t hat hm hl => .of_running rfl hticking (ppsMissing_due hat hm hl),
      fun hno => .of_running rfl hticking (ppsMissing_none hno)⟩⟩,
    fun s who inc f err => ⟨fun ha => ⟨.of_live rfl ha rfl, fun hx => .of_live rfl ha (txtsInfoRead_empty hx),
      fun e rest hx => .of_live rfl ha (txtsInfoRead_head hx), fun x rest hx => .of_live rfl ha (txtsPop_head hx),
      fun hx => .of_live rfl ha (txtsPop_empty hx)⟩, fun hticking => ⟨fun hst hinj hr => ?_,
      .of_running (f := fun s => mangUpdate inc f (s.crossing 0 err)) rfl hticking rfl, fun h1 h2 => ?_,
      fun hr => ?_, fun h => .of_running rfl hticking (if_pos h), fun h => .of_running rfl hticking (if_neg h),
      fun h => .of_running rfl hticking (if_pos h), fun h => .of_running rfl hticking (if_neg h),
      fun h => .of_running rfl hticking (if_pos h), fun h => .of_running rfl hticking (if_neg h)⟩⟩⟩
  · obtain ⟨t, hexec, hval, _, hregs, hmem⟩ := gives_utcofsWrite (w := w) htakes
    exact ⟨t, hexec, hval.trans (if_pos (by simp [h16, h17])), hregs, hmem⟩
  · obtain ⟨t, hexec, hval, hday, hregs, hmem⟩ := gives_utcofsWrite (w := w) htakes
    exact ⟨t, hexec, hval.trans (if_neg (by rcases hone with h | h <;> rw [h] <;> simp)), hday, hregs, hmem⟩
  · have hdue := leapApplied_due (s := s.quiet) (by simp [h16]) hday
    rw [State.quiet_bit, h16] at hdue
    exact .of_running rfl hticking hdue
  · have hdue := leapApplied_due (s := s.quiet) (by simp [h17]) hday
    rw [State.quiet_bit, h16] at hdue
    exact .of_running rfl hticking hdue
  · refine .of_running (f := fun s => mangUpdate inc f (s.crossing 0 .ok)) rfl hticking ?_
    exact (congrArg (mangUpdate inc f) (State.crossing_ok (s := s.quiet) hinj)).trans (mangUpdate_taken hst hr)
  · exact if_neg (by simp [h1, h2])
  · exact if_neg (by simp [hr])

end Sys2Proof.Machine
end

section
/-! PROOF. Tacks and stale FIFO tails (R76 to R81, R166). -/
namespace Sys2Proof.Machine
open Sys2Proof

variable {s : State} {k : Nat}

/-! ## The commit of an entry (R76, R81) -/

/-- The control word that a commit of `ws` leaves: EN is cleared where the period is too short. -/
def tackControl (ws : List Nat) : Nat := if tackShort ws then putFld (ws.getD 0 0) 0 1 0 else ws.getD 0 0

/-- The run-time side of an entry committed. -/
theorem State.tack_commitTack (ws : List Nat) : (s.commitTack k ws).tack k =
    { staged := tackControl ws :: ws.drop 1, due := tackStart (tackControl ws :: ws.drop 1), fired := 0,
      live := fld (tackControl ws) 0 1 = 1, free := false, since := s.time.ticks } := by
  have htime : ∀ l : List Nat, (s.setWords (Reg.TACK_ENTRY k 0) l).time = s.time := fun l => by rw [State.setWords_eq]
  unfold State.commitTack
  dsimp only
  rw [htime]
  exact Tbl.get_set_same _ _ _ _

/-- An entry reads its words from its control word and the rest. -/
theorem getD_head_drop (ws : List Nat) (i : Nat) : (ws.getD 0 0 :: ws.drop 1).getD i 0 = ws.getD i 0 := by
  cases ws with
  | nil => cases i <;> rfl
  | cons w t => cases i <;> rfl

theorem tackStart_head_drop (ws : List Nat) : tackStart (ws.getD 0 0 :: ws.drop 1) = tackStart ws := by
  simp only [tackStart, getD_head_drop]

/-- An entry whose period is long enough starts as it is written. -/
theorem State.tack_commitTack_long {ws : List Nat} (h : tackShort ws = false) : (s.commitTack k ws).tack k =
    { staged := ws.getD 0 0 :: ws.drop 1, due := tackStart ws, fired := 0, live := (ws.getD 0 0) % 2 = 1, free := false,
      since := s.time.ticks } := by
  have hcontrol : tackControl ws = ws.getD 0 0 := if_neg (by rw [h]; decide)
  have henable : fld (ws.getD 0 0) 0 1 = ws.getD 0 0 % 2 := by simp [fld]
  rw [State.tack_commitTack, hcontrol, tackStart_head_drop, henable]

/-- An entry whose period is too short is not pending. -/
theorem State.tack_commitTack_short {ws : List Nat} (h : tackShort ws = true) : ((s.commitTack k ws).tack k).live = false := by
  have hcontrol : tackControl ws = putFld (ws.getD 0 0) 0 1 0 := if_pos h
  rw [State.tack_commitTack, hcontrol, fld_putFld_same]
  rfl

/-! ## Firing (R77 to R79) -/

/-- A tack is due where feature 36 is accepted, it is pending and enabled, and its base counter has reached its due value. -/
theorem State.tackDue_some {past : Nat} (hf : s.feat 36 = true) (hl : (s.tack k).live = true) (he : s.bit (Reg.TACK_ENTRY k 0) 0 = true)
    (hp : s.tackPast k = some past) : s.tackDue k = some past := by
  simp [State.tackDue, hf, hl, he, hp]

theorem State.tackDue_none (h : s.feat 36 = false ∨ s.tackPast k = none ∨ (s.tack k).live = false ∨ s.bit (Reg.TACK_ENTRY k 0) 0 = false) :
    s.tackDue k = none := by
  rcases h with h | h | h | h <;> simp [State.tackDue, h]

theorem State.fireTack_due {past : Nat} (h : s.tackDue k = some past) : s.fireTack k =
    ((s.tackAct (s.rf (Reg.TACK_ENTRY k 0) 4 3) (s.rn (Reg.TACK_ENTRY k 1))).tackEvent k).tackNext k past := by
  rw [State.fireTack, h]

theorem State.fireTack_idle (h : s.tackDue k = none) : s.fireTack k = s := by
  rw [State.fireTack, h]

/-! ## Stale tails (R166) -/

theorem fifoStale_due {f : Fifo} (he : (s.fifoView f).2.1 = false) (hn : (s.fifoView f).2.2 ≠ 0)
    (hd : s.staleDue (s.fifoView f).1 (s.fifoView f).2.2 = true) : fifoStale f s = s.fifoReport f :=
  if_pos (by simp [he, hn, hd])

theorem fifoStale_idle {f : Fifo} (h : (s.fifoView f).2.1 = true ∨ s.staleDue (s.fifoView f).1 (s.fifoView f).2.2 = false) :
    fifoStale f s = s :=
  if_neg (by rcases h with h | h <;> simp [h])

/-- Settles O18: the commit, the firing and the stale tail, each by its cases. -/
theorem tacksAndStaleTails : Obligations.TacksAndStaleTails := by
  intro s who k w pin f
  refine ⟨fun htakes hf => .of_takes rfl htakes (if_pos hf), fun ws => State.tack_commitTack_long, fun ws => State.tack_commitTack_short,
    fun hticking => ⟨fun hdue => .of_running rfl hticking (if_pos (Option.isSome_iff_ne_none.2 hdue)),
      fun hdue => .of_running rfl hticking (if_neg ?_), fun hend => .of_running rfl hticking (if_pos hend),
      fun hrun => .of_running rfl hticking (if_neg (Nat.not_le.2 hrun))⟩,
    fun past hf hl he hp => State.fireTack_due (State.tackDue_some hf hl he hp),
    fun h => ⟨State.tackDue_none h, State.fireTack_idle (State.tackDue_none h)⟩, fun width pol => ?_,
    fun ha => ⟨fun he hn hd => .of_live rfl ha (fifoStale_due he hn hd), fun h => .of_live rfl ha (fifoStale_idle h)⟩⟩
  · have hnone : s.quiet.tackDue k.val = none := hdue
    simp [hnone]
  · rw [State.tpoPulse, Tbl.get_set_same]

end Sys2Proof.Machine
end

section
/-! PROOF. The bounds of the measurement queue (R103), and the second copy of a PRP frame (R93, R94). -/
namespace Sys2Proof.Machine
open Sys2Proof

/-! ## The measurement queue -/

/-- The octets of a queue with one frame more at its end. -/
theorem mqBytes_append (l : List MqFrame) (f : MqFrame) : mqBytes (l ++ [f]) = mqBytes l + f.payload.length := by
  simp [mqBytes]

/-- Making room keeps the newest run of frames that leaves room for one more. -/
theorem State.mqRoom_spec (s : State) {n : Nat} (hn : n ≤ 4194304) (l : List MqFrame) :
    ∃ k, (s.mqRoom n l).eth.mq = l.drop k ∧ (l.drop k).length < 8192 ∧ mqBytes (l.drop k) + n ≤ 4194304 := by
  induction l generalizing s with
  | nil => exact ⟨0, rfl, by decide, by simpa [mqBytes] using hn⟩
  | cons f t ih =>
    rw [State.mqRoom]
    split
    · next hfits =>
      simp only [Bool.and_eq_true, decide_eq_true_eq] at hfits
      exact ⟨0, rfl, hfits.1, hfits.2⟩
    · obtain ⟨k, hk⟩ := ih ((s.count Reg.ETH_MQ_LOST_CNT).raise 20)
      exact ⟨k + 1, hk⟩

/-- What a frame entering the queue leaves in it. -/
theorem State.mq_mqPush (s : State) (f : MqFrame) : ∃ u : State, u.eth.mq = s.eth.mq ∧
    (s.mqPush f).eth.mq = (u.mqRoom f.payload.length s.eth.mq).eth.mq ++ [f] := by
  unfold State.mqPush
  dsimp only
  split
  · exact ⟨{ s with eth := { s.eth with mqWatch := { since := s.time.ticks, raised := false } } }, rfl, rfl⟩
  · exact ⟨s, rfl, rfl⟩

/-- Settles O20: `mqRoom` leaves room for the frame, which then stands last. -/
theorem measurementQueueBound : Obligations.MeasurementQueueBound := by
  intro s f hf t
  obtain ⟨u, _, hpush⟩ := s.mq_mqPush f
  obtain ⟨k, hroom, hlength, hbytes⟩ := u.mqRoom_spec hf s.eth.mq
  have hmq : t.eth.mq = s.eth.mq.drop k ++ [f] := by rw [hpush, hroom]
  refine ⟨⟨k, hmq⟩, ?_, ?_⟩
  · rw [hmq, List.length_append]
    simp only [List.length_singleton]
    omega
  · rw [hmq, mqBytes_append]
    exact hbytes

/-! ## The PRP node table -/

section
variable (s : State) (pair set : Nat)

@[simp] theorem State.node_setNode_same (w : Nat) (n : PrpNode) : (s.setNode pair set w n).node pair set w = n := Tbl.get_set_same _ _ _ _

theorem State.node_setNode_other {w v : Nat} (n : PrpNode) (h : v ≠ w) : (s.setNode pair set w n).node pair set v = s.node pair set v :=
  Tbl.get_set_other _ _ _ _ (by omega)

end

/-- No way below `k` passes `p`. -/
theorem firstWay_eq_none {p : Nat → Bool} {k : Nat} : firstWay p k = none ↔ ∀ v < k, p v = false := by
  induction k with
  | zero => simp [firstWay]
  | succ k ih =>
    rw [firstWay, Nat.forall_lt_succ_right, ← ih]
    cases firstWay p k with
    | some w => simp
    | none => by_cases hp : p k <;> simp [hp]

/-- The first way below `k` that passes `p`. -/
theorem firstWay_eq_some {p : Nat → Bool} {k w : Nat} : firstWay p k = some w ↔ w < k ∧ p w = true ∧ ∀ v < w, p v = false := by
  induction k with
  | zero => simp [firstWay]
  | succ k ih =>
    rw [firstWay]
    cases hk : firstWay p k with
    | some v =>
      rw [hk] at ih
      simp only
      rw [ih]
      refine ⟨fun ⟨hlt, h⟩ => ⟨by omega, h⟩, fun ⟨hlt, hw, hbefore⟩ => ⟨?_, hw, hbefore⟩⟩
      refine Nat.lt_of_not_le fun hge => ?_
      have hall : firstWay p k = none := firstWay_eq_none.2 fun x hx => hbefore x (by omega)
      rw [hall] at hk
      cases hk
    | none =>
      have hall := firstWay_eq_none.1 hk
      simp only
      constructor
      · intro h
        split at h
        · next hp =>
          cases h
          exact ⟨by omega, hp, hall⟩
        · cases h
      · rintro ⟨hlt, hw, -⟩
        have hwk : w = k := by
          refine Nat.le_antisymm (Nat.le_of_lt_succ hlt) (Nat.le_of_not_lt fun hne => ?_)
          have hfalse := hall w (by omega)
          rw [hw] at hfalse
          cases hfalse
        rw [hwk] at hw
        rw [if_pos hw, hwk]

/-- The least recently judged way is one of the set's four. -/
theorem State.oldestWay_lt (s : State) (pair set : Nat) : s.oldestWay pair set < 4 := by
  have hfold : ∀ (l : List Nat) (b : Nat), b < 4 → (∀ w ∈ l, w < 4) →
      l.foldl (fun b w => if (s.node pair set w).last < (s.node pair set b).last then w else b) b < 4 := by
    intro l
    induction l with
    | nil => intro b hb _; exact hb
    | cons w l ih =>
      intro b hb hl
      rw [List.foldl_cons]
      refine ih _ ?_ fun x hx => hl x (List.mem_cons_of_mem _ hx)
      split
      · exact hl w List.mem_cons_self
      · exact hb
  exact hfold _ 0 (by decide) fun w hw => List.mem_range.1 hw

/-- A new node takes one of the set's four ways. -/
theorem State.newWay_lt (s : State) (pair set : Nat) : (s.newWay pair set).1 < 4 := by
  unfold State.newWay
  split
  · next w h => exact (firstWay_eq_some.1 h).1
  · split
    · next w h => exact (firstWay_eq_some.1 h).1
    · exact s.oldestWay_lt pair set

/-! ## The second copy -/

/-- The entry of way `w` is that of source `m`. -/
def State.ownWay (s : State) (pair set m w : Nat) : Bool := (s.node pair set w).used && decide ((s.node pair set w).mac = m)

/-- Way `w` holds the source's entry, judged on this tick, whose window has the frame `seq` marked. -/
structure State.Seen (s : State) (pair : Nat) (mac : List Byte) (seq w : Nat) : Prop where
  way : firstWay (s.ownWay pair (prpSet mac) (leNat mac)) 4 = some w
  fresh : (s.node pair (prpSet mac) w).last = s.time.ticks
  notAhead : sInt 16 (65536 + seq - (s.node pair (prpSet mac) w).high) ≤ 0
  inWindow : -64 < sInt 16 (65536 + seq - (s.node pair (prpSet mac) w).high)
  marked : (s.node pair (prpSet mac) w).win.getLsbD (-sInt 16 (65536 + seq - (s.node pair (prpSet mac) w).high)).toNat = true

section
variable {s : State} {pair : Nat} {mac : List Byte} {seq w : Nat}

/-- A frame whose copy is marked is a duplicate. -/
theorem State.Seen.duplicate (h : s.Seen pair mac seq w) : s.prpJudge pair mac seq =
    (false, (s.setNode pair (prpSet mac) w { s.node pair (prpSet mac) w with last := s.time.ticks }).count (Reg.ETH_PRP_DUP_CNT pair)) := by
  have hway : firstWay (fun w => (s.node pair (prpSet mac) w).used && (s.node pair (prpSet mac) w).mac = leNat mac) 4 = some w := h.way
  have hyoung : s.nodeOld (s.node pair (prpSet mac) w) = false := by simp [State.nodeOld, h.fresh]
  have hahead : ¬ 0 < sInt 16 (65536 + seq - (s.node pair (prpSet mac) w).high) := Int.not_lt.2 h.notAhead
  simp only [State.prpJudge, hway, hyoung, Bool.false_eq_true, if_false, hahead, h.inWindow, if_true, h.marked]

/-- The source's way after its entry was written there again: the first way as before. -/
theorem State.ownWay_setNode {n : PrpNode} (hused : n.used = true) (hmac : n.mac = leNat mac) (hw : w < 4)
    (hbefore : ∀ v < w, s.ownWay pair (prpSet mac) (leNat mac) v = false) :
    firstWay ((s.setNode pair (prpSet mac) w n).ownWay pair (prpSet mac) (leNat mac)) 4 = some w := by
  refine firstWay_eq_some.2 ⟨hw, ?_, fun v hv => ?_⟩
  · simp [State.ownWay, hused, hmac]
  · have hother := s.node_setNode_other pair (prpSet mac) n (Nat.ne_of_lt hv)
    rw [State.ownWay, hother]
    exact hbefore v hv

/-- An entry judged now, with the frame in its window and marked, has seen it. -/
theorem State.seen_of_entry {n : PrpNode} {d : Int} (hused : n.used = true) (hmac : n.mac = leNat mac) (hw : w < 4) (hlast : n.last = s.time.ticks)
    (hbefore : ∀ v < w, s.ownWay pair (prpSet mac) (leNat mac) v = false) (hd : sInt 16 (65536 + seq - n.high) = d)
    (hbehind : d ≤ 0) (hin : -64 < d) (hmarked : n.win.getLsbD (-d).toNat = true) :
    (s.setNode pair (prpSet mac) w n).Seen pair mac seq w := by
  subst hd
  have hnode := s.node_setNode_same pair (prpSet mac) w n
  exact ⟨State.ownWay_setNode hused hmac hw hbefore, by rw [hnode, hlast]; rfl, by rw [hnode]; exact hbehind, by rw [hnode]; exact hin,
    by rw [hnode]; exact hmarked⟩

/-- An entry that stands at the frame itself, with the newest bit of its window marked, has seen it. -/
theorem State.seen_of_newest {n : PrpNode} (hused : n.used = true) (hmac : n.mac = leNat mac) (hw : w < 4) (hlast : n.last = s.time.ticks)
    (hhigh : n.high = seq) (hwin : n.win.getLsbD 0 = true) (hbefore : ∀ v < w, s.ownWay pair (prpSet mac) (leNat mac) v = false) :
    (s.setNode pair (prpSet mac) w n).Seen pair mac seq w := by
  have hzero : sInt 16 (65536 + seq - n.high) = 0 := by rw [hhigh, Nat.add_sub_cancel]; rfl
  exact State.seen_of_entry hused hmac hw hlast hbefore hzero (by decide) (by decide) hwin

/-- The window of a frame alone has its newest bit marked. -/
theorem newest_marked : (1#64).getLsbD 0 = true := by decide

/-- Counting an eviction leaves what is seen. -/
theorem State.Seen.of_count {a : Nat} {n : PrpNode} (h : (s.setNode pair (prpSet mac) w n).Seen pair mac seq w) :
    ((s.count a).setNode pair (prpSet mac) w n).Seen pair mac seq w := ⟨h.way, h.fresh, h.notAhead, h.inWindow, h.marked⟩

/-- A bit that is marked stands. -/
theorem getLsbD_or_one_shiftLeft (x : BitVec 64) {k : Nat} (hk : k < 64) : (x ||| (1#64).shiftLeft k).getLsbD k = true := by
  have hone : ((1#64).shiftLeft k).getLsbD k = true := by
    rw [BitVec.shiftLeft_eq, BitVec.getLsbD_shiftLeft]
    simp [hk]
  rw [BitVec.getLsbD_or, hone, Bool.or_true]

/-- A delivered frame within the window of its source's entry has been seen after its judgement. -/
theorem State.seen_of_delivered
    (hwindow : ∀ w, w < 4 → (s.node pair (prpSet mac) w).used = true → (s.node pair (prpSet mac) w).mac = leNat mac →
      -64 < sInt 16 (65536 + seq - (s.node pair (prpSet mac) w).high))
    (hdelivered : (s.prpJudge pair mac seq).1 = true) : ∃ w, (s.prpJudge pair mac seq).2.Seen pair mac seq w := by
  unfold State.prpJudge at hdelivered ⊢
  dsimp only at hdelivered ⊢
  split at hdelivered
  · next hnone =>
    have hbefore : ∀ v < (s.newWay pair (prpSet mac)).1, s.ownWay pair (prpSet mac) (leNat mac) v = false := fun v hv =>
      firstWay_eq_none.1 hnone v (Nat.lt_trans hv (s.newWay_lt pair _))
    have hseen := State.seen_of_newest (s := s) (seq := seq)
      (n := { used := true, mac := leNat mac, high := seq, win := 1, last := s.time.ticks }) rfl rfl (s.newWay_lt pair _) rfl rfl newest_marked hbefore
    refine ⟨(s.newWay pair (prpSet mac)).1, ?_⟩
    split
    · exact hseen.of_count
    · exact hseen
  · next w hway =>
    obtain ⟨hw, hown, hbefore⟩ := firstWay_eq_some.1 hway
    simp only [Bool.and_eq_true, decide_eq_true_eq] at hown
    obtain ⟨hused, hmac⟩ := hown
    have hin := hwindow w hw hused hmac
    refine ⟨w, ?_⟩
    split
    · exact State.seen_of_newest hused hmac hw rfl rfl newest_marked hbefore
    · next hyoung =>
      rw [if_neg hyoung] at hdelivered
      split
      · next hahead =>
        refine State.seen_of_newest hused hmac hw rfl rfl ?_ hbefore
        dsimp only
        split <;> simp
      · next hbehind =>
        rw [if_neg hbehind, if_pos hin] at hdelivered
        split at hdelivered
        · cases hdelivered
        · next hnew =>
          rw [if_neg hnew]
          have hlt : (-sInt 16 (65536 + seq - (s.node pair (prpSet mac) w).high)).toNat < 64 := by omega
          exact State.seen_of_entry (s := s) (mac := mac)
            (n := { s.node pair (prpSet mac) w with
              win := (s.node pair (prpSet mac) w).win |||
                (1#64).shiftLeft (-sInt 16 (65536 + seq - (s.node pair (prpSet mac) w).high)).toNat
              last := s.time.ticks })
            hused hmac hw rfl hbefore rfl (Int.not_lt.1 hbehind) hin (getLsbD_or_one_shiftLeft _ hlt)

/-- Settles O21: after a delivery the frame is marked in its source's window, and its copy is a duplicate. -/
theorem prpSecondCopyDiscarded : Obligations.PrpSecondCopyDiscarded := by
  intro s pair mac seq hwindow hdelivered t
  obtain ⟨w, hseen⟩ := State.seen_of_delivered hwindow hdelivered
  have hdup : t.prpJudge pair mac seq = _ := hseen.duplicate
  rw [hdup]
  exact ⟨rfl, State.rn_count_same _ _⟩

end

end Sys2Proof.Machine
end

section
/-! PROOF. Reporting instants (R141), the slot write of an item (R147, R149), and upstream frames (R133 to R138). -/
namespace Sys2Proof.Machine
open Sys2Proof

/-! ## Reporting instants -/

/-- The instant that starts at second `sec` as number `n` of the second. -/
theorem instT0_of_lt {r n : Nat} (sec : Nat) (hn : n < r) : instT0 r (sec * r + n) = 1000000000 * sec + 1000000000 * n / r := by
  have hr : 0 < r := by omega
  have hdiv : (sec * r + n) / r = sec := by rw [Nat.add_comm, Nat.add_mul_div_right _ _ hr, Nat.div_eq_of_lt hn, Nat.zero_add]
  have hmod : (sec * r + n) % r = n := by rw [Nat.add_comm, Nat.add_mul_mod_self_right, Nat.mod_eq_of_lt hn]
  rw [instT0, hdiv, hmod]

/-- The first instant of a second. -/
theorem instT0_second {r : Nat} (hr : 0 < r) (sec : Nat) : instT0 r (sec * r) = 1000000000 * sec := by
  have h := instT0_of_lt sec hr
  simpa using h

/-- The number, in its second, of the latest instant at or before `rem` ns of it: the last whose start, rounded down, is reached. -/
theorem latest_spec {r rem n : Nat} (hr : 0 < r) (hrem : rem < 1000000000) (hn : n = ((rem + 1) * r - 1) / 1000000000) :
    n < r ∧ 1000000000 * n / r ≤ rem ∧ rem < 1000000000 * (n + 1) / r := by
  have hpos : 0 < (rem + 1) * r := Nat.mul_pos (by omega) hr
  have hmax : (rem + 1) * r ≤ 1000000000 * r := Nat.mul_le_mul_right r hrem
  have hlow : 1000000000 * n < (rem + 1) * r := by omega
  have hhigh : (rem + 1) * r ≤ 1000000000 * (n + 1) := by omega
  refine ⟨by omega, Nat.lt_succ_iff.1 ((Nat.div_lt_iff_lt_mul hr).2 hlow), ?_⟩
  exact (Nat.le_div_iff_mul_le hr).2 hhigh

/-- Settles O26: the latest instant is the last of its second whose start is reached, and the one after it starts later. -/
theorem reportingInstants : Obligations.ReportingInstants := by
  intro r ns sec n hr
  obtain ⟨hlt, hreached, hnext⟩ := latest_spec (rem := ns % 1000000000) hr (Nat.mod_lt _ (by decide)) rfl
  refine ⟨instT0_of_lt sec, ?_, ?_⟩
  · rw [latestInst, instT0_of_lt _ hlt]
    omega
  · rw [latestInst, Nat.add_assoc]
    by_cases hlast : ((ns % 1000000000 + 1) * r - 1) / 1000000000 + 1 < r
    · rw [instT0_of_lt _ hlast]
      omega
    · have hall : ((ns % 1000000000 + 1) * r - 1) / 1000000000 + 1 = r := by omega
      rw [hall, ← Nat.succ_mul, instT0_second hr]
      omega

/-! ## The slot write -/

section
variable (s : State) (x : Slot)

/-- A forwarded item leaves the slots as they are. -/
theorem State.seam_ndkForward : (s.ndkForward x).seam = s.seam := by
  unfold State.ndkForward
  dsimp only
  split
  · split <;> rfl
  · rfl

/-- A forwarded item counts no register but the queue's losses. -/
theorem State.rn_ndkForward {a : Nat} (ha : a ≠ Reg.NDK_TXQ_LOST_CNT) : (s.ndkForward x).rn a = s.rn a := by
  unfold State.ndkForward
  dsimp only
  split
  · split
    · exact State.rn_count_other _ ha
    · rfl
  · rfl

theorem State.slotAt_setSlotAt_same (src w : Nat) : (s.setSlotAt src w x).slotAt src w = x := Tbl.get_set_same _ _ _ _

theorem State.slotAt_setSlotAt_other {src w src' w' : Nat} (h : 8 * src' + w' ≠ 8 * src + w) :
    (s.setSlotAt src w x).slotAt src' w' = s.slotAt src' w' := Tbl.get_set_other _ _ _ _ h

end

/-- The store has one place for each way below 8 of each source. -/
theorem slotPlace_ne {src src' w w' : Nat} (hw : w < 8) (hw' : w' < 8) (h : src' ≠ src ∨ w' ≠ w) : 8 * src' + w' ≠ 8 * src + w := by omega

section
variable {s : State} {b : List Byte} {g i t0 : Nat} {it : Item} {x : Group} {m : Seam}

/-- What a source's first item makes of the slots: its own takes it. -/
theorem State.slotAt_writeItem_first (hg : s.group false g = some x) (hm : x.seamOf i = some m) (hfirst : m.present.contains it.src = false)
    (src w : Nat) : (s.writeItem false b g i it t0).slotAt src w =
      (s.setSlotAt it.src (i % 8) {
        bad := fld it.payload.qual 21 1 = 1, reinj := fld it.payload.qual 23 1 = 1, epoch := it.epoch, group := g, source := it.src
        arr := it.arr, lat := latOf it.arr t0, sec := it.sec, n := it.n, payload := it.payload }).slotAt src w := by
  simp only [State.writeItem, hg, hm, hfirst, Bool.false_eq_true, if_false, State.slotAt, State.seam_ndkForward]
  rfl

/-- A source's first item counts. -/
theorem State.rn_writeItem_first (hg : s.group false g = some x) (hm : x.seamOf i = some m) (hfirst : m.present.contains it.src = false) :
    (s.writeItem false b g i it t0).rn Reg.SEAM_ITEMS_CNT = (s.rn Reg.SEAM_ITEMS_CNT + 1) % 2 ^ 48 := by
  have hstate : Reg.SEAM_ITEMS_CNT ≠ Reg.SEAM_GRP_STATE g := by simp only [Reg.SEAM_ITEMS_CNT, Reg.SEAM_GRP_STATE]; omega
  simp only [State.writeItem, hg, hm, hfirst, Bool.false_eq_true, if_false]
  rw [State.rn_ndkForward _ _ (by decide), State.showGroup, State.rn_setReg_other _ _ hstate, State.rn_count_same]
  rfl

/-- A source's second item in one seam is a duplicate. -/
theorem State.writeItem_second (hg : s.group false g = some x) (hm : x.seamOf i = some m) (hsecond : m.present.contains it.src = true) :
    s.writeItem false b g i it t0 =
      ((s.setSlotAt it.src (i % 8) { s.slotAt it.src (i % 8) with dup := true }).count Reg.SEAM_DUP_CNT).raise 36 := by
  simp only [State.writeItem, hg, hm, hsecond, if_true]

end

/-- Settles O28, by the two cases of `writeItem`. -/
theorem slotWrite : Obligations.SlotWrite := by
  intro s b g i t0 it x m hg hm
  refine ⟨fun hfirst => ⟨?_, fun src w hw hother => ?_, State.rn_writeItem_first hg hm hfirst⟩, State.writeItem_second hg hm⟩
  · rw [State.slotAt_writeItem_first hg hm hfirst, State.slotAt_setSlotAt_same]
  · rw [State.slotAt_writeItem_first hg hm hfirst, State.slotAt_setSlotAt_other _ _ (slotPlace_ne (Nat.mod_lt _ (by decide)) hw hother)]

/-! ## Upstream frames -/

@[simp] theorem length_leBytes (n v : Nat) : (leBytes n v).length = n := by
  induction n generalizing v with
  | zero => rfl
  | succ n ih => simp [leBytes, ih]

@[simp] theorem length_beBytes (n v : Nat) : (beBytes n v).length = n := by simp [beBytes]

/-- A 16-bit number in network order. -/
theorem beBytes_two (v : Nat) : beBytes 2 v = [BitVec.ofNat 8 (v / 256), BitVec.ofNat 8 v] := rfl

/-- The 16-bit number at place `i`, where its two octets stand. -/
theorem be16_append_beBytes (p q : List Byte) (v : Nat) : be16 (p ++ beBytes 2 v ++ q) p.length = v % 2 ^ 16 := by
  have hhigh : oct (p ++ beBytes 2 v ++ q) p.length = v / 256 % 256 := by simp [oct, beBytes_two]
  have hlow : oct (p ++ beBytes 2 v ++ q) (p.length + 1) = v % 256 := by simp [oct, beBytes_two]
  rw [be16, hhigh, hlow]
  omega

section
variable (f : List Byte)

/-- What a frame holds once its checksum stands behind it. -/
theorem be16_append_checksum (v : Nat) : be16 (f ++ beBytes 2 v) ((f ++ beBytes 2 v).length - 2) = v % 2 ^ 16 := by
  have h := be16_append_beBytes f [] v
  simpa using h

theorem take_append_checksum (v : Nat) : (f ++ beBytes 2 v).take ((f ++ beBytes 2 v).length - 2) = f := by simp

end

/-- A data frame before its checksum: SYNC, FRAMESIZE, IDCODE, SOC and FRACSEC, and the body. -/
def dataFrame (id soc frac : Nat) (body : List Byte) : List Byte :=
  [0xAA, 0x02] ++ beBytes 2 (16 + body.length) ++ beBytes 2 id ++ beBytes 4 soc ++ beBytes 4 frac ++ body

section
variable (id soc frac : Nat) (body : List Byte)

theorem length_dataFrame : (dataFrame id soc frac body).length = 14 + body.length := by
  simp [dataFrame]
  omega

/-- Octets 2 and 3 of a data frame say how long it is with its checksum. -/
theorem be16_dataFrame_size (q : List Byte) : be16 (dataFrame id soc frac body ++ q) 2 = (16 + body.length) % 2 ^ 16 := by
  have h := be16_append_beBytes [0xAA, 0x02] (beBytes 2 id ++ beBytes 4 soc ++ beBytes 4 frac ++ body ++ q) (16 + body.length)
  simpa [dataFrame] using h

/-- Octets 4 and 5 of a data frame are its IDCODE. -/
theorem be16_dataFrame_id (q : List Byte) : be16 (dataFrame id soc frac body ++ q) 4 = id % 2 ^ 16 := by
  have h := be16_append_beBytes ([0xAA, 0x02] ++ beBytes 2 (16 + body.length)) (beBytes 4 soc ++ beBytes 4 frac ++ body ++ q) id
  simpa [dataFrame] using h

end

/-- A frame of the model is a data frame with its checksum. -/
theorem State.upFrame_form (s : State) (b : List Byte) (n t0 i : Nat) (vs : List (Nat × UpView)) : ∃ soc frac body,
    s.upFrame b n t0 i vs = dataFrame (fld (upWord b n 0) 16 16) soc frac body ++
      beBytes 2 (crcCcitt (dataFrame (fld (upWord b n 0) 16 16) soc frac body)).toNat :=
  ⟨_, _, _, rfl⟩

/-- What the octets of an upstream frame say. -/
theorem State.upFrame_octets (s : State) (b : List Byte) (n t0 i : Nat) (vs : List (Nat × UpView)) :
    let f := s.upFrame b n t0 i vs
    16 ≤ f.length ∧ oct f 0 = 0xAA ∧ oct f 1 = 2 ∧ (f.length < 65536 → be16 f 2 = f.length) ∧ be16 f 4 = fld (upWord b n 0) 16 16 ∧
    be16 f (f.length - 2) = (crcCcitt (f.take (f.length - 2))).toNat := by
  obtain ⟨soc, frac, body, hform⟩ := s.upFrame_form b n t0 i vs
  have hid : fld (upWord b n 0) 16 16 % 2 ^ 16 = fld (upWord b n 0) 16 16 := Nat.mod_mod _ _
  intro f
  have hf : f = _ := hform
  have hlength : f.length = 16 + body.length := by
    rw [hf, List.length_append, length_dataFrame, length_beBytes]
    omega
  refine ⟨by omega, by rw [hf]; rfl, by rw [hf]; rfl, fun hshort => ?_, ?_, ?_⟩
  · rw [hlength] at hshort ⊢
    rw [hf, be16_dataFrame_size]
    exact Nat.mod_eq_of_lt hshort
  · rw [hf, be16_dataFrame_id, hid]
  · rw [hf, be16_append_checksum, take_append_checksum, Nat.mod_eq_of_lt (BitVec.isLt _)]

section
variable {s : State} {n i : Nat} {b : List Byte}

/-- The items of stream `n` with what is known of each at `t0`. -/
def State.upViews (s : State) (b : List Byte) (n t0 : Nat) : List (Nat × UpView) := (upItems b n).map fun k => (k, s.upView b k t0)

/-- Some item of stream `n` has the view `v`. -/
def State.upHas (s : State) (b : List Byte) (n t0 : Nat) (v : UpView) : Bool := (s.upViews b n t0).any fun x => decide (x.2 = v)

/-- What a stream with a next instant does, by what its items are. -/
theorem upstreamFrameBuild_next (hnext : s.upNext n = some (b, i)) (hmeasuring : s.measuring = true) :
    upstreamFrameBuild n s =
      if s.upHas b n (instT0 (upRate b n) i) .wait then s
      else if s.upHas b n (instT0 (upRate b n) i) .discarded then (s.count Reg.DEC_UP_SKIP_CNT).setUpLast n (instT0 (upRate b n) i)
      else if s.standby || s.upHas b n (instT0 (upRate b n) i) .undecided then s.setUpLast n (instT0 (upRate b n) i)
      else
        ((s.checkUps b (instT0 (upRate b n) i) (upItems b n)).2.setUpLast n (instT0 (upRate b n) i)).upSend b n
          ((s.checkUps b (instT0 (upRate b n) i) (upItems b n)).2.upFrame b n (instT0 (upRate b n) i) i
            ((s.upViews b n (instT0 (upRate b n) i)).map fun x =>
              (x.1, x.2.without ((s.checkUps b (instT0 (upRate b n) i) (upItems b n)).1.contains (fld (upItem b x.1 1) 0 14))))) := by
  simp only [upstreamFrameBuild, hnext, hmeasuring, Bool.not_true, Bool.false_or]
  rfl

end

/-- Settles O25: the build goes by the views of the stream's items, and a frame's form is read off its octets. -/
theorem upstreamFrames : Obligations.UpstreamFrames := by
  refine ⟨fun s n errs => ⟨fun ha => .of_live rfl ha rfl, fun hnone => ?_, fun b i hnext hmeasuring => ?_⟩, State.upFrame_octets⟩
  · rw [upstreamFrameBuild, hnone]
  · rw [upstreamFrameBuild_next hnext hmeasuring]
    refine ⟨fun hwait => if_pos hwait, fun hwait hdiscarded => ?_, fun hwait hdiscarded hpassed => ?_, fun hwait hdiscarded hactive hdecided => ?_⟩
    · exact (if_neg (Bool.eq_false_iff.1 hwait)).trans (if_pos hdiscarded)
    · refine (if_neg (Bool.eq_false_iff.1 hwait)).trans ((if_neg (Bool.eq_false_iff.1 hdiscarded)).trans (if_pos ?_))
      exact Bool.or_eq_true_iff.2 hpassed
    · refine (if_neg (Bool.eq_false_iff.1 hwait)).trans ((if_neg (Bool.eq_false_iff.1 hdiscarded)).trans (if_neg ?_))
      exact Bool.eq_false_iff.1 (Bool.or_eq_false_iff.2 ⟨hactive, hdecided⟩)

end Sys2Proof.Machine
end

section
/-! PROOF. The fixed-point arithmetic of the fabric: accumulators, rounding, divide and square root (R173, R174). -/
namespace Sys2Proof.Machine
open Sys2Proof

/-! ## Accumulators -/

section
variable (s : State) (t : Nat)

@[simp] theorem State.tile_setTile_same (x : Tile) : (s.setTile t x).tile t = x := Tbl.get_set_same _ _ _ _

theorem State.tile_setTile_other {t' : Nat} (x : Tile) (h : t' ≠ t) : (s.setTile t x).tile t' = s.tile t' := Tbl.get_set_other _ _ _ _ h

/-- An accumulator reads back the value and the VOID bit it was given, where the value fits. -/
theorem State.uacc_setUacc_same {a : Nat} (ha : a < 8) {v : Int} (void : Bool) (hlow : -(2 ^ 95) ≤ v) (hhigh : v < 2 ^ 95) :
    (s.setUacc t a (v, void)).uacc t a = (v, void) := by
  have hint : (BitVec.ofInt 96 v).toInt = v := by
    rw [BitVec.toInt_ofInt]
    exact Int.bmod_eq_of_le (by simpa using hlow) (by simpa using hhigh)
  simp only [State.uacc, State.setUacc, State.tile_setTile_same, Nat.mod_eq_of_lt ha, Tbl.get_set_same, hint]

/-- The other accumulators read as before. -/
theorem State.uacc_setUacc_other {a t' b : Nat} (ha : a < 8) (v : VVal) (h : t' ≠ t ∨ b ≠ a) : (s.setUacc t a v).uacc t' b = s.uacc t' b := by
  unfold State.uacc State.setUacc
  by_cases ht : t' = t
  · subst ht
    have hb : b ≠ a % 8 := by
      rw [Nat.mod_eq_of_lt ha]
      exact h.resolve_left (fun hne => hne rfl)
    rw [State.tile_setTile_same, Tbl.get_set_other _ _ _ _ hb]
  · rw [State.tile_setTile_other _ _ _ ht]

/-- A write of an accumulator leaves what else a tile has. -/
theorem State.tile_setUacc (a : Nat) (v : VVal) (t' : Nat) :
    ((s.setUacc t a v).tile t').regs = (s.tile t').regs ∧ ((s.setUacc t a v).tile t').sram = (s.tile t').sram ∧
    ((s.setUacc t a v).tile t').store = (s.tile t').store := by
  unfold State.setUacc
  by_cases ht : t' = t
  · subst ht
    rw [State.tile_setTile_same]
    exact ⟨rfl, rfl, rfl⟩
  · rw [State.tile_setTile_other _ _ _ ht]
    exact ⟨rfl, rfl, rfl⟩

end

section
variable (s : State) (x : Fire) (a : Nat) {v : Int} (w : Bool)

/-- A sum within 96 bits is held as it is. -/
theorem State.accumulate_within (hlow : -(2 ^ 95) ≤ v) (hhigh : v < 2 ^ 95) : s.accumulate x a v w = s.setUacc x.tile a (v, w) := by
  have hin : ¬ (v < -(2 ^ 95) ∨ 2 ^ 95 - 1 < v) := by omega
  have hclamp : clampS 96 v = v := by simp only [clampS]; omega
  simp only [State.accumulate, Bool.or_eq_true, decide_eq_true_eq, if_neg hin, hclamp]

/-- A sum outside 96 bits is held at the bound and counts. -/
theorem State.accumulate_beyond {bound : Int} (hout : v < -(2 ^ 95) ∨ 2 ^ 95 - 1 < v) (hclamp : clampS 96 v = bound) :
    s.accumulate x a v w = (s.count Reg.FAB_ACC_SAT_CNT).setUacc x.tile a (bound, w) := by
  simp only [State.accumulate, Bool.or_eq_true, decide_eq_true_eq, if_pos hout, hclamp]

end

/-- An accumulator given an exact sum. -/
theorem State.accumulate_spec (s : State) (x : Fire) (a : Nat) (v : Int) (w : Bool) (ha : a < 8) :
    let t := s.accumulate x a v w
    (-(2 ^ 95) ≤ v → v < 2 ^ 95 → t.uacc x.tile a = (v, w) ∧ t.rn Reg.FAB_ACC_SAT_CNT = s.rn Reg.FAB_ACC_SAT_CNT) ∧
    (2 ^ 95 ≤ v → t.uacc x.tile a = (2 ^ 95 - 1, w) ∧ t.rn Reg.FAB_ACC_SAT_CNT = (s.rn Reg.FAB_ACC_SAT_CNT + 1) % 2 ^ 48) ∧
    (v < -(2 ^ 95) → t.uacc x.tile a = (-(2 ^ 95), w) ∧ t.rn Reg.FAB_ACC_SAT_CNT = (s.rn Reg.FAB_ACC_SAT_CNT + 1) % 2 ^ 48) ∧
    (∀ tile b, tile ≠ x.tile ∨ (b < 8 ∧ b ≠ a) → t.uacc tile b = s.uacc tile b) ∧
    (∀ tile, (t.tile tile).regs = (s.tile tile).regs ∧ (t.tile tile).sram = (s.tile tile).sram ∧ (t.tile tile).store = (s.tile tile).store) := by
  refine ⟨fun hlow hhigh => ?_, fun hhigh => ?_, fun hlow => ?_, fun tile b hother => ?_, fun tile => ?_⟩
  · rw [s.accumulate_within x a w hlow hhigh]
    exact ⟨s.uacc_setUacc_same _ ha w hlow hhigh, rfl⟩
  · rw [s.accumulate_beyond x a w (bound := 2 ^ 95 - 1) (by omega) (by simp only [clampS]; omega)]
    exact ⟨State.uacc_setUacc_same _ _ ha w (by decide) (by decide), State.rn_count_same _ _⟩
  · rw [s.accumulate_beyond x a w (bound := -(2 ^ 95)) (by omega) (by simp only [clampS]; omega)]
    exact ⟨State.uacc_setUacc_same _ _ ha w (by decide) (by decide), State.rn_count_same _ _⟩
  · refine (State.uacc_setUacc_other _ _ ha _ (hother.imp_right And.right)).trans ?_
    split <;> rfl
  · rw [State.accumulate]
    split
    · exact State.tile_setUacc _ _ _ _ _
    · exact State.tile_setUacc _ _ _ _ _

/-! ## Rounding -/

section
variable (n : Int) {d : Nat}

/-- Rounding half to even stays within half a unit. -/
theorem rhe_near (hd : 0 < d) : 2 * (rhe n d * d - n) ≤ d ∧ 2 * (n - rhe n d * d) ≤ d := by
  have hdiv := Int.emod_add_mul_ediv n d
  have hpos := Int.emod_nonneg n (b := (d : Int)) (by omega)
  have hlt := Int.emod_lt_of_pos n (b := (d : Int)) (by omega)
  rw [Int.mul_comm] at hdiv
  have hnext : (n / d + 1) * d = n / d * d + d := by rw [Int.add_mul, Int.one_mul]
  unfold rhe
  dsimp only
  split
  · omega
  · split
    · rw [hnext]; omega
    · split
      · omega
      · rw [hnext]; omega

/-- Rounding half away from zero stays within half a unit. -/
theorem roundDiv_near (hd : 0 < d) : 2 * (roundDiv n d * d - n) ≤ d ∧ 2 * (n - roundDiv n d * d) ≤ d := by
  have hfloor : ∀ m : Int, 2 * ((2 * m + d) / (2 * d) * d - m) ≤ d ∧ 2 * (m - (2 * m + d) / (2 * d) * d) ≤ d := by
    intro m
    have hdiv := Int.emod_add_mul_ediv (2 * m + d) (2 * d)
    have hpos := Int.emod_nonneg (2 * m + d) (b := (2 * d : Int)) (by omega)
    have hlt := Int.emod_lt_of_pos (2 * m + d) (b := (2 * d : Int)) (by omega)
    have hmul : (2 * d : Int) * ((2 * m + d) / (2 * d)) = 2 * ((2 * m + d) / (2 * d) * d) := by
      rw [Int.mul_assoc, Int.mul_comm (d : Int)]
    omega
  unfold roundDiv
  split
  · have h := hfloor (-n)
    rw [Int.neg_mul]
    omega
  · exact hfloor n

/-- Rounding toward minus infinity stays below, within a unit. -/
theorem floor_near (hd : 0 < d) : n / d * d ≤ n ∧ n - n / d * d < d := by
  have hdiv := Int.emod_add_mul_ediv n d
  have hpos := Int.emod_nonneg n (b := (d : Int)) (by omega)
  have hlt := Int.emod_lt_of_pos n (b := (d : Int)) (by omega)
  rw [Int.mul_comm] at hdiv
  omega

/-- Rounding toward zero does not grow the magnitude. -/
theorem natAbs_tdiv_mul_le : (Int.tdiv n d).natAbs * d ≤ n.natAbs := by
  rw [Int.natAbs_tdiv, Int.natAbs_natCast]
  exact Nat.div_mul_le_self _ _

/-- Rounding toward zero stays within a unit. -/
theorem tdiv_near (hd : 0 < d) : Int.tdiv n d * d - n < d ∧ n - Int.tdiv n d * d < d := by
  have hdiv := Int.tmod_add_mul_tdiv n d
  have hlow := Int.lt_tmod_of_pos n (b := (d : Int)) (by omega)
  have hhigh := Int.tmod_lt_of_pos n (b := (d : Int)) (by omega)
  rw [Int.mul_comm] at hdiv
  omega

/-- Rounding to the nearest: RND 0, and 3 and above. -/
theorem rnd_nearest {mode : Nat} (hd : 0 < d) (hmode : mode = 0 ∨ 3 ≤ mode) : 2 * (rnd mode n d * d - n) ≤ d ∧ 2 * (n - rnd mode n d * d) ≤ d := by
  match mode, hmode with
  | 0, _ => exact rhe_near n hd
  | 1, h => omega
  | 2, h => omega
  | k + 3, _ => exact roundDiv_near n hd

/-- Every rounding stays within a unit. -/
theorem rnd_near (mode : Nat) (hd : 0 < d) : rnd mode n d * d - n < d ∧ n - rnd mode n d * d < d := by
  match mode with
  | 0 => have h := rhe_near n hd; simp only [rnd]; omega
  | 1 => have h := floor_near n hd; simp only [rnd]; omega
  | 2 => exact tdiv_near n hd
  | k + 3 => have h := roundDiv_near n hd; simp only [rnd]; omega

end

/-! ## Extraction -/

/-- Saturation shows wherever it changes the value. -/
theorem over39_iff (q : Int) : over39 q = true ↔ sat39 q ≠ q := by
  have hmax : max39 = 2 ^ 39 - 1 := rfl
  rw [over39, sat39, Bool.or_eq_true, decide_eq_true_eq, decide_eq_true_eq]
  omega

/-- A number taken modulo 2^40 as a signed one. -/
theorem sInt_uNat_forty (q : Int) : -(2 ^ 39) ≤ sInt 40 (uNat 40 q) ∧ sInt 40 (uNat 40 q) < 2 ^ 39 ∧ (sInt 40 (uNat 40 q) - q) % 2 ^ 40 = 0 := by
  have hcases : sInt 40 (uNat 40 q) = q % 2 ^ 40 ∧ q % 2 ^ 40 < 2 ^ 39 ∨ sInt 40 (uNat 40 q) = q % 2 ^ 40 - 2 ^ 40 ∧ 2 ^ 39 ≤ q % 2 ^ 40 := by
    unfold sInt uNat
    split
    · left; omega
    · right; omega
  omega

/-- Wrapping shows wherever it changes the value. -/
theorem wrap40_iff (q : Int) : (q < -(2 ^ 39) ∨ 2 ^ 39 - 1 < q) ↔ sInt 40 (uNat 40 q) ≠ q := by
  have h := sInt_uNat_forty q
  omega

/-! ## Divide -/

/-- A rounded quotient by a negative divisor is that of the negated pair. -/
theorem divFix_zero_eq (sh : Nat) {a b : Int} (hb : b ≠ 0) : ∃ q : Int, 2 * (q * b - a * (2 ^ sh : Nat)).natAbs ≤ b.natAbs ∧
    divFix 0 sh a b = (max (-(2 ^ 39 - 1)) (min (2 ^ 39 - 1) q), false) := by
  refine ⟨if 0 < b then rnd 0 (a * (2 ^ sh : Nat)) b.toNat else rnd 0 (-(a * (2 ^ sh : Nat))) (-b).toNat, ?_, ?_⟩
  · split
    · next hpos =>
      have hnear := rhe_near (a * (2 ^ sh : Nat)) (d := b.toNat) (by omega)
      have hcast : (b.toNat : Int) = b := by omega
      rw [hcast] at hnear
      simp only [rnd]
      omega
    · next hneg =>
      have hnear := rhe_near (-(a * (2 ^ sh : Nat))) (d := (-b).toNat) (by omega)
      have hcast : ((-b).toNat : Int) = -b := by omega
      rw [hcast, Int.mul_neg] at hnear
      simp only [rnd]
      omega
  · rw [divFix, if_neg hb]
    rfl

/-! ## Square root -/

/-- The search bit by bit ends at the integer square root. -/
theorem isqrtFrom_spec (v : Nat) (k r0 : Nat) (hlow : r0 * r0 ≤ v) (hhigh : v < (r0 + 2 ^ k) * (r0 + 2 ^ k)) :
    isqrtFrom v r0 k * isqrtFrom v r0 k ≤ v ∧ v < (isqrtFrom v r0 k + 1) * (isqrtFrom v r0 k + 1) := by
  induction k generalizing r0 with
  | zero => exact ⟨hlow, hhigh⟩
  | succ k ih =>
    rw [isqrtFrom]
    split
    · next hle =>
      refine ih _ hle ?_
      rw [Nat.add_assoc, ← Nat.two_mul, ← Nat.pow_succ']
      exact hhigh
    · next hgt => exact ih _ hlow (by omega)

theorem isqrt_spec {v : Nat} (hv : v < 2 ^ 192) : isqrt v * isqrt v ≤ v ∧ v < (isqrt v + 1) * (isqrt v + 1) :=
  isqrtFrom_spec v 96 0 (Nat.zero_le _) (by simpa using hv)

/-- SQRT rounded down, of a value that is not negative. -/
theorem sqrtFix_floor {mode sh : Nat} {a : Int} (hmode : mode = 1 ∨ mode = 2) (ha : 0 ≤ a) :
    sqrtFix mode sh a = (min (2 ^ 39 - 1) (isqrt (a.toNat * 2 ^ sh) : Int), false) := by
  have hdown : sqrtRnd mode (a.toNat * 2 ^ sh) = isqrt (a.toNat * 2 ^ sh) := by
    obtain rfl | rfl := hmode <;> simp [sqrtRnd]
  rw [sqrtFix, if_neg (Int.not_lt.2 ha), hdown]
  simp only [sat39, max39]
  congr 1
  omega

/-- Settles O33: each rounding is bounded by the remainder of its division, and the root by the bits of its search. -/
theorem fixedPointResults : Obligations.FixedPointResults := by
  refine ⟨State.accumulate_spec, fun mode sh v => ?_, fun sh a b => ?_⟩
  · have hd : 0 < 2 ^ sh := Nat.two_pow_pos sh
    intro q d
    refine ⟨rnd_near v mode hd, rnd_nearest v hd, ?_, ?_, rfl, over39_iff q, sInt_uNat_forty q, ?_⟩
    · rintro rfl
      exact (floor_near v hd).1
    · rintro rfl
      exact natAbs_tdiv_mul_le v
    · simp only [extract, Bool.false_eq_true, if_false, Bool.or_eq_true, decide_eq_true_eq]
      exact wrap40_iff q
  · refine ⟨divFix_zero_eq sh, fun mode => ⟨fun ha => ?_, fun ha => ?_⟩, fun mode hmode ha hv => ?_, fun mode ha => ?_⟩
    · rw [divFix, if_pos rfl, if_pos ha]
      rfl
    · rw [divFix, if_pos rfl, if_neg (Int.not_le.2 ha)]
      rfl
    · obtain ⟨hlow, hhigh⟩ := isqrt_spec hv
      exact ⟨_, hlow, hhigh, sqrtFix_floor hmode ha⟩
    · rw [sqrtFix, if_pos ha]

end Sys2Proof.Machine
end

section
/-! PROOF. The alarm classes (R282). -/
namespace Sys2Proof.Machine
open Sys2Proof

theorem Reg.almClass_inj {c d : Nat} (h : d ≠ c) : Reg.ALM_CLASS d ≠ Reg.ALM_CLASS c := by
  simp only [Reg.ALM_CLASS]
  omega

/-- A change of class `c`'s STATE field: its count field and the other classes' registers stand. -/
structure ClassCountKept (c : Nat) (s t : State) : Prop where
  count : t.rf (Reg.ALM_CLASS c) 2 18 = s.rf (Reg.ALM_CLASS c) 2 18
  others : ∀ d, d < 256 → d ≠ c → t.rn (Reg.ALM_CLASS d) = s.rn (Reg.ALM_CLASS d)

section
variable (s : State) (b : List Byte) (c : Nat)

theorem ClassCountKept.refl : ClassCountKept c s s := ⟨rfl, fun _ _ _ => rfl⟩

theorem ClassCountKept.trans {s t u : State} {c : Nat} (h : ClassCountKept c s t) (h' : ClassCountKept c t u) : ClassCountKept c s u :=
  ⟨h'.count.trans h.count, fun d hd hne => (h'.others d hd hne).trans (h.others d hd hne)⟩

theorem State.countKept_setState (v : Nat) : ClassCountKept c s (s.setF (Reg.ALM_CLASS c) 0 2 v) :=
  ⟨s.rf_setF_above _ _ (by decide) (by decide), fun _ _ hne => s.rn_setF_other _ _ _ (Reg.almClass_inj hne)⟩

theorem State.countKept_almHold : ClassCountKept c s (s.almHold b c) := ⟨rfl, fun _ _ _ => rfl⟩

@[simp] theorem State.clsState_setState (v : Nat) : (s.setF (Reg.ALM_CLASS c) 0 2 v).clsState c = v % 2 ^ 2 := s.rf_setF_same _ _ (by decide)

@[simp] theorem State.clsState_setCount (v : Nat) : (s.setF (Reg.ALM_CLASS c) 2 18 v).clsState c = s.clsState c :=
  s.rf_setF_below _ _ (by decide) (by decide)

@[simp] theorem State.clsState_almHold : (s.almHold b c).clsState c = s.clsState c := rfl

@[simp] theorem State.rn_almHold (a : Nat) : (s.almHold b c).rn a = s.rn a := rfl

@[simp] theorem State.rn_setAlmClass (x : AlmClass) (a : Nat) : (s.setAlmClass c x).rn a = s.rn a := rfl

@[simp] theorem State.almClass_setF (a lo len v : Nat) : (s.setF a lo len v).almClass c = s.almClass c := rfl

@[simp] theorem State.almClass_setAlmClass (x : AlmClass) : (s.setAlmClass c x).almClass c = x := Tbl.get_set_same _ _ _ _

theorem State.holdEnd_almHold : ((s.almHold b c).almClass c).holdEnd = s.time.ticks + 250000 * fld (classRec b c 1) 0 16 := by
  simp [State.almHold]

end

section
variable (s : State) {c : Nat} (up : Bool)

/-- An ASSERT or a RELEASE changes no class register. -/
theorem State.rn_almChange_class (c : Nat) {d : Nat} (hd : d < 256) : (s.almChange c up).rn (Reg.ALM_CLASS d) = s.rn (Reg.ALM_CLASS d) := by
  have hraise : Reg.ALM_CLASS d < 0x1800040 := by simp only [Reg.ALM_CLASS]; omega
  have hcount : Reg.ALM_CLASS d ≠ if up then Reg.ALM_ASSERT_CNT else Reg.ALM_RELEASE_CNT := by
    simp only [Reg.ALM_CLASS, Reg.ALM_ASSERT_CNT, Reg.ALM_RELEASE_CNT]
    split <;> omega
  rw [State.almChange, State.rn_setAlmClass, State.rn_raise_other _ _ hraise, State.rn_count_other _ hcount]

theorem State.countKept_almChange (hc : c < 256) : ClassCountKept c s (s.almChange c up) :=
  ⟨State.rf_congr (s.rn_almChange_class up c hc) _ _, fun _ hd _ => s.rn_almChange_class up c hd⟩

theorem State.clsState_almChange (hc : c < 256) : (s.almChange c up).clsState c = s.clsState c :=
  State.rf_congr (s.rn_almChange_class up c hc) _ _

/-- A change counts. -/
theorem State.rn_almChange_count (c : Nat) : (s.almChange c up).rn (if up then Reg.ALM_ASSERT_CNT else Reg.ALM_RELEASE_CNT) =
    (s.rn (if up then Reg.ALM_ASSERT_CNT else Reg.ALM_RELEASE_CNT) + 1) % 2 ^ 48 := by
  have hlow : (if up then Reg.ALM_ASSERT_CNT else Reg.ALM_RELEASE_CNT) < 0x1800040 := by split <;> decide
  rw [State.almChange, State.rn_setAlmClass, State.rn_raise_other _ _ hlow, State.rn_count_same]

/-- A change leaves the hold timer. -/
theorem State.holdEnd_almChange (c : Nat) : ((s.almChange c up).almClass c).holdEnd = (s.almClass c).holdEnd := by
  simp only [State.almChange, State.almClass_setAlmClass]

end

/-- A register below or above the classes' keeps its value while class `c`'s is written. -/
theorem State.rn_setClass (s : State) (c : Nat) {a : Nat} (lo len v : Nat) (ha : a < 0xe00400) : (s.setF (Reg.ALM_CLASS c) lo len v).rn a = s.rn a :=
  s.rn_setF_other _ _ _ (by simp only [Reg.ALM_CLASS]; omega)

section
variable (s : State) (b : List Byte) {c : Nat}

theorem State.countKept_almExpire (hc : c < 256) : ClassCountKept c s (s.almExpire b c).1 := by
  unfold State.almExpire
  split
  · exact s.countKept_setState c 3
  · exact (s.countKept_setState c 0).trans (State.countKept_almChange _ _ hc)

/-- A class in IDLE judged, once its count stands. -/
theorem State.almJudge_of_idle (h : s.clsState c = 0) : s.almJudge b c =
    let u := s.setF (Reg.ALM_CLASS c) 2 18 (s.almClass c).count
    if 0 < (s.almClass c).count then ((u.setF (Reg.ALM_CLASS c) 0 2 1).almHold b c).almChange c true else u := by
  simp only [State.almJudge, State.clsState_setCount, h]

/-- A class that is ON judged. -/
theorem State.almJudge_of_on (h : s.clsState c = 1) : s.almJudge b c =
    let u := s.setF (Reg.ALM_CLASS c) 2 18 (s.almClass c).count
    if (s.almClass c).count = 0 then
      if u.time.ticks ≤ (u.almClass c).holdEnd then u.setF (Reg.ALM_CLASS c) 0 2 2 else (u.almExpire b c).1
    else u := by
  simp only [State.almJudge, State.clsState_setCount, h]

/-- A class in HOLD judged. -/
theorem State.almJudge_of_hold (h : s.clsState c = 2) : s.almJudge b c =
    let u := s.setF (Reg.ALM_CLASS c) 2 18 (s.almClass c).count
    if 0 < (s.almClass c).count then u.setF (Reg.ALM_CLASS c) 0 2 1 else u := by
  simp only [State.almJudge, State.clsState_setCount, h]

/-- A class in LATCH judged. -/
theorem State.almJudge_of_latch (h : s.clsState c = 3) : s.almJudge b c =
    let u := s.setF (Reg.ALM_CLASS c) 2 18 (s.almClass c).count
    if 0 < (s.almClass c).count then (u.setF (Reg.ALM_CLASS c) 0 2 1).almHold b c else u := by
  simp only [State.almJudge, State.clsState_setCount, h]

/-- A class is in one of the four states. -/
theorem State.clsState_cases (c : Nat) : s.clsState c = 0 ∨ s.clsState c = 1 ∨ s.clsState c = 2 ∨ s.clsState c = 3 := by
  have h : s.clsState c < 2 ^ 2 := Nat.mod_lt _ (by decide)
  omega

/-- Whatever the state, a judgement leaves the count it wrote. -/
theorem State.countKept_almJudge (hc : c < 256) :
    ClassCountKept c (s.setF (Reg.ALM_CLASS c) 2 18 (s.almClass c).count) (s.almJudge b c) := by
  obtain h | h | h | h := s.clsState_cases c
  · rw [s.almJudge_of_idle b h]
    dsimp only
    split
    · exact ((State.countKept_setState _ c 1).trans (State.countKept_almHold _ b c)).trans (State.countKept_almChange _ _ hc)
    · exact ClassCountKept.refl _ c
  · rw [s.almJudge_of_on b h]
    dsimp only
    split
    · split
      · exact State.countKept_setState _ c 2
      · exact State.countKept_almExpire _ b hc
    · exact ClassCountKept.refl _ c
  · rw [s.almJudge_of_hold b h]
    dsimp only
    split
    · exact State.countKept_setState _ c 1
    · exact ClassCountKept.refl _ c
  · rw [s.almJudge_of_latch b h]
    dsimp only
    split
    · exact (State.countKept_setState _ c 1).trans (State.countKept_almHold _ b c)
    · exact ClassCountKept.refl _ c

/-- From IDLE to ON: the timer starts and an ASSERT counts. -/
theorem State.almJudge_assert (hc : c < 256) (hidle : s.clsState c = 0) (hn : 0 < (s.almClass c).count) :
    (s.almJudge b c).clsState c = 1 ∧
    ((s.almJudge b c).almClass c).holdEnd = s.time.ticks + 250000 * fld (classRec b c 1) 0 16 ∧
    (s.almJudge b c).rn Reg.ALM_ASSERT_CNT = (s.rn Reg.ALM_ASSERT_CNT + 1) % 2 ^ 48 := by
  rw [s.almJudge_of_idle b hidle]
  dsimp only
  rw [if_pos hn]
  refine ⟨?_, ?_, (State.rn_almChange_count _ true c).trans ?_⟩
  · rw [State.clsState_almChange _ _ hc, State.clsState_almHold, State.clsState_setState, Nat.mod_eq_of_lt (by decide)]
  · rw [State.holdEnd_almChange, State.holdEnd_almHold, State.setF_time, State.setF_time]
  · rw [if_pos rfl, State.rn_almHold, State.rn_setClass _ c _ _ _ (by decide), State.rn_setClass _ c _ _ _ (by decide)]

/-- From ON to IDLE: a RELEASE counts. -/
theorem State.almJudge_release (hc : c < 256) (hon : s.clsState c = 1) (hn : (s.almClass c).count = 0)
    (hended : (s.almClass c).holdEnd < s.time.ticks) (hlatch : ¬ fld (classRec b c 0) 8 1 = 1) :
    (s.almJudge b c).clsState c = 0 ∧ (s.almJudge b c).rn Reg.ALM_RELEASE_CNT = (s.rn Reg.ALM_RELEASE_CNT + 1) % 2 ^ 48 := by
  rw [s.almJudge_of_on b hon]
  dsimp only
  rw [if_pos hn, State.setF_time, State.almClass_setF, if_neg (Nat.not_le.2 hended), State.almExpire, if_neg hlatch]
  refine ⟨?_, (State.rn_almChange_count _ false c).trans ?_⟩
  · rw [State.clsState_almChange _ _ hc, State.clsState_setState, Nat.zero_mod]
  · rw [if_neg Bool.false_ne_true, State.rn_setClass _ c _ _ _ (by decide), State.rn_setClass _ c _ _ _ (by decide)]

/-- From ON to LATCH. -/
theorem State.almJudge_latch (hon : s.clsState c = 1) (hn : (s.almClass c).count = 0)
    (hended : (s.almClass c).holdEnd < s.time.ticks) (hlatch : fld (classRec b c 0) 8 1 = 1) : (s.almJudge b c).clsState c = 3 := by
  rw [s.almJudge_of_on b hon]
  dsimp only
  rw [if_pos hn, State.setF_time, State.almClass_setF, if_neg (Nat.not_le.2 hended), State.almExpire, if_pos hlatch]
  exact State.clsState_setState _ _ _

/-- From ON to HOLD, while the timer runs. -/
theorem State.almJudge_hold (hon : s.clsState c = 1) (hn : (s.almClass c).count = 0)
    (hruns : ¬ (s.almClass c).holdEnd < s.time.ticks) : (s.almJudge b c).clsState c = 2 := by
  rw [s.almJudge_of_on b hon]
  dsimp only
  rw [if_pos hn, State.setF_time, State.almClass_setF, if_pos (Nat.not_lt.1 hruns)]
  exact State.clsState_setState _ _ _

/-- From HOLD back to ON. -/
theorem State.almJudge_return (hhold : s.clsState c = 2) (hn : 0 < (s.almClass c).count) : (s.almJudge b c).clsState c = 1 := by
  rw [s.almJudge_of_hold b hhold]
  dsimp only
  rw [if_pos hn]
  exact State.clsState_setState _ _ _

/-- From LATCH back to ON: the timer starts again. -/
theorem State.almJudge_relatch (hlatched : s.clsState c = 3) (hn : 0 < (s.almClass c).count) : (s.almJudge b c).clsState c = 1 ∧
    ((s.almJudge b c).almClass c).holdEnd = s.time.ticks + 250000 * fld (classRec b c 1) 0 16 := by
  rw [s.almJudge_of_latch b hlatched]
  dsimp only
  rw [if_pos hn]
  rw [State.clsState_almHold, State.clsState_setState, State.holdEnd_almHold, State.setF_time, State.setF_time]
  exact ⟨Nat.mod_eq_of_lt (by decide), rfl⟩

/-- With count zero a class that is not ON keeps its state. -/
theorem State.almJudge_rest (hoff : s.clsState c ≠ 1) (hn : (s.almClass c).count = 0) : (s.almJudge b c).clsState c = s.clsState c := by
  obtain h | h | h | h := s.clsState_cases c
  · rw [s.almJudge_of_idle b h, hn]
    exact State.clsState_setCount _ _ _
  · exact absurd h hoff
  · rw [s.almJudge_of_hold b h, hn]
    exact State.clsState_setCount _ _ _
  · rw [s.almJudge_of_latch b h, hn]
    exact State.clsState_setCount _ _ _

/-- With a count a class that is ON stays so. -/
theorem State.almJudge_stays (hon : s.clsState c = 1) (hn : 0 < (s.almClass c).count) : (s.almJudge b c).clsState c = 1 := by
  rw [s.almJudge_of_on b hon]
  dsimp only
  rw [if_neg (by omega), State.clsState_setCount, hon]

end

/-- Settles O38, a lemma for each transition of R282. -/
theorem alarmClassStates : Obligations.AlarmClassStates := by
  intro s b c hc
  obtain ⟨hcount, hothers⟩ := s.countKept_almJudge b hc
  refine ⟨hcount.trans (s.rf_setF_same _ _ (by decide)), fun d hd hne => (hothers d hd hne).trans ?_, s.almJudge_assert b hc,
    s.almJudge_hold b, s.almJudge_latch b, s.almJudge_release b hc, s.almJudge_return b, s.almJudge_relatch b, s.almJudge_rest b,
    s.almJudge_stays b⟩
  exact s.rn_setF_other _ _ _ (Reg.almClass_inj hne)

end Sys2Proof.Machine
end

section
/-! PROOF. The reception of a frame (R89 to R91). -/
namespace Sys2Proof.Machine
open Sys2Proof

/-! ## The count of a frame, and what it leaves -/

section
variable (s : State) (p : Nat)

/-- The counter of a frame's condition stands among the ports' registers. -/
theorem State.rn_countRx_below (n : Nat) (c : RxCond) {a : Nat} (ha : a < 0x200000) : (s.countRx p n c).rn a = s.rn a := by
  have hne : ∀ b, 0x200000 ≤ b → a ≠ b := fun b hb => by omega
  unfold State.countRx
  split
  · exact s.rn_count_other (hne _ (by simp only [Reg.ETH_RX_FRAGMENT]; omega))
  · split
    · exact s.rn_count_other (hne _ (by simp only [Reg.ETH_RX_RUNT]; omega))
    · split
      · exact s.rn_count_other (hne _ (by simp only [Reg.ETH_RX_OVERSIZE]; omega))
      · split
        · exact (State.rn_raise_other _ _ (by omega)).trans (s.rn_count_other (hne _ (by simp only [Reg.ETH_RX_PHY_ERR]; omega)))
        · split
          · exact (State.rn_raise_other _ _ (by omega)).trans (s.rn_count_other (hne _ (by simp only [Reg.ETH_RX_FCS_ERR]; omega)))
          · exact (State.rn_setReg_other _ _ (hne _ (by simp only [Reg.ETH_RX_OCTETS]; omega))).trans
              (s.rn_count_other (hne _ (by simp only [Reg.ETH_RX_FRAMES]; omega)))

/-- A count with its event changes registers alone. -/
theorem State.countRaise_keeps (a n : Nat) : ((s.count a).raise n).img = s.img ∧ ((s.count a).raise n).pwr = s.pwr :=
  ⟨(State.raise_img _ _).trans (State.count_img _ _), (State.raise_pwr _ _).trans (State.count_pwr _ _)⟩

/-- A frame's count changes registers alone. -/
theorem State.countRx_keeps (n : Nat) (c : RxCond) :
    (s.countRx p n c).img = s.img ∧ (s.countRx p n c).pwr = s.pwr := by
  have hcount : ∀ a, (s.count a).img = s.img ∧ (s.count a).pwr = s.pwr := fun a => ⟨State.count_img _ _, State.count_pwr _ _⟩
  unfold State.countRx
  split
  · exact hcount _
  · split
    · exact hcount _
    · split
      · exact hcount _
      · split
        · exact s.countRaise_keeps _ _
        · split
          · exact s.countRaise_keeps _ _
          · exact ⟨(State.countBy_img _ _ _).trans (State.count_img _ _), (State.countBy_pwr _ _ _).trans (State.count_pwr _ _)⟩

/-- The end of a port's silence shows in its pair's status register alone. -/
theorem State.rctSeen_keeps (f : List Byte) (q : Parsed) : (s.rctSeen p f q).img = s.img ∧ (s.rctSeen p f q).pwr = s.pwr ∧
    ∀ a, a < 0x200000 → (s.rctSeen p f q).rn a = s.rn a := by
  unfold State.rctSeen
  split
  · refine ⟨State.setF_img _ _ _ _ _, State.setF_pwr _ _ _ _ _, fun a ha => State.rn_setF_other _ _ _ _ ?_⟩
    simp only [Reg.ETH_PRP_STATUS]
    omega
  · exact ⟨rfl, rfl, fun _ _ => rfl⟩

/-- The frame as the checks see it: without its FCS. -/
def rxBody (rx : RxFrame) : List Byte := rx.octets.take (rx.octets.length - 4)

/-- The state once a frame's condition is counted and its trailer seen. -/
def State.counted (rx : RxFrame) : State :=
  if (s.rxCond rx).clean && !(s.classify p (rxBody rx) (parse (rxBody rx)) = .time && 512 < rx.octets.length) then
    (s.countRx p rx.octets.length (s.rxCond rx)).rctSeen p (rxBody rx) (parse (rxBody rx))
  else s.countRx p rx.octets.length (s.rxCond rx)

/-- What the later steps read of the state is as it was before the count. -/
theorem State.counted_keeps (rx : RxFrame) : (s.counted p rx).img = s.img ∧ (s.counted p rx).pwr = s.pwr ∧
    ∀ a, a < 0x200000 → (s.counted p rx).rn a = s.rn a := by
  obtain ⟨himg, hpwr⟩ := s.countRx_keeps p rx.octets.length (s.rxCond rx)
  unfold State.counted
  split
  · obtain ⟨himg', hpwr', hrn⟩ := (s.countRx p rx.octets.length (s.rxCond rx)).rctSeen_keeps p (rxBody rx) (parse (rxBody rx))
    exact ⟨himg'.trans himg, hpwr'.trans hpwr, fun a ha => (hrn a ha).trans (s.rn_countRx_below p _ _ ha)⟩
  · exact ⟨himg, hpwr, fun a ha => s.rn_countRx_below p _ _ ha⟩

end

/-- The patterns in force go by the image alone. -/
theorem State.pat_congr {s t : State} (h : t.img = s.img) (k : Nat) : t.pat k = s.pat k := by rw [State.pat, State.pat, h]

/-- PRP of a port goes by the image and the accepted features. -/
theorem State.prpOn_congr {s t : State} (himg : t.img = s.img) (hrn : ∀ a, a < 0x200000 → t.rn a = s.rn a) (p : Nat) : t.prpOn p = s.prpOn p := by
  rw [State.prpOn, State.prpOn, State.pat_congr himg, State.feat, State.feat, State.bit_congr (hrn _ (by decide))]

/-- A stop of the ingest goes by the image and the operating state. -/
theorem State.stopping_congr {s t : State} (himg : t.img = s.img) (hpwr : t.pwr = s.pwr) : t.stopping = s.stopping := by
  rw [State.stopping, State.stopping, himg, hpwr]

/-! ## The steps of a class -/

section
variable (s : State) (p : Nat) (rx : RxFrame) (f : List Byte) (q : Parsed) (c : RxCond)

/-- A frame without any condition is neither a fragment nor oversize. -/
theorem RxCond.of_clean {c : RxCond} (h : c.clean = true) : c.fragment = false ∧ c.oversize = false := by
  simp only [RxCond.clean, Bool.not_eq_true', Bool.or_eq_false_iff] at h
  obtain ⟨⟨⟨⟨hfragment, _⟩, hoversize⟩, _⟩, _⟩ := h
  exact ⟨hfragment, hoversize⟩

/-- A port out of PRP passes a frame as it is. -/
theorem State.prpStep_off (hprp : s.prpOn p = false) : s.prpStep p f q = (true, false, s) := by
  rw [State.prpStep, hprp]
  rfl

/-- A sound host-class frame is staged. -/
theorem State.rxHost_sound (ring rule : Nat) (un : Bool) (hclean : c.clean = true) (hprp : s.prpOn p = false) (hip : q.ipErr = false)
    (hl4 : q.l4Err = false) : s.rxHost p rx f q c ring rule un =
      s.stage (HostFrame.mk f ring p (rxFlags c false false un false) s.epoch rule q.vid q.tagged q.pcp (s.rxStamp p rx.skew)
        (min 65535 rx.octets.length)) := by
  obtain ⟨hfragment, hoversize⟩ := RxCond.of_clean hclean
  simp only [State.rxHost, hclean, hfragment, hoversize, hip, hl4, s.prpStep_off p f q hprp, Bool.not_true, Bool.false_and, Bool.or_self,
    Bool.false_eq_true, if_false, if_true]

/-- A measurement frame that is unsound, or comes outside RUN, is dropped. -/
theorem State.rxMeas_dropped (t r : Nat) (h : c.clean = false ∨ s.pwr.state ≠ .run ∨ s.stopping = true) :
    s.rxMeas p rx f q c t r = s.dropRx p := by
  refine if_pos ?_
  simp only [Bool.or_eq_true, Bool.not_eq_true', decide_eq_true_eq]
  exact or_assoc.2 h

/-- A sound measurement frame over UDP enters the measurement queue. -/
theorem State.rxMeas_sound (t r : Nat) (ht : t ≠ 1) (hclean : c.clean = true) (hrun : s.pwr.state = .run) (hstop : s.stopping = false)
    (hprp : s.prpOn p = false) (hfrag : q.frag = false) (hip : q.ipErr = false) (hl4 : q.l4Err = false) : s.rxMeas p rx f q c t r =
      (s.mqPush (MqFrame.mk ((f.take q.stop).drop (q.l4off + 8)) t p q.v6 q.saddr q.daddr (q.ports.getD (0, 0)).1 (q.ports.getD (0, 0)).2 0
        (s.rxStamp p rx.skew) s.epoch (HostFrame.mk f 0 p (rxFlags c false false false false) s.epoch r q.vid q.tagged q.pcp
          (s.rxStamp p rx.skew) (min 65535 rx.octets.length)))).count (Reg.ETH_RX_MEAS p) := by
  simp only [State.rxMeas, hclean, hrun, hstop, hfrag, hip, hl4, ht, s.prpStep_off p f q hprp, Bool.not_true, ne_eq, not_true_eq_false,
    decide_false, Bool.or_self, Bool.false_and, Bool.false_eq_true, if_false]

/-- A sound time-class frame that passes authentication enters the time queue. -/
theorem State.rxTime_sound (hclean : c.clean = true) (hshort : rx.octets.length ≤ 512) (hpass : (s.ptpPass f).1 = true) :
    s.rxTime p rx f c = (s.ptpPass f).2.tqPush p f ((s.ptpPass f).2.rxStamp p rx.skew) := by
  refine (if_neg (by rw [hclean]; decide)).trans ((if_neg (Nat.not_lt.2 hshort)).trans ?_)
  cases hp : s.ptpPass f with
  | mk ok v =>
    rw [hp] at hpass
    subst hpass
    rfl

/-- The count of an unmatched frame stands among the ports' registers. -/
theorem State.rn_countUnmatched {a : Nat} (ha : a < 0x200000) : (s.count (Reg.ETH_RX_UNMATCHED p)).rn a = s.rn a :=
  s.rn_count_other (by simp only [Reg.ETH_RX_UNMATCHED]; omega)

theorem State.prpOn_countUnmatched (k : Nat) : (s.count (Reg.ETH_RX_UNMATCHED p)).prpOn k = s.prpOn k :=
  State.prpOn_congr (State.count_img _ _) (fun _ ha => s.rn_countUnmatched p ha) k

/-- The count of an unmatched frame leaves the timestamp. -/
theorem State.rxStamp_countUnmatched (skew : Int) : (s.count (Reg.ETH_RX_UNMATCHED p)).rxStamp p skew = s.rxStamp p skew := by
  have hcorr : (s.count (Reg.ETH_RX_UNMATCHED p)).rn (Reg.TIME_RXCORR p) = s.rn (Reg.TIME_RXCORR p) :=
    s.rn_count_other (by simp only [Reg.ETH_RX_UNMATCHED, Reg.TIME_RXCORR]; omega)
  have hfixed : (s.count (Reg.ETH_RX_UNMATCHED p)).fixedCorr p = s.fixedCorr p := by
    rw [State.fixedCorr, State.fixedCorr, State.pat_congr (State.count_img _ _)]
  rw [State.rxStamp, State.rxStamp, hcorr, hfixed]
  rfl

/-- The count of an unmatched frame leaves the epoch. -/
theorem State.epoch_countUnmatched : (s.count (Reg.ETH_RX_UNMATCHED p)).epoch = s.epoch :=
  State.rf_congr (s.rn_countUnmatched p (by decide)) _ _

end

section
variable {s : State} {port : Fin 4} {rx : RxFrame}

/-- An open port that passes a frame's address takes it by its class. -/
theorem frameReceive_taken (hopen : s.rxOpen port.val = true) (haddr : s.addrOk port.val rx.octets = true) : frameReceive port rx s =
    let p := port.val
    let f := rxBody rx
    let q := parse f
    let c := s.rxCond rx
    let u := s.counted p rx
    match s.classify p f q with
    | .macControl => (if c.clean then u.count (Reg.ETH_RX_PAUSE p) else u).dropRx p
    | .time => u.rxTime p rx f c
    | .measurement t r => u.rxMeas p rx f q c t r
    | .host ring r => u.rxHost p rx f q c ring r false
    | .drop => u.dropRx p
    | .unmatched =>
      let v := u.count (Reg.ETH_RX_UNMATCHED p)
      if wf (v.pat 2) 0 16 1 = 1 then v.rxHost p rx f q c 0 0 true else v.dropRx p := by
  refine (if_neg (by rw [hopen]; decide)).trans ((if_neg (by rw [haddr]; decide)).trans ?_)
  rfl

/-- What a later step reads of the counted state. -/
structure Counted (s : State) (p : Nat) (u : State) : Prop where
  pat : ∀ k, u.pat k = s.pat k
  prp : u.prpOn p = s.prpOn p
  run : u.pwr = s.pwr
  stop : u.stopping = s.stopping

theorem State.counted_of (s : State) (p : Nat) (rx : RxFrame) : Counted s p (s.counted p rx) := by
  obtain ⟨himg, hpwr, hrn⟩ := s.counted_keeps p rx
  exact ⟨State.pat_congr himg, State.prpOn_congr himg hrn p, hpwr, State.stopping_congr himg hpwr⟩

end

/-- Settles O19, by the class of the frame, with a lemma for each class's sound frame. -/
theorem frameReception : Obligations.FrameReception := by
  intro s port rx errs p n f q c u host
  obtain ⟨hpat, hprpOn, hpwr, hstopping⟩ := s.counted_of p rx
  refine ⟨fun ha => .of_live rfl ha rfl, fun hclosed => ?_, fun hopen haddr => ?_, fun hopen haddr => ?_⟩
  · exact if_pos (by rw [hclosed]; decide)
  · exact (if_neg (by rw [hopen]; decide)).trans (if_pos (by rw [haddr]; decide))
  rw [frameReceive_taken hopen haddr]
  refine ⟨fun h => ?_, fun h => ?_, fun h hsound => ?_, fun h hsound hlong => ?_, fun h hsound hshort hpass => ?_, fun t r h hdropped => ?_,
    fun t r h ht hsound hrun hstop hprp hfrag hip hl4 => ?_, fun ring r h hsound hprp hip hl4 => ?_, fun h hring hsound hprp hip hl4 => ?_,
    fun h hring => ?_⟩
  all_goals
    have hclass : s.classify port.val (rxBody rx) (parse (rxBody rx)) = _ := h
    simp only [hclass]
  · rfl
  · rfl
  · exact if_pos (by rw [hsound]; decide)
  · exact (if_neg (by rw [hsound]; decide)).trans (if_pos hlong)
  · exact State.rxTime_sound _ _ _ _ _ hsound hshort hpass
  · exact State.rxMeas_dropped _ _ _ _ _ _ _ _ (by rw [hpwr, hstopping]; exact hdropped)
  · exact State.rxMeas_sound _ _ _ _ _ _ _ _ ht hsound (by rw [hpwr]; exact hrun) (hstopping.trans hstop) (hprpOn.trans hprp) hfrag hip hl4
  · exact State.rxHost_sound _ _ _ _ _ _ _ _ _ hsound (hprpOn.trans hprp) hip hl4
  · refine (if_pos ?_).trans ?_
    · exact (congrArg (fun b => wf b 0 16 1) (hpat 2)).trans hring
    · refine (State.rxHost_sound _ _ _ _ _ _ _ _ _ hsound ?_ hip hl4).trans ?_
      · exact (State.prpOn_countUnmatched _ _ _).trans (hprpOn.trans hprp)
      · rw [State.epoch_countUnmatched, State.rxStamp_countUnmatched]
        rfl
  · exact if_neg fun h => hring ((congrArg (fun b => wf b 0 16 1) (hpat 2)).symm.trans h)

end Sys2Proof.Machine
end

section
/-! PROOF. Host receive rings, the time queue's release and delayed TCP acknowledgements (R104 to R112). -/
namespace Sys2Proof.Machine
open Sys2Proof

/-! ## Starting a ring -/

section
variable (s : State) (ring : Fin 8) (w : Word)

/-- What a write of ETH_HRX_CFG holds. -/
def hrxCfg (w : Word) : Nat := w.toNat &&& 0x37F1F

theorem hrxCfg_lt (w : Word) : hrxCfg w < 2 ^ 80 := Nat.lt_of_le_of_lt Nat.and_le_right (by decide)

/-- A ring as it starts, with the configuration `v` and the base its registers give. -/
def State.hrxStarted (u : State) (r v : Nat) : HrxRing :=
  { base := u.rn (Reg.ETH_HRX_BASE_LO r) + 2 ^ 32 * u.rn (Reg.ETH_HRX_BASE_HI r), log2n := fld v 0 5, bufsz := fld v 8 7 * 256
    firmware := fld v 16 1 = 1 }

/-- As EN rises the ring starts anew. -/
theorem hrxRingEnable_start (hoff : s.bit (Reg.ETH_HRX_CFG ring.val) 17 = false) (hon : hrxCfg w / 2 ^ 17 % 2 = 1) :
    hrxRingEnable ring w s =
      let u := ((s.setReg (Reg.ETH_HRX_CFG ring.val) (hrxCfg w)).setReg (Reg.ETH_HRX_HEAD ring.val) 0).setReg (Reg.ETH_HRX_TAIL ring.val) 0
      u.setHrx ring.val (u.hrxStarted ring.val (hrxCfg w)) := by
  refine if_pos ?_
  rw [hoff, Bool.not_false, Bool.and_true, decide_eq_true_eq]
  exact hon

/-- Otherwise the register takes the value alone. -/
theorem hrxRingEnable_other (h : s.bit (Reg.ETH_HRX_CFG ring.val) 17 = true ∨ hrxCfg w / 2 ^ 17 % 2 = 0) :
    hrxRingEnable ring w s = s.setReg (Reg.ETH_HRX_CFG ring.val) (hrxCfg w) := by
  refine if_neg ?_
  rw [Bool.and_eq_true, decide_eq_true_eq, Bool.not_eq_true']
  rintro ⟨hon, hoff⟩
  obtain h | h := h
  · rw [h] at hoff
    cases hoff
  · exact Nat.zero_ne_one (h.symm.trans hon)

theorem State.hrx_setHrx_same (r : Nat) (h : HrxRing) : (s.setHrx r h).hrx r = h := Tbl.get_set_same _ _ _ _

/-- What a ring that starts holds. -/
theorem hrxRingEnable_gives (hoff : s.bit (Reg.ETH_HRX_CFG ring.val) 17 = false) (hon : hrxCfg w / 2 ^ 17 % 2 = 1) :
    let r := ring.val
    let t := hrxRingEnable ring w s
    t.rn (Reg.ETH_HRX_CFG r) = hrxCfg w ∧ t.rn (Reg.ETH_HRX_HEAD r) = 0 ∧ t.rn (Reg.ETH_HRX_TAIL r) = 0 ∧
    (t.hrx r).base = s.rn (Reg.ETH_HRX_BASE_LO r) + 2 ^ 32 * s.rn (Reg.ETH_HRX_BASE_HI r) ∧ (t.hrx r).log2n = hrxCfg w % 32 ∧
    (t.hrx r).bufsz = hrxCfg w / 2 ^ 8 % 2 ^ 7 * 256 ∧ (t.hrx r).firmware = (hrxCfg w / 2 ^ 16 % 2 = 1) ∧
    RegsBut (fun a => a = Reg.ETH_HRX_CFG r ∨ a = Reg.ETH_HRX_HEAD r ∨ a = Reg.ETH_HRX_TAIL r) s t ∧ MemKept s t := by
  intro r t
  have ht : t = _ := hrxRingEnable_start s ring w hoff hon
  have hregs : ∀ a, t.rn a = (((s.setReg (Reg.ETH_HRX_CFG r) (hrxCfg w)).setReg (Reg.ETH_HRX_HEAD r) 0).setReg (Reg.ETH_HRX_TAIL r) 0).rn a :=
    fun a => by rw [ht]; rfl
  have hne : Reg.ETH_HRX_CFG r ≠ Reg.ETH_HRX_HEAD r ∧ Reg.ETH_HRX_CFG r ≠ Reg.ETH_HRX_TAIL r ∧ Reg.ETH_HRX_HEAD r ≠ Reg.ETH_HRX_TAIL r := by
    simp only [Reg.ETH_HRX_CFG, Reg.ETH_HRX_HEAD, Reg.ETH_HRX_TAIL]
    omega
  obtain ⟨hch, hct, hht⟩ := hne
  have hothers : RegsBut (fun a => a = Reg.ETH_HRX_CFG r ∨ a = Reg.ETH_HRX_HEAD r ∨ a = Reg.ETH_HRX_TAIL r) s t := by
    intro a ha
    obtain ⟨hc, hh, htl⟩ : a ≠ Reg.ETH_HRX_CFG r ∧ a ≠ Reg.ETH_HRX_HEAD r ∧ a ≠ Reg.ETH_HRX_TAIL r := by
      simpa only [not_or] using ha
    rw [hregs, State.rn_setReg_other _ _ htl, State.rn_setReg_other _ _ hh, State.rn_setReg_other _ _ hc]
  have hring : t.hrx r = State.hrxStarted
      (((s.setReg (Reg.ETH_HRX_CFG r) (hrxCfg w)).setReg (Reg.ETH_HRX_HEAD r) 0).setReg (Reg.ETH_HRX_TAIL r) 0) r (hrxCfg w) := by
    rw [ht]
    exact State.hrx_setHrx_same _ _ _
  refine ⟨?_, ?_, ?_, ?_, ?_, ?_, ?_, hothers, ?_⟩
  · rw [hregs, State.rn_setReg_other _ _ hct, State.rn_setReg_other _ _ hch, State.rn_setReg_same, Nat.mod_eq_of_lt (hrxCfg_lt w)]
  · rw [hregs, State.rn_setReg_other _ _ hht, State.rn_setReg_same, Nat.zero_mod]
  · rw [hregs, State.rn_setReg_same, Nat.zero_mod]
  · rw [hring]
    have hlo := hothers (Reg.ETH_HRX_BASE_LO r) (by simp only [Reg.ETH_HRX_BASE_LO, Reg.ETH_HRX_CFG, Reg.ETH_HRX_HEAD, Reg.ETH_HRX_TAIL]; omega)
    have hhi := hothers (Reg.ETH_HRX_BASE_HI r) (by simp only [Reg.ETH_HRX_BASE_HI, Reg.ETH_HRX_CFG, Reg.ETH_HRX_HEAD, Reg.ETH_HRX_TAIL]; omega)
    rw [hregs] at hlo hhi
    rw [State.hrxStarted, hlo, hhi]
  · rw [hring]
    simp [State.hrxStarted, fld]
  · rw [hring]
    rfl
  · rw [hring]
    simp [State.hrxStarted, fld]
  · rw [ht]
    exact fun _ => ⟨rfl, rfl, rfl⟩

end

/-! ## The release of the time queue's head -/

section
variable (s : State) (w : Word)

/-- The head's valid bit is cleared, and the next entry is the head. -/
theorem tqPop_gives (hgo : w.getLsbD 0 = true) (hfull : 0 < s.eth.tqCount) :
    let t := tqPop w s
    t.eth.tqCount = s.eth.tqCount - 1 ∧ t.eth.tqHead = (s.eth.tqHead + 1) % 256 ∧
    (∀ a, a ≠ sramIx (s.tqAddr s.eth.tqHead + 3) → Memory.byte t.sram a = Memory.byte s.sram a) ∧ t.ddr = s.ddr ∧
    RegsBut (· = Reg.ETH_TQ_HEAD) s t := by
  intro t
  have ht : t = _ := if_pos (by
    rw [hgo, Bool.true_and, decide_eq_true_eq]
    omega)
  rw [ht]
  refine ⟨rfl, rfl, fun a ha => Memory.byte_write_other _ _ _ _ ?_, rfl, fun a ha => ?_⟩
  · simp only [List.length_singleton]
    omega
  · exact State.rn_setReg_other _ _ ha

end

/-! ## The writing of a staged frame -/

section
variable (s : State) (r : Nat) (bufs : List (BitVec 64)) (h : HostFrame)

/-- The owner of the ring is stopped: firmware outside RUN, the host without DMA. -/
def State.ringStopped : Prop := if (s.hrx r).firmware then s.pwr.state ≠ .run else s.dmaOn = false

/-- The free descriptors of the ring. -/
def State.ringFree : Nat := (s.rn (Reg.ETH_HRX_TAIL r) + 2 ^ (s.hrx r).log2n - s.rn (Reg.ETH_HRX_HEAD r)) % 2 ^ (s.hrx r).log2n

/-- The staging buffer has no part in the free descriptors. -/
theorem State.ringFree_unstage (l : List HostFrame) : ({ s.quiet with eth := { s.eth with staged := l } } : State).ringFree r =
    (s.rn (Reg.ETH_HRX_TAIL r) + 2 ^ (s.hrx r).log2n - s.rn (Reg.ETH_HRX_HEAD r)) % 2 ^ (s.hrx r).log2n := rfl

/-- A ring that writes: it is enabled and its owner runs. -/
theorem State.ringWrites_iff :
    (!s.bit (Reg.ETH_HRX_CFG r) 17 || decide (if (s.hrx r).firmware then s.pwr.state ≠ Power.run else (!s.dmaOn) = true)) = true ↔
    s.bit (Reg.ETH_HRX_CFG r) 17 = false ∨ s.ringStopped r := by
  unfold State.ringStopped
  cases (s.hrx r).firmware <;> simp

/-- On a ring that is not enabled, or whose owner is stopped. -/
theorem State.writeStaged_closed (hc : s.bit (Reg.ETH_HRX_CFG r) 17 = false ∨ s.ringStopped r) :
    s.writeStaged r bufs h = (s.count (Reg.ETH_HRX_NOBUF_CNT r)).count (Reg.ETH_RX_DROP h.port) :=
  if_pos ((s.ringWrites_iff r).2 hc)

/-- An enabled ring whose owner runs is written by its free descriptors. -/
theorem State.writeStaged_open (hon : s.bit (Reg.ETH_HRX_CFG r) 17 = true) (hrun : ¬ s.ringStopped r) : s.writeStaged r bufs h =
    if s.ringFree r = 0 then ((s.count (Reg.ETH_HRX_NOBUF_CNT r)).count (Reg.ETH_RX_DROP h.port)).raise 25
    else
      let lens := fillBufs (s.hrx r).bufsz h.octets.length (s.ringFree r) (h.octets.length + 1)
      let s1 := s.writeBufs (s.hrx r).firmware h.octets lens.1 (s.bufAddrs r bufs lens.1.length)
      if lens.2 = 0 then s1.completeFrame r h lens.1 false
      else ((if s1.errDeliv then s1.completeFrame r h lens.1 true else s1.dropRx h.port).count (Reg.ETH_HRX_TRUNC_CNT r)).raise 25 := by
  refine if_neg fun hc => ?_
  obtain hc | hc := (s.ringWrites_iff r).1 hc
  · rw [hon] at hc
    cases hc
  · exact hrun hc

/-- With no free descriptor. -/
theorem State.writeStaged_full (hon : s.bit (Reg.ETH_HRX_CFG r) 17 = true) (hrun : ¬ s.ringStopped r) (hfree : s.ringFree r = 0) :
    s.writeStaged r bufs h = ((s.count (Reg.ETH_HRX_NOBUF_CNT r)).count (Reg.ETH_RX_DROP h.port)).raise 25 := by
  rw [s.writeStaged_open r bufs h hon hrun, if_pos hfree]

/-- Into free descriptors enough. -/
theorem State.writeStaged_fits (hon : s.bit (Reg.ETH_HRX_CFG r) 17 = true) (hrun : ¬ s.ringStopped r) (hfree : 0 < s.ringFree r)
    {lens : List Nat} (hfill : fillBufs (s.hrx r).bufsz h.octets.length (s.ringFree r) (h.octets.length + 1) = (lens, 0)) :
    s.writeStaged r bufs h =
      (s.writeBufs (s.hrx r).firmware h.octets lens (s.bufAddrs r bufs lens.length)).completeFrame r h lens false := by
  rw [s.writeStaged_open r bufs h hon hrun, if_neg (Nat.ne_of_gt hfree), hfill]
  exact if_pos rfl

end

/-! ## The commands -/

section
variable (s : State)

/-- The oldest staged frame leaves the staging buffer and is written. -/
theorem hostRingWrite_some (ring : Fin 8) (bufs : List (BitVec 64)) {h : HostFrame} (hs : s.eth.staged.find? (fun h => h.ring = ring.val) = some h) :
    hostRingWrite ring bufs s = ({ s with eth := { s.eth with staged := s.eth.staged.erase h } } : State).writeStaged ring.val bufs h := by
  rw [hostRingWrite, hs]

/-- With no staged frame of the ring nothing happens. -/
theorem hostRingWrite_none (ring : Fin 8) (bufs : List (BitVec 64)) (hs : s.eth.staged.find? (fun h => h.ring = ring.val) = none) :
    hostRingWrite ring bufs s = s := by
  rw [hostRingWrite, hs]

/-- The ring's timer has run since its first completed frame. -/
theorem hrxIrqTimer_due (ring : Fin 8) (hsince : (s.hrx ring.val).since ≠ 0) (hcount : s.rf (Reg.ETH_HRX_IRQ ring.val) 0 16 ≠ 0)
    (hdue : (s.hrx ring.val).firstAt + s.rf (Reg.ETH_HRX_IRQ ring.val) 16 16 * 250 ≤ s.time.ticks) (hpend : s.bit Reg.ETH_HRX_PEND ring.val = false) :
    hrxIrqTimer ring s = (s.setF Reg.ETH_HRX_PEND ring.val 1 1).raise 24 := by
  refine if_pos ?_
  simp only [hpend, Bool.not_false, Bool.and_true, Bool.and_eq_true, decide_eq_true_eq]
  exact ⟨⟨hsince, hcount⟩, hdue⟩

/-- With no completed frame, or the ring's bit pending, nothing happens. -/
theorem hrxIrqTimer_idle (ring : Fin 8) (h : (s.hrx ring.val).since = 0 ∨ s.bit Reg.ETH_HRX_PEND ring.val = true) : hrxIrqTimer ring s = s := by
  refine if_neg ?_
  simp only [Bool.and_eq_true, decide_eq_true_eq, Bool.not_eq_true']
  rintro ⟨⟨⟨hsince, -⟩, -⟩, hpend⟩
  obtain h | h := h
  · exact hsince h
  · rw [h] at hpend
    cases hpend

/-- The connection has waited ACK_US since its first unacknowledged segment. -/
theorem tcpAckTimer_due (conn : Fin 4096) (hhw : s.conn conn.val 0 % 4 = 1) (hseg : (s.tcpHw conn.val).unacked ≠ 0)
    (hdue : (s.tcpHw conn.val).firstAt + wf (s.pat 2) 7 16 16 * 250 ≤ s.time.ticks) : tcpAckTimer conn s = s.tcpAck conn.val := by
  have hkind : fld (s.conn conn.val 0) 0 2 = 1 := by
    simp only [fld, Nat.pow_zero, Nat.div_one]
    exact hhw
  refine if_pos ?_
  simp only [Bool.and_eq_true, decide_eq_true_eq]
  exact ⟨⟨hkind, hseg⟩, hdue⟩

/-- A connection not of the hardware, or with nothing unacknowledged, sends nothing. -/
theorem tcpAckTimer_idle (conn : Fin 4096) (h : s.conn conn.val 0 % 4 ≠ 1 ∨ (s.tcpHw conn.val).unacked = 0) : tcpAckTimer conn s = s := by
  refine if_neg ?_
  simp only [Bool.and_eq_true, decide_eq_true_eq]
  rintro ⟨⟨hkind, hseg⟩, -⟩
  obtain h | h := h
  · simp only [fld, Nat.pow_zero, Nat.div_one] at hkind
    exact h hkind
  · exact hseg h

end

/-- Settles O23, a lemma for each command and case. -/
theorem hostReceiveRings : Obligations.HostReceiveRings := by
  intro s who ring w bufs conn r v
  refine ⟨fun htakes hoff hon => ?_, fun htakes hother => ?_, fun htakes => ?_, fun htakes hgo hfull => ?_, fun ha => ⟨fun hnone => ?_,
    fun h hsome => ?_, fun hsince hcount hdue hpend => ?_, fun hidle => ?_, fun hhw hseg hdue => ?_, fun hidle => ?_⟩⟩
  · exact .of_ends (.of_takes rfl htakes rfl) (hrxRingEnable_gives s.quiet ring w hoff hon)
  · exact .of_takes rfl htakes (hrxRingEnable_other s.quiet ring w hother)
  · exact .of_takes rfl htakes rfl
  · exact .of_ends (.of_takes rfl htakes rfl) (tqPop_gives s.quiet w hgo hfull)
  · exact .of_live rfl ha (hostRingWrite_none s.quiet ring bufs hnone)
  · intro u g avail stopped
    have hwrite : hostRingWrite ring bufs s.quiet = u.writeStaged r bufs h := hostRingWrite_some s.quiet ring bufs hsome
    refine ⟨fun hclosed => ?_, fun hon hrun hfree => ?_, fun hon hrun hfree lens hfill => ?_⟩
    · exact .of_live rfl ha (hwrite.trans (u.writeStaged_closed r bufs h hclosed))
    · exact .of_live rfl ha (hwrite.trans (u.writeStaged_full r bufs h hon hrun hfree))
    · have hfits := u.writeStaged_fits r bufs h hon hrun hfree (lens := lens) (by
        rw [State.ringFree_unstage]
        exact hfill)
      exact .of_live rfl ha (hwrite.trans hfits)
  · exact .of_live rfl ha (hrxIrqTimer_due s.quiet ring hsince hcount hdue hpend)
  · exact .of_live rfl ha (hrxIrqTimer_idle s.quiet ring hidle)
  · exact .of_live rfl ha (tcpAckTimer_due s.quiet conn hhw hseg hdue)
  · exact .of_live rfl ha (tcpAckTimer_idle s.quiet conn hidle)

end Sys2Proof.Machine
end

section
/-! PROOF. The decoders, reinjection, and commands to sources (R122, R127, R132, R133). -/
namespace Sys2Proof.Machine
open Sys2Proof

/-! ## The check order of a C37.118 frame -/

section
variable (s : State) (c : FrameCtx) (f : List Byte)

/-- A frame of at least 18 octets, with SYNC and of the length it says. -/
def c37Shaped : Prop := 18 ≤ f.length ∧ oct f 0 = 0xAA ∧ be16 f 2 = f.length

/-- A frame whose checksum holds. -/
def c37Summed : Prop := be16 f (f.length - 2) = (crcCcitt (f.take (f.length - 2))).toNat

variable {f}

theorem State.decC37_misshapen (h : ¬ c37Shaped f) : s.decC37 c f = s.count Reg.DEC_SHAPE_CNT := by
  refine if_pos ?_
  simp only [Bool.or_eq_true, decide_eq_true_eq]
  unfold c37Shaped at h
  omega

/-- A shaped frame goes on to its checksum. -/
theorem State.decC37_shaped (h : c37Shaped f) : ¬ (f.length < 18 || oct f 0 ≠ 0xAA || be16 f 2 ≠ f.length) = true := by
  simp only [Bool.or_eq_true, decide_eq_true_eq]
  obtain ⟨hlong, hsync, hsize⟩ := h
  omega

theorem State.decC37_unsummed (h : c37Shaped f) (hsum : ¬ c37Summed f) : s.decC37 c f = s.count Reg.DEC_CHK_ERR_CNT :=
  (if_neg (State.decC37_shaped h)).trans (if_pos hsum)

/-- A data frame past its shape and checksum goes by the stream that owns it. -/
theorem State.decC37_data (h : c37Shaped f) (hsum : c37Summed f) (hdata : oct f 1 / 16 % 8 = 0) : s.decC37 c f =
    match s.bankFor c (be16 f 4) (be32 f 6) (be32 f 10 % 2 ^ 24) with
    | none => (s.count Reg.DEC_UNKNOWN_CNT).raise 30
    | some (b, n) =>
      if fld (strWord b n 1) 0 16 ≠ f.length then s.decShape n
      else
        match frameKey (be32 f 6) (be32 f 10 % 2 ^ 24) (fld (strWord b n 2) 0 24) (fld (strWord b n 2) 24 8) (fld (strWord b n 3) 0 10) s.utcOfs with
        | none => ((s.count Reg.DEC_OFFGRID_CNT).count (Reg.DEC_STREAM_DROPS n)).raise 27
        | some key =>
          (s.decPass n).decBlocks b f n (fld (strWord b n 1) 16 14) 14 (oct f 10) (fld (strWord b n 2) 24 8) c.arr c.epoch key c.reinj
            (fld (strWord b n 0) 8 8) := by
  refine (if_neg (State.decC37_shaped h)).trans ((if_neg (not_not_intro hsum)).trans ((if_neg (not_not_intro ?_)).trans ?_))
  · exact hdata
  · rfl

end

section
variable (s : State) (err : MemErr)

/-- The context of a frame of the measurement queue. -/
def mqCtx (m : MqFrame) : FrameCtx :=
  { proto := m.target, v6 := m.v6, saddr := m.saddr, conn := m.conn, arr := m.rxts, epoch := m.epoch, reinj := false, host := some m.host }

/-- The state past the checks of the memories that the head of the queue is read from. -/
def State.mqTaken (rest : List MqFrame) : State :=
  ((({ s with eth := { s.eth with mq := rest, mqWatch := s.watchRead } } : State).checkFound 2 0).2.check 1 0 err).2

/-- The head of the measurement queue, a C37.118 frame, is decoded. -/
theorem decodeFrame_head {m : MqFrame} {rest : List MqFrame} (himg : s.img.inForce = true) (hmq : s.eth.mq = m :: rest) (htarget : m.target ≠ 2) :
    decodeFrame false err s = ((s.mqTaken err rest).decC37 (mqCtx m) m.payload).showMq := by
  have hdecode : (s.mqTaken err rest).decode (mqCtx m) m.payload = (s.mqTaken err rest).decC37 (mqCtx m) m.payload := if_neg htarget
  rw [← hdecode]
  refine (if_neg (by rw [himg]; decide)).trans ((if_neg Bool.false_ne_true).trans ?_)
  rw [hmq]
  rfl

theorem decodeFrame_unloaded (re : Bool) (himg : s.img.inForce = false) : decodeFrame re err s = s := if_pos (by rw [himg]; decide)

theorem decodeFrame_emptyQueue (hmq : s.eth.mq = []) : decodeFrame false err s = s := by
  rw [decodeFrame, hmq]
  split <;> rfl

theorem decodeFrame_noReinjection (hr : s.dec.reinj = none) : decodeFrame true err s = s := by
  rw [decodeFrame, hr]
  split <;> rfl

end

/-! ## Reinjection and the command FIFO -/

section
variable (s : State) (w : Word)

theorem reinjGo_start (hgo : w.getLsbD 31 = true) (himg : s.img.inForce = true) (hidle : s.dec.reinj = none) :
    reinjGo w s = s.startReinj (w.toNat % 4) := by
  unfold reinjGo
  rw [hgo, himg, hidle]
  rfl

theorem reinjGo_held (hgo : w.getLsbD 31 = true) (himg : s.img.inForce = true) (hbusy : s.dec.reinj.isSome = true) :
    reinjGo w s = { s with dec := { s.dec with heldGo := some (w.toNat % 4) } } := by
  unfold reinjGo
  rw [hgo, himg, hbusy]
  rfl

theorem reinjGo_ignored (hgo : w.getLsbD 31 = false) : reinjGo w s = s := by
  unfold reinjGo
  rw [hgo]
  rfl

theorem decCmd_queued (himg : s.img.inForce = true) (hroom : s.dec.cmds.length < 16) : decCmd w s =
    ({ s with dec := { s.dec with cmds := s.dec.cmds ++ [(w.toNat % 2 ^ 14, w.toNat / 2 ^ 16)] } } : State).setF Reg.DEC_CMD_STATUS 0 5
      (s.dec.cmds.length + 1) := by
  refine (if_neg (by rw [himg]; decide)).trans ((if_neg (Nat.not_le.2 hroom)).trans ?_)
  dsimp only
  rw [List.length_append]
  rfl

theorem decCmd_lost (himg : s.img.inForce = true) (hfull : 16 ≤ s.dec.cmds.length) : decCmd w s = s.count Reg.DEC_CMD_LOST_CNT :=
  (if_neg (by rw [himg]; decide)).trans (if_pos hfull)

end

section
variable (s : State) {n cmd : Nat} {rest : List (Nat × Nat)}

theorem decCmdSend_empty (h : s.dec.cmds = []) : decCmdSend s = s := by rw [decCmdSend, h]

theorem decCmdSend_early {t : Nat} (hat : s.dec.cmdAt = some t) (hearly : s.time.ticks < t + 250) : decCmdSend s = s := by
  unfold decCmdSend
  split
  · rfl
  · exact if_pos (by simp [hat, hearly])

/-- The state with the head of the command FIFO taken. -/
def State.cmdTaken (rest : List (Nat × Nat)) : State :=
  ({ s with dec := { s.dec with cmds := rest, cmdAt := some s.time.ticks } } : State).setF Reg.DEC_CMD_STATUS 0 5 rest.length

/-- The head is taken, and sent by what its stream is. -/
theorem decCmdSend_head (hcmds : s.dec.cmds = (n, cmd) :: rest) (hdue : ∀ t, s.dec.cmdAt = some t → t + 250 ≤ s.time.ticks) : decCmdSend s =
    let u := s.cmdTaken rest
    let b := u.srcNow
    if wf b 0 0 15 ≤ n then u
    else if fld (strWord b n 0) 0 2 = 2 || fld (strWord b n 0) 0 2 = 3 then u.setF Reg.DEC_CMD_STATUS 8 2 3
    else if fld (strWord b n 0) 0 2 = 1 then
      (u.setWords (Reg.DEC_CMD_BUF 0) (wordsOf (padTo 20 (u.cmdFrame (fld (strWord b n 0) 16 16) (fld (strWord b n 2) 0 24) cmd)) 5)).setF
        Reg.DEC_CMD_STATUS 8 2 2
    else if fld (strWord b n 5) 0 11 = 0x7FF then u.setF Reg.DEC_CMD_STATUS 8 2 1
    else (u.cmdUdp b n cmd).setF Reg.DEC_CMD_STATUS 8 2 0 := by
  have hready : ¬ (s.dec.cmdAt.map fun t => decide (s.time.ticks < t + 250)).getD false = true := by
    cases hat : s.dec.cmdAt with
    | none => exact Bool.false_ne_true
    | some t => simpa using hdue t hat
  unfold decCmdSend
  rw [hcmds]
  exact if_neg hready

end

/-! ## Silent streams -/

section
variable (s : State) (n : Nat)

theorem streamSilent_due (himg : s.img.inForce = true) (hn : n < wf s.srcNow 0 0 15) (hproto : fld (strWord s.srcNow n 0) 0 2 ≠ 3)
    (hresend : s.resendTicks ≠ 0) (hheard : s.bit (Reg.DEC_STREAM_FLAGS n) 0 = false)
    (hdue : max s.dec.base (Tbl.get s.dec.lastPass n 0 - 1) + s.resendTicks ≤ s.time.ticks) :
    streamSilent n s = ((s.setSilent n true).raise 31).turnOn n := by
  refine if_pos ?_
  simp only [himg, hheard, Bool.not_false, Bool.and_true, Bool.true_and, Bool.and_eq_true, decide_eq_true_eq]
  exact ⟨⟨⟨hn, hproto⟩, hresend⟩, hdue⟩

theorem streamSilent_idle (h : s.img.inForce = false ∨ s.bit (Reg.DEC_STREAM_FLAGS n) 0 = true) : streamSilent n s = s := by
  refine if_neg ?_
  obtain h | h := h <;> simp [h]

theorem commandResend_due (himg : s.img.inForce = true) (hn : n < wf s.srcNow 0 0 15) (hsilent : s.bit (Reg.DEC_STREAM_FLAGS n) 0 = true)
    (hresend : s.resendTicks ≠ 0) (hdue : Tbl.get s.dec.lastResend n 0 + s.resendTicks ≤ s.time.ticks + 1) : commandResend n s = s.turnOn n := by
  refine if_pos ?_
  simp only [himg, hsilent, Bool.and_true, Bool.true_and, Bool.and_eq_true, decide_eq_true_eq]
  exact ⟨⟨hn, hresend⟩, hdue⟩

theorem commandResend_idle (h : s.bit (Reg.DEC_STREAM_FLAGS n) 0 = false ∨ wf s.srcNow 0 0 15 ≤ n) : commandResend n s = s := by
  refine if_neg ?_
  obtain h | h := h
  · simp [h]
  · simp [Nat.not_lt.2 h]

end

/-- Settles O24: the check order of R122 for a frame, and a lemma for each of the other commands' cases. -/
theorem decodingAndReinjection : Obligations.DecodingAndReinjection := by
  refine ⟨fun s re err errs => ⟨fun ha => .of_live rfl ha rfl, decodeFrame_unloaded s err re, decodeFrame_emptyQueue s err,
    decodeFrame_noReinjection s err, fun m rest himg hmq htarget => ?_⟩, fun s who w k => ⟨fun htakes => ⟨fun hgo himg hidle => ?_,
    fun hgo himg hbusy => ?_, fun hgo => ?_⟩, fun htakes himg => ⟨fun hroom => ?_, fun hfull => ?_⟩, fun ha => ?_⟩⟩
  · intro q u c f n shaped summed data soc frac
    rw [decodeFrame_head s err himg hmq htarget]
    refine ⟨fun hshape => ?_, fun hshape hsum => ?_, fun hshape hsum hdata hbank => ?_, fun b k hshape hsum hdata hbank => ?_⟩
    · exact congrArg State.showMq (State.decC37_misshapen _ _ hshape)
    · exact congrArg State.showMq (State.decC37_unsummed _ _ hshape hsum)
    · refine congrArg State.showMq ((State.decC37_data _ _ hshape hsum hdata).trans ?_)
      have hnone : (s.mqTaken err rest).bankFor (mqCtx m) (be16 m.payload 4) (be32 m.payload 6) (be32 m.payload 10 % 2 ^ 24) = none := hbank
      rw [hnone]
      rfl
    · have hsome : (s.mqTaken err rest).bankFor (mqCtx m) (be16 m.payload 4) (be32 m.payload 6) (be32 m.payload 10 % 2 ^ 24) = some (b, k) := hbank
      rw [State.decC37_data _ _ hshape hsum hdata, hsome]
      intro key
      refine ⟨fun hlength => ?_, fun hlength hkey => ?_, fun x hlength hkey => ?_⟩
      · exact congrArg State.showMq (if_pos hlength)
      · refine congrArg State.showMq ((if_neg (not_not_intro hlength)).trans ?_)
        have hnone : frameKey (be32 m.payload 6) (be32 m.payload 10 % 2 ^ 24) (fld (strWord b k 2) 0 24) (fld (strWord b k 2) 24 8)
          (fld (strWord b k 3) 0 10) (s.mqTaken err rest).utcOfs = none := hkey
        rw [hnone]
        rfl
      · refine congrArg State.showMq ((if_neg (not_not_intro hlength)).trans ?_)
        have hsome : frameKey (be32 m.payload 6) (be32 m.payload 10 % 2 ^ 24) (fld (strWord b k 2) 0 24) (fld (strWord b k 2) 24 8)
          (fld (strWord b k 3) 0 10) (s.mqTaken err rest).utcOfs = some x := hkey
        rw [hsome]
        rfl
  · exact .of_takes rfl htakes (reinjGo_start s.quiet w hgo himg hidle)
  · exact .of_takes rfl htakes (reinjGo_held s.quiet w hgo himg hbusy)
  · exact .of_takes rfl htakes (reinjGo_ignored s.quiet w hgo)
  · exact .of_takes rfl htakes (decCmd_queued s.quiet w himg hroom)
  · exact .of_takes rfl htakes (decCmd_lost s.quiet w himg hfull)
  · refine ⟨fun hempty => .of_live rfl ha (decCmdSend_empty s.quiet hempty),
      fun t hat hearly => .of_live rfl ha (decCmdSend_early s.quiet hat hearly), fun n cmd rest hcmds hdue => ?_,
      fun himg hn hproto hresend hheard hdue => .of_live rfl ha (streamSilent_due s.quiet k.val himg hn hproto hresend hheard hdue),
      fun hidle => .of_live rfl ha (streamSilent_idle s.quiet k.val hidle),
      fun himg hn hsilent hresend hdue => .of_live rfl ha (commandResend_due s.quiet k.val himg hn hsilent hresend hdue),
      fun hidle => .of_live rfl ha (commandResend_idle s.quiet k.val hidle)⟩
    intro u b proto
    have hsend := decCmdSend_head s.quiet hcmds hdue
    refine ⟨fun hout => .of_live rfl ha (hsend.trans (if_pos hout)), fun hin hproto => ?_, fun hin hproto => ?_, fun hin hproto htmpl => ?_,
      fun hin hproto htmpl => ?_⟩
    all_goals refine .of_live rfl ha (hsend.trans ((if_neg (Nat.not_le.2 hin)).trans ?_))
    · have hor : (proto = 2 || proto = 3) = true := by simpa using hproto
      exact if_pos hor
    · have hne : ¬ (proto = 2 || proto = 3) = true := by simp [hproto]
      exact (if_neg hne).trans (if_pos hproto)
    · have hne : ¬ (proto = 2 || proto = 3) = true := by simp [hproto]
      have hne1 : ¬ proto = 1 := by omega
      exact (if_neg hne).trans ((if_neg hne1).trans (if_pos htmpl))
    · have hne : ¬ (proto = 2 || proto = 3) = true := by simp [hproto]
      have hne1 : ¬ proto = 1 := by omega
      exact (if_neg hne).trans ((if_neg hne1).trans (if_neg htmpl))

end Sys2Proof.Machine
end

section
/-! PROOF. The admission of an item to the seam engine (R148, R501). -/
namespace Sys2Proof.Machine
open Sys2Proof

section
variable (s : State) (it : Item)

/-- With no image pending there is nothing to release. -/
theorem State.releaseCheck_none (h : s.pend = false) : s.releaseCheck = s := by
  unfold State.releaseCheck
  rw [h]
  rfl

theorem seamItemAdmit_stopped (h : s.measuring = false) : seamItemAdmit s = s := by
  rw [seamItemAdmit, h]
  rfl

theorem seamItemAdmit_empty (hi : s.seam.ingress = []) (hb : s.seam.bridge = []) : seamItemAdmit s = s := by
  have hpop : s.popItem = (none, s) := by rw [State.popItem, hb, hi]
  rw [seamItemAdmit, hpop]
  split <;> rfl

variable {s it}

theorem seamItemAdmit_item {u : State} (h : s.measuring = true) (hpop : s.popItem = (some it, u)) : seamItemAdmit s = u.admitItem it := by
  rw [seamItemAdmit, h, hpop]
  rfl

/-! ## The bank that places an item -/

/-- The bank of GROUPS that places an item: the one before the last release, or the one in force at its instant. -/
def State.bankOf (s : State) (it : Item) : List Byte := if decide (it.t0 < s.img.oldUntil) then s.img.oldGroups else s.patAt 5 it.t0

theorem State.admitItem_noGroup (h : groupOfSrc (s.bankOf it) it.src = none) : s.admitItem it = s.count Reg.SEAM_NOGRP_CNT := by
  unfold State.bankOf at h
  rw [State.admitItem, h]

section
variable {g : Nat} (hg : groupOfSrc (s.bankOf it) it.src = some g)
include hg

/-- The instant of an item in its group's numbering. -/
def State.itemInst (s : State) (it : Item) (g : Nat) : Nat := it.sec * grpRate (s.bankOf it) g + it.n

/-- An item of a group, early in UNSET or by more than EARLY_US. -/
def State.itemEarly (s : State) (it : Item) (g : Nat) : Prop := s.disc = stUnset ∨
  s.nowNs + fld (grpWord (s.bankOf it) g 10) 0 16 * 1000 < instT0 (grpRate (s.bankOf it) g) (s.itemInst it g)

theorem State.admitItem_early (he : s.itemEarly it g) : s.admitItem it = (s.count Reg.SEAM_EARLY_CNT).raise 35 := by
  unfold State.bankOf at hg
  rw [State.admitItem, hg]
  refine if_pos ?_
  rw [Bool.or_eq_true, decide_eq_true_eq, decide_eq_true_eq]
  exact he

/-- The item's group numbers its instant anew. -/
def State.numbersAnew (s : State) (it : Item) (g : Nat) : Bool := s.pend && decide (s.actNs ≤ it.t0) && (s.group true g).isSome

/-- The item taken as a sample of its source's latency. -/
def State.learned (s : State) (it : Item) (g : Nat) : State :=
  s.learn (if decide (it.t0 < s.img.oldUntil) then s.pastGroup g else s.group (s.numbersAnew it g) g) (s.bankOf it) g it
    (instT0 (grpRate (s.bankOf it) g) (s.itemInst it g))

/-- An item that is not early goes by the bank that places it. -/
theorem State.admitItem_placed (he : ¬ s.itemEarly it g) : s.admitItem it =
    let b := s.bankOf it
    let i := s.itemInst it g
    let t0 := instT0 (grpRate b g) i
    let nx := s.numbersAnew it g
    let u := s.learned it g
    if decide (it.t0 < s.img.oldUntil) then u.admitOld b g i it t0
    else match u.group nx g with
      | none => u.count Reg.SEAM_NOGRP_CNT
      | some x =>
        if i < x.lo then u.lateItem (fun y s => s.setGroup nx g (some y)) b g i (if nx then (0, 0) else u.ahead false g) x it t0
        else ((if nx then u.openOld g i else u).openUpTo nx g i (grpRate b g) 0).writeItem nx b g i it t0 := by
  have hgroup := hg
  unfold State.bankOf at hgroup
  rw [State.admitItem, hgroup]
  refine (if_neg ?_).trans rfl
  rw [Bool.or_eq_true, decide_eq_true_eq, decide_eq_true_eq]
  exact he

end

end

/-- Settles O27: admission goes by the bank that places the item. -/
theorem itemAdmission : Obligations.ItemAdmission := by
  intro s errs
  refine ⟨fun ha => .of_live (f := fun s => (withErrs errs seamItemAdmit s).releaseCheck) rfl ha rfl, s.releaseCheck_none, seamItemAdmit_stopped s,
    seamItemAdmit_empty s, fun it u hm hpop => seamItemAdmit_item hm hpop, fun it => ?_⟩
  intro old b
  refine ⟨State.admitItem_noGroup, fun g hg => ?_⟩
  intro i t0 nx u early
  refine ⟨State.admitItem_early hg, fun he hold => ?_, fun he hnew x hx => ?_⟩
  · have hplaced : s.admitItem it = u.admitOld b g i it t0 := (State.admitItem_placed hg he).trans (if_pos hold)
    refine ⟨fun hnone => ?_, fun x hx => ?_⟩
    · rw [hplaced, State.admitOld, hnone]
    · rw [hplaced, State.admitOld, hx]
  · have hplaced := (State.admitItem_placed hg he).trans (if_neg (Bool.eq_false_iff.1 hnew))
    have hgroup : (s.learned it g).group (s.numbersAnew it g) g = some x := hx
    rw [hgroup] at hplaced
    exact ⟨fun hlate => hplaced.trans (if_pos hlate), fun hopen => hplaced.trans (if_neg (Nat.not_lt.2 hopen))⟩

end Sys2Proof.Machine
end

section
/-! PROOF. What a detection leaves of the state, and what a slot reads as after it (R146, R430). -/
namespace Sys2Proof.Machine
open Sys2Proof

/-! ## A detection changes registers and draws alone -/

/-- Two states differ in registers and draws alone. -/
def RegsDraws (s t : State) : Prop := t = { s with regs := t.regs, draws := t.draws }

theorem RegsDraws.refl (s : State) : RegsDraws s s := rfl

theorem RegsDraws.trans {s t u : State} (h : RegsDraws s t) (h' : RegsDraws t u) : RegsDraws s u := by
  unfold RegsDraws at *
  rw [h', h]

section
variable (s : State)

theorem State.regsDraws_setReg (a v : Nat) : RegsDraws s (s.setReg a v) := rfl

theorem State.regsDraws_setF (a lo len v : Nat) : RegsDraws s (s.setF a lo len v) := s.regsDraws_setReg a _

theorem State.regsDraws_drawn : RegsDraws s s.drawn := rfl

theorem State.regsDraws_writeRec (n info : Nat) (inj noRec : Bool) : RegsDraws s (s.writeRec n info inj noRec) := by
  unfold State.writeRec
  split
  · exact (((s.regsDraws_setReg _ _).trans (State.regsDraws_drawn _)).trans (State.regsDraws_setReg _ _ _)).trans (State.regsDraws_drawn _)
  · exact (s.regsDraws_setReg _ _).trans (State.regsDraws_setReg _ _ _)

theorem State.regsDraws_firstFault (n info : Nat) (inj noRec : Bool) : RegsDraws s (s.firstFault n info inj noRec) := by
  have hrec := (s.regsDraws_setF (Reg.FLT_STICKY (n / 32)) (n % 32) 1 1).trans (State.regsDraws_writeRec _ n info inj noRec)
  unfold State.firstFault
  dsimp only
  split
  · exact hrec.trans (State.regsDraws_setF _ _ _ _ _)
  · exact (hrec.trans (State.regsDraws_setReg _ _ _)).trans (State.regsDraws_setF _ _ _ _ _)

theorem State.regsDraws_detectRec (n info : Nat) (inj noRec : Bool) : RegsDraws s (s.detectRec n info inj noRec) := by
  have hcount : RegsDraws s (s.count (Reg.FLT_SRC_CNT n)) := s.regsDraws_setReg _ _
  unfold State.detectRec
  dsimp only
  split
  · split
    · exact (hcount.trans (State.regsDraws_setF _ _ _ _ _)).trans (State.regsDraws_setF _ _ _ _ _)
    · exact hcount.trans (State.regsDraws_setF _ _ _ _ _)
  · exact hcount.trans (State.regsDraws_firstFault _ n info inj noRec)

/-! ## A detection shows above the other blocks' registers -/

theorem State.rn_writeRec_below (n info : Nat) (inj noRec : Bool) {b : Nat} (hb : b < 0x1800000) : (s.writeRec n info inj noRec).rn b = s.rn b :=
  s.rn_writeRec_other _ _ _ _ (by simp only [Reg.FLT_REC_T]; omega) (by simp only [Reg.FLT_REC_INFO]; omega)

theorem State.rn_firstFault_below (n info : Nat) (inj noRec : Bool) {b : Nat} (hb : b < 0x1800000) : (s.firstFault n info inj noRec).rn b = s.rn b := by
  have hsticky : b ≠ Reg.FLT_STICKY (n / 32) := by simp only [Reg.FLT_STICKY]; omega
  have hfirst : b ≠ Reg.FLT_FIRST := by simp only [Reg.FLT_FIRST]; omega
  rw [State.firstFault, State.rn_raise_other _ _ (by omega)]
  split
  · rw [State.rn_writeRec_below _ _ _ _ _ hb, State.rn_setF_other _ _ _ _ hsticky]
  · rw [State.rn_setReg_other _ _ hfirst, State.rn_writeRec_below _ _ _ _ _ hb, State.rn_setF_other _ _ _ _ hsticky]

theorem State.rn_detectRec_below (n info : Nat) (inj noRec : Bool) {b : Nat} (hb : b < 0x1800000) : (s.detectRec n info inj noRec).rn b = s.rn b := by
  have hcnt : b ≠ Reg.FLT_SRC_CNT n := by simp only [Reg.FLT_SRC_CNT]; omega
  have hinfo : b ≠ Reg.FLT_REC_INFO n := by simp only [Reg.FLT_REC_INFO]; omega
  unfold State.detectRec
  dsimp only
  split
  · split
    · rw [State.rn_setF_other _ _ _ _ hinfo, State.rn_setF_other _ _ _ _ hinfo, s.rn_count_other hcnt]
    · rw [State.rn_setF_other _ _ _ _ hinfo, s.rn_count_other hcnt]
  · rw [State.rn_firstFault_below _ _ _ _ _ hb, s.rn_count_other hcnt]

end

/-! ## Checks with no injection armed -/

section
variable {s : State} {n info : Nat} {err : MemErr}

/-- A check that finds no uncorrectable error, and none while it is handled, changes nothing. -/
theorem State.check_clean (hinject : s.flt.inject = none) (hue : errFound err ≠ .ue) (hagain : errAgain err = false) :
    s.check n info err = (errFound err, s) := by
  simp only [State.check, State.injected, State.injectionUsed, hinject, hue, hagain, Bool.false_eq_true, if_false]

/-- A check that finds an uncorrectable error detects its source. -/
theorem State.check_ue (hinject : s.flt.inject = none) : s.check n info .ue = (.ue, s.detect n info false) := by
  have hkept : (s.detectRec n info false false).flt.inject = none := by rw [State.detectRec_flt, hinject]
  simp only [State.check, State.injected, hinject, errFound, errAgain, if_true, reduceCtorEq, decide_false, Bool.or_self,
    Bool.false_eq_true, if_false, State.injectionUsed, hkept, State.detect]

end

/-! ## The flags of a slot -/

section
variable {s t : State} (hrn : ∀ a, a < 0x1800000 → t.rn a = s.rn a)
include hrn

theorem State.pend_congr : t.pend = s.pend := State.bit_congr (hrn _ (by decide)) _

theorem State.actNs_congr : t.actNs = s.actNs := by rw [State.actNs, State.actNs, hrn _ (by decide)]

variable (himg : t.img = s.img) (hseam : t.seam = s.seam)
include himg

theorem State.patAt_congr (k t0 : Nat) : t.patAt k t0 = s.patAt k t0 := by
  rw [State.patAt, State.patAt, State.pend_congr hrn, State.actNs_congr hrn, State.bit_congr (hrn _ (by decide)), State.pat_congr himg, himg]

include hseam

/-- What owns a slot goes by the image, the groups and the activation registers. -/
theorem State.slotFlags_congr (src w : Nat) : t.slotFlags src w = s.slotFlags src w := by
  have hgroup : ∀ nx g, t.group nx g = s.group nx g := fun nx g => by rw [State.group, State.group, hseam]
  have hpast : t.pastGroup = s.pastGroup := funext fun g => by rw [State.pastGroup, State.pastGroup, hseam, hgroup]
  have hat : ∀ g t0, t.groupAt g t0 = s.groupAt g t0 := fun g t0 => by
    rw [State.groupAt, State.groupAt, State.pend_congr hrn, State.actNs_congr hrn, hgroup, hgroup]
  have hnew : ∀ t0, t.newGroups t0 = s.newGroups t0 := fun t0 => by
    rw [State.newGroups, State.newGroups, State.pend_congr hrn, State.actNs_congr hrn, State.bit_congr (hrn _ (by decide))]
  have howner : t.ownerSeam src w = s.ownerSeam src w := by
    have hfalse : t.group false = s.group false := funext fun g => hgroup false g
    simp only [State.ownerSeam, State.pend_congr hrn, State.actNs_congr hrn, State.patAt_congr hrn himg, State.pat_congr himg, hat, hfalse,
      hnew, hpast, himg]
  rw [State.slotFlags, State.slotFlags, howner]

end

/-- A detection leaves a slot and its flags. -/
theorem State.slot_detect (s : State) (n info : Nat) (inj : Bool) (src w : Nat) :
    (s.detect n info inj).slotFlags src w = s.slotFlags src w ∧ (s.detect n info inj).slotAt src w = s.slotAt src w := by
  have hform := s.regsDraws_detectRec n info inj false
  have hseam : (s.detect n info inj).seam = s.seam := by rw [State.detect, hform]
  have himg : (s.detect n info inj).img = s.img := by rw [State.detect, hform]
  exact ⟨State.slotFlags_congr (fun _ ha => s.rn_detectRec_below n info inj false ha) himg hseam src w, by rw [State.slotAt, State.slotAt, hseam]⟩

end Sys2Proof.Machine
end

section
/-! PROOF. The readiness and closing of seams, and the learner, mend, snapshot and history controls (R150 to R168). -/
namespace Sys2Proof.Machine
open Sys2Proof

/-! ## Readiness -/

section
variable {b : List Byte} {g : Nat} {m : Seam}

theorem readyCause_complete (h : (members b g).all (fun r => m.present.contains (fld r 0 14)) = true) : readyCause b g m = some causeComplete :=
  if_pos h

variable (hsome : (members b g).all (fun r => m.present.contains (fld r 0 14)) = false)
include hsome

theorem readyCause_quorum (hby : fld (grpWord b g 0) 9 1 = 1) (hquorum : m.quorum ≤ m.present.length)
    (hmust : (members b g).all (fun r => fld r 14 1 = 0 || m.present.contains (fld r 0 14)) = true) : readyCause b g m = some causeQuorum := by
  refine (if_neg (Bool.eq_false_iff.1 hsome)).trans (if_pos ?_)
  rw [Bool.and_eq_true, Bool.and_eq_true, decide_eq_true_eq, decide_eq_true_eq]
  exact ⟨⟨hby, hquorum⟩, hmust⟩

theorem readyCause_none (h : fld (grpWord b g 0) 9 1 = 0 ∨ m.present.length < m.quorum) : readyCause b g m = none := by
  refine (if_neg (Bool.eq_false_iff.1 hsome)).trans (if_neg ?_)
  rw [Bool.and_eq_true, Bool.and_eq_true, decide_eq_true_eq, decide_eq_true_eq]
  omega

end

/-! ## Deadlines, closes and time-driven openings -/

section
variable {s : State} {g : Nat} {x : Group}

/-- The seams of a group that are not ready and whose deadline is reached, made ready. -/
def State.judged (s : State) (x : Group) : Group :=
  (x.openSeams.filter fun m => m.ready.isNone && m.t0 + m.dl ≤ s.nowNs).foldl (fun y m => y.put { m with ready := some causeDeadline }) x

variable (hgroup : s.group false g = some x) (hnew : s.group true g = none)
include hgroup hnew

theorem seamDeadline_judged : seamDeadline g s = (s.setGroup false g (some (s.judged x))).showGroup g := by
  have hkept : (s.setGroup false g (some (s.judged x))).group true g = none := hnew
  unfold seamDeadline
  dsimp only
  rw [hgroup]
  dsimp only
  unfold State.judged at hkept
  rw [hkept]
  rfl

/-- The lowest open seam closes where it is ready. -/
theorem seamClose_lowest {m : Seam} {rest : List Seam} (hopen : x.openSeams = m :: rest) : seamClose g s =
    match m.ready with
    | some c => s.closeSeam false g m c
    | none => s := by
  simp only [seamClose, hgroup, hnew, Option.map_some, Option.map_none, hopen] <;> rfl

/-- A judgement of the deadlines leaves the rates, the time and the other numbering. -/
theorem seamDeadline_keeps (hg : g < 256) : (seamDeadline g s).group true g = none ∧ (seamDeadline g s).pend = s.pend ∧
    (seamDeadline g s).runRate false g = grpRate (s.pat 5) g ∧ (seamDeadline g s).nowNs = s.nowNs := by
  rw [seamDeadline_judged hgroup hnew]
  refine ⟨hnew, State.bit_congr (State.rn_setReg_other _ _ ?_) _, rfl, rfl⟩
  simp only [Reg.FEAT_IMG_STATE, Reg.SEAM_GRP_STATE]
  omega

theorem seamOpenTime_open (hg : g < 256) (hset : s.disc ≠ stUnset) (hm : s.measuring = true) (hpend : s.pend = false) (hrate : grpRate (s.pat 5) g ≠ 0) :
    seamOpenTime g s = ((seamDeadline g s).closeBefore false g (latestInst (grpRate (s.pat 5) g) s.nowNs)).openUpTo false g
      (latestInst (grpRate (s.pat 5) g) s.nowNs) (grpRate (s.pat 5) g) 0 := by
  obtain ⟨hgone, hpend', hrun, hnow⟩ := seamDeadline_keeps hgroup hnew hg
  have hcarries : (seamDeadline g s).carriesOver g = true := by
    rw [State.carriesOver, hpend', hpend]
    rfl
  have hgate : ¬ ((decide (s.disc = stUnset) || !s.measuring) = true) := by simp [hset, hm]
  refine (if_neg hgate).trans ?_
  simp only [hgone, hrun, hnow, hcarries, hrate, Option.isSome_none, Bool.false_and, Bool.true_or, Bool.false_eq_true, if_false, if_true, Nat.add_zero]

end

theorem seamOpenTime_suspended {s : State} {g : Nat} (h : s.disc = stUnset ∨ s.measuring = false) : seamOpenTime g s = s := by
  refine if_pos ?_
  rw [Bool.or_eq_true, decide_eq_true_eq, Bool.not_eq_true']
  exact h

/-! ## The controls -/

section
variable (s : State) (w : Word)

theorem seamLrnReset_go (hgo : w.getLsbD 31 = true) (hg : w.toNat % 256 < grpCnt (s.patAt 5 s.nowNs)) : seamLrnReset w s =
    ((s.clearLearners (s.patAt 5 s.nowNs) (w.toNat % 256)
        (s.paramsFor (s.groupAt (w.toNat % 256) s.nowNs) (s.patAt 5 s.nowNs) (w.toNat % 256) s.nowNs) (memSources (s.patAt 5 s.nowNs) (w.toNat % 256))).formDl
      (s.patAt 5 s.nowNs) (w.toNat % 256) s.nowNs
      (s.paramsFor (s.groupAt (w.toNat % 256) s.nowNs) (s.patAt 5 s.nowNs) (w.toNat % 256) s.nowNs) true) := by
  refine if_pos ?_
  rw [hgo, Bool.true_and, decide_eq_true_eq]
  exact hg

theorem seamLrnReset_ignored (h : w.getLsbD 31 = false ∨ grpCnt (s.patAt 5 s.nowNs) ≤ w.toNat % 256) : seamLrnReset w s = s := by
  refine if_neg ?_
  rw [Bool.and_eq_true, decide_eq_true_eq]
  rintro ⟨hgo, hg⟩
  obtain h | h := h
  · rw [h] at hgo
    cases hgo
  · omega

theorem State.blankMend_one (i : Nat) : s.blankMend i 1 = s.sramWrite (s.mendBase + 256 * (i % 1024)) (List.replicate 256 0) := rfl

theorem seamMendPop_some (hgo : w.getLsbD 0 = true) (hfull : 0 < s.seam.mendCount) : seamMendPop w s =
    let u := s.sramWrite (s.mendBase + 256 * (s.seam.mendHead % 1024)) (List.replicate 256 0)
    (({ u with seam := { s.seam with mendHead := (s.seam.mendHead + 1) % 1024, mendCount := s.seam.mendCount - 1 } } : State).setXWatch 5
      s.watchRead).showMend := by
  have hpop : (w.getLsbD 0 && decide (s.seam.mendCount ≠ 0)) = true := by
    rw [hgo, Bool.true_and, decide_eq_true_eq]
    omega
  rw [seamMendPop, if_pos hpop, State.blankMend_one]
  generalize List.replicate 256 (0 : Byte) = zeros
  rfl

theorem seamMendPop_ignored (h : w.getLsbD 0 = false ∨ s.seam.mendCount = 0) : seamMendPop w s = s := by
  refine if_neg ?_
  rw [Bool.and_eq_true, decide_eq_true_eq]
  rintro ⟨hgo, hfull⟩
  obtain h | h := h
  · rw [h] at hgo
    cases hgo
  · exact hfull h

theorem seamSlotSel_asks : seamSlotSel w s =
    ({ s with seam := { s.seam with slotSel := some (w.toNat % 2 ^ 14, w.toNat / 2 ^ 16 % 8) } } : State).setReg Reg.SEAM_SLOT_STAT 0 := by
  have hsrc : fld w.toNat 0 14 = w.toNat % 2 ^ 14 := by rw [fld, Nat.pow_zero, Nat.div_one]
  rw [seamSlotSel, hsrc]
  rfl

end

section
variable (s : State) (err : MemErr)

theorem slotSnapshotReady_none (h : s.seam.slotSel = none) : slotSnapshotReady err s = s := by rw [slotSnapshotReady, h]

/-- The snapshot of a slot whose check holds. -/
theorem slotSnapshotReady_sound {src way : Nat} (h : s.seam.slotSel = some (src, way)) (hinject : s.flt.inject = none) (hue : errFound err ≠ .ue)
    (hagain : errAgain err = false) : slotSnapshotReady err s =
      (({ s with seam := { s.seam with slotSel := none } } : State).setWords (Reg.SEAM_SLOT_DATA 0)
        (wordsOf ((s.slotAt src way).bytes (s.slotFlags src way).1 (s.slotFlags src way).2) 64)).setReg Reg.SEAM_SLOT_STAT 1 := by
  simp only [slotSnapshotReady, h, State.readSlot, State.check_clean hinject hue hagain, ne_eq, hue, not_false_eq_true, decide_true, Bool.and_true]

/-- The snapshot of a slot whose check fails. -/
theorem slotSnapshotReady_failed {src way : Nat} (h : s.seam.slotSel = some (src, way)) (hinject : s.flt.inject = none) :
    slotSnapshotReady .ue s =
      (let u := s.detect 0 (src + 2 ^ 14 * way) false
       (({ u with seam := { u.seam with slotSel := none } } : State).setWords (Reg.SEAM_SLOT_DATA 0)
        (wordsOf ((s.slotAt src way).bytes false (s.slotFlags src way).2) 64)).setReg Reg.SEAM_SLOT_STAT 1) := by
  obtain ⟨hflags, hslot⟩ := s.slot_detect 0 (src + 2 ^ 14 * way) false src way
  simp only [slotSnapshotReady, h, State.readSlot, State.check_ue hinject, ne_eq, not_true_eq_false, decide_false, Bool.and_false, hflags, hslot]

end

section
variable (s : State) (errs : List MemErr)

theorem histRecordWrite_idle (h : s.seam.hist = [] ∨ s.pwr.state ≠ .run) : histRecordWrite errs s = s := by
  unfold histRecordWrite
  split
  · rfl
  · next _ _ hhist =>
    refine if_pos ?_
    obtain h | h := h
    · rw [h] at hhist
      cases hhist
    · exact h

/-- The state with the oldest record off the list, and the ring wrapped where the record does not fit before its end. -/
def State.histTaken (s : State) (t : Token) (ks : List Nat) (rest : List (Token × List Nat)) : State :=
  let c : State := { s with seam := { s.seam with hist := rest } }
  let b := c.patAt 5 t.t0
  let full := wf b 0 10 1 = 1
  let len := 64 + ks.length * (if full then 256 else 128)
  if 1048576 * wf b 6 0 17 < c.histWptr + len then c.histWrap (word2 b 4) (1048576 * wf b 6 0 17) full else c

/-- In RUN the oldest record is written to the ring. -/
theorem histRecordWrite_run {t : Token} {ks : List Nat} {rest : List (Token × List Nat)} (h : s.seam.hist = (t, ks) :: rest)
    (hrun : s.pwr.state = .run) : histRecordWrite errs s =
      let u := s.histTaken t ks rest
      let b := s.patAt 5 t.t0
      let full := wf b 0 10 1 = 1
      let len := 64 + ks.length * (if full then 256 else 128)
      let e := u.histEntries full t.way ks errs
      let prev := Tbl.get e.2.seam.histPrev t.group 0
      let v := (e.2.ddrWrite (word2 b 4 + u.histWptr + 64) e.1).ddrWrite (word2 b 4 + u.histWptr)
        (histHeader t.group full false (e.2.rn Reg.SEAM_HIST_LAP) len (t.words.flatMap (leBytes 4)) (if prev = 0 then 2 ^ 64 - 1 else prev - 1))
      let v := { v with seam := { v.seam with histPrev := Tbl.set v.seam.histPrev t.group (u.histWptr + 1) 0 } }
      v.setHistWptr (u.histWptr + len) := by
  rw [histRecordWrite, h]
  exact if_neg (not_not_intro hrun)

end

/-- Settles O29: readiness by its causes, closes and openings by the lowest open seam, and a lemma for each control. -/
theorem seamReadinessAndControls : Obligations.SeamReadinessAndControls := by
  refine ⟨fun s group x b m errs => ⟨readyCause_complete, fun hsome => ⟨readyCause_quorum hsome, readyCause_none hsome⟩, fun ha => ⟨?_, ?_⟩,
    seamOpenTime_suspended, fun hgroup hnew => ⟨fun ha => ?_, fun rest hopen => ⟨fun c hready => ?_, fun hready => ?_⟩,
      fun hset hm hpend hrate => seamOpenTime_open hgroup hnew group.isLt hset hm hpend hrate⟩⟩,
    fun s who w err errs => ⟨fun htakes => ⟨fun hgo hg => ?_, fun hother => ?_⟩, fun htakes => ⟨fun hgo hfull => ?_, fun hother => ?_⟩,
      fun htakes => ?_, fun ha => ⟨fun hnone => ?_, fun src way hsel hinject hue hagain => ?_, fun src way hsel hinject herr => ?_,
        fun hidle => ?_, fun t ks rest hhist hrun u hu => ?_⟩⟩⟩
  · exact .of_live (f := fun s => (withErrs errs (seamClose group.val) s).releaseCheck) rfl ha rfl
  · exact .of_live (f := fun s => (withErrs errs (seamOpenTime group.val) s).releaseCheck) rfl ha rfl
  · exact .of_live rfl ha (seamDeadline_judged (s := s.quiet) hgroup hnew)
  · rw [seamClose_lowest hgroup hnew hopen, hready]
  · rw [seamClose_lowest hgroup hnew hopen, hready]
  · exact .of_takes rfl htakes (seamLrnReset_go s.quiet w hgo hg)
  · exact .of_takes rfl htakes (seamLrnReset_ignored s.quiet w hother)
  · exact .of_takes rfl htakes (seamMendPop_some s.quiet w hgo hfull)
  · exact .of_takes rfl htakes (seamMendPop_ignored s.quiet w hother)
  · exact .of_takes rfl htakes (seamSlotSel_asks s.quiet w)
  · exact .of_live rfl ha (slotSnapshotReady_none s.quiet err hnone)
  · exact .of_live rfl ha (slotSnapshotReady_sound s.quiet err hsel hinject hue hagain)
  · subst herr
    exact .of_live rfl ha (slotSnapshotReady_failed s.quiet hsel hinject)
  · exact .of_live rfl ha (histRecordWrite_idle s.quiet errs hidle)
  · have htaken : u = s.quiet.histTaken t ks rest := hu
    subst htaken
    exact .of_live rfl ha (histRecordWrite_run s.quiet errs hhist hrun)

end Sys2Proof.Machine
end

section
/-! PROOF. The firing of a node, and the arithmetic and special units of the fabric (R172 to R179). -/
namespace Sys2Proof.Machine
open Sys2Proof

/-! ## Sound memory of a tile -/

section
variable {s : State} (hinject : s.flt.inject = none)
include hinject

theorem State.check_sound (n info : Nat) : s.check n info .ok = (.ok, s) := State.check_clean hinject (by decide) rfl

theorem State.tileCheck_sound (t mem w : Nat) : s.tileCheck t mem w .ok = (.ok, s) := by
  rw [State.tileCheck, State.check_sound hinject]

theorem State.fetchNode_sound (t node : Nat) : s.fetchNode t node .ok = s := by
  rw [State.fetchNode, State.tileCheck_sound hinject]
  rfl

end

/-! ## The firing rule -/

section
variable {s u : State} {t : Fin 256} {f : Firing} {x : Fire}

/-- What the state with the entry freed keeps: the faults' state, and the tile's poisoned nodes; and what the firing takes of the choices. -/
theorem State.takeFire_keeps (h : s.takeFire t.val f = some (x, u)) :
    u.flt = s.flt ∧ (u.tile t.val).poison = (s.tile t.val).poison := by
  unfold State.takeFire at h
  dsimp only at h
  split at h
  · next m _ =>
    split at h
    · injection h with hpair
      injection hpair with _ hu
      rw [← hu, State.tile_setTile_same]
      exact ⟨rfl, rfl⟩
    · cases h
  · cases h

/-- A node of the row's operation that is ready fires: its operation has its effect, and the free values of its operands are spent. -/
theorem Ends.of_fires {i : Instr} {c o : Nat} {g : Fire → State → State} {v : State} (hexec : exec i s = fires c o g t f s)
    (h : s.fires t f c o x u) (heffect : g x u = v) : Ends i s v.fired := by
  obtain ⟨ha, hm, hrole, hcls, hop, htake, herr, hinject, hsound⟩ := h
  obtain ⟨hflt, hpoison⟩ := State.takeFire_keeps htake
  have hinject' : u.flt.inject = none := by rw [hflt]; exact hinject
  have hsound' : (u.tile t.val).poison.contains f.node = false := by rw [hpoison]; exact hsound
  refine Ends.of_live hexec ha ?_
  have hgate : ¬ (!s.quiet.measuring || decide (s.quiet.role (t.val / 16) = 0) || decide (fld (s.quiet.ucode t.val f.node) 60 4 ≠ c) ||
      decide (fld (s.quiet.ucode t.val f.node) 56 4 ≠ o)) = true := by
    have hcls' : fld (s.quiet.ucode t.val f.node) 60 4 = c := hcls
    have hop' : fld (s.quiet.ucode t.val f.node) 56 4 = o := hop
    simp [hm, hrole, hcls', hop']
  refine (if_neg hgate).trans ?_
  rw [htake]
  dsimp only
  rw [herr, State.fetchNode_sound hinject', hsound', heffect]
  rfl

/-- A node of another operation, or one that is not ready, does nothing. -/
theorem Ends.of_unfired {i : Instr} {c o : Nat} {g : Fire → State → State} (hexec : exec i s = fires c o g t f s) (ha : s.alive = true)
    (h : s.measuring = false ∨ s.role (t.val / 16) = 0 ∨ s.ucode t.val f.node / 2 ^ 60 % 16 ≠ c ∨ s.ucode t.val f.node / 2 ^ 56 % 16 ≠ o ∨
      s.quiet.takeFire t.val f = none) : Ends i s s.quiet := by
  refine Ends.of_live hexec ha ?_
  unfold fire
  split
  · rfl
  · next hgate =>
    simp only [Bool.or_eq_true, Bool.not_eq_true', decide_eq_true_eq, not_or] at hgate
    obtain ⟨⟨⟨hm, hrole⟩, hcls⟩, hop⟩ := hgate
    obtain h | h | h | h | h := h
    · exact absurd h hm
    · exact absurd h hrole
    · exact absurd h hcls
    · exact absurd h hop
    · rw [h]

end

/-! ## Multiply-accumulate -/

section
variable (s : State) (x : Fire)

theorem macOp_mul : macOp 1 false x s = s.accumulate x x.acc ((s.opA x).1 * (s.opB x).1) (x.void || (s.opA x).2 || (s.opB x).2) := by
  simp [macOp]

theorem macOp_add : macOp 1 true x s = s.accumulate x x.acc ((s.uacc x.tile x.acc).1 + (s.opA x).1 * (s.opB x).1)
    (x.void || (s.opA x).2 || (s.opB x).2 || (s.uacc x.tile x.acc).2) := by
  simp [macOp]

theorem macOp_sub : macOp (-1) true x s = s.accumulate x x.acc ((s.uacc x.tile x.acc).1 - (s.opA x).1 * (s.opB x).1)
    (x.void || (s.opA x).2 || (s.opB x).2 || (s.uacc x.tile x.acc).2) := by
  simp [macOp, Int.sub_eq_add_neg]

end

/-- Settles O30: each operation's meaning, by the firing rule. -/
theorem microArithmetic : Obligations.MicroArithmetic := by
  refine ⟨fun s u t f x => ?_, fun s u t f x => ?_⟩
  · exact ⟨fun h => .of_fires rfl h (macOp_mul u x), fun h => .of_fires rfl h (macOp_add u x), fun h => .of_fires rfl h (macOp_sub u x),
      fun h => .of_fires (g := cmacOp) rfl h rfl, fun h => .of_fires (g := extrOp) rfl h rfl, fun h => .of_fires (g := clrOp) rfl h rfl,
      fun h => .of_fires (g := accaddOp) rfl h rfl⟩
  · exact ⟨fun h => .of_fires (g := alu2 fun x a b => alu40 x.sat (a + b)) rfl h rfl,
      fun h => .of_fires (g := alu2 fun x a b => alu40 x.sat (a - b)) rfl h rfl,
      fun h => .of_fires (g := alu1 fun x a => alu40 x.sat (-a)) rfl h rfl,
      fun h => .of_fires (g := alu1 fun x a => alu40 x.sat (a.natAbs : Nat)) rfl h rfl,
      fun h => .of_fires (g := alu2 fun _ a b => min a b) rfl h rfl,
      fun h => .of_fires (g := alu2 fun _ a b => max a b) rfl h rfl,
      fun h => .of_fires (g := alu2 fun _ a b => if a < b then 1 else 0) rfl h rfl,
      fun h => .of_fires (g := alu2 fun _ a b => if b ≤ a then 1 else 0) rfl h rfl,
      fun h => .of_fires (g := alu2 (bitwise (· &&& ·))) rfl h rfl,
      fun h => .of_fires (g := alu2 (bitwise (· ||| ·))) rfl h rfl,
      fun h => .of_fires (g := alu2 (bitwise (· ^^^ ·))) rfl h rfl,
      fun h => .of_fires (g := alu1 fun x a => alu40 false (a * (2 ^ x.ext 0 6 : Nat))) rfl h rfl,
      fun h => .of_fires (g := alu1 fun x a => a / (2 ^ x.ext 0 6 : Nat)) rfl h rfl,
      fun h => .of_fires (g := selOp) rfl h rfl, fun h => .of_fires (g := moviOp) rfl h rfl⟩

/-- Settles O31: each operation's meaning, by the firing rule. -/
theorem microSpecialUnits : Obligations.MicroSpecialUnits := by
  intro s u t f x
  exact ⟨fun h => .of_fires (g := rotOp) rfl h rfl, fun h => .of_fires (g := vecOp) rfl h rfl, fun h => .of_fires (g := sincosOp) rfl h rfl,
    fun h => .of_fires (g := atan2Op) rfl h rfl, fun h => .of_fires (g := divOp) rfl h rfl, fun h => .of_fires (g := recipOp) rfl h rfl,
    fun h => .of_fires (g := sqrtOp) rfl h rfl, fun h => .of_fires (g := rsqrtOp) rfl h rfl⟩

end Sys2Proof.Machine
end

section
/-! PROOF. The memory, send and control operations of the fabric (R171, R179, R181, R182, R198). -/
namespace Sys2Proof.Machine
open Sys2Proof

/-! ## Accesses to sound tile memory -/

section
variable {s : State} {x : Fire} (hinject : s.flt.inject = none)
include hinject

/-- A read whose first word is sound finds every word so. -/
theorem State.readCheck_sound (t a n : Nat) : s.readCheck t a n .ok = (false, s) := by
  have hrest : ∀ l : List Nat, l.foldl (fun (r : Bool × State) i =>
      ((r.1 || decide ((r.2.tileCheck t 0 (a / 8 + 1 + i) .ok).1 = .ue)), (r.2.tileCheck t 0 (a / 8 + 1 + i) .ok).2)) (false, s) = (false, s) := by
    intro l
    induction l with
    | nil => rfl
    | cons i l ih =>
      rw [List.foldl_cons]
      dsimp only
      rw [State.tileCheck_sound hinject]
      exact ih
  unfold State.readCheck
  rw [State.tileCheck_sound hinject]
  exact hrest _

variable (hfore : x.bg = false)
include hfore

omit hinject in
/-- A foreground node takes no background grants. -/
theorem State.nodeAccess_foreground (s : State) (a n : Nat) : s.nodeAccess x a n = s := by
  rw [State.nodeAccess, hfore]
  rfl

variable (hderr : x.derr = .ok)
include hderr

theorem State.loadCheck_sound (b n : Nat) : s.loadCheck x b n = (false, s) := by
  rw [State.loadCheck, State.nodeAccess_foreground hfore, hderr, State.readCheck_sound hinject]

theorem loadLane_within {k : Nat} (hk : k < 52428) : loadLane k x s = s.result x ((s.lane x.tile k).toInt, false) := by
  rw [loadLane, if_pos hk, State.loadCheck_sound hinject hfore hderr]

theorem ld64Op_sound : ld64Op x s =
    s.result2 x (sInt 40 (leNat (s.tileBytes x.tile (8 * (x.ext 0 16 % 2 ^ 15)) 8)), false)
      ((leNat (s.tileBytes x.tile (8 * (x.ext 0 16 % 2 ^ 15)) 8) / 2 ^ 40 : Nat), false) := by
  rw [ld64Op, State.loadCheck_sound hinject hfore hderr]

theorem sendBlockOp_sound : sendBlockOp x s =
    s.ringBlock x (x.ext 0 8) ((List.range 8).map fun i => s.lane x.tile (uNat 40 (s.opA x).1 + i)) := by
  rw [sendBlockOp, State.loadCheck_sound hinject hfore hderr]

omit hfore hderr in
/-- A cell whose parity check passes. -/
theorem State.cellChecked_sound (hcerr : x.cerr = .ok) (f : State → State) : s.cellChecked x f = f s := by
  rw [State.cellChecked, hcerr, State.check_sound hinject]
  rfl

theorem sendAlarmOp_sound (hcerr : x.cerr = .ok) : sendAlarmOp x s =
    s.pushAlarm (AlarmEntry.parse (s.role (x.tile / 16)) (s.tileBytes x.tile (8 * (uNat 40 (s.opA x).1 % 2 ^ 15)) 64)) := by
  rw [sendAlarmOp, State.loadCheck_sound hinject hfore hderr]
  exact State.cellChecked_sound hinject hcerr _

end

/-! ## Stores, lanes beyond the last, and loops -/

section
variable (s : State) (x : Fire)

theorem loadLane_beyond {k : Nat} (hk : 52428 ≤ k) : loadLane k x s = (s.result x ((s.draw 40).toInt, false)).drawn := by
  rw [loadLane, if_neg (Nat.not_lt.2 hk)]

theorem storeLane_foreground (hfore : x.bg = false) (k : Nat) : storeLane k x s = s.setLane x.tile k (BitVec.ofInt 40 (s.opC x).1) := by
  rw [storeLane, State.nodeAccess_foreground hfore]

theorem st64Op_foreground (hfore : x.bg = false) : st64Op x s =
    s.tileStore x.tile (8 * (x.ext 0 16 % 2 ^ 15)) (leBytes 8 (uNat 40 (s.opC x).1 + 2 ^ 40 * uNat 24 (s.opC2 x).1)) := by
  rw [st64Op, State.nodeAccess_foreground hfore]

theorem loopOp_again {k : Tok} (node : Nat) (hport : x.ports.getD 0 none = some k) (hbelow : (x.tag : Int) < (s.opA x).1) : loopOp x node s =
    s.toTile x.tile { k with node := node, tag := (x.tag + 1) % 65536, stalled := false, src := x.tile % 16 } := by
  rw [loopOp, hport]
  exact if_pos hbelow

theorem loopOp_ended (node : Nat) (habove : (s.opA x).1 ≤ (x.tag : Int)) : loopOp x node s = s := by
  rw [loopOp]
  split
  · exact if_neg (Int.not_lt.2 habove)
  · rfl

end

/-- A node that fires does so with no injection armed. -/
theorem State.fires_inject {s u : State} {t : Fin 256} {f : Firing} {x : Fire} {c o : Nat} (h : s.fires t f c o x u) : u.flt.inject = none := by
  obtain ⟨-, -, -, -, -, htake, -, hinject, -⟩ := h
  rw [(State.takeFire_keeps htake).1]
  exact hinject

/-- Settles O32: each operation's meaning, by the firing rule. -/
theorem microMemoryAndControl : Obligations.MicroMemoryAndControl := by
  refine ⟨fun s u t f x hfore hderr hcerr => ?_, fun s u t f x => ?_⟩
  · intro a c k kx w word64 au e blk
    refine ⟨fun hk h => ?_, fun hk h => ?_, fun h => ?_, fun h => ?_, fun h => ?_, fun hk h => ?_, fun hk h => ?_, fun h => ?_, fun h => ?_,
      fun h => ?_, fun h => ?_, fun h => ?_, fun h => ?_, fun h => ?_⟩
    · exact .of_fires (g := fun x s => loadLane (x.ext 0 16) x s) rfl h (loadLane_within (State.fires_inject h) hfore hderr hk)
    · exact .of_fires (g := fun x s => loadLane (x.ext 0 16) x s) rfl h (loadLane_beyond u x hk)
    · exact .of_fires rfl h (ld64Op_sound (State.fires_inject h) hfore hderr)
    · exact .of_fires (g := fun x s => storeLane (x.ext 0 16) x s) rfl h (storeLane_foreground u x hfore _)
    · exact .of_fires rfl h (st64Op_foreground u x hfore)
    · exact .of_fires (g := fun x s => loadLane (s.xAddr x) x s) rfl h (loadLane_within (State.fires_inject h) hfore hderr hk)
    · exact .of_fires (g := fun x s => loadLane (s.xAddr x) x s) rfl h (loadLane_beyond u x hk)
    · exact .of_fires (g := fun x s => storeLane (s.xAddr x) x s) rfl h (storeLane_foreground u x hfore _)
    · exact .of_fires (g := fun x s => s.localToken x ((s.opA x).1, x.void || (s.opA x).2)) rfl h rfl
    · exact .of_fires (g := fun x s => s.ringToken x (x.ext 0 8) 0 ((s.opA x).1, x.void || (s.opA x).2)) rfl h rfl
    · exact .of_fires (g := fun x s => s.decrement (x.tile / 16) (x.ext 0 6)) rfl h rfl
    · exact .of_fires rfl h (sendAlarmOp_sound (State.fires_inject h) hfore hderr hcerr)
    · exact .of_fires rfl h (State.cellChecked_sound (State.fires_inject h) hcerr _)
    · exact .of_fires rfl h (sendBlockOp_sound (State.fires_inject h) hfore hderr)
  · refine ⟨fun h => ?_, fun h => ?_, fun h => ?_, fun k h hport hbelow => ?_, fun h habove => ?_, fun ha hnot => ?_⟩
    · exact .of_fires (g := fun _ s => s) rfl h rfl
    · exact .of_fires (g := fun _ s => s) rfl h rfl
    · exact .of_fires (g := fun x s => s.detect 18 (x.tile / 16) false) rfl h rfl
    · exact .of_fires (g := fun x s => loopOp x f.node s) rfl h (loopOp_again u x f.node hport hbelow)
    · exact .of_fires (g := fun x s => loopOp x f.node s) rfl h (loopOp_ended u x f.node habove)
    · exact .of_unfired (g := alu2 fun x a b => alu40 x.sat (a + b)) rfl ha hnot

end Sys2Proof.Machine
end

section
/-! PROOF. Tokens, operand loads, starts and ends of engine instants on the panels (R187 to R191). -/
namespace Sys2Proof.Machine
open Sys2Proof

/-! ## Tokens -/

section
variable {s : State} {p : Nat}

theorem panelTokenReceive_stopped (h : s.measuring = false) : panelTokenReceive p s = s := by
  rw [panelTokenReceive, h]
  rfl

theorem panelTokenReceive_none {u : State} (h : s.measuring = true) (hpop : s.popToken p = (none, u)) : panelTokenReceive p s = u := by
  rw [panelTokenReceive, h, hpop]
  rfl

theorem panelTokenReceive_some {u : State} {t : Token} (h : s.measuring = true) (hpop : s.popToken p = (some t, u)) :
    panelTokenReceive p s = u.fileToken p t := by
  rw [panelTokenReceive, h, hpop]
  rfl

/-- A token no newer than the last released instant only counts. -/
theorem State.fileToken_stale {t : Token} (h : s.tokenStale p t.t0 = true) : s.fileToken p t = s.leadCount p Reg.FAB_ASM_STALE_CNT 1 := by
  simp only [State.fileToken, h, Bool.not_true, Bool.false_and, Bool.false_eq_true, if_false, if_true]

end

/-! ## Operand loads -/

section
variable {s : State} {p : Nat} (errs : LoadErrs)

theorem operandLoad_idle (h : s.measuring = false ∨ (s.panel p).taken.isSome = true ∨ (s.panel p).queue = [] ∨ s.stopping = true) :
    operandLoad p errs s = s := by
  unfold operandLoad
  dsimp only
  split
  · next x rest htaken hqueue =>
    refine if_pos ?_
    rw [Bool.or_eq_true, Bool.not_eq_true']
    obtain h | h | h | h := h
    · exact .inl h
    · rw [htaken] at h
      cases h
    · rw [hqueue] at h
      cases h
    · exact .inr h
  · rfl

/-- The panel with the next queued instant taken, `ns` from the start of its load to its end. -/
def State.panelTaken (s : State) (p : Nat) (x : Pending) (rest : List Pending) (ns : Nat) : State :=
  s.setPanel p { s.panel p with taken := some x, queue := rest, loaded := [], loadEnd := (s.time.ticks - x.close) * 4 + ns, started := false }

theorem operandLoad_next {x : Pending} {rest : List Pending} (hm : s.measuring = true) (hstop : s.stopping = false) (htaken : (s.panel p).taken = none)
    (hqueue : (s.panel p).queue = x :: rest) : operandLoad p errs s =
      let ns := (s.loadBytes p * 10 + 256) / 512
      let u := s.panelTaken p x rest ns
      (u.loadEntries p x (fld (pnlWord (u.pat 1) p 9) 0 18) 0 errs (fld (pnlWord (u.pat 1) p 10) 0 15)).setReg (Reg.FAB_PNL_LOAD_LAST p) ns := by
  unfold operandLoad
  dsimp only
  rw [htaken, hqueue, hm, hstop]
  rfl

end

/-! ## Starts and ends -/

section
variable {s : State} {p : Nat}

theorem engineStart_stopped (hm : s.measuring = false) : engineStart p s = s := by
  unfold engineStart
  split
  · exact if_neg (by rw [hm]; exact Bool.false_ne_true)
  · rfl

theorem engineInstantEnd_stopped (voids : List Nat) (hm : s.measuring = false) : engineInstantEnd p voids s = s := by
  unfold engineInstantEnd
  split
  · exact if_neg (by rw [hm]; exact Bool.false_ne_true)
  · rfl

variable {x : Pending} (htaken : (s.panel p).taken = some x)
include htaken

theorem engineStart_waits (h : s.mayStart p = false) : engineStart p s = s := by
  rw [engineStart, htaken]
  refine if_neg ?_
  rw [h, Bool.and_false]
  exact Bool.false_ne_true

theorem engineStart_starts (hm : s.measuring = true) (h : s.mayStart p = true) : engineStart p s =
    let u := (if s.role p = 1 && s.isLead p then s.seStart (s.pnlInst p) x.t0 else s).startPanel p
    (if u.isLead p then u.takeWindows (u.role p) (u.pnlInst p) x.t0 else u).startPass1 p x.t0 := by
  rw [engineStart, htaken]
  refine if_pos ?_
  rw [h, hm]
  rfl

variable (voids : List Nat)

theorem engineInstantEnd_waits (h : s.isLead p = false ∨ (s.panel p).doneSent = false ∨ s.allRun p x.t0 = false) :
    engineInstantEnd p voids s = s := by
  rw [engineInstantEnd, htaken]
  refine if_neg ?_
  rw [Bool.and_eq_true, Bool.and_eq_true, Bool.and_eq_true]
  rintro ⟨⟨⟨-, hlead⟩, hdone⟩, hall⟩
  obtain h | h | h := h
  · rw [h] at hlead
    cases hlead
  · rw [h] at hdone
    cases hdone
  · rw [h] at hall
    cases hall

/-- The lead panel decides an instant that every panel of its engine runs. -/
theorem engineInstantEnd_decides (hm : s.measuring = true) (hlead : s.isLead p = true) (hdone : (s.panel p).doneSent = true)
    (hall : s.allRun p x.t0 = true) : engineInstantEnd p voids s =
      match ({ s with img := { s.img with held := some (s.panel p).wins } } : State).decideInstant p x
        (joinLoaded ((s.instancePanels p).flatMap fun q => (s.panel q).loaded)) voids with
      | none => s
      | some d =>
        let u : State := { d with img := { d.img with held := none } }
        ((u.endInstance p x.t0).pushNote (.engine (u.role p) (u.pnlInst p))).releaseCheck.tryUnload.answerHeld := by
  rw [engineInstantEnd, htaken]
  refine if_pos ?_
  rw [hm, hlead, hdone, hall]
  rfl

end

/-- Settles O34, a lemma for each command and case. -/
theorem engineInstantFlow : Obligations.EngineInstantFlow := by
  intro s panel errs voids p
  refine ⟨fun ha => .of_live (f := fun s => (panelTokenReceive panel.val s).releaseCheck) rfl ha rfl, fun hm => ⟨panelTokenReceive_stopped hm, fun ha =>
    ⟨.of_live rfl ha (operandLoad_idle (s := s.quiet) errs (.inl hm)), .of_live rfl ha (engineStart_stopped (s := s.quiet) hm),
      .of_live rfl ha (engineInstantEnd_stopped (s := s.quiet) voids hm)⟩⟩,
    fun hm => ⟨fun u => panelTokenReceive_none hm, fun t u => panelTokenReceive_some hm, fun t => State.fileToken_stale⟩,
    fun ha hm => ⟨fun hidle => .of_live rfl ha (operandLoad_idle (s := s.quiet) errs (.inr hidle)),
      fun x rest hstop htaken hqueue => .of_live rfl ha (operandLoad_next (s := s.quiet) errs hm hstop htaken hqueue), fun x htaken => ?_⟩⟩
  refine ⟨fun hwait => .of_live rfl ha (engineStart_waits (s := s.quiet) htaken hwait),
    fun hstart => .of_live rfl ha (engineStart_starts (s := s.quiet) htaken hm hstart),
    fun hwait => .of_live rfl ha (engineInstantEnd_waits (s := s.quiet) htaken voids hwait), fun hlead hdone hall => ?_⟩
  have hend := engineInstantEnd_decides (s := s.quiet) htaken voids hm hlead hdone hall
  refine ⟨fun hnone => .of_live rfl ha (hend.trans ?_), fun d hsome => .of_live rfl ha (hend.trans ?_)⟩
  · have hnone' : ({ s.quiet with img := { s.quiet.img with held := some (s.quiet.panel p).wins } } : State).decideInstant p x
      (joinLoaded ((s.quiet.instancePanels p).flatMap fun q => (s.quiet.panel q).loaded)) voids = none := hnone
    rw [hnone']
  · have hsome' : ({ s.quiet with img := { s.quiet.img with held := some (s.quiet.panel p).wins } } : State).decideInstant p x
      (joinLoaded ((s.quiet.instancePanels p).flatMap fun q => (s.quiet.panel q).loaded)) voids = some d := hsome
    rw [hsome']

end Sys2Proof.Machine
end

section
/-! PROOF. Matching stores, dependence counters, BLOCK cells, the scrubber and the tile window (R176, R177, R181, R182, R197 to R200). -/
namespace Sys2Proof.Machine
open Sys2Proof

/-! ## Checks of a source with no injection armed -/

/-- A check that finds an uncorrectable error, by a checker with no injection armed, detects its source. -/
theorem State.check_ue_of {s : State} {n info : Nat} (h : s.injects n = false) : s.check n info .ue = (.ue, s.detect n info false) := by
  cases hi : s.flt.inject with
  | none => exact State.check_ue hi
  | some i =>
    have hne : ¬ i.source = n := by simpa [State.injects, hi] using h
    have hkept : (s.detectRec n info false false).flt.inject = some i := by rw [State.detectRec_flt, hi]
    simp only [State.check, State.injected, hi, hne, errFound, errAgain, if_true, if_false, reduceCtorEq, decide_false, Bool.or_self,
      Bool.false_eq_true, State.injectionUsed, hkept, State.detect]

/-! ## The matching store -/

section
variable {s : State} {t : Nat} {tok : Tok}

theorem State.matchToken_found {m : Match} (h : matchOf (s.tile t).store tok = some m) : s.matchToken t tok =
    (if (m.ports.getD tok.port none).isSome then s.count Reg.FAB_MATCH_COLL_CNT else s).setTile t { (s.tile t).leave tok with
      store := (s.tile t).store.map (fun y => if y = m then s.filed t m tok else y), arrivals := (s.tile t).arrivals + 1 } := by
  rw [State.matchToken, h]

theorem State.matchToken_new (h : matchOf (s.tile t).store tok = none) (hroom : (s.tile t).store.length < 512) : s.matchToken t tok =
    s.setTile t { (s.tile t).leave tok with
      store := (s.tile t).store ++ [s.filed t { node := tok.node, tag := tok.tag, inst := tok.inst } tok], arrivals := (s.tile t).arrivals + 1 } := by
  rw [State.matchToken, h]
  exact if_pos hroom

theorem State.matchToken_waits (h : matchOf (s.tile t).store tok = none) (hfull : 512 ≤ (s.tile t).store.length) (hstalled : tok.stalled = true) :
    s.matchToken t tok = s := by
  rw [State.matchToken, h]
  exact (if_neg (Nat.not_lt.2 hfull)).trans (if_pos hstalled)

theorem State.matchToken_stalls (h : matchOf (s.tile t).store tok = none) (hfull : 512 ≤ (s.tile t).store.length) (hstalled : tok.stalled = false) :
    s.matchToken t tok =
      (s.setTile t { s.tile t with inbox := (s.tile t).inbox.map fun y => if y = tok then { tok with stalled := true } else y }).count
        Reg.FAB_MATCH_STALL_CNT := by
  rw [State.matchToken, h]
  exact (if_neg (Nat.not_lt.2 hfull)).trans (if_neg (Bool.eq_false_iff.1 hstalled))

variable {err : MemErr}

theorem tokenArrive_idle (h : s.role (t / 16) = 0 ∨ nextTok (s.tile t).inbox = none) : tokenArrive t err s = s := by
  unfold tokenArrive
  split
  · rfl
  · next hrole => rw [h.resolve_left hrole]

variable (hrole : s.role (t / 16) ≠ 0) (hnext : nextTok (s.tile t).inbox = some tok)
include hrole hnext

theorem tokenArrive_matched (h : tok.src ≠ 16 ∨ tok.stalled = true ∨ (s.injects 20 = false ∧ err = .ok)) :
    tokenArrive t err s = s.matchToken t tok := by
  rw [tokenArrive, if_neg hrole, hnext]
  dsimp only
  split
  · rfl
  · next hring =>
    rw [Bool.or_eq_true, decide_eq_true_eq, not_or] at hring
    obtain h | h | ⟨hinject, rfl⟩ := h
    · exact absurd h hring.1
    · exact absurd h hring.2
    · rw [State.check_ok hinject]
      rfl

theorem tokenArrive_lost (hsrc : tok.src = 16) (hstalled : tok.stalled = false) (hinject : s.injects 20 = false) :
    tokenArrive t .ue s =
      (let u := s.detect 20 (t / 16) false
       (u.setTile t ((u.tile t).leave tok)).cellLost (t / 16) tok.bg) := by
  rw [tokenArrive, if_neg hrole, hnext]
  refine (if_neg (by simp [hsrc, hstalled])).trans ?_
  rw [State.check_ue_of hinject]
  rfl

end

/-! ## Dependence counters and BLOCK cells -/

section
variable {s : State} {p k : Nat}

@[simp] theorem State.panel_putPanel_same (s : State) (p : Nat) (x : Panel) : (s.putPanel p x).panel p = x := Tbl.get_set_same _ _ _ _

theorem depCounterFire_fires (h : (s.panel p).zero.contains k = true) : depCounterFire p k s =
    ((s.putPanel p { s.panel p with zero := (s.panel p).zero.filter fun j => j ≠ k }).toTiles p (s.cntEntry p k).2.1 {
      node := (s.cntEntry p k).2.2, port := 0, tag := 0, inst := (s.panel p).inst, value := BitVec.ofNat 40 k }).setReg
      (Reg.FAB_PNL_CNT p k) (s.cntEntry p k).1 := by
  refine (if_pos h).trans ?_
  dsimp only
  rw [State.panel_putPanel_same]

theorem depCounterFire_idle (h : (s.panel p).zero.contains k = false) : depCounterFire p k s = s := if_neg (Bool.eq_false_iff.1 h)

theorem State.decrement_disabled (h : (s.cntEntry p k).1 = 0) : s.decrement p k = s := if_pos h

section
variable (hon : (s.cntEntry p k).1 ≠ 0)
include hon

theorem State.decrement_under (h : s.rn (Reg.FAB_PNL_CNT p k) = 0) : s.decrement p k = s.count Reg.FAB_CNT_UNDER_CNT :=
  (if_neg hon).trans (if_pos h)

theorem State.decrement_above (h : 1 < s.rn (Reg.FAB_PNL_CNT p k)) :
    s.decrement p k = s.setReg (Reg.FAB_PNL_CNT p k) (s.rn (Reg.FAB_PNL_CNT p k) - 1) :=
  (if_neg hon).trans ((if_neg (by omega)).trans (if_neg (by omega)))

theorem State.decrement_last (h : s.rn (Reg.FAB_PNL_CNT p k) = 1) : s.decrement p k =
    (s.setReg (Reg.FAB_PNL_CNT p k) 0).putPanel p { (s.setReg (Reg.FAB_PNL_CNT p k) 0).panel p with
      zero := ((s.setReg (Reg.FAB_PNL_CNT p k) 0).panel p).zero ++ [k] } := by
  refine (if_neg hon).trans ((if_neg (by omega)).trans ?_)
  rw [h]
  exact if_pos rfl

end

variable {err : MemErr}

theorem ringBlockWrite_idle (h : s.role p = 0 ∨ nextBlock (s.panel p).cells = none) : ringBlockWrite p err s = s := by
  unfold ringBlockWrite
  split
  · rfl
  · next hrole => rw [h.resolve_left hrole]

theorem ringBlockWrite_block {cell : RingCell} {b : Block} (hrole : s.role p ≠ 0) (hnext : nextBlock (s.panel p).cells = some (cell, b))
    (hinject : s.injects 20 = false) (hfore : b.bg = false) : ringBlockWrite p .ok s =
      (((s.putPanel p { s.panel p with cells := (s.panel p).cells.erase cell }).setLanes (16 * p + b.tile) b.lane b.data).decrement p
        b.cntr).passTokens p := by
  have hinject' : (s.putPanel p { s.panel p with cells := (s.panel p).cells.erase cell }).injects 20 = false := hinject
  rw [ringBlockWrite, if_neg hrole, hnext]
  dsimp only
  rw [State.check_ok hinject', hfore]
  rfl

end

/-! ## The scrubber -/

section
variable {s : State} {t : Nat}

/-- A tile set with the sweeps it had leaves the least number of sweeps. -/
theorem State.minSweeps_setTile (x : Tile) (h : x.sweeps = (s.tile t).sweeps) : (s.setTile t x).minSweeps = s.minSweeps := by
  have hsweeps : ∀ u, ((s.setTile t x).tile u).sweeps = (s.tile u).sweeps := by
    intro u
    by_cases hu : u = t
    · rw [hu, State.tile_setTile_same, h]
    · rw [State.tile_setTile_other _ _ _ hu]
  have hrole : ∀ p, (s.setTile t x).role p = s.role p := fun _ => rfl
  simp only [State.minSweeps, hsweeps, hrole]

/-- The tile's place in its sweep moved on, and a sweep counted past the last word. -/
def State.scrubNext (s : State) (t n : Nat) : State :=
  s.setTile t (if n + 1 < 33792 then { s.tile t with scrub := n + 1 } else { s.tile t with scrub := 0, sweeps := (s.tile t).sweeps + 1 })

/-- What the check of the next word of a sweep finds, and the state after it. -/
def State.scrubbed (s : State) (t n : Nat) (err : MemErr) : MemErr × State :=
  ((s.setTile t { s.tile t with due := (s.tile t).due - 1 }).bgGrant t).tileCheck t (if n < 32768 then 0 else 1) (if n < 32768 then n else n - 32768) err

/-- An uncorrectable microcode word marked. -/
def State.scrubMarked (s : State) (t n : Nat) (e : MemErr) : State :=
  if e = .ue ∧ 32768 ≤ n then
    (s.setTile t { s.tile t with poison := if (s.tile t).poison.contains (n - 32768) then (s.tile t).poison else
      (s.tile t).poison ++ [n - 32768] }).setF (Reg.FAB_UC_POISON (t / 32)) (t % 32) 1 1
  else s

variable (err : MemErr)

theorem scrubWord_idle (h : s.role (t / 16) = 0 ∨ s.measuring = false ∨ ((s.scrubDue t).tile t).due = 0) : scrubWord t err s = s.scrubDue t := by
  refine if_pos ?_
  rw [Bool.or_eq_true, Bool.or_eq_true, decide_eq_true_eq, decide_eq_true_eq, Bool.not_eq_true']
  exact or_assoc.2 h

/-- A word before the last of a sweep ends no sweep. -/
theorem State.scrubNext_counts (s : State) (t : Nat) {n : Nat} (h : n + 1 < 33792) :
    (if s.minSweeps < (s.scrubNext t n).minSweeps then (s.scrubNext t n).count Reg.FAB_SCRUB_PASS_CNT else s.scrubNext t n) = s.scrubNext t n := by
  have hsweeps := State.minSweeps_setTile (s := s) (t := t) { s.tile t with scrub := n + 1 } rfl
  rw [State.scrubNext, if_pos h, hsweeps]
  exact if_neg (Nat.lt_irrefl _)

/-- The check of word `w`, its mark, and the tile's move on. -/
def State.scrubAt (s : State) (t w : Nat) (err : MemErr) : State :=
  let mem := if w < 32768 then 0 else 1
  let r := (s.bgGrant t).tileCheck t mem (if mem = 0 then w else w - 32768) err
  let u := if r.1 = .ue && mem = 1 then
      (r.2.setTile t { r.2.tile t with poison := if (r.2.tile t).poison.contains (w - 32768) then (r.2.tile t).poison else
        (r.2.tile t).poison ++ [w - 32768] }).setF (Reg.FAB_UC_POISON (t / 32)) (t % 32) 1 1
    else r.2
  if u.minSweeps < (u.scrubNext t w).minSweeps then (u.scrubNext t w).count Reg.FAB_SCRUB_PASS_CNT else u.scrubNext t w

theorem State.scrubAt_eq (s : State) (t : Nat) {w : Nat} (err : MemErr) (hlast : w + 1 < 33792) :
    s.scrubAt t w err =
      (let r := (s.bgGrant t).tileCheck t (if w < 32768 then 0 else 1) (if w < 32768 then w else w - 32768) err
       (r.2.scrubMarked t w r.1).scrubNext t w) := by
  refine (State.scrubNext_counts _ t hlast).trans (congrArg (State.scrubNext · t w) ?_)
  by_cases hdata : w < 32768
  · simp only [State.scrubMarked, hdata, Nat.not_le.2 hdata, if_true, and_false, if_false, Nat.zero_ne_one, decide_false, Bool.and_false,
      Bool.false_eq_true]
  · simp only [State.scrubMarked, hdata, Nat.not_lt.1 hdata, and_true, if_false, Nat.one_ne_zero, decide_true, Bool.and_true, decide_eq_true_eq]

/-- A word that is due and not the last of its sweep. -/
theorem scrubWord_due (hrole : s.role (t / 16) ≠ 0) (hm : s.measuring = true) (hdue : ((s.scrubDue t).tile t).due ≠ 0)
    (hlast : ((s.scrubDue t).tile t).scrub + 1 < 33792) : scrubWord t err s =
      let n := ((s.scrubDue t).tile t).scrub
      let u := (s.scrubDue t).scrubbed t n err
      (u.2.scrubMarked t n u.1).scrubNext t n := by
  have hgate : ¬ (decide ((s.scrubDue t).role (t / 16) = 0) || !(s.scrubDue t).measuring || decide (((s.scrubDue t).tile t).due = 0)) = true := by
    have hrole' : (s.scrubDue t).role (t / 16) ≠ 0 := hrole
    have hm' : (s.scrubDue t).measuring = true := hm
    simp [hrole', hm', hdue]
  have hat : scrubWord t err s = _ := (if_neg hgate).trans (rfl : _ = ((s.scrubDue t).setTile t
    { (s.scrubDue t).tile t with due := ((s.scrubDue t).tile t).due - 1 }).scrubAt t (((s.scrubDue t).setTile t
    { (s.scrubDue t).tile t with due := ((s.scrubDue t).tile t).due - 1 }).tile t).scrub err)
  rw [hat, State.tile_setTile_same]
  exact State.scrubAt_eq _ t err hlast

/-- A word whose check finds no uncorrectable error, or a data word, is not marked. -/
theorem State.scrubMarked_none (s : State) (t : Nat) {n : Nat} {e : MemErr} (h : e ≠ .ue ∨ n < 32768) : s.scrubMarked t n e = s :=
  if_neg fun ⟨hue, hn⟩ => h.elim (fun hne => hne hue) (fun hlt => Nat.not_lt.2 hn hlt)

/-- An uncorrectable microcode word that was not poisoned is. -/
theorem State.scrubMarked_new (s : State) (t : Nat) {n : Nat} (hn : 32768 ≤ n) (h : (s.tile t).poison.contains (n - 32768) = false) :
    s.scrubMarked t n .ue = (s.setTile t { s.tile t with poison := (s.tile t).poison ++ [n - 32768] }).setF (Reg.FAB_UC_POISON (t / 32)) (t % 32) 1 1 := by
  rw [State.scrubMarked, if_pos ⟨rfl, hn⟩, h]
  rfl

end

/-! ## The tile window -/

section
variable (s : State) (err : MemErr)

theorem twinReady_none (h : s.fab.twin = none) : twinReady err s = s := by rw [twinReady, h]

variable {t w : Nat} (h : s.fab.twin = some (t, w))
include h

theorem twinReady_gated (hrole : s.role (t / 16) = 0) : twinReady err s =
    (((({ s with fab := { s.fab with twin := none } } : State).setReg Reg.FAB_TWIN_DATA_LO 0).setReg Reg.FAB_TWIN_DATA_HI 0).setReg Reg.FAB_TWIN_STAT 1) := by
  rw [twinReady, h]
  exact if_pos hrole

theorem twinReady_word (hrole : s.role (t / 16) ≠ 0) : twinReady err s =
    (let c := (({ s with fab := { s.fab with twin := none } } : State).bgGrant t).tileCheck t 0 w err
     let x := leNat (c.2.tileBytes t (8 * w) 8)
     ((c.2.setReg Reg.FAB_TWIN_DATA_LO (x % 2 ^ 32)).setReg Reg.FAB_TWIN_DATA_HI (x / 2 ^ 32)).setReg Reg.FAB_TWIN_STAT
       (1 + bitAt (c.1 = .ce) 1 + bitAt (c.1 = .ue) 2)) := by
  rw [twinReady, h]
  exact if_neg hrole

end

section
variable (s : State) (w : Word)

theorem fabTwinSel_asks (hgo : w.getLsbD 31 = true) : fabTwinSel w s =
    ({ s with fab := { s.fab with twin := some (w.toNat % 2 ^ 8, w.toNat / 2 ^ 8 % 2 ^ 15) } } : State).setReg Reg.FAB_TWIN_STAT 0 := by
  have hlow : fld w.toNat 0 8 = w.toNat % 2 ^ 8 := by rw [fld, Nat.pow_zero, Nat.div_one]
  rw [fabTwinSel, if_pos hgo, hlow]
  rfl

theorem fabTwinSel_ignored (hgo : w.getLsbD 31 = false) : fabTwinSel w s = s := if_neg (Bool.eq_false_iff.1 hgo)

end

/-- Settles O35, a lemma for each store, counter, cell and word. -/
theorem fabricStores : Obligations.FabricStores := by
  refine ⟨fun s tile panel k err => ⟨fun ha => ⟨fun hidle => ?_, fun tok hrole hnext => ⟨fun hmatch => ?_, fun hsrc hstalled hinject herr => ?_⟩,
      fun hzero => ?_, fun hzero => ?_, fun hidle => ?_, fun cell b hrole hnext hinject herr hfore => ?_⟩,
    fun tok => ⟨fun m => State.matchToken_found, fun hnone => ⟨State.matchToken_new hnone, State.matchToken_waits hnone, State.matchToken_stalls hnone⟩⟩,
    State.decrement_disabled, State.decrement_under, State.decrement_above, State.decrement_last⟩,
    fun s tile who w err => ⟨fun ha => ?_, fun htakes => ⟨fun hgo => ?_, fun hgo => ?_⟩⟩⟩
  · exact .of_live rfl ha (tokenArrive_idle (s := s.quiet) hidle)
  · exact .of_live rfl ha (tokenArrive_matched (s := s.quiet) hrole hnext hmatch)
  · subst herr
    exact .of_live rfl ha (tokenArrive_lost (s := s.quiet) hrole hnext hsrc hstalled hinject)
  · exact .of_live rfl ha (depCounterFire_fires (s := s.quiet) hzero)
  · exact .of_live rfl ha (depCounterFire_idle (s := s.quiet) hzero)
  · exact .of_live rfl ha (ringBlockWrite_idle (s := s.quiet) hidle)
  · subst herr
    exact .of_live rfl ha (ringBlockWrite_block (s := s.quiet) hrole hnext hinject hfore)
  · intro t d n last u
    refine ⟨fun hidle => ?_, fun hrole hm hdue hlast hsound => ?_, fun hrole hm hdue hlast hue hcode hnew => ?_, fun hnone => ?_,
      fun t w hsome => ⟨fun hrole => ?_, fun hrole => ?_⟩, ?_⟩
    · exact .of_live rfl ha (scrubWord_idle (s := s.quiet) err hidle)
    · refine .of_live rfl ha ((scrubWord_due (s := s.quiet) err hrole hm hdue hlast).trans ?_)
      exact congrArg (State.scrubNext · t n) (State.scrubMarked_none u.2 t hsound)
    · refine .of_live rfl ha ((scrubWord_due (s := s.quiet) err hrole hm hdue hlast).trans ?_)
      have hmarked : u.2.scrubMarked t n u.1 = _ := hue ▸ State.scrubMarked_new u.2 t hcode hnew
      exact congrArg (State.scrubNext · t n) hmarked
    · exact .of_live rfl ha (twinReady_none s.quiet err hnone)
    · exact .of_live rfl ha (twinReady_gated s.quiet err hsome hrole)
    · exact .of_live rfl ha (twinReady_word s.quiet err hsome hrole)
    · exact .of_live rfl ha rfl
  · exact .of_takes rfl htakes (fabTwinSel_asks s.quiet w hgo)
  · exact .of_takes rfl htakes (fabTwinSel_ignored s.quiet w hgo)

end Sys2Proof.Machine
end

section
/-! PROOF. Alarm entries, merges, hold timers, acknowledgement, forcing and GOOSE repeats (R280 to R285). -/
namespace Sys2Proof.Machine
open Sys2Proof

/-! ## Entries and merges -/

section
variable {s : State}

theorem alarmEntryReceive_unloaded (h : s.img.inForce = false) : alarmEntryReceive s = s := by
  rw [alarmEntryReceive, h]
  rfl

theorem alarmEntryReceive_none {u : State} (h : s.img.inForce = true) (hpop : s.popAlarm = (none, u)) : alarmEntryReceive s = u := by
  rw [alarmEntryReceive, h, hpop]
  rfl

/-- An entry counted and filed, with no instant merged to make room for it. -/
def State.entryFiled (v : State) (e : AlarmEntry) : State :=
  let known := v.alm.instants.any fun x => x.t0 = e.t0
  if v.entryStale e.t0 then v.count Reg.ALM_STALE_ENTRY_CNT
  else
    let l := if known then v.alm.instants else insertInstant { t0 := e.t0, opened := v.time.ticks } v.alm.instants
    let u := v.setInstants (l.map fun x => if x.t0 = e.t0 then { x with entries := x.entries ++ [e] } else x)
    if e.kind = 0 then
      let k := waitBit e.role e.inst
      let m := max e.t0 ((Tbl.get u.alm.marks k none).getD 0)
      { u with alm := { u.alm with marks := Tbl.set u.alm.marks k (some m) none } }
    else u

/-- An entry that is stale, that has an open instant, or that finds fewer than eight open merges none. -/
theorem alarmEntryReceive_filed {u : State} {e : AlarmEntry} (h : s.img.inForce = true) (hpop : s.popAlarm = (some e, u))
    (hroom : (!(u.count Reg.ALM_ENTRY_CNT).entryStale e.t0 && !((u.count Reg.ALM_ENTRY_CNT).alm.instants.any fun x => x.t0 = e.t0) &&
      decide (8 ≤ (u.count Reg.ALM_ENTRY_CNT).alm.instants.length)) = false) :
    alarmEntryReceive s = (u.count Reg.ALM_ENTRY_CNT).entryFiled e := by
  rw [alarmEntryReceive, h, hpop]
  simp only [Bool.not_true, Bool.false_eq_true, if_false, hroom]
  rfl

theorem State.entryFiled_stale {v : State} {e : AlarmEntry} (h : v.entryStale e.t0 = true) : v.entryFiled e = v.count Reg.ALM_STALE_ENTRY_CNT :=
  if_pos h

theorem State.entryFiled_known {v : State} {e : AlarmEntry} (h : v.entryStale e.t0 = false) (hkind : e.kind ≠ 0)
    (hknown : (v.alm.instants.any fun x => x.t0 = e.t0) = true) : v.entryFiled e =
      v.setInstants (v.alm.instants.map fun x => if x.t0 = e.t0 then { x with entries := x.entries ++ [e] } else x) := by
  simp only [State.entryFiled, h, hkind, hknown, Bool.false_eq_true, if_false, if_true]

theorem State.entryFiled_new {v : State} {e : AlarmEntry} (h : v.entryStale e.t0 = false) (hkind : e.kind ≠ 0)
    (hnew : (v.alm.instants.any fun x => x.t0 = e.t0) = false) : v.entryFiled e =
      v.setInstants ((insertInstant { t0 := e.t0, opened := v.time.ticks } v.alm.instants).map fun x =>
        if x.t0 = e.t0 then { x with entries := x.entries ++ [e] } else x) := by
  simp only [State.entryFiled, h, hkind, hnew, Bool.false_eq_true, if_false]

theorem alarmMerge_unloaded (h : s.img.inForce = false) : alarmMerge s = s := by
  unfold alarmMerge
  split
  · rw [h]
    rfl
  · rfl

theorem alarmMerge_none (h : s.alm.instants = []) : alarmMerge s = s := by
  rw [alarmMerge, h]

theorem alarmMerge_due {x : AlmInstant} {rest : List AlmInstant} (hloaded : s.img.inForce = true) (h : s.alm.instants = x :: rest)
    (hdue : s.almDue x = true) : alarmMerge s = (s.setInstants rest).merge x := by
  rw [alarmMerge, h]
  dsimp only
  rw [hloaded, hdue, State.mergeOldest, h]
  rfl

theorem alarmMerge_waits {x : AlmInstant} {rest : List AlmInstant} (h : s.alm.instants = x :: rest) (hdue : s.almDue x = false) :
    alarmMerge s = s := by
  rw [alarmMerge, h]
  dsimp only
  rw [hdue, Bool.and_false]
  rfl

end

/-! ## GOOSE repeats -/

section
variable {s : State} {k : Nat}

theorem gooseRepeat_due {ivl sq : Nat} (hk : k < almTmplCnt s.almBody) (hloaded : s.img.inForce = true) (hon : s.standby = false)
    (hdue : (Tbl.get s.alm.goose k {}).due ≤ s.time.ticks) (hivl : ivl = min (2 * s.rn (Reg.ALM_GOOSE_IVL k)) (fld (goTmpl s.almBody k 4) 16 16))
    (hsq : sq = if s.rn (Reg.ALM_GOOSE_SQNUM k) = 0xFFFFFFFF then 1 else s.rn (Reg.ALM_GOOSE_SQNUM k) + 1) :
    gooseRepeat k s = (((s.setReg (Reg.ALM_GOOSE_SQNUM k) sq).setReg (Reg.ALM_GOOSE_IVL k) ivl).setGoose k
      { Tbl.get s.alm.goose k {} with due := (Tbl.get s.alm.goose k {}).due + 250000 * ivl }).gooseSend s.almBody k ivl := by
  subst hivl hsq
  refine if_pos ?_
  rw [Bool.and_eq_true, Bool.and_eq_true, Bool.and_eq_true, decide_eq_true_eq, decide_eq_true_eq, Bool.not_eq_true']
  exact ⟨⟨⟨hk, hloaded⟩, hon⟩, hdue⟩

theorem gooseRepeat_idle (h : almTmplCnt s.almBody ≤ k ∨ s.img.inForce = false ∨ s.standby = true ∨
    s.time.ticks < (Tbl.get s.alm.goose k {}).due) : gooseRepeat k s = s := by
  refine if_neg ?_
  rw [Bool.and_eq_true, Bool.and_eq_true, Bool.and_eq_true, decide_eq_true_eq, decide_eq_true_eq, Bool.not_eq_true']
  rintro ⟨⟨⟨hk, hloaded⟩, hon⟩, hdue⟩
  obtain h | h | h | h := h
  · exact Nat.not_lt.2 h hk
  · rw [hloaded] at h
    cases h
  · rw [hon] at h
    cases h
  · exact Nat.not_le.2 h hdue

end

/-! ## Hold timers and acknowledgement -/

section
variable {s : State} {c : Nat}

theorem State.holdRun_iff : s.holdRun c = true ↔ s.clsState c = 2 ∧ (s.almClass c).holdEnd ≤ s.time.ticks := by
  rw [State.holdRun, Bool.and_eq_true, decide_eq_true_eq, decide_eq_true_eq]

theorem classHoldExpiry_run (hhold : s.clsState c = 2) (hend : (s.almClass c).holdEnd ≤ s.time.ticks) (hmerge : s.mergeDue = false) :
    classHoldExpiry c s = (s.forRange (fun k s => s.holdEnds s.almBody k) 0 256).almOutputs := by
  refine if_pos ?_
  rw [State.holdRun_iff.2 ⟨hhold, hend⟩, hmerge]
  rfl

theorem classHoldExpiry_idle (h : s.clsState c ≠ 2 ∨ s.time.ticks < (s.almClass c).holdEnd ∨ s.mergeDue = true) : classHoldExpiry c s = s := by
  refine if_neg ?_
  rw [Bool.and_eq_true, State.holdRun_iff, Bool.not_eq_true']
  rintro ⟨⟨hhold, hend⟩, hmerge⟩
  obtain h | h | h := h
  · exact h hhold
  · exact Nat.not_le.2 h hend
  · rw [hmerge] at h
    cases h

theorem State.holdEnds_latch {b : List Byte} (hhold : s.clsState c = 2) (hend : (s.almClass c).holdEnd ≤ s.time.ticks)
    (hlatch : fld (classRec b c 0) 8 1 = 1) : s.holdEnds b c = s.setF (Reg.ALM_CLASS c) 0 2 3 := by
  rw [State.holdEnds, if_pos (State.holdRun_iff.2 ⟨hhold, hend⟩), State.almExpire, if_pos hlatch]
  exact if_neg Bool.false_ne_true

theorem State.holdEnds_release {b : List Byte} (hhold : s.clsState c = 2) (hend : (s.almClass c).holdEnd ≤ s.time.ticks)
    (hlatch : fld (classRec b c 0) 8 1 ≠ 1) :
    s.holdEnds b c = ((s.setF (Reg.ALM_CLASS c) 0 2 0).almChange c false).releaseRecord b c := by
  rw [State.holdEnds, if_pos (State.holdRun_iff.2 ⟨hhold, hend⟩), State.almExpire, if_neg hlatch]
  exact if_pos rfl

theorem State.holdEnds_idle {b : List Byte} (h : s.clsState c ≠ 2 ∨ s.time.ticks < (s.almClass c).holdEnd) : s.holdEnds b c = s := by
  refine if_neg fun hrun => ?_
  obtain ⟨hhold, hend⟩ := State.holdRun_iff.1 hrun
  exact h.elim (fun h => h hhold) (fun h => Nat.not_le.2 h hend)

variable {w : Word} (hc : c = fld w.toNat 0 8)
include hc

theorem almAck_releases (hgo : w.getLsbD 31 = true) (hloaded : s.img.inForce = true) (hlatch : s.clsState c = 3) : almAck w s =
    (((s.setF (Reg.ALM_CLASS c) 0 2 0).almChange c false).releaseRecord s.almBody c).almOutputs := by
  subst hc
  refine if_pos ?_
  rw [hgo, hloaded, hlatch]
  rfl

theorem almAck_ignored (h : w.getLsbD 31 = false ∨ s.img.inForce = false ∨ s.clsState c ≠ 3) : almAck w s = s := by
  subst hc
  refine if_neg ?_
  rw [Bool.and_eq_true, Bool.and_eq_true, decide_eq_true_eq]
  rintro ⟨⟨hgo, hloaded⟩, hlatch⟩
  obtain h | h | h := h
  · rw [hgo] at h
    cases h
  · rw [hloaded] at h
    cases h
  · exact h hlatch

end

/-- Settles O37: an entry, a merge, a timer, an acknowledgement and a repeat each by the cases of its meaning. -/
theorem alarmPath : Obligations.AlarmPath := by
  intro s cls tmpl who w errs b c k
  refine ⟨fun h => ⟨alarmEntryReceive_unloaded h, alarmMerge_unloaded h⟩,
    fun h => ⟨fun u hpop => alarmEntryReceive_none h hpop, fun e u hpop => ?_, alarmMerge_none,
      fun x rest hx => ⟨alarmMerge_due h hx, alarmMerge_waits hx⟩⟩,
    fun ha => ⟨.of_live (f := fun s => (alarmEntryReceive s).releaseCheck) rfl ha rfl,
      .of_live (f := fun s => (withErrs errs alarmMerge s).releaseCheck) rfl ha rfl, .of_live rfl ha rfl,
      fun ivl sq hk hloaded hon hdue hivl hsq => .of_live rfl ha (gooseRepeat_due (s := s.quiet) hk hloaded hon hdue hivl hsq),
      fun h => .of_live rfl ha (gooseRepeat_idle (s := s.quiet) h)⟩,
    fun ht => ⟨fun hhold hend hmerge => .of_running rfl ht (classHoldExpiry_run (s := s.quiet) hhold hend hmerge),
      fun h => .of_running rfl ht (classHoldExpiry_idle (s := s.quiet) h)⟩,
    fun hhold hend => ⟨State.holdEnds_latch hhold hend, State.holdEnds_release hhold hend⟩, State.holdEnds_idle,
    fun htakes => ?_, fun htakes => .of_takes rfl htakes rfl⟩
  · intro v
    refine ⟨fun hstale => ?_, fun hfresh hkind hknown => ?_, fun hfresh hkind hnew hroom => ?_⟩
    · exact (alarmEntryReceive_filed h hpop (by rw [hstale]; rfl)).trans (State.entryFiled_stale hstale)
    · exact (alarmEntryReceive_filed h hpop (by rw [hknown, Bool.not_true, Bool.and_false, Bool.false_and])).trans
        (State.entryFiled_known hfresh hkind hknown)
    · exact (alarmEntryReceive_filed h hpop (by rw [decide_eq_false (Nat.not_le.2 hroom), Bool.and_false])).trans
        (State.entryFiled_new hfresh hkind hnew)
  · intro a
    have ha : a = fld w.toNat 0 8 := by rw [fld, Nat.pow_zero, Nat.div_one]
    exact ⟨fun hgo hloaded hlatch => .of_takes rfl htakes (almAck_releases (s := s.quiet) ha hgo hloaded hlatch),
      fun h => .of_takes rfl htakes (almAck_ignored (s := s.quiet) ha h)⟩

end Sys2Proof.Machine
end

section
/-! SUPPORT. What the capture engine leaves alone: the station inputs' own state (R331). -/
namespace Sys2Proof.Machine
open Sys2Proof

variable (s : State)

/-! ## Checks -/

theorem State.writeRec_stn (n info : Nat) (inj noRec : Bool) : (s.writeRec n info inj noRec).stn = s.stn := by
  cases noRec
  · exact (State.setReg_stn _ _ _).trans (State.setReg_stn _ _ _)
  · exact (State.drawn_stn _).trans ((State.setReg_stn _ _ _).trans ((State.drawn_stn _).trans (State.setReg_stn _ _ _)))

theorem State.detectRec_stn (n info : Nat) (inj noRec : Bool) : (s.detectRec n info inj noRec).stn = s.stn := by
  unfold State.detectRec
  dsimp only
  split
  · split
    · rw [State.setF_stn, State.setF_stn, State.count_stn]
    · rw [State.setF_stn, State.count_stn]
  · unfold State.firstFault
    dsimp only
    rw [State.raise_stn]
    split
    · rw [State.writeRec_stn, State.setF_stn, State.count_stn]
    · rw [State.setReg_stn, State.writeRec_stn, State.setF_stn, State.count_stn]

theorem State.injectionUsed_stn (n : Nat) : (s.injectionUsed n).stn = s.stn := by
  unfold State.injectionUsed
  split
  · split
    · split
      · rw [State.raise_stn, State.setF_stn]
      · rw [State.setF_stn]
    · rfl
  · rfl

theorem State.check_stn (n info : Nat) (err : MemErr) : (s.check n info err).2.stn = s.stn := by
  simp only [State.check, State.injectionUsed_stn, State.detect, apply_ite State.stn, State.detectRec_stn, ite_self]

/-! ## Plans and records -/

theorem State.setPlan_stn (n : Nat) (x : CapPlan) : (s.setPlan n x).stn = s.stn := State.setReg_stn _ _ _

theorem State.setPlanState_stn (b : List Byte) (n st : Nat) : (s.setPlanState b n st).stn = s.stn := State.setReg_stn _ _ _

theorem State.showSpill_stn : s.showSpill.stn = s.stn := State.setReg_stn _ _ _

theorem State.withCap_stn (c : Cap) : ({ s with cap := c } : State).stn = s.stn := rfl

theorem State.capWrite_stn (a : Nat) (bs : List Byte) : (s.capWrite a bs).stn = s.stn := rfl

theorem State.beginRecord_stn (b : List Byte) (n : Nat) : (s.beginRecord b n).stn = s.stn := by
  unfold State.beginRecord
  dsimp only
  rw [State.setPlanState_stn]
  split
  · rw [State.raise_stn, State.count_stn, State.setPlan_stn]
  · rw [State.setPlan_stn]

theorem State.nextSlot_stn (b : List Byte) (n : Nat) : (s.nextSlot b n).stn = s.stn := by
  unfold State.nextSlot
  extract_lets _ _ counted placed
  have hcounted : counted.stn = s.stn := by
    simp only [counted, apply_ite State.stn, State.count_stn, ite_self]
  have hplaced : placed.stn = s.stn := (State.setPlan_stn _ _ _).trans hcounted
  split
  · rw [State.setPlanState_stn, hplaced]
  · rw [State.beginRecord_stn, hplaced]

theorem State.finishRecord_stn (b : List Byte) (n : Nat) (err : MemErr) (errAt : Nat) : (s.finishRecord b n err errAt).stn = s.stn := by
  have hcheck := s.check_stn 44 (n + errAt % 2 ^ 16 * 16) err
  unfold State.finishRecord
  generalize s.check 44 (n + errAt % 2 ^ 16 * 16) err = r at hcheck
  obtain ⟨e, u⟩ := r
  dsimp -zeta only
  extract_lets counted _ _ _ _ _ _ _ _ _ _ _ _ _ written _ _ queued used numbered shown
  have hcounted : counted.stn = u.stn := by
    simp only [counted, apply_ite State.stn, State.count_stn, ite_self]
  have hwritten : written.stn = counted.stn := State.capWrite_stn _ _ _
  have hqueued : queued.stn = written.stn := State.withCap_stn _ _
  have hused : used.stn = queued.stn := State.setPlan_stn _ _ _
  have hnumbered : numbered.stn = used.stn := 
    (State.setReg_stn _ _ _).trans ((State.count_stn _ _).trans (State.count_stn _ _))
  have hshown : shown.stn = s.stn := calc
    shown.stn = (numbered.raise 72).stn := State.showSpill_stn _
    _ = used.stn := (State.raise_stn _ _).trans hnumbered
    _ = s.stn := by rw [hused, hqueued, hwritten, hcounted, hcheck]
  split
  · rw [State.setPlanState_stn, hshown]
  · rw [State.nextSlot_stn, hshown]

theorem capDone_stn (n : Nat) (err : MemErr) (errAt : Nat) : (capDone n err errAt s).stn = s.stn := by
  unfold capDone
  split
  · exact State.finishRecord_stn _ _ _ _ _
  · rfl

theorem State.storeRow_stn (b : List Byte) (n : Nat) (r : CapRow) : (s.storeRow b n r).stn = s.stn := by
  unfold State.storeRow
  extract_lets _ _ _ _ _ _ placed
  have hplaced : placed.stn = s.stn := State.setPlan_stn _ _ _
  exact hplaced

/-! ## A sample -/

theorem State.capSample_stn (b : List Byte) (n : Nat) (smp : List CapSample) (t : Nat) : (s.capSample b n smp t).stn = s.stn := by
  unfold State.capSample
  extract_lets done _ _ _ _ _ _ _ _
  have hdone : done.stn = s.stn := capDone_stn s n .ok 0
  split
  · exact hdone
  · split
    · rw [State.setPlan_stn, hdone]
    · rw [State.storeRow_stn, State.setPlan_stn, hdone]

theorem State.capFire_stn (k t : Nat) : (s.capFire k t).stn = s.stn := by
  unfold State.capFire
  extract_lets _ _ disarmed _ _ _ _ _ _
  have hdisarmed : disarmed.stn = s.stn := by
    simp only [disarmed, apply_ite State.stn, State.setF_stn, ite_self]
  split
  · rw [State.count_stn, State.setPlanState_stn, State.setPlan_stn, hdisarmed]
  · split
    · rw [State.count_stn, State.setPlan_stn, hdisarmed]
    · rw [State.raise_stn, State.count_stn, hdisarmed]

theorem State.fireLevel_stn (k : Nat) : (s.fireLevel k).stn = s.stn := by
  unfold State.fireLevel
  split
  · rfl
  · dsimp only
    split
    · exact State.capFire_stn _ _ _
    · rfl

theorem State.capLevels_stn (b : List Byte) (smp : List CapSample) (t : Nat) : (s.capLevels b smp t).stn = s.stn := by
  refine State.forRange_keeps State.stn _ (fun k u => ?_) s _ _
  dsimp only
  split <;> rfl

theorem State.capTake_stn (smp : List CapSample) (t : Nat) : (s.capTake smp t).stn = s.stn := calc
  (s.capTake smp t).stn = (s.fireLevels.capLevels s.recBody smp t).stn :=
    State.forRange_keeps State.stn _ (fun n u => u.capSample_stn s.recBody n smp t) _ _ _
  _ = s.fireLevels.stn := State.capLevels_stn _ _ _ _
  _ = s.stn := State.forRange_keeps State.stn _ (fun k u => u.fireLevel_stn k) _ _ _

end Sys2Proof.Machine
end

section
/-! PROOF. Bitstreams, coefficient banks, ranges, zero crossings and samples of the station inputs (R291 to R303). -/
namespace Sys2Proof.Machine
open Sys2Proof

/-! ## Bitstreams, banks and ranges -/

section
variable {s : State} {c : Nat}

theorem modLoss_idle (h : s.bit Reg.STN_STATUS 0 = false ∨ chanEn (s.pat 14) c = false ∨
    (s.chain c).run + 4 * wf (s.pat 14) 0 0 9 < wf (s.pat 14) 2 16 16) : modLoss c s = s := by
  refine if_pos ?_
  rw [Bool.or_eq_true, Bool.or_eq_true, Bool.not_eq_true', Bool.not_eq_true', decide_eq_true_eq]
  exact or_assoc.2 h

theorem modLoss_stuck (hon : s.bit Reg.STN_STATUS 0 = true) (hen : chanEn (s.pat 14) c = true)
    (hrun : wf (s.pat 14) 2 16 16 ≤ (s.chain c).run + 4 * wf (s.pat 14) 0 0 9) : modLoss c s = s.stuck c := by
  refine if_neg ?_
  rw [hon, hen, Bool.or_eq_true, Bool.or_eq_true, decide_eq_true_eq]
  rintro ((h | h) | h)
  · cases h
  · cases h
  · exact Nat.not_le.2 h hrun

theorem State.stuck_lost (h : s.thruBit Reg.STN_MOD_LOSS c = true) :
    s.stuck c = { s with stn := { s.stn with moved := Tbl.set s.stn.moved c 0 0 } } :=
  if_neg (by rw [h]; decide)

theorem State.stuck_new (h : s.thruBit Reg.STN_MOD_LOSS c = false) : s.stuck c =
    ((({ s with stn := { s.stn with moved := Tbl.set s.stn.moved c 0 0 } } : State).setThruF Reg.STN_MOD_LOSS c 1 1).count
      Reg.STN_MOD_LOSS_CNT).raise 64 :=
  if_pos (by rw [h]; rfl)

/-- No fade runs, or its last sample is still to come. -/
theorem stnBankDone_idle (h : s.bit Reg.STN_STATUS 2 = false ∨ s.stn.fadeAt < 2 ^ wf (s.pat 14) 2 8 4) : stnBankDone s = s := by
  refine if_neg ?_
  rw [Bool.and_eq_true, decide_eq_true_eq]
  rintro ⟨hfade, hdone⟩
  obtain h | h := h
  · rw [hfade] at h
    cases h
  · exact Nat.not_le.2 h hdone

/-- The bank faded to made the active one. -/
def State.fadeEnded (s : State) : State :=
  let u := ((s.setF Reg.STN_STATUS 2 1 0).setF Reg.STN_STATUS 3 2 s.stn.fadeTo).setF Reg.STN_STATUS 5 2 0
  ({ u with stn := { u.stn with fadeTo := 0, fadeAt := 0, fadeBank := [] } } : State).raise 67

theorem stnBankDone_ends (hfade : s.bit Reg.STN_STATUS 2 = true) (hdone : 2 ^ wf (s.pat 14) 2 8 4 ≤ s.stn.fadeAt) : stnBankDone s =
    let v := s.fadeEnded
    if v.bit Reg.STN_STATUS 7 then ((v.setF Reg.STN_STATUS 7 1 0).setF Reg.STN_STATUS 8 2 0).startFade (v.rf Reg.STN_STATUS 8 2) else v := by
  refine if_pos ?_
  rw [hfade, decide_eq_true hdone]
  rfl

theorem rangeSwitch_due {k : Nat} {high : Bool} (h : s.rangeDue (s.pat 14) k = some high) : rangeSwitch k high s = s.rangeMove k high := if_pos h

theorem rangeSwitch_idle {k : Nat} {high : Bool} (h : s.rangeDue (s.pat 14) k ≠ some high) : rangeSwitch k high s = s := if_neg h

end

/-! ## Zero crossings -/

section
variable {s : State} {z : Nat}

theorem zeroCrossing_none (h : (s.zdet z).due = []) : zeroCrossing z s = s := by
  rw [zeroCrossing, h]

theorem zeroCrossing_next {t p : Nat} {rest : List Nat} (h : (s.zdet z).due = t :: rest) (hlast : (s.zdet z).last = some p) : zeroCrossing z s =
    (((((s.setZdet z { s.zdet z with due := rest, last := some t, since := s.time.ticks }).setReg (Reg.STN_ZC_TIME z) (t80OfNs t)).setReg
      (Reg.STN_ZC_PERIOD z) ((t - p) % 2 ^ 32)).count (Reg.STN_ZC_CNT z)).setF Reg.STN_ZC_LOST z 1 0) := by
  rw [zeroCrossing, h]
  dsimp only
  rw [hlast]

theorem zeroCrossing_first {t : Nat} {rest : List Nat} (h : (s.zdet z).due = t :: rest) (hlast : (s.zdet z).last = none) : zeroCrossing z s =
    ((((s.setZdet z { s.zdet z with due := rest, last := some t, since := s.time.ticks }).setReg (Reg.STN_ZC_TIME z) (t80OfNs t)).count
      (Reg.STN_ZC_CNT z)).setF Reg.STN_ZC_LOST z 1 0) := by
  rw [zeroCrossing, h]
  dsimp only
  rw [hlast]

theorem zcTimeout_lost (hon : s.bit Reg.STN_STATUS 0 = true) (hen : zcEn (s.pat 14) z = true) (hlost : s.bit Reg.STN_ZC_LOST z = false)
    (htime : (s.zdet z).since + 250000 * wf (s.pat 14) 11 0 16 ≤ s.time.ticks) : zcTimeout z s =
      ((s.setF Reg.STN_ZC_LOST z 1 1).count Reg.STN_ZC_TMO_CNT).raise 66 := by
  refine if_pos ?_
  rw [hon, hen, hlost, decide_eq_true htime]
  rfl

theorem zcTimeout_idle (h : s.bit Reg.STN_STATUS 0 = false ∨ zcEn (s.pat 14) z = false ∨ s.bit Reg.STN_ZC_LOST z = true) : zcTimeout z s = s := by
  refine if_neg ?_
  rw [Bool.and_eq_true, Bool.and_eq_true, Bool.and_eq_true, Bool.not_eq_true']
  rintro ⟨⟨⟨hon, hen⟩, hlost⟩, -⟩
  obtain h | h | h := h
  · rw [hon] at h
    cases h
  · rw [hen] at h
    cases h
  · rw [hlost] at h
    cases h

end

/-! ## Samples -/

/-- What each of a range of updates keeps, where those in the range are known to. -/
theorem State.forRange_keeps_within {β : Type} (p : State → β) (f : Nat → State → State) (s : State) (n k : Nat)
    (h : ∀ i, i < n + k → ∀ s, p (f i s) = p s) : p (s.forRange f n k) = p s := by
  induction k generalizing s n with
  | zero => rfl
  | succ j ih => rw [State.forRange, ih _ _ fun i hi => h i (by omega), h n (by omega)]

/-- What the sample of a disabled channel or of a bay leaves alone. -/
def State.sampleView (s : State) : Time × Nat × Option Nat × Option Nat × List (Nat × Nat) × Nat :=
  (s.time, s.rn Reg.STN_STATUS, s.stn.lastK, s.stn.firstT, s.stn.marks, s.stn.fadeAt)

section
variable {s : State} {b : List Byte}

theorem State.sampleView_setThruF {off : Nat} (lo len x : Nat) (h : Reg.STN_STATUS ≠ off) : (s.setThruF off lo len x).sampleView = s.sampleView := by
  have hreg : (s.setThruF off lo len x).rn Reg.STN_STATUS = s.rn Reg.STN_STATUS := State.rn_setReg_other _ _ h
  rw [State.sampleView, hreg]
  rfl

theorem State.sampleView_setBay (s : State) (q : Nat) (x : Bay) : (s.setBay q x).sampleView = s.sampleView := rfl

theorem State.enterSample_disabled (mdat : List (BitVec 24)) {c : Nat} (h : chanEn b c = false) :
    (s.enterSample b mdat c).sampleView = s.sampleView := by
  unfold State.enterSample
  simp only [h, Bool.false_eq_true, if_false, Bool.false_and, Bool.and_false]
  split
  · rfl
  · split
    · rw [State.sampleView_setThruF _ _ _ (by decide)]
      rfl
    · split
      · rfl
      · split <;> rfl

theorem State.chanOut_disabled {c : Nat} (h : chanEn b c = false) : s.chanOut b c = (0, 1) := if_neg (by rw [h]; decide)

variable (hen : ∀ c, c < 24 → chanEn b c = false)
include hen

theorem State.currentOut_disabled {k : Nat} (hk : k < 8) : s.currentOut b k = (⟨0, 1⟩, s) := by
  have hmain : chanEn b (mainCh (k / 4) (k % 4)) = false := hen _ (by simp only [mainCh]; omega)
  have hfall : chanEn b (fallCh (k / 4) (k % 4)) = false := hen _ (by simp only [fallCh]; omega)
  have hrs : s.rsOn b k = false := by
    simp only [State.rsOn, hmain, Bool.and_false, Bool.false_and]
  simp only [State.currentOut, hrs, hmain, hfall, State.chanOut_disabled hfall, Bool.false_eq_true, if_false]
  rfl

/-- Every signal of disabled channels is INVALID. -/
theorem State.signals_disabled (z n : Nat) (hz : z + n ≤ 16) : s.signals b z n = (List.replicate n ⟨0, 1⟩, s) := by
  induction n generalizing z with
  | zero => rfl
  | succ n ih =>
    rw [State.signals]
    dsimp only
    split
    · rw [State.chanOut_disabled (hen _ (by omega)), ih (z + 1) (by omega)]
      rfl
    · rw [State.currentOut_disabled hen (by omega), ih (z + 1) (by omega)]
      rfl

end

/-- The instant of a sample outside a re-phase is a function of the counter. -/
theorem State.sampleInstant_grid {s : State} (h : s.bit Reg.STN_STATUS 1 = false) : s.sampleInstant = 1000000000 * s.sampleK / 14400 :=
  if_neg (by rw [h]; decide)

theorem State.sampleK_congr {s t : State} (h : t.time = s.time) : t.sampleK = s.sampleK := by
  rw [State.sampleK, State.nowNs, h]
  rfl

theorem stnOutputSample_idle {s : State} {mdat : List (BitVec 24)}
    (h : s.bit Reg.STN_STATUS 0 = false ∨ mdat.length ≠ 16 * wf (s.pat 14) 0 0 9 ∨ s.sampleDue = false) : stnOutputSample mdat s = s := by
  refine if_pos ?_
  rw [Bool.or_eq_true, Bool.or_eq_true, Bool.not_eq_true', Bool.not_eq_true', decide_eq_true_eq]
  exact or_assoc.2 h

/-- The marks of sixteen INVALID signals. -/
def invalidMark : Nat :=
  ((List.replicate 16 (⟨0, 1⟩ : CapSample)).zipIdx.map fun a => bitAt (fld a.1.flags 0 1 = 1) a.2 + bitAt (fld a.1.flags 1 1 = 1) (16 + a.2)).foldl
    (· + ·) 0

theorem invalidMark_eq : invalidMark = 65535 := by decide

/-- The sample of disabled channels, stored and taken by the capture engine. -/
def State.sampleTaken (s : State) (smp : List CapSample) (t mark : Nat) : State :=
  let marks := s.stn.marks.filter fun e => decide (t < 1000000000 + e.1)
  ({ s with stn := { s.stn with
      lastT := t
      firstT := some (s.stn.firstT.getD t)
      marks := if mark = 0 then marks else (t, mark) :: marks } } : State).capTake smp t

theorem State.sampleTaken_stn (s : State) (smp : List CapSample) {t mark : Nat} (h : mark ≠ 0) :
    (s.sampleTaken smp t mark).stn = { s.stn with
      lastT := t
      firstT := some (s.stn.firstT.getD t)
      marks := (t, mark) :: s.stn.marks.filter fun e => decide (t < 1000000000 + e.1) } := by
  unfold State.sampleTaken
  rw [State.capTake_stn, if_neg h]

section
variable {s : State} {mdat : List (BitVec 24)}

/-- The tick and the number of a sample on the grid. -/
def State.sampleStamped (s : State) : State := { s with stn := { s.stn with outAt := s.time.ticks, lastK := some s.sampleK } }

/-- What is to be shown of the state that stores a sample of disabled channels: nothing of it is new but the stamp. -/
theorem stnOutputSample_disabled (hon : s.bit Reg.STN_STATUS 0 = true) (hlen : mdat.length = 16 * wf (s.pat 14) 0 0 9) (hdue : s.sampleDue = true)
    (hfade : s.bit Reg.STN_STATUS 2 = false) (hphase : s.bit Reg.STN_STATUS 1 = false) (hen : ∀ c, c < 24 → chanEn (s.pat 14) c = false)
    (hzc : ∀ z, zcEn (s.pat 14) z = false) :
    ∃ u : State, u.sampleView = s.sampleStamped.sampleView ∧
      stnOutputSample mdat s = u.sampleTaken (List.replicate 16 ⟨0, 1⟩) s.sampleInstant 65535 := by
  have hgate : ¬ (!s.bit Reg.STN_STATUS 0 || decide (mdat.length ≠ 16 * wf (s.pat 14) 0 0 9) || !s.sampleDue) = true := by
    simp [hon, hlen, hdue]
  unfold stnOutputSample
  extract_lets b _ stamped done fading _ banked entered _ faded t
  rw [if_neg hgate]
  have hstamped : stamped = s.sampleStamped := by
    simp only [stamped, hphase]
    rfl
  have hdone : done = s.sampleStamped := by
    rw [← hstamped]
    exact stnBankDone_idle (.inl (by rw [hstamped]; exact hfade))
  have hfading : fading = false := by
    simp only [fading, hdone]
    exact hfade
  have hbanked : banked = s.sampleStamped := by
    simp only [banked, hfading, hdone, Bool.false_and, Bool.false_eq_true, if_false]
  have hfaded : faded = entered := by
    simp only [faded, hfading, Bool.false_eq_true, if_false]
  have hentered : entered.sampleView = s.sampleStamped.sampleView := by
    rw [← hbanked]
    exact State.forRange_keeps_within State.sampleView _ _ _ _ fun c hc u => State.enterSample_disabled mdat (hen c (by omega))
  rw [hfaded, State.signals_disabled hen 0 16 (Nat.le_refl 16)]
  dsimp -zeta only
  extract_lets bays dets mark marks _ _
  have hbays : bays.sampleView = entered.sampleView := State.forRange_keeps State.sampleView _ (fun _ u => u.sampleView_setBay _ _) _ _ _
  have hdets : dets.sampleView = s.sampleStamped.sampleView := by
    rw [← hentered, ← hbays]
    refine State.forRange_keeps State.sampleView _ (fun z u => congrArg State.sampleView (if_neg ?_)) _ _ _
    rw [hzc z]
    decide
  have hkept : ∀ u : State, u.sampleView = s.sampleStamped.sampleView → u.time = s.time ∧ u.bit Reg.STN_STATUS 1 = false := fun u hu =>
    ⟨congrArg Prod.fst hu, (State.bit_congr (congrArg (fun x => x.2.1) hu) 1).trans hphase⟩
  have ht : t = s.sampleInstant := by
    obtain ⟨htime, hbit⟩ := hkept faded (by rw [hfaded, hentered])
    rw [State.sampleInstant_grid hphase, ← State.sampleK_congr htime]
    exact State.sampleInstant_grid hbit
  have hmark : mark = 65535 := by
    obtain ⟨-, hbit⟩ := hkept dets hdets
    rw [← invalidMark_eq, ← Nat.zero_add invalidMark]
    simp only [mark, hbit]
    rfl
  exact ⟨dets, hdets, by rw [← ht, ← hmark]; rfl⟩

end

/-! ## Bank swaps -/

section
variable {s : State} {w : Word}

theorem stnBankSwap_ignored (h : w.getLsbD 31 = false ∨ s.feat 48 = false) : stnBankSwap w s = s := by
  refine if_pos ?_
  rw [Bool.or_eq_true, Bool.not_eq_true', Bool.not_eq_true']
  exact h

variable {k : Nat} (hk : k = fld w.toNat 0 2) (hgo : w.getLsbD 31 = true) (hfeat : s.feat 48 = true)
include hk hgo hfeat

theorem stnBankSwap_starts (hfade : s.bit Reg.STN_STATUS 2 = false) : stnBankSwap w s = s.startFade k := by
  subst hk
  exact (if_neg (by rw [hgo, hfeat]; decide)).trans (if_neg (by rw [hfade]; decide))

theorem stnBankSwap_held (hfade : s.bit Reg.STN_STATUS 2 = true) : stnBankSwap w s =
    (((if s.bit Reg.STN_STATUS 7 then s.count Reg.STN_SWAP_REPL_CNT else s).setF Reg.STN_STATUS 7 1 1).setF Reg.STN_STATUS 8 2 k) := by
  subst hk
  exact (if_neg (by rw [hgo, hfeat]; decide)).trans (if_pos hfade)

end

/-- Settles O39: each command by the cases of its meaning; a sample of disabled channels is INVALID on every signal, and the capture engine,
which takes it, leaves the station inputs. -/
theorem stationSignals : Obligations.StationSignals := by
  intro s ch who w cur high locked z bay mdat errs c k on fading x
  refine ⟨fun ht => ⟨fun h => .of_running rfl ht (modLoss_idle (s := s.quiet) h), fun hon hen hrun => ?_,
    fun h => .of_running rfl ht (stnBankDone_idle (s := s.quiet) h), fun hfade hdone => ?_, .of_running rfl ht rfl,
    fun h => .of_running rfl ht (rangeSwitch_due (s := s.quiet) h), fun h => .of_running rfl ht (rangeSwitch_idle (s := s.quiet) h),
    fun h => .of_running rfl ht (zeroCrossing_none (s := s.quiet) h), fun t p rest h hlast => .of_running rfl ht (zeroCrossing_next (s := s.quiet) h hlast),
    fun t rest h hlast => .of_running rfl ht (zeroCrossing_first (s := s.quiet) h hlast),
    fun hon hen hlost htime => .of_running rfl ht (zcTimeout_lost (s := s.quiet) hon hen hlost htime),
    fun h => .of_running rfl ht (zcTimeout_idle (s := s.quiet) h), .of_running rfl ht rfl, .of_running rfl ht rfl⟩,
    stnOutputSample_idle, fun hon hlen hdue hfade hphase hen hzc => ?_, fun htakes => ⟨fun h => ?_, fun hgo hfeat => ?_⟩⟩
  · intro u
    have hstuck := modLoss_stuck (s := s.quiet) hon hen hrun
    exact ⟨fun h => .of_running rfl ht (hstuck.trans (State.stuck_lost h)), fun h => .of_running rfl ht (hstuck.trans (State.stuck_new h))⟩
  · intro u v
    have hends := stnBankDone_ends (s := s.quiet) hfade hdone
    exact ⟨fun h => .of_running rfl ht (hends.trans (if_neg (by rw [← Bool.not_eq_true] at h; exact h))),
      fun h => .of_running rfl ht (hends.trans (if_pos h))⟩
  · obtain ⟨u, hview, hsample⟩ := stnOutputSample_disabled hon hlen hdue hfade hphase hen hzc
    simp only [State.sampleView, Prod.mk.injEq] at hview
    obtain ⟨-, -, hlastK, hfirst, hmarks, hfadeAt⟩ := hview
    intro t
    have hstn : t.stn = _ := (congrArg State.stn hsample).trans (u.sampleTaken_stn _ (by decide))
    rw [hstn]
    exact ⟨rfl, by rw [hfirst]; rfl, hlastK, by rw [hmarks]; rfl, hfadeAt⟩
  · exact .of_takes rfl htakes (stnBankSwap_ignored (s := s.quiet) h)
  · have hk : k = fld w.toNat 0 2 := by rw [fld, Nat.pow_zero, Nat.div_one, ← show 4 = 2 ^ 2 from rfl]
    refine ⟨fun hfade hsame => ?_, fun hfade hother => ?_, fun hfade hfree => ?_, fun hfade hheld => ?_⟩
    · exact .of_takes rfl htakes ((stnBankSwap_starts (s := s.quiet) hk hgo hfeat hfade).trans (if_pos hsame))
    · exact .of_takes rfl htakes ((stnBankSwap_starts (s := s.quiet) hk hgo hfeat hfade).trans (if_neg hother))
    · refine .of_takes rfl htakes ((stnBankSwap_held (s := s.quiet) hk hgo hfeat hfade).trans ?_)
      rw [if_neg (by rw [← Bool.not_eq_true] at hfree; exact hfree)]
    · refine .of_takes rfl htakes ((stnBankSwap_held (s := s.quiet) hk hgo hfeat hfade).trans ?_)
      rw [if_pos (by exact hheld)]

end Sys2Proof.Machine
end

section
/-! PROOF. Bay cycles, the local synchrophasor item, pulse outputs, energy saves and the energy clear (R302 to R314). -/
namespace Sys2Proof.Machine
open Sys2Proof

/-! ## Bay cycles -/

section
variable {s : State} {q : Nat} {m : BayCycle}

theorem bayCycleEnd_idle (h : s.bit Reg.STN_STATUS 0 = false ∨ (s.bay q).n = 0) : bayCycleEnd q m s = s := by
  refine if_pos ?_
  rw [Bool.or_eq_true, Bool.not_eq_true', decide_eq_true_eq]
  exact h

/-- The quantities that a cycle's end tells the firn recorder: those held are skipped. -/
theorem cycleFirn_eq (vals : List (Int × Bool)) (q : Nat) : (fun (i _ : Nat) => if i / 64 ≠ q then none
    else match vals[i % 64]? with
      | some v => if v.2 then some none else some (some v.1)
      | none => none) = fun i _ => if i / 64 ≠ q then none else (vals[i % 64]?).map fun y => if y.2 then none else some y.1 := by
  funext i n
  cases vals[i % 64]? with
  | none => rfl
  | some v =>
    obtain ⟨x, held⟩ := v
    cases held <;> rfl

/-- The bay's quantities written, its energy added and its next cycle begun. -/
def State.cycleClosed (s : State) (q : Nat) (r : CycleOut) : State :=
  let u := (s.putQtys q 0 r.vals).setReg (Reg.STN_Q_HELD q) ((r.vals.zipIdx.map fun a => bitAt a.1.2 a.2).foldl (· + ·) 0)
  let v := ((u.setReg (Reg.STN_Q_SEQ q) ((u.rn (Reg.STN_Q_SEQ q) + 1) % 65536)).energyBay (s.pat 14) q (s.bay q) r.q r.s).setBay q { q := r.q, s := r.s }
  v.forRange (fun k s => s.rsCycle k) (4 * q) 4

theorem bayCycleEnd_closes (hon : s.bit Reg.STN_STATUS 0 = true) (hn : (s.bay q).n ≠ 0) : bayCycleEnd q m s =
    let r := (s.bay q).quantities m (stn40 (s.pat 14) 3)
    let y := s.cycleClosed q r
    y.firnAll 1 (t80OfNs y.stn.lastT) fun i _ =>
      if i / 64 ≠ q then none else (r.vals[i % 64]?).map fun y => if y.2 then none else some y.1 := by
  refine (if_neg ?_).trans (congrArg (State.firnAll _ 1 _) (cycleFirn_eq _ q))
  rw [hon, decide_eq_false hn]
  decide

end

/-! ## The local synchrophasor item -/

section
variable {s : State} {it : LocalItem}

theorem localPmuItem_none (h : localStream (s.pat 4) = none) : localPmuItem it s = s := by
  simp only [localPmuItem, h]

/-- The instant of the latest item whose window has left the chain. -/
def State.pmuInst (s : State) (n : Nat) : Nat :=
  latestInst (fld (strWord (s.pat 4) n 2) 24 8) ((s.nowNs : Int) - (s.pmuWindow (s.pat 14) / 2 : Nat) - 1944444).toNat

/-- The item of the window about `t0`, entered in its crossing. -/
def State.pmuPushed (s : State) (n : Nat) (it : LocalItem) (t0 : Nat) : State :=
  let rate := fld (strWord (s.pat 4) n 2) 24 8
  let src := fld (strWord (s.pat 4) n 1) 16 14
  let half := s.pmuWindow (s.pat 14) / 2
  let y := s.pmuPayload (s.pat 14) (srcWord (s.pat 4) src 0) it (s.windowMarks (t0 - half) (t0 + half))
  let u := ({ s with stn := { s.stn with pmuT := some t0 } } : State).setReg (Reg.DEC_SRC_Q src) y.qual
  u.pushItem true { src := src, sec := s.pmuInst n / rate, n := s.pmuInst n % rate, rate := rate, arr := u.nowT80, epoch := u.epoch, payload := y }

variable {n : Nat} (hlocal : localStream (s.pat 4) = some n)
include hlocal

theorem localPmuItem_unbegun (hfirst : s.stn.firstT = none) : localPmuItem it s = s := by
  simp only [localPmuItem, hlocal, hfirst, Bool.not_false, Bool.or_true, if_true]

theorem localPmuItem_pushes (hon : s.bit Reg.STN_STATUS 0 = true) (hm : s.measuring = true) (hrate : fld (strWord (s.pat 4) n 2) 24 8 ≠ 0)
    (hwin : s.pmuWindow (s.pat 14) ≠ 0) {t0 : Nat} (ht0 : t0 = instT0 (fld (strWord (s.pat 4) n 2) 24 8) (s.pmuInst n))
    (hnew : ∀ p, s.stn.pmuT = some p → p < t0) {f : Nat} (hfirst : s.stn.firstT = some f) (hbegun : f + s.pmuWindow (s.pat 14) / 2 ≤ t0) :
    localPmuItem it s = s.pmuPushed n it t0 := by
  subst ht0
  unfold localPmuItem
  extract_lets b sb w
  have hlocal' : localStream sb = some n := hlocal
  rw [hlocal']
  dsimp -zeta only
  extract_lets rate i t0 old begun
  have hold : old = false := by
    simp only [old]
    split
    · next p hp => exact decide_eq_false (Nat.not_le.2 (hnew p hp))
    · rfl
  have hbegun' : begun = true := by
    simp only [begun, hfirst]
    exact decide_eq_true hbegun
  refine if_neg ?_
  rw [hold, hbegun', hon, hm, decide_eq_false hrate, decide_eq_false hwin]
  decide

end

/-- The item's quality register is none of the time domain's. -/
theorem State.epoch_setSrcQ (s : State) (src v : Nat) : (s.setReg (Reg.DEC_SRC_Q src) v).epoch = s.epoch :=
  State.rf_congr (s.rn_setReg_other _ (by simp only [Reg.TIME_STATE, Reg.DEC_SRC_Q]; omega)) _ _

/-! ## Pulse outputs -/

section
variable {s : State} {p : Nat}

theorem epoPulseStart_owed (hon : s.epoOn (s.pat 14) p = true) (hidle : (s.epo p).active = false) (howed : s.rn (Reg.STN_EPO_OWED p) ≠ 0)
    (hpause : (s.epo p).since + fld (epoWord (s.pat 14) p 0) 16 16 * 2500 ≤ s.time.ticks) : epoPulseStart p s =
      ((s.setEpo p { s.epo p with active := true, since := s.time.ticks }).setReg (Reg.STN_EPO_OWED p) (s.rn (Reg.STN_EPO_OWED p) - 1)).count
        (Reg.STN_EPO_CNT p) := by
  refine if_pos ?_
  rw [hon, hidle, decide_eq_true howed, decide_eq_true hpause]
  rfl

theorem epoPulseStart_idle (h : s.epoOn (s.pat 14) p = false ∨ (s.epo p).active = true ∨ s.rn (Reg.STN_EPO_OWED p) = 0 ∨
    s.time.ticks < (s.epo p).since + fld (epoWord (s.pat 14) p 0) 16 16 * 2500) : epoPulseStart p s = s := by
  refine if_neg ?_
  rw [Bool.and_eq_true, Bool.and_eq_true, Bool.and_eq_true, Bool.not_eq_true', decide_eq_true_eq, decide_eq_true_eq]
  rintro ⟨⟨⟨hon, hidle⟩, howed⟩, hpause⟩
  obtain h | h | h | h := h
  · rw [hon] at h
    cases h
  · rw [hidle] at h
    cases h
  · exact howed h
  · exact Nat.not_le.2 h hpause

theorem epoPulseEnd_ends (hactive : (s.epo p).active = true)
    (h : s.epoOn (s.pat 14) p = false ∨ (s.epo p).since + fld (epoWord (s.pat 14) p 0) 16 16 * 2500 ≤ s.time.ticks) :
    epoPulseEnd p s = s.setEpo p { s.epo p with active := false, since := s.time.ticks } := by
  refine if_pos ?_
  rw [Bool.and_eq_true, Bool.or_eq_true, Bool.not_eq_true', decide_eq_true_eq]
  exact ⟨hactive, h⟩

theorem epoPulseEnd_idle (h : (s.epo p).active = false ∨ s.epoOn (s.pat 14) p = true ∧
    s.time.ticks < (s.epo p).since + fld (epoWord (s.pat 14) p 0) 16 16 * 2500) : epoPulseEnd p s = s := by
  refine if_neg ?_
  rw [Bool.and_eq_true, Bool.or_eq_true, Bool.not_eq_true', decide_eq_true_eq]
  rintro ⟨hactive, hdone⟩
  obtain h | ⟨hon, hlasts⟩ := h
  · rw [hactive] at h
    cases h
  · obtain hdone | hdone := hdone
    · rw [hon] at hdone
      cases hdone
    · exact Nat.not_le.2 hlasts hdone

end

/-! ## Saves and the energy clear -/

section
variable {s : State}

theorem periodicSave_due (hper : s.rn Reg.STN_SAVE_PERIOD ≠ 0) (hfeat : s.feat 52 = true)
    (hdue : s.stn.saveAt + 250000000 * s.rn Reg.STN_SAVE_PERIOD ≤ s.time.ticks) :
    periodicSave s = ({ s with stn := { s.stn with saveAt := s.time.ticks } } : State).trigSave 0 := by
  refine if_pos ?_
  rw [hfeat, decide_eq_true hper, decide_eq_true hdue]
  rfl

theorem periodicSave_off (h : s.rn Reg.STN_SAVE_PERIOD = 0 ∨ s.feat 52 = false) : periodicSave s = s := by
  refine if_neg ?_
  rw [Bool.and_eq_true, Bool.and_eq_true, decide_eq_true_eq]
  rintro ⟨⟨hper, hfeat⟩, -⟩
  obtain h | h := h
  · exact hper h
  · rw [hfeat] at h
    cases h

theorem State.trigSave_free (h : s.stn.save = none) (kind : Nat) : s.trigSave kind = s.beginSave kind := by
  rw [State.trigSave, h]

theorem State.trigSave_periodic {y : Nat × Save} (h : s.stn.save = some y) (hkind : y.2.kind = 0) : s.trigSave 0 = s := by
  rw [State.trigSave, h]
  exact if_pos hkind

theorem State.trigSave_missed {y : Nat × Save} (h : s.stn.save = some y) (hkind : y.2.kind ≠ 0) (kind : Nat) :
    s.trigSave kind = s.count Reg.STN_SAVE_MISS_CNT := by
  rw [State.trigSave, h]
  exact if_neg hkind

theorem saveComplete_none (h : s.stn.save = none) : saveComplete s = s := by
  rw [saveComplete, h]

theorem saveComplete_some {k : Nat} {y : Save} (h : s.stn.save = some (k, y)) : saveComplete s =
    let u : State := { s with stn := { s.stn with
      save := none, slot0 := if k = 0 then y else s.stn.slot0, slot1 := if k = 0 then s.stn.slot1 else y } }
    let v := (((u.setReg Reg.STN_SAVE_STATE (1 + 2 * k + 4 * y.kind + u.rf Reg.STN_SAVE_STATE 5 1 * 32)).setReg Reg.STN_SAVE_T0 y.t).setReg
      Reg.STN_SAVE_SEQ y.seq).count Reg.STN_SAVE_CNT
    if y.kind = 1 then v.raise 68 else v := by
  rw [saveComplete, h]

variable {w : Word}

theorem stnEclr_none (h : s.key.statsAt = none) : stnEclr w s = s := by
  rw [stnEclr, h]

theorem stnEclr_ignored {a : StatsWindow} (ha : s.key.statsAt = some a)
    (h : w.getLsbD 31 = false ∨ s.feat 52 = false ∨ a.energy = false ∨ 250000000 + a.since ≤ s.time.ticks) : stnEclr w s = s := by
  rw [stnEclr, ha]
  refine if_pos ?_
  rw [Bool.or_eq_true, Bool.or_eq_true, Bool.or_eq_true, Bool.not_eq_true', Bool.not_eq_true', Bool.not_eq_true', decide_eq_true_eq, or_assoc, or_assoc]
  exact h

theorem stnEclr_clears {a : StatsWindow} (ha : s.key.statsAt = some a) (hgo : w.getLsbD 31 = true) (hfeat : s.feat 52 = true) (henergy : a.energy = true)
    (htime : s.time.ticks < 250000000 + a.since) : stnEclr w s =
      let u : State := { s with key := { s.key with statsAt := if a.firn then some { a with energy := false } else none } }
      ((u.setEnergy [] []).forRange (fun q s => s.setReg (Reg.STN_EWRAP q) 0) 0 2).trigSave 3 := by
  rw [stnEclr, ha]
  refine if_neg ?_
  rw [hgo, hfeat, henergy, decide_eq_false (Nat.not_le.2 htime)]
  decide

end

/-- The item's arrival and epoch are those before its quality shows. -/
theorem State.pmuPushed_eq (s : State) (n : Nat) (it : LocalItem) (t0 : Nat) : s.pmuPushed n it t0 =
    (let rate := fld (strWord (s.pat 4) n 2) 24 8
     let src := fld (strWord (s.pat 4) n 1) 16 14
     let half := s.pmuWindow (s.pat 14) / 2
     let y : Item := {
       src := src, sec := s.pmuInst n / rate, n := s.pmuInst n % rate, rate := rate, arr := s.nowT80, epoch := s.epoch
       payload := s.pmuPayload (s.pat 14) (srcWord (s.pat 4) src 0) it (s.windowMarks (t0 - half) (t0 + half)) }
     (({ s with stn := { s.stn with pmuT := some t0 } } : State).setReg (Reg.DEC_SRC_Q src) y.payload.qual).pushItem true y) := by
  unfold State.pmuPushed
  dsimp only
  rw [State.epoch_setSrcQ]
  rfl

/-- Settles O40: each command by the cases of its meaning. -/
theorem energyAndSaves : Obligations.EnergyAndSaves := by
  intro s bay m it err pin who w q p b x width
  refine ⟨fun ht => ⟨fun h => .of_running rfl ht (bayCycleEnd_idle (s := s.quiet) h),
    fun hon hn => .of_running rfl ht (bayCycleEnd_closes (s := s.quiet) hon hn),
    fun hon hidle howed hpause => .of_running rfl ht (epoPulseStart_owed (s := s.quiet) hon hidle howed hpause),
    fun h => .of_running rfl ht (epoPulseStart_idle (s := s.quiet) h),
    fun hactive h => .of_running rfl ht (epoPulseEnd_ends (s := s.quiet) hactive h),
    fun h => .of_running rfl ht (epoPulseEnd_idle (s := s.quiet) h), fun hper hfeat hdue => ?_,
    fun h => .of_running rfl ht (periodicSave_off (s := s.quiet) h), fun h => .of_running rfl ht (saveComplete_none (s := s.quiet) h),
    fun k y h => .of_running rfl ht (saveComplete_some (s := s.quiet) h)⟩,
    fun ha => .of_live (f := fun s => localPmuItem it (s.crossing 0 err)) rfl ha rfl, State.crossing_ok, localPmuItem_none,
    fun n hlocal => ?_, fun htakes => ⟨fun a hauth hgo hfeat henergy htime => ?_, fun h => ?_, fun a hauth h => ?_⟩⟩
  · have hsave := periodicSave_due (s := s.quiet) hper hfeat hdue
    intro u
    exact ⟨fun h => .of_running rfl ht (hsave.trans (State.trigSave_free (s := u) h 0)),
      fun y h hkind => .of_running rfl ht (hsave.trans (State.trigSave_periodic (s := u) h hkind)),
      fun y h hkind => .of_running rfl ht (hsave.trans (State.trigSave_missed (s := u) h hkind 0))⟩
  · intro rate win i t0 src hon hm hrate hwin hnew
    exact ⟨fun f hfirst hbegun => (localPmuItem_pushes hlocal hon hm hrate hwin rfl hnew hfirst hbegun).trans (State.pmuPushed_eq s n it t0),
      localPmuItem_unbegun hlocal⟩
  · exact .of_takes rfl htakes (stnEclr_clears (s := s.quiet) hauth hgo hfeat henergy htime)
  · refine .of_takes rfl htakes ?_
    cases hstats : s.key.statsAt with
    | none => exact stnEclr_none (s := s.quiet) hstats
    | some a =>
      rw [hstats] at h
      exact stnEclr_ignored (s := s.quiet) hstats (h.resolve_left (by simp) |>.imp_right .inl)
  · exact .of_takes rfl htakes (stnEclr_ignored (s := s.quiet) hauth (.inr (.inr h)))

end Sys2Proof.Machine
end

section
/-! PROOF. The auxiliary converter's scans and urgent conversions (R318 to R321), and the firn recorder (R335 to R339). -/
namespace Sys2Proof.Machine
open Sys2Proof

/-- A field from bit 0 on. -/
theorem fld_low (x n : Nat) : x % 2 ^ n = fld x 0 n := by rw [fld, Nat.pow_zero, Nat.div_one]

/-! ## Scans -/

section
variable {s : State} {e : Nat}

theorem State.auxStart_refused (h : s.feat 53 = false ∨ auxCnt s.auxBody ≤ e) : s.auxStart e = s := by
  refine if_pos ?_
  rw [Bool.or_eq_true, Bool.not_eq_true', decide_eq_true_eq]
  exact h

variable (hfeat : s.feat 53 = true) (he : e < auxCnt s.auxBody)
include hfeat he

theorem State.auxStart_accepted : s.auxStart e =
    match s.aux.run with
    | none => s.setAux { s.aux with run := some { body := s.auxBody, entry := e }, since := if s.aux.urg.isNone then s.time.ticks else s.aux.since }
    | some _ => (if s.aux.held.isSome then s.count Reg.AUX_SCAN_REPL_CNT else s).setAux
        { (if s.aux.held.isSome then s.count Reg.AUX_SCAN_REPL_CNT else s).aux with held := some e } := by
  refine if_neg ?_
  rw [hfeat, decide_eq_false (Nat.not_le.2 he)]
  decide

theorem State.auxStart_free (hrun : s.aux.run = none) : s.auxStart e = s.setAux { s.aux with
    run := some { body := s.auxBody, entry := e }, since := if s.aux.urg.isNone then s.time.ticks else s.aux.since } := by
  rw [State.auxStart_accepted hfeat he, hrun]

theorem State.auxStart_held (hrun : s.aux.run.isSome = true) (hheld : s.aux.held = none) : s.auxStart e = s.setAux { s.aux with held := some e } := by
  obtain ⟨x, hrun⟩ := Option.isSome_iff_exists.1 hrun
  rw [State.auxStart_accepted hfeat he, hrun, hheld]
  rfl

theorem State.auxStart_replaces (hrun : s.aux.run.isSome = true) (hheld : s.aux.held.isSome = true) :
    s.auxStart e = (s.count Reg.AUX_SCAN_REPL_CNT).setAux { s.aux with held := some e } := by
  obtain ⟨x, hrun⟩ := Option.isSome_iff_exists.1 hrun
  rw [State.auxStart_accepted hfeat he, hrun, hheld]
  rfl

end

section
variable {s : State} {w : Word}

theorem auxCtrlStart_go (hgo : w.getLsbD 31 = true) : auxCtrlStart w s = s.auxStart (w.toNat % 2 ^ 5) := by
  rw [fld_low]
  exact if_pos hgo

theorem auxCtrlStart_ignored (h : w.getLsbD 31 = false ∨ s.feat 53 = false ∨ auxCnt s.auxBody ≤ w.toNat % 2 ^ 5) : auxCtrlStart w s = s := by
  cases hgo : w.getLsbD 31 with
  | false => exact if_neg (by rw [hgo]; decide)
  | true => exact (auxCtrlStart_go hgo).trans (State.auxStart_refused (h.resolve_left (by rw [hgo]; decide)))

theorem auxContStart_idle (h : wf s.auxBody 1 0 16 = 0 ∨ s.time.ticks < s.aux.contAt + wf s.auxBody 1 0 16 * 250) : auxContStart s = s := by
  refine if_neg ?_
  rw [Bool.and_eq_true, decide_eq_true_eq, decide_eq_true_eq]
  rintro ⟨hon, hdue⟩
  exact h.elim hon (fun h => Nat.not_le.2 h hdue)

theorem auxContStart_due (hon : wf s.auxBody 1 0 16 ≠ 0) (hdue : s.aux.contAt + wf s.auxBody 1 0 16 * 250 ≤ s.time.ticks) :
    auxContStart s = (s.setAux { s.aux with contAt := s.time.ticks }).auxStart (wf s.auxBody 1 16 5) := by
  refine if_pos ?_
  rw [decide_eq_true hon, decide_eq_true hdue]
  rfl

end

/-! ## Conversions -/

section
variable {s : State} {code : Nat}

theorem auxConversionEnd_none (h : s.aux.run = none) : auxConversionEnd code s = s := by
  rw [auxConversionEnd, h]

/-- The scan with the code added, and its first acquisition's time. -/
def State.auxAdded (u : State) (x : AuxRun) (code : Nat) : AuxRun :=
  { x with n := x.n + 1, sum := x.sum + code, t := if x.n = 0 then t80OfNs (u.nowNs - 750) else x.t }

/-- The scan goes on after a conversion: with the entry's next, with its result and the next entry, or to its end. -/
def State.auxOn (u : State) (y : AuxRun) : State :=
  let w := auxWord y.body y.entry 0
  if y.n < 2 ^ fld w 4 3 then u.setAux { u.aux with run := some y }
  else if fld w 12 1 = 1 || auxCnt y.body ≤ y.entry + 1 then (u.auxResult y).auxEnd
  else (u.auxResult y).setAux { (u.auxResult y).aux with run := some { body := y.body, entry := y.entry + 1 } }

section
variable {x : AuxRun} (hrun : s.aux.run = some x)
include hrun

theorem auxConversionEnd_waits (h : s.aux.urg.isSome = true ∨ s.time.ticks < s.aux.since + x.ext + 250) : auxConversionEnd code s = s := by
  rw [auxConversionEnd, hrun]
  refine if_pos ?_
  rw [Bool.or_eq_true, decide_eq_true_eq]
  exact h

theorem auxConversionEnd_due (hurg : s.aux.urg = none) (hdue : s.aux.since + x.ext + 250 ≤ s.time.ticks) : auxConversionEnd code s =
    let u := (s.count Reg.AUX_CONV_CNT).auxNext
    u.auxOn (u.auxAdded x code) := by
  rw [auxConversionEnd, hrun]
  refine if_neg ?_
  rw [hurg, decide_eq_false (Nat.not_lt.2 hdue)]
  decide

end

section
variable {u : State} {y : AuxRun}

theorem State.auxOn_more (h : y.n < 2 ^ fld (auxWord y.body y.entry 0) 4 3) : u.auxOn y = u.setAux { u.aux with run := some y } := if_pos h

theorem State.auxOn_ends (h : 2 ^ fld (auxWord y.body y.entry 0) 4 3 ≤ y.n)
    (hlast : fld (auxWord y.body y.entry 0) 12 1 = 1 ∨ auxCnt y.body ≤ y.entry + 1) : u.auxOn y = (u.auxResult y).auxEnd :=
  (if_neg (Nat.not_lt.2 h)).trans (if_pos (by rw [Bool.or_eq_true, decide_eq_true_eq, decide_eq_true_eq]; exact hlast))

theorem State.auxOn_next (h : 2 ^ fld (auxWord y.body y.entry 0) 4 3 ≤ y.n) (hmore : fld (auxWord y.body y.entry 0) 12 1 = 0)
    (hentry : y.entry + 1 < auxCnt y.body) : u.auxOn y =
      (u.auxResult y).setAux { (u.auxResult y).aux with run := some { body := y.body, entry := y.entry + 1 } } := by
  refine (if_neg (Nat.not_lt.2 h)).trans (if_neg ?_)
  rw [hmore, decide_eq_false (Nat.not_le.2 hentry)]
  decide

end

theorem auxUrgentEnd_idle (h : s.aux.urg = none ∨ s.time.ticks < s.aux.since + 250) : auxUrgentEnd code s = s := by
  unfold auxUrgentEnd
  split
  · rfl
  · next c hurg =>
    refine if_pos (h.resolve_left ?_)
    rw [hurg]
    exact Option.some_ne_none c

theorem auxUrgentEnd_due {c : Nat} (hurg : s.aux.urg = some c) (hdue : s.aux.since + 250 ≤ s.time.ticks) : auxUrgentEnd code s =
    let u := ((s.count Reg.AUX_CONV_CNT).count Reg.AUX_URG_CNT).auxNext
    let v := u.setReg Reg.AUX_URG_RESULT (2 ^ 31 + (code * 16 + 2 ^ 20 * c))
    (v.setReg Reg.AUX_URG_T (t80OfNs (v.nowNs - 750))).raise 70 := by
  rw [auxUrgentEnd, hurg]
  exact if_neg (Nat.not_lt.2 hdue)

end

section
variable {s : State} {w : Word}

theorem auxUrgent_ignored (h : w.getLsbD 31 = false ∨ s.feat 53 = false) : auxUrgent w s = s := by
  refine if_pos ?_
  rw [Bool.or_eq_true, Bool.not_eq_true', Bool.not_eq_true']
  exact h

variable (hgo : w.getLsbD 31 = true) (hfeat : s.feat 53 = true)
include hgo hfeat

theorem auxUrgent_accepted : auxUrgent w s =
    if !s.converting then s.setAux { s.aux with urg := some (fld w.toNat 0 4), since := s.time.ticks }
    else if 4 ≤ s.aux.urgent.length then s.count Reg.AUX_URG_LOST_CNT
    else s.setAux { s.aux with urgent := s.aux.urgent ++ [fld w.toNat 0 4] } :=
  if_neg (by rw [hgo, hfeat]; decide)

theorem auxUrgent_converts (hfree : s.converting = false) :
    auxUrgent w s = s.setAux { s.aux with urg := some (w.toNat % 2 ^ 4), since := s.time.ticks } := by
  rw [auxUrgent_accepted hgo hfeat, fld_low, hfree]
  rfl

theorem auxUrgent_queues (hbusy : s.converting = true) (hroom : s.aux.urgent.length < 4) :
    auxUrgent w s = s.setAux { s.aux with urgent := s.aux.urgent ++ [w.toNat % 2 ^ 4] } := by
  rw [auxUrgent_accepted hgo hfeat, fld_low, hbusy, if_neg (Nat.not_le.2 hroom)]
  rfl

theorem auxUrgent_lost (hbusy : s.converting = true) (hfull : 4 ≤ s.aux.urgent.length) : auxUrgent w s = s.count Reg.AUX_URG_LOST_CNT := by
  rw [auxUrgent_accepted hgo hfeat, hbusy, if_pos hfull]
  rfl

end

/-! ## The firn recorder -/

section
variable {s : State}

theorem firnUpdate_none {errs : List MemErr} (h : s.firn.queue = []) : firnUpdate errs s = s := by
  rw [firnUpdate, h]

theorem firnUpdate_next {errs : List MemErr} {x : FirnUpd} {rest : List FirnUpd} (h : s.firn.queue = x :: rest) : firnUpdate errs s =
    let u : State := { s with firn := { s.firn with queue := rest, watch := s.watchRead } }
    (u.forRange (fun k v => v.firnApply s.recBody x k (errs.getD k .ok)) 0 3).count Reg.FIRN_UPD_CNT := by
  rw [firnUpdate, h]

section
variable {q p h : Nat}

theorem firnScrub_bad {err : MemErr} (hbad : s.firnBad q p h = true) : firnScrub q p h err s = s := if_pos hbad

variable (hbad : s.firnBad q p h = false) (hinject : s.flt.inject = none)
include hbad

theorem firnScrub_reads (err : MemErr) : firnScrub q p h err s = (s.firnRead q p h err).2 := if_neg (by rw [hbad]; decide)

include hinject

theorem firnScrub_ok : firnScrub q p h .ok s = s := by
  rw [firnScrub_reads hbad, State.firnRead, State.check_clean (by exact hinject) (by decide) (by decide)]
  rfl

theorem firnScrub_ce : firnScrub q p h .ce s = s.count Reg.FIRN_CE_CNT := by
  rw [firnScrub_reads hbad, State.firnRead, State.check_clean (by exact hinject) (by decide) (by decide)]
  rfl

theorem firnScrub_ue : firnScrub q p h .ue s = (s.detect 45 (q + p * 2 ^ 10 + h * 2 ^ 12) false).firnPoison q p h := by
  rw [firnScrub_reads hbad, State.firnRead, State.check_ue (by exact hinject)]

end

theorem firnPeriod_idle {p : Nat} (h : s.feat 58 = false ∨ (s.utcNs / 1000000000).toNat / periodLen p * periodLen p ≤ Tbl.get s.firn.bound p 0) :
    firnPeriod p s = s := by
  refine if_pos ?_
  rw [Bool.or_eq_true, Bool.not_eq_true', decide_eq_true_eq]
  exact h

theorem firnPeriod_turns {p b : Nat} (hb : b = (s.utcNs / 1000000000).toNat / periodLen p * periodLen p) (hfeat : s.feat 58 = true)
    (hnew : Tbl.get s.firn.bound p 0 < b) : firnPeriod p s =
      let u : State := { s with firn := { s.firn with bound := Tbl.set s.firn.bound p b 0 } }
      let v := u.setF Reg.FIRN_CUR p 1 (1 - u.firnCur p)
      ((v.setReg (Reg.FIRN_PSTART p) (t80 ((b : Int) + v.utcOfs).toNat 0)).countBy Reg.FIRN_PERIOD_SKIP_CNT
        ((b - Tbl.get s.firn.bound p 0) / periodLen p - 1)).raise 76 := by
  subst hb
  refine if_neg ?_
  rw [hfeat, decide_eq_false (Nat.not_le.2 hnew)]
  decide

variable {w : Word}

theorem firnClr_none (h : s.key.statsAt = none) : firnClr w s = s := by
  rw [firnClr, h]

theorem firnClr_ignored {a : StatsWindow} (ha : s.key.statsAt = some a) (h : w.getLsbD 31 = false ∨ s.feat 58 = false) : firnClr w s = s := by
  rw [firnClr, ha]
  refine if_pos ?_
  rw [Bool.or_eq_true, Bool.or_eq_true, Bool.or_eq_true, Bool.or_eq_true, Bool.not_eq_true', Bool.not_eq_true']
  exact .inl (.inl (.inl h))

/-- The clear of the named periods, logged and counted. -/
def State.firnCleared (u : State) (ps : Nat) : State :=
  let c := (u.forRange (fun p v => if fld ps p 1 = 1 then v.clearPeriod (watchCnt v.recBody) p else v) 0 3).clearPoison ps 0 16
  let seq := (c.2.firn.clrSeq + 1) % 2 ^ 32
  let v : State := { c.2 with firn := { c.2.firn with clrSeq := seq, vol := c.2.firn.vol.filter fun r => fld ps (r / 2 % 3) 1 = 0 } }
  let k := v.rn Reg.FIRN_CLRLOG_HEAD
  ((((v.setReg (Reg.FIRN_CLRLOG k) v.nowT80).setReg (Reg.FIRN_CLRLOG_INFO k) (ps + c.1 * 8 + seq % 2 ^ 24 * 256)).setReg Reg.FIRN_CLRLOG_HEAD
    ((k + 1) % 8)).count Reg.FIRN_CLR_CNT).raise 79

theorem firnClr_clears {a : StatsWindow} {ps : Nat} (hps : ps = fld w.toNat 0 3) (ha : s.key.statsAt = some a) (hgo : w.getLsbD 31 = true)
    (hfeat : s.feat 58 = true) (hfirn : a.firn = true) (hnamed : ps &&& a.periods = ps) (htime : s.time.ticks < 250000000 + a.since) :
    firnClr w s =
      ({ s with key := { s.key with statsAt := if a.energy then some { a with firn := false } else none } } : State).firnCleared ps := by
  subst hps
  rw [firnClr, ha]
  refine if_neg ?_
  rw [hgo, hfeat, hfirn, decide_eq_false (not_not_intro hnamed), decide_eq_false (Nat.not_le.2 htime)]
  decide

end

/-- Settles O41: each command by the cases of its meaning. -/
theorem auxAndFirn : Obligations.AuxAndFirn := by
  intro s who w code errs err qty period half e p
  refine ⟨fun htakes => ⟨fun h => .of_takes rfl htakes (auxCtrlStart_ignored (s := s.quiet) h), fun hgo hfeat he => ?_⟩,
    fun htakes => ⟨fun h => .of_takes rfl htakes (auxUrgent_ignored (s := s.quiet) h),
      fun hgo hfeat hfree => .of_takes rfl htakes (auxUrgent_converts (s := s.quiet) hgo hfeat hfree),
      fun hgo hfeat hbusy hroom => .of_takes rfl htakes (auxUrgent_queues (s := s.quiet) hgo hfeat hbusy hroom),
      fun hgo hfeat hbusy hfull => .of_takes rfl htakes (auxUrgent_lost (s := s.quiet) hgo hfeat hbusy hfull)⟩,
    fun ha => ⟨?_, .of_live (f := fun s => auxConversionEnd code.toNat (s.crossing 0 err)) rfl ha rfl,
      .of_live (f := fun s => auxUrgentEnd code.toNat (s.crossing 0 err)) rfl ha rfl, .of_live rfl ha rfl,
      fun h => .of_live rfl ha (firnUpdate_none (s := s.quiet) h), fun x rest h => .of_live rfl ha (firnUpdate_next (s := s.quiet) h),
      fun h => .of_live rfl ha (firnScrub_bad (s := s.quiet) h), fun hbad hinject => ?_, ?_⟩,
    auxConversionEnd_none, fun x hrun => ⟨auxConversionEnd_waits hrun, fun hurg hdue => ?_⟩, auxUrgentEnd_idle, fun c => auxUrgentEnd_due,
    fun htakes => ?_⟩
  · have hstart := auxCtrlStart_go (s := s.quiet) hgo
    exact ⟨fun hrun => .of_takes rfl htakes (hstart.trans (State.auxStart_free (s := s.quiet) hfeat he hrun)),
      fun hrun hheld => .of_takes rfl htakes (hstart.trans (State.auxStart_held (s := s.quiet) hfeat he hrun hheld)),
      fun hrun hheld => .of_takes rfl htakes (hstart.trans (State.auxStart_replaces (s := s.quiet) hfeat he hrun hheld))⟩
  · exact ⟨fun h => .of_live rfl ha (auxContStart_idle (s := s.quiet) h),
      fun hon hdue => .of_live rfl ha (auxContStart_due (s := s.quiet) hon hdue)⟩
  · refine ⟨fun h => ?_, fun h => ?_, fun h => ?_⟩
    · exact .of_live rfl ha (h ▸ firnScrub_ok (s := s.quiet) hbad hinject)
    · exact .of_live rfl ha (h ▸ firnScrub_ce (s := s.quiet) hbad hinject)
    · exact .of_live rfl ha (h ▸ firnScrub_ue (s := s.quiet) hbad hinject)
  · exact ⟨fun h => .of_live rfl ha (firnPeriod_idle (s := s.quiet) h),
      fun hfeat hnew => .of_live rfl ha (firnPeriod_turns (s := s.quiet) rfl hfeat hnew)⟩
  · have hend := auxConversionEnd_due (code := code.toNat) hrun hurg hdue
    intro u y e0
    exact ⟨fun h => hend.trans (State.auxOn_more (y := y) h), fun h hlast => hend.trans (State.auxOn_ends (y := y) h hlast),
      fun h hmore hentry => hend.trans (State.auxOn_next (y := y) h hmore hentry)⟩
  · intro ps
    refine ⟨fun h => .of_takes rfl htakes ?_, fun a hauth hgo hfeat hfirn hnamed htime =>
      .of_takes rfl htakes (firnClr_clears (s := s.quiet) (fld_low _ _) hauth hgo hfeat hfirn hnamed htime)⟩
    cases hstats : s.key.statsAt with
    | none => exact firnClr_none (s := s.quiet) hstats
    | some a =>
      rw [hstats] at h
      exact firnClr_ignored (s := s.quiet) hstats (h.resolve_left (Option.some_ne_none a))

end Sys2Proof.Machine
end

section
/-! PROOF. Capture triggers, plans, records and the spill ring (R325 to R334). -/
namespace Sys2Proof.Machine
open Sys2Proof

/-! ## Triggers -/

section
variable {s : State} {k : Nat}

theorem State.capFire_unarmed (t : Nat) (hneed : trigNeedArm s.recBody k = false) :
    let n := fld (trigWord s.recBody k 0) 4 4
    (s.planState n = capPost → s.capFire k t = (s.setPlan n { s.plan n with retrig := min ((s.plan n).retrig + 1) 16383 }).count Reg.CAP_RETRIG_CNT) ∧
    (s.planState n ≠ capPost → s.planState n ≠ capArmed → s.capFire k t = (s.count Reg.CAP_TRIG_MISS_CNT).raise 73) := by
  intro n
  have hkept : (if trigNeedArm s.recBody k then s.setF (trigReg k) (k % 32) 1 0 else s) = s := if_neg (by rw [hneed]; decide)
  constructor
  · intro hpost
    unfold State.capFire
    dsimp only
    rw [hkept, if_neg (by rw [hpost]; decide), if_pos hpost]
  · intro hpost harmed
    unfold State.capFire
    dsimp only
    rw [hkept, if_neg harmed, if_neg hpost]

theorem State.fireLevel_none (h : Tbl.get s.cap.due k none = none) : s.fireLevel k = s := by
  rw [State.fireLevel, h]

theorem State.fireLevel_due {t : Nat} (h : Tbl.get s.cap.due k none = some t) : s.fireLevel k =
    let u : State := { s with cap := { s.cap with due := Tbl.set s.cap.due k none none } }
    if s.trigArmed k then u.capFire k t else u := by
  rw [State.fireLevel, h]
  rfl

theorem levelTrigger_none (h : Tbl.get s.cap.due k none = none) : levelTrigger k s = s := if_neg (by rw [h]; decide)

theorem levelTrigger_due (h : (Tbl.get s.cap.due k none).isSome = true) : levelTrigger k s = s.forRange (fun k u => u.fireLevel k) 0 64 := if_pos h

theorem State.capArm_ignored (h : trigCnt s.recBody ≤ k ∨ trigEn s.recBody k = false ∨ s.trigArmed k = true) : s.capArm k = s := by
  refine if_pos ?_
  rw [Bool.or_eq_true, Bool.or_eq_true, Bool.not_eq_true', decide_eq_true_eq]
  exact or_assoc.2 h

/-- Trigger `k` armed, with no crossing of it known. -/
def State.trigSet (s : State) (k : Nat) : State :=
  let u := s.setF (trigReg k) (k % 32) 1 1
  { u with cap := { u.cap with prev := Tbl.set u.cap.prev k none none, due := Tbl.set u.cap.due k none none } }

theorem State.capArm_arms (hk : k < trigCnt s.recBody) (hen : trigEn s.recBody k = true) (harmed : s.trigArmed k = false) : s.capArm k =
    if trigKind s.recBody k = 0 then (s.trigSet k).capFire k (s.trigSet k).nowNs else s.trigSet k := by
  refine if_neg ?_
  rw [hen, harmed, decide_eq_false (Nat.not_le.2 hk)]
  decide

end

section
variable {s : State} {w : Word} {k : Nat} (hk : k = fld w.toNat 0 6)
include hk

theorem capTrigArm_go (hgo : w.getLsbD 31 = true) : capTrigArm w s = s.capArm k := hk ▸ if_pos hgo

theorem capTrigArm_ignored (h : w.getLsbD 31 = false ∨ trigCnt s.recBody ≤ k ∨ trigEn s.recBody k = false ∨ s.trigArmed k = true) :
    capTrigArm w s = s := by
  cases hgo : w.getLsbD 31 with
  | false => exact if_neg (by rw [hgo]; decide)
  | true => exact (capTrigArm_go hk hgo).trans (State.capArm_ignored (h.resolve_left (by rw [hgo]; decide)))

theorem capTrigFire_armed (hgo : w.getLsbD 31 = true) (hcnt : k < trigCnt s.recBody) (hen : trigEn s.recBody k = true) (harmed : s.trigArmed k = true) :
    capTrigFire w s = s.capFire k s.nowNs := by
  subst hk
  refine if_pos ?_
  rw [hgo, hen, harmed, decide_eq_true hcnt]
  rfl

theorem capTrigFire_ignored (h : w.getLsbD 31 = false ∨ trigCnt s.recBody ≤ k ∨ trigEn s.recBody k = false ∨ s.trigArmed k = false) :
    capTrigFire w s = s := by
  subst hk
  refine if_neg ?_
  rw [Bool.and_eq_true, Bool.and_eq_true, Bool.and_eq_true, decide_eq_true_eq]
  rintro ⟨⟨⟨hgo, hcnt⟩, hen⟩, harmed⟩
  obtain h | h | h | h := h
  · rw [hgo] at h
    cases h
  · exact Nat.not_le.2 hcnt h
  · rw [hen] at h
    cases h
  · rw [harmed] at h
    cases h

end

/-! ## Plans and records -/

section
variable {s : State} {w : Word} {n : Nat} (hn : n = fld w.toNat 0 4)
include hn

theorem capStop_runs (hgo : w.getLsbD 9 = true) (hcnt : n < planCnt s.recBody)
    (hstate : s.planState n = capArmed ∨ s.planState n = capPost ∨ s.planState n = capWait) : capStop w s =
      (s.setPlan n { slot := (s.plan n).slot, used := (s.plan n).used }).setPlanState s.recBody n capStopped := by
  subst hn
  refine if_pos ?_
  rw [State.capRuns, Bool.and_eq_true, Bool.and_eq_true, Bool.or_eq_true, Bool.or_eq_true, decide_eq_true_eq, decide_eq_true_eq, decide_eq_true_eq,
    decide_eq_true_eq, or_assoc]
  exact ⟨⟨hgo, hcnt⟩, hstate⟩

theorem capStop_ignored (h : w.getLsbD 9 = false ∨ planCnt s.recBody ≤ n) : capStop w s = s := by
  subst hn
  refine if_neg ?_
  rw [Bool.and_eq_true, Bool.and_eq_true, decide_eq_true_eq]
  rintro ⟨⟨hgo, hcnt⟩, -⟩
  obtain h | h := h
  · rw [hgo] at h
    cases h
  · exact Nat.not_le.2 hcnt h

theorem capRearm_stopped (hgo : w.getLsbD 8 = true) (hcnt : n < planCnt s.recBody) (hstate : s.planState n = capStopped) :
    capRearm w s = s.nextSlot s.recBody n := by
  subst hn
  refine if_pos ?_
  rw [hgo, decide_eq_true hcnt, decide_eq_true hstate]
  rfl

theorem capRearm_ignored (h : w.getLsbD 8 = false ∨ planCnt s.recBody ≤ n ∨ s.planState n ≠ capStopped) : capRearm w s = s := by
  subst hn
  refine if_neg ?_
  rw [Bool.and_eq_true, Bool.and_eq_true, decide_eq_true_eq, decide_eq_true_eq]
  rintro ⟨⟨hgo, hcnt⟩, hstate⟩
  obtain h | h | h := h
  · rw [hgo] at h
    cases h
  · exact Nat.not_le.2 hcnt h
  · exact h hstate

end

section
variable {s : State} {n : Nat}

theorem capDone_incomplete (h : s.capComplete n = false) (err : MemErr) (errAt : Nat) : capDone n err errAt s = s := if_neg (by rw [h]; decide)

theorem capDone_complete (h : s.capComplete n = true) (err : MemErr) (errAt : Nat) : capDone n err errAt s = s.finishRecord s.recBody n err errAt :=
  if_pos h

theorem capSeamRow_none (hdone : s.capComplete n = false) (h : (s.plan n).waiting = []) : capSeamRow n s = s := by
  rw [capSeamRow, capDone_incomplete hdone]
  dsimp only
  rw [h]

theorem capSeamRow_next {r : CapRow} {rest : List CapRow} (hdone : s.capComplete n = false) (h : (s.plan n).waiting = r :: rest) :
    capSeamRow n s = (s.setPlan n { s.plan n with waiting := rest }).storeRow s.recBody n r := by
  rw [capSeamRow, capDone_incomplete hdone]
  dsimp only
  rw [h]

end

/-! ## The spill ring -/

section
variable {s : State}

theorem capSpillCopy_idle (h : s.cap.spill = [] ∨ s.bit Reg.CAP_SPILL_STATE 0 = true ∨ s.pwr.state ≠ .run) : capSpillCopy s = s := by
  unfold capSpillCopy
  dsimp only
  split
  · rfl
  · next r rest hspill =>
    refine if_pos ?_
    rw [Bool.or_eq_true, decide_eq_true_eq]
    exact h.resolve_left (by rw [hspill]; exact List.cons_ne_nil _ _)

/-- The record `r` copied to the ring at the write pointer. -/
def State.spillCopied (s : State) (b : List Byte) (r : CapSpill) (rest : List CapSpill) : State :=
  let bytes := Memory.read s.cap.mem r.addr r.len
  let a := spillBase b + s.spillW
  let u := (s.ddrWrite (a + 64) (bytes.drop 64)).ddrWrite a (bytes.take 46 ++ leBytes 2 (s.rn Reg.CAP_SPILL_LAP) ++ (bytes.drop 48).take 16)
  let x := u.setSpillW (u.spillW + r.len)
  ((({ x with cap := { u.cap with spill := rest } } : State).count Reg.CAP_SPILL_CNT).freeSlot b r.plan r.slot).showSpill

theorem capSpillCopy_fits {r : CapSpill} {rest : List CapSpill} (hspill : s.cap.spill = r :: rest) (hstop : s.bit Reg.CAP_SPILL_STATE 0 = false)
    (hrun : s.pwr.state = .run) (hfits : s.spillFits s.recBody r.len = true) (hend : s.spillW + r.len ≤ spillSize s.recBody) :
    capSpillCopy s = s.spillCopied s.recBody r rest := by
  rw [capSpillCopy, hspill]
  dsimp only
  rw [if_neg (by rw [hstop, hrun]; decide), if_pos hfits, if_pos hend]
  rfl

theorem capSpillRptrWrite_free {who : Party} {hi : Word} (hfeat : s.feat 57 = true) (hspill : s.cap.spill = []) : capSpillRptrWrite who hi s =
    let key := Reg.CAP_SPILL_RPTR_LO * 16 + who.num
    let lo := (Tbl.get s.heldLo key none).getD (s.rn Reg.CAP_SPILL_RPTR_LO)
    (((({ s with heldLo := Tbl.set s.heldLo key none none } : State).setReg Reg.CAP_SPILL_RPTR_LO lo).setReg Reg.CAP_SPILL_RPTR_HI hi.toNat).setF
      Reg.CAP_SPILL_STATE 0 1 0).showSpill := by
  unfold capSpillRptrWrite
  extract_lets key lo released committed
  have hfeat' : released.feat 57 = true := hfeat
  have hspill' : committed.cap.spill = [] := hspill
  rw [if_neg (by rw [hfeat']; decide), hspill']

end

/-- Settles O42: each command by the cases of its meaning. -/
theorem captureRecords : Obligations.CaptureRecords := by
  intro s who w trig plan err at_ b k n
  have hk : k = fld w.toNat 0 6 := fld_low _ _
  have hn : n = fld w.toNat 0 4 := fld_low _ _
  refine ⟨fun k t => State.capFire_unarmed t, fun k => ⟨State.fireLevel_none, fun t => State.fireLevel_due⟩,
    fun htakes => ⟨fun h => .of_takes rfl htakes (capTrigArm_ignored (s := s.quiet) hk h), fun hgo hcnt hen harmed => ?_⟩,
    fun htakes => ⟨fun hgo hcnt hen harmed => .of_takes rfl htakes (capTrigFire_armed (s := s.quiet) hk hgo hcnt hen harmed),
      fun h => .of_takes rfl htakes (capTrigFire_ignored (s := s.quiet) hk h)⟩,
    fun htakes => ⟨fun hgo hcnt hstate => .of_takes rfl htakes (capStop_runs (s := s.quiet) hn hgo hcnt hstate),
      fun h => .of_takes rfl htakes (capStop_ignored (s := s.quiet) hn h),
      fun hgo hcnt hstate => .of_takes rfl htakes (capRearm_stopped (s := s.quiet) hn hgo hcnt hstate),
      fun h => .of_takes rfl htakes (capRearm_ignored (s := s.quiet) hn h)⟩,
    fun ha => ⟨fun h => .of_live rfl ha (levelTrigger_none (s := s.quiet) h), fun h => .of_live rfl ha (levelTrigger_due (s := s.quiet) h),
      fun hdone => ⟨fun h => .of_live rfl ha (capSeamRow_none (s := s.quiet) hdone h),
        fun r rest h => .of_live rfl ha (capSeamRow_next (s := s.quiet) hdone h), .of_live rfl ha (capDone_incomplete (s := s.quiet) hdone err at_)⟩,
      fun hdone => .of_live rfl ha (capDone_complete (s := s.quiet) hdone err at_), fun h => .of_live rfl ha (capSpillCopy_idle (s := s.quiet) h),
      fun r rest hspill hstop hrun hfits hend => .of_live rfl ha (capSpillCopy_fits (s := s.quiet) hspill hstop hrun hfits hend)⟩,
    fun htakes hfeat hspill => .of_takes rfl htakes (capSpillRptrWrite_free (s := s.quiet) hfeat hspill)⟩
  have harm := (capTrigArm_go (s := s.quiet) hk hgo).trans (State.capArm_arms (s := s.quiet) hcnt hen harmed)
  intro u v
  exact ⟨fun hkind => .of_takes rfl htakes (harm.trans (if_neg hkind)), fun hkind => .of_takes rfl htakes (harm.trans (if_pos hkind))⟩

end Sys2Proof.Machine
end

section
/-! PROOF. Posting and filing of tokens, job counters, completions and the decision trace (R351 to R353, R359 to R361). -/
namespace Sys2Proof.Machine
open Sys2Proof

/-! ## Filing a token -/

section
variable {s : State} {k : Post}

/-- A posted token counted and traced, and the checker of its thread's record run. -/
def State.tokPosted (s : State) (k : Post) : State :=
  (s.count Reg.DISP_POST_CNT).traceAdd trPost k.core k.thread (thrPrio (s.pat 17) k.thread) k.port k.src k.value

theorem State.fileTok_discards (h : (s.tokPosted k).img.inForce = false ∨ thrExists (s.pat 17) k.thread = false ∨
    thrNtok (s.pat 17) k.thread ≤ k.port) : s.fileTok k = (((s.tokPosted k).count Reg.DISP_DISC_CNT).raise 91).traceAdd trDiscard k.core k.thread
      (thrPrio (s.pat 17) k.thread) k.port k.src k.value := by
  refine if_pos ?_
  rw [Bool.or_eq_true, Bool.or_eq_true, Bool.not_eq_true', Bool.not_eq_true', decide_eq_true_eq]
  exact or_assoc.2 h

/-- A token at its port, a collision counted, and its thread at the state that follows. -/
def State.tokFiled (c : State) (b : List Byte) (k : Post) : State :=
  let x := c.thread k.thread
  (if (Tbl.get x.filed k.port none).isSome then
      ((c.count Reg.DISP_COLL_CNT).raise 82).traceAdd trColl k.core k.thread (thrPrio b k.thread) k.port k.src k.value
    else c).setThread k.thread { x with filed := Tbl.set x.filed k.port (some k.value) none }

section
variable {y : Thread} (hloaded : (s.tokPosted k).img.inForce = true) (hexists : thrExists (s.pat 17) k.thread = true)
  (hport : k.port < thrNtok (s.pat 17) k.thread) {c : State} (hc : c = ((s.tokPosted k).checkFound 26 k.thread).2)
  (hy : y = { c.thread k.thread with filed := Tbl.set (c.thread k.thread).filed k.port (some k.value) none })
include hloaded hexists hport hc hy

theorem State.fileTok_files : s.fileTok k =
    let z := c.tokFiled (s.pat 17) k
    if (y.state = 0 && y.complete (thrNtok (s.pat 17) k.thread)) = true then
      if (z.disp.cancels.contains k.thread && z.disp.cancelT = z.time.ticks) = true then
        let v := z.setThread k.thread {}
        let v := { v with disp := { v.disp with cancels := v.disp.cancels.erase k.thread } }
        (((v.count Reg.DISP_COR_CNT).count Reg.DISP_CANCEL_CNT).raise 84).traceThr trCor 0 k.thread 0
      else z.makeReady (s.pat 17) k.thread
    else z := by
  subst hc hy
  refine if_neg ?_
  rw [show ((s.count Reg.DISP_POST_CNT).traceAdd trPost k.core k.thread (thrPrio (s.pat 17) k.thread) k.port k.src k.value).img.inForce = true
    from hloaded, hexists, decide_eq_false (Nat.not_le.2 hport)]
  decide

theorem State.fileTok_incomplete (h : y.state ≠ 0 ∨ y.complete (thrNtok (s.pat 17) k.thread) = false) :
    s.fileTok k = c.tokFiled (s.pat 17) k := by
  refine (State.fileTok_files hloaded hexists hport hc hy).trans (if_neg ?_)
  rw [Bool.and_eq_true, decide_eq_true_eq]
  rintro ⟨hidle, hall⟩
  obtain h | h := h
  · exact h hidle
  · rw [hall] at h
    cases h

theorem State.fileTok_ready (hidle : y.state = 0) (hall : y.complete (thrNtok (s.pat 17) k.thread) = true)
    (hcancel : (c.tokFiled (s.pat 17) k).disp.cancels.contains k.thread = false ∨
      (c.tokFiled (s.pat 17) k).disp.cancelT ≠ (c.tokFiled (s.pat 17) k).time.ticks) :
    s.fileTok k = (c.tokFiled (s.pat 17) k).makeReady (s.pat 17) k.thread := by
  refine (State.fileTok_files hloaded hexists hport hc hy).trans ((if_pos (by rw [hall, decide_eq_true hidle]; rfl)).trans (if_neg ?_))
  rw [Bool.and_eq_true, decide_eq_true_eq]
  rintro ⟨hmember, hcycle⟩
  obtain h | h := hcancel
  · rw [hmember] at h
    cases h
  · exact h hcycle

end

end

/-! ## Jobs -/

section
variable {s : State} {j : Nat}

theorem jobFire_idle (h : jobCnt (s.pat 17) ≤ j ∨ fld (jobWord (s.pat 17) j 0) 0 16 = 0 ∨ s.rn (Reg.DISP_JOB j) ≠ 0) : jobFire j s = s := by
  refine if_pos ?_
  rw [Bool.or_eq_true, Bool.or_eq_true, decide_eq_true_eq, decide_eq_true_eq, decide_eq_true_eq]
  exact or_assoc.2 h

theorem jobFire_fires (hcnt : j < jobCnt (s.pat 17)) (hon : fld (jobWord (s.pat 17) j 0) 0 16 ≠ 0) (hzero : s.rn (Reg.DISP_JOB j) = 0) :
    jobFire j s =
      let a := jobWord (s.pat 17) j 0
      let val := fld (jobWord (s.pat 17) j 1) 0 16
      let v := (s.checkFound 26 (0x400 + j)).2
      (((v.setReg (Reg.DISP_JOB j) (fld a 0 16)).count Reg.DISP_JOB_FIRE_CNT).traceAdd trJobFire 0 j 0 0 3 val).fileTok
        { thread := fld a 16 10, port := fld a 26 2, value := val, src := 3 } := by
  refine if_neg ?_
  rw [hzero, decide_eq_false (Nat.not_le.2 hcnt), decide_eq_false hon]
  decide

theorem State.jobDec_none (h : jobCnt (s.pat 17) ≤ j ∨ fld (jobWord (s.pat 17) j 0) 0 16 = 0) : s.jobDec j = s := by
  refine if_pos ?_
  rw [Bool.or_eq_true, decide_eq_true_eq, decide_eq_true_eq]
  exact h

/-- The job's firing of an earlier tick, which comes before a decrement. -/
def State.jobFired (s : State) (j : Nat) : State := if Tbl.get s.disp.zeroT j 0 < s.time.ticks then jobFire j s else s

section
variable (hcnt : j < jobCnt (s.pat 17)) (hon : fld (jobWord (s.pat 17) j 0) 0 16 ≠ 0)
include hcnt hon

theorem State.jobDec_counts : s.jobDec j =
    let v := s.jobFired j
    if v.rn (Reg.DISP_JOB j) = 0 then ((v.count Reg.DISP_JOB_UNDER_CNT).raise 83).traceAdd trJobUnder 0 j 0 0 4 0
    else (if v.rn (Reg.DISP_JOB j) = 1 then { v with disp := { v.disp with zeroT := Tbl.set v.disp.zeroT j v.time.ticks 0 } } else v).setReg
      (Reg.DISP_JOB j) (v.rn (Reg.DISP_JOB j) - 1) := by
  refine if_neg ?_
  rw [decide_eq_false (Nat.not_le.2 hcnt), decide_eq_false hon]
  decide

theorem State.jobDec_under (hn : (s.jobFired j).rn (Reg.DISP_JOB j) = 0) :
    s.jobDec j = (((s.jobFired j).count Reg.DISP_JOB_UNDER_CNT).raise 83).traceAdd trJobUnder 0 j 0 0 4 0 :=
  (State.jobDec_counts hcnt hon).trans (if_pos hn)

theorem State.jobDec_last (hn : (s.jobFired j).rn (Reg.DISP_JOB j) = 1) : s.jobDec j =
    (({ s.jobFired j with disp := { (s.jobFired j).disp with zeroT := Tbl.set (s.jobFired j).disp.zeroT j (s.jobFired j).time.ticks 0 } } : State).setReg
      (Reg.DISP_JOB j) ((s.jobFired j).rn (Reg.DISP_JOB j) - 1)) :=
  (State.jobDec_counts hcnt hon).trans ((if_neg (by rw [hn]; decide)).trans (congrArg (State.setReg · _ _) (if_pos hn)))

theorem State.jobDec_more (hn : 1 < (s.jobFired j).rn (Reg.DISP_JOB j)) :
    s.jobDec j = (s.jobFired j).setReg (Reg.DISP_JOB j) ((s.jobFired j).rn (Reg.DISP_JOB j) - 1) :=
  (State.jobDec_counts hcnt hon).trans ((if_neg (by omega)).trans (congrArg (State.setReg · _ _) (if_neg (by omega))))

end

theorem tokenFile_intake {k : Post} {rest : List Post} (h : s.fireJobs.disp.intake = k :: rest) : tokenFile s =
    (({ s.fireJobs with disp := { s.fireJobs.disp with intake := rest, watch := s.fireJobs.watchRead } } : State).showIntake).fileTok k := by
  rw [tokenFile, h]

theorem tokenFile_post {k : Post} {rest : List Post} (h : s.fireJobs.disp.intake = []) (hposts : s.fireJobs.disp.posts = k :: rest) : tokenFile s =
    ({ s.fireJobs with disp := { s.fireJobs.disp with
      posts := rest ++ s.fireJobs.disp.stalled.take 1, stalled := s.fireJobs.disp.stalled.drop 1 } } : State).fileTok k := by
  rw [tokenFile, h, hposts]

theorem tokenFile_none (h : s.fireJobs.disp.intake = []) (hposts : s.fireJobs.disp.posts = []) : tokenFile s = s.fireJobs := by
  rw [tokenFile, h, hposts]

end

/-! ## Posts, completions and the trace -/

section
variable {s : State}

theorem noticeTake_none {u : State} (h : s.popNote = (none, u)) : noticeTake s = u := by
  rw [noticeTake, h]

theorem noticeTake_some {u : State} {n : Note} (h : s.popNote = (some n, u)) : noticeTake s =
    let e := noticeEntry (u.pat 17) n.index
    if fld e 8 1 = 1 then u.jobDec (e % 2 ^ 8) else u := by
  rw [noticeTake, h]
  dsimp only
  rw [fld_low]

theorem traceWrite_none (h : s.disp.trace = []) : traceWrite s = s := by
  rw [traceWrite, h]

/-- The oldest buffered entry written to its place in the ring. -/
def State.traceWritten (s : State) (e : Trace) (rest : List Trace) (ix lap : Nat) : State :=
  ({ s with disp := { s.disp with trace := rest } } : State).ddrWrite
    (s.rn Reg.DISP_TRACE_BASE_LO + 2 ^ 32 * s.rn Reg.DISP_TRACE_BASE_HI + 16 * ix)
    (leBytes 4 e.w0 ++ leBytes 2 e.value ++ leBytes 2 lap ++ leBytes 4 e.ns ++ leBytes 4 e.sec)

section
variable {e : Trace} {rest : List Trace} {ix lap : Nat} (h : s.disp.trace = e :: rest) (hix : ix = fld (s.rn Reg.DISP_TRACE_WPTR) 0 16)
  (hlap : lap = fld (s.rn Reg.DISP_TRACE_WPTR) 16 16)
include h hix hlap

theorem traceWrite_next : traceWrite s =
    if ix = 65535 then (((s.traceWritten e rest ix lap).setReg Reg.DISP_TRACE_WPTR (65536 * ((lap + 1) % 65536))).count Reg.DISP_TRACE_WRAP_CNT).raise 80
    else (s.traceWritten e rest ix lap).setReg Reg.DISP_TRACE_WPTR (ix + 1 + 65536 * lap) := by
  subst hix hlap
  rw [traceWrite, h]
  rfl

theorem traceWrite_wraps (hlast : ix = 65535) : traceWrite s =
    (((s.traceWritten e rest ix lap).setReg Reg.DISP_TRACE_WPTR (65536 * ((lap + 1) % 65536))).count Reg.DISP_TRACE_WRAP_CNT).raise 80 :=
  (traceWrite_next h hix hlap).trans (if_pos hlast)

theorem traceWrite_steps (hmore : ix ≠ 65535) :
    traceWrite s = (s.traceWritten e rest ix lap).setReg Reg.DISP_TRACE_WPTR (ix + 1 + 65536 * lap) :=
  (traceWrite_next h hix hlap).trans (if_neg hmore)

end

section
variable {k v : Nat} {post : Post} (hpost : post = { thread := fld v 0 10, port := fld v 10 2, value := fld v 16 16, src := 0, core := k })
include hpost

theorem dpost_room (h : s.disp.posts.length < 64) : dpost k v s = { s with disp := { s.disp with posts := s.disp.posts ++ [post] } } :=
  hpost ▸ if_pos h

theorem dpost_stalls (h : 64 ≤ s.disp.posts.length) : dpost k v s =
    ((({ s with disp := { s.disp with stalled := s.disp.stalled ++ [post] } } : State).count Reg.DISP_POST_STALL_CNT).raise 87) :=
  hpost ▸ if_neg (Nat.not_lt.2 h)

end

/-- A FIFO with room takes an entry and loses none. -/
theorem fifoPush_room {α : Type} {n : Nat} {l : List α} (x : α) (h : l.length < n) : fifoPush n l x = (l ++ [x], false) := if_pos h

theorem State.intakePush_run {k : Post} (hroom : s.disp.intake.length < 64) (hrun : s.pwr.state = .run) : s.intakePush k =
    ({ s with disp := { s.disp with intake := s.disp.intake ++ [k], watch := s.watchWrite s.disp.intake.isEmpty s.disp.watch } } : State).showIntake := by
  unfold State.intakePush
  rw [fifoPush_room k hroom]
  dsimp only
  rw [if_neg Bool.false_ne_true, if_neg (by simp [hrun])]

end

/-- Settles O43: each command by the cases of its meaning. -/
theorem dispatcherTokens : Obligations.DispatcherTokens := by
  intro s core v who w job k errs b post dec u c x y
  have hpost : post = { thread := fld v.toNat 0 10, port := fld v.toNat 10 2, value := fld v.toNat 16 16, src := 0, core := core.val } := by
    simp only [post, fld_low]
  have hdec : ∀ (i : Instr) (j : Nat), (∀ t, s.quiet.jobDec j = t → Ends i s t) → dec i j := by
    intro i j hends
    refine ⟨fun h => hends _ (State.jobDec_none (s := s.quiet) h), fun hcnt hon => ?_⟩
    intro v n
    exact ⟨fun hn => hends _ (State.jobDec_under (s := s.quiet) hcnt hon hn), fun hn => hends _ (State.jobDec_last (s := s.quiet) hcnt hon hn),
      fun hn => hends _ (State.jobDec_more (s := s.quiet) hcnt hon hn)⟩
  refine ⟨State.fileTok_discards, fun hloaded hexists hport => ?_, jobFire_idle, jobFire_fires,
    ⟨fun k rest => tokenFile_intake, fun k rest => tokenFile_post, tokenFile_none⟩, fun hc => ?_,
    fun htakes => hdec _ _ fun t h => .of_takes (f := fun s => s.jobDec (w.toNat % 256)) rfl htakes h, fun htakes hroom hrun => ?_⟩
  · intro d z
    exact ⟨State.fileTok_incomplete hloaded hexists hport rfl rfl, State.fileTok_ready hloaded hexists hport rfl rfl⟩
  · refine ⟨fun hroom => .of_coring rfl hc (dpost_room (s := s.quiet) hpost hroom),
      fun hfull => .of_coring rfl hc (dpost_stalls (s := s.quiet) hpost hfull), .of_coring rfl hc rfl, .of_coring rfl hc rfl,
      hdec _ _ fun t h => .of_coring (f := fun s => s.jobDec (v.toNat % 256)) rfl hc h,
      fun u h => .of_coring rfl hc (noticeTake_none (s := s.quiet) h), fun n u h => .of_coring rfl hc (noticeTake_some (s := s.quiet) h),
      fun h => .of_coring rfl hc (traceWrite_none (s := s.quiet) h), fun e rest h => ?_⟩
    intro a ix lap u
    have hix : ix = fld a 0 16 := fld_low _ _
    exact ⟨fun hlast => .of_coring rfl hc (traceWrite_wraps (s := s.quiet) h hix rfl hlast),
      fun hmore => .of_coring rfl hc (traceWrite_steps (s := s.quiet) h hix rfl hmore)⟩
  · refine .of_takes rfl htakes ?_
    rw [fld_low]
    exact State.intakePush_run (s := s.quiet) hroom hrun

end Sys2Proof.Machine
end

section
/-! PROOF. Slots, takes, ends, cancels, interrupts, release and boot of the control cores (R343 to R348, R354 to R358). -/
namespace Sys2Proof.Machine
open Sys2Proof

/-! ## Slots -/

section
variable {s : State} {k : Nat}

theorem slotFill_idle (h : (s.core k).slot.isSome = true ∨ s.coreRuns k = false ∨ s.bestFor (s.pat 17) k 0 64 = none) : slotFill k s = s := by
  by_cases hgate : ((s.core k).slot.isSome || !s.coreRuns k) = true
  · exact if_pos hgate
  · refine (if_neg hgate).trans ?_
    rw [Bool.or_eq_true, Bool.not_eq_true', not_or] at hgate
    obtain ⟨hempty, hruns⟩ := hgate
    rw [(h.resolve_left hempty).resolve_left hruns]

theorem slotFill_best {t : Nat} (hslot : (s.core k).slot = none) (hruns : s.coreRuns k = true) (hbest : s.bestFor (s.pat 17) k 0 64 = some t) :
    slotFill k s =
      let b := s.pat 17
      let p := thrPrio b t
      ((((s.setReady p ((s.readyList p).erase t)).setThread t { s.thread t with state := 2 }).setCore k
        { s.core k with slot := some t, valid := !thrPrefetch b t }).traceThr trSlot k t 0).displaceReady b := by
  refine (if_neg ?_).trans ?_
  · rw [hslot, hruns]
    decide
  · rw [hbest]

theorem slotValid_idle (h : (s.core k).slot = none ∨ (s.core k).valid = true) : slotValid k s = s := by
  unfold slotValid
  dsimp only
  split
  · rfl
  · next t hslot =>
    refine if_pos (h.resolve_left ?_)
    rw [hslot]
    exact Option.some_ne_none t

theorem slotValid_copies {t : Nat} (hslot : (s.core k).slot = some t) (hvalid : (s.core k).valid = false) : slotValid k s =
    let src := sramIx (word (s.pat 17) 1 - 0x10000000 + 256 * t)
    let v := (s.checkFound 25 (src / 8)).2
    let dst := 65536 * k + (if 1 - (s.core k).buf = 0 then 0xFE00 else 0xFF00)
    let u : State := { v with disp := { v.disp with dlm := Memory.write v.disp.dlm dst (Memory.read v.sram src 256) } }
    u.setCore k { s.core k with valid := true } := by
  unfold slotValid
  dsimp only
  rw [hslot]
  exact if_neg (by rw [hvalid]; decide)

end

/-! ## Takes and ends -/

section
variable {s : State} {k : Nat}

theorem dtake_none (h : (s.core k).slot = none ∨ (s.core k).running.isSome = true ∨ (s.core k).valid = false) : dtake k s = s.emit (.read 0) := by
  unfold dtake
  dsimp only
  split
  · next t hslot hrunning =>
    rw [hslot, hrunning] at h
    exact if_pos (by rw [(h.resolve_left (Option.some_ne_none t)).resolve_left (by decide)]; rfl)
  · rfl

theorem dtake_starts {t : Nat} (hslot : (s.core k).slot = some t) (hrunning : (s.core k).running = none) (hvalid : (s.core k).valid = true) :
    dtake k s =
      let buf := 1 - (s.core k).buf
      let u := (s.setThread t { s.thread t with state := 3 }).setCore k { s.core k with
        slot := none, valid := false, running := some t, buf := buf, dtok := BitVec.ofNat 64 (dtokWord (s.thread t).act)
        dentry := BitVec.ofNat 64 (thrWord (s.pat 17) t 1) }
      (((u.count Reg.DISP_TAKE_CNT).count (Reg.DISP_CORE_TAKE_CNT k)).traceThr trTake k t 0).emit
        (.read (BitVec.ofNat 64 (2 ^ 17 + (t + thrPrio (s.pat 17) t * 2 ^ 10 + 2 ^ 16 * buf)))) := by
  unfold dtake
  dsimp only
  rw [hslot, hrunning]
  exact if_neg (by rw [hvalid]; decide)

theorem ddone_orphan {v : Nat} (h : (s.core k).running = none) : ddone k v s = (s.count Reg.DISP_DONE_ORPHAN_CNT).raise 88 := by
  unfold ddone
  dsimp only
  rw [h]

theorem ddone_ends {t v : Nat} (h : (s.core k).running = some t) : ddone k v s =
    let b := s.pat 17
    let a := thrWord b t 2
    let u := ((s.setCore k { s.core k with running := none }).count Reg.DISP_DONE_CNT).traceThr trDone k t (v % 65536)
    let z := if (s.thread t).complete (thrNtok b t) then u.makeReady b t else u.setThread t { s.thread t with state := 0, act := [] }
    if fld a 8 1 = 1 then z.jobDec (a % 2 ^ 8) else z := by
  unfold ddone
  dsimp only
  rw [h]
  dsimp only
  rw [fld_low]

end

/-! ## Cancels -/

section
variable {s : State} {t : Nat}

theorem State.cancel_unknown (h : s.img.inForce = false ∨ thrExists (s.pat 17) t = false) : s.cancel t = (s.count Reg.DISP_DISC_CNT).raise 91 := by
  refine if_pos ?_
  rw [Bool.or_eq_true, Bool.not_eq_true', Bool.not_eq_true']
  exact h

variable (hloaded : s.img.inForce = true) (hexists : thrExists (s.pat 17) t = true)
include hloaded hexists

theorem State.cancel_gate : ¬ (!s.img.inForce || !thrExists (s.pat 17) t) = true := by
  rw [hloaded, hexists]
  decide

theorem State.cancel_idle (h : (s.thread t).state = 0) : s.cancel t = { s with disp := { s.disp with
    cancels := (if s.disp.cancelT = s.time.ticks then s.disp.cancels else []) ++ [t], cancelT := s.time.ticks } } := by
  refine (if_neg (State.cancel_gate hloaded hexists)).trans ?_
  rw [h]
  rfl

theorem State.cancel_ready (h : (s.thread t).state = 1) : s.cancel t = (((s.setReady (thrPrio (s.pat 17) t)
    ((s.readyList (thrPrio (s.pat 17) t)).erase t)).setThread t {}).count Reg.DISP_CANCEL_CNT).traceThr trCancel 0 t 0 := by
  refine (if_neg (State.cancel_gate hloaded hexists)).trans ?_
  rw [h]
  rfl

theorem State.cancel_running (h : (s.thread t).state = 3) :
    s.cancel t = ((s.setThread t { s.thread t with filed := [] }).count Reg.DISP_CANCEL_CNT).traceThr trCancel 0 t 0 := by
  refine (if_neg (State.cancel_gate hloaded hexists)).trans ?_
  split
  · next hstate =>
    rw [h] at hstate
    cases hstate
  · next hstate =>
    rw [h] at hstate
    cases hstate
  · next hstate =>
    rw [h] at hstate
    cases hstate
  · rfl

end

/-! ## Boot -/

section
variable {s : State} {object : List Byte}

theorem bootComplete_done (h : s.rf Reg.DISP_BOOT 0 4 ≠ 0) : bootComplete object s = s := if_pos h

theorem bootComplete_boots {r : Nat} {u : State} (h : s.rf Reg.DISP_BOOT 0 4 = 0)
    (hboot : (if object = [] then (1, s) else s.fwBoot object) = (r, u)) : bootComplete object s =
      let z := u.forRange (fun j y => y.bootLine j 0) 1 (bootLast r)
      if r = 0 then z.bootLine 6 0 else ((z.setReg Reg.DISP_BOOT (4 + r * 256)).raise 90).bootLine 4 r := by
  refine (if_neg (not_not_intro h)).trans ?_
  rw [hboot]

end

/-- Settles O44: each command by the cases of its meaning. -/
theorem dispatcherCores : Obligations.DispatcherCores := by
  intro s core v who w object errs b k x cancel
  have hcancel : ∀ (i : Instr) (t : Nat), (∀ u, s.quiet.cancel t = u → Ends i s u) → cancel i t := by
    intro i t hends
    exact ⟨fun h => hends _ (State.cancel_unknown (s := s.quiet) h), fun hloaded hexists =>
      ⟨fun h => hends _ (State.cancel_idle (s := s.quiet) hloaded hexists h), fun h => hends _ (State.cancel_ready (s := s.quiet) hloaded hexists h),
        fun h => hends _ (State.cancel_running (s := s.quiet) hloaded hexists h)⟩⟩
  refine ⟨fun hc => ⟨fun h => .of_coring rfl hc (slotFill_idle (s := s.quiet) h),
      fun t hslot hruns hbest => .of_coring rfl hc (slotFill_best (s := s.quiet) hslot hruns hbest), .of_coring rfl hc rfl, slotValid_idle,
      fun t hslot hvalid => slotValid_copies hslot hvalid, fun h => .of_coring rfl hc (dtake_none (s := s.quiet) h),
      fun t hslot hrunning hvalid => .of_coring rfl hc (dtake_starts (s := s.quiet) hslot hrunning hvalid),
      fun h => .of_coring rfl hc (ddone_orphan (s := s.quiet) h), fun t h => .of_coring rfl hc (ddone_ends (s := s.quiet) h),
      hcancel _ _ fun u h => .of_coring (f := fun s => s.cancel (v.toNat % 1024)) rfl hc h, .of_coring rfl hc rfl, .of_coring rfl hc rfl,
      fun h => ?_, fun r u h hboot => ?_⟩,
    fun ha => .of_live (f := fun s => s.judgeMtip core.val) rfl ha rfl,
    fun htakes => hcancel _ _ fun u h => .of_takes (f := fun s => s.cancel (w.toNat % 1024)) rfl htakes h, fun htakes => .of_takes rfl htakes rfl⟩
  · have hdone : bootComplete object s.quiet = s.quiet := bootComplete_done h
    exact .of_coring (f := fun s => (if (bootComplete object s).rf Reg.DISP_BOOT 0 4 = 4 then (bootComplete object s).setF Reg.FLDL_STATUS 3 1 1
      else bootComplete object s).answerHeld) rfl hc (by rw [hdone]; rfl)
  · intro z y
    have hboots : bootComplete object s.quiet = y := bootComplete_boots (s := s.quiet) h hboot
    exact .of_coring (f := fun s => (if (bootComplete object s).rf Reg.DISP_BOOT 0 4 = 4 then (bootComplete object s).setF Reg.FLDL_STATUS 3 1 1
      else bootComplete object s).answerHeld) rfl hc (by rw [hboots])

end Sys2Proof.Machine
end

section
/-! PROOF. Noduko lanes and wraps, retransmission, acknowledgement, the poll master, time cells and mirroring (R364 to R377). -/
namespace Sys2Proof.Machine
open Sys2Proof

/-! ## Lanes and wraps -/

section
variable {s : State} {l : Nat}

theorem ndkLinkUp_idle (h : s.ndkOn = false ∨ s.laneUp l = true) : ndkLinkUp l s = s := by
  refine if_neg ?_
  obtain h | h := h
  · simp [h]
  · simp [h]

theorem ndkLinkUp_rises (hon : s.ndkOn = true) (hdown : s.laneUp l = false) : ndkLinkUp l s =
    (({ s with ndk := { s.ndk with upAt := Tbl.set s.ndk.upAt l (s.time.ticks + 1) 0 } } : State).setF Reg.NDK_STATUS (1 - l) 1 1).raise 96 :=
  if_pos (by rw [hon, hdown]; rfl)

/-- A device that is off, or a lane that is down. -/
theorem laneGate (h : s.ndkOn = false ∨ s.laneUp l = false) : ¬ (s.ndkOn && s.laneUp l) = true := by
  obtain h | h := h
  · simp [h]
  · simp [h]

theorem ndkLinkDown_idle (h : s.ndkOn = false ∨ s.laneUp l = false) : ndkLinkDown l s = s := if_neg (laneGate h)

theorem ndkHopEcho_idle (delay : Nat) (h : s.ndkOn = false ∨ s.laneUp l = false) : ndkHopEcho l delay s = s := if_neg (laneGate h)

theorem ndkUnwrap_idle (h : s.ndkOn = false ∨ s.laneUp l = false ∨ s.bit Reg.NDK_STATUS (2 + l) = false ∨
    s.time.ticks + 1 < Tbl.get s.ndk.upAt l 0 + 250000 * wf s.ndkBody 3 16 16) : ndkUnwrap l s = s := by
  refine if_neg ?_
  rw [Bool.and_eq_true, Bool.and_eq_true, Bool.and_eq_true, decide_eq_true_eq]
  rintro ⟨⟨⟨hon, hwrap⟩, hup⟩, htime⟩
  obtain h | h | h | h := h
  · rw [hon] at h
    cases h
  · rw [hup] at h
    cases h
  · rw [hwrap] at h
    cases h
  · exact Nat.not_le.2 h htime

variable (hon : s.ndkOn = true) (hup : s.laneUp l = true)
include hon hup

theorem ndkHopEcho_up (delay : Nat) : ndkHopEcho l delay s = s.setReg (Reg.NDK_HOP_DLY (1 - l)) delay := if_pos (by rw [hon, hup]; rfl)

theorem ndkUnwrap_due (hwrap : s.bit Reg.NDK_STATUS (2 + l) = true)
    (htime : Tbl.get s.ndk.upAt l 0 + 250000 * wf s.ndkBody 3 16 16 ≤ s.time.ticks + 1) : ndkUnwrap l s = s.ndkWrap l false :=
  if_pos (by rw [hon, hup, hwrap, decide_eq_true htime]; rfl)

/-- The lane's receiver down, with event 96. -/
def State.laneDropped (s : State) (l : Nat) : State :=
  (({ s with ndk := { s.ndk with upAt := Tbl.set s.ndk.upAt l 0 0 } } : State).setF Reg.NDK_STATUS (1 - l) 1 0).raise 96

theorem ndkLinkDown_up : ndkLinkDown l s =
    if (s.laneDropped l).bit Reg.NDK_STATUS (2 + l) then s.laneDropped l else (s.laneDropped l).ndkWrap l true :=
  if_pos (by rw [hon, hup]; rfl)

theorem ndkLinkDown_wrapped (h : (s.laneDropped l).bit Reg.NDK_STATUS (2 + l) = true) : ndkLinkDown l s = s.laneDropped l :=
  (ndkLinkDown_up hon hup).trans (if_pos h)

theorem ndkLinkDown_wraps (h : (s.laneDropped l).bit Reg.NDK_STATUS (2 + l) = false) : ndkLinkDown l s = (s.laneDropped l).ndkWrap l true :=
  (ndkLinkDown_up hon hup).trans (if_neg (by rw [h]; decide))

end

/-! ## Retransmission and acknowledgement -/

section
variable {s : State}

theorem ndkRetransmit_idle (h : s.ndkOn = false ∨ s.ndk.store.find? (fun x => x.due ≤ s.time.ticks) = none) : ndkRetransmit s = s := by
  cases hon : s.ndkOn with
  | false => exact if_pos (by rw [hon]; rfl)
  | true =>
    rw [hon] at h
    refine (if_neg (by rw [hon]; decide)).trans ?_
    rw [h.resolve_left (by decide)]

section
variable {x : NdkSent} (hon : s.ndkOn = true) (hdue : s.ndk.store.find? (fun x => x.due ≤ s.time.ticks) = some x)
include hon hdue

theorem ndkRetransmit_due : ndkRetransmit s =
    if wf s.ndkBody 2 16 4 ≤ x.sends then ({ s with ndk := { s.ndk with store := s.ndk.store.erase x } } : State).ndkAbandon
    else
      let u := (s.checkFound 47 (s.ndk.store.idxOf x)).2
      let y : NdkSent := { x with sends := x.sends + 1, due := u.time.ticks + u.rtxTicks }
      (({ u with ndk := { u.ndk with store := u.ndk.store.map fun z => if z = x then y else z } } : State).count Reg.NDK_RTX_CNT).ringSend 0 x.cell := by
  refine (if_neg (by rw [hon]; decide)).trans ?_
  rw [hdue]

theorem ndkRetransmit_abandons (h : wf s.ndkBody 2 16 4 ≤ x.sends) : ndkRetransmit s =
    ((({ s with ndk := { s.ndk with store := s.ndk.store.erase x } } : State).count Reg.NDK_RTX_ABANDON_CNT).raise 101) :=
  (ndkRetransmit_due hon hdue).trans (if_pos h)

theorem ndkRetransmit_sends (h : x.sends < wf s.ndkBody 2 16 4) : ndkRetransmit s =
    let u := (s.checkFound 47 (s.ndk.store.idxOf x)).2
    let y : NdkSent := { x with sends := x.sends + 1, due := u.time.ticks + u.rtxTicks }
    (({ u with ndk := { u.ndk with store := u.ndk.store.map fun z => if z = x then y else z } } : State).count Reg.NDK_RTX_CNT).ringSend 0 x.cell :=
  (ndkRetransmit_due hon hdue).trans (if_neg (Nat.not_le.2 h))

end

variable {d : Nat}

theorem ndkAckTimer_none (h : (s.ndkPeer d).ackDue = none) : ndkAckTimer d s = s := by
  rw [ndkAckTimer, h]

theorem ndkAckTimer_waits {t : Nat} (hack : (s.ndkPeer d).ackDue = some t) (h : s.ndkOn = false ∨ s.time.ticks < t) : ndkAckTimer d s = s := by
  rw [ndkAckTimer, hack]
  refine if_neg ?_
  rw [Bool.and_eq_true, decide_eq_true_eq]
  rintro ⟨hon, hdue⟩
  obtain h | h := h
  · rw [hon] at h
    cases h
  · exact Nat.not_le.2 h hdue

theorem ndkAckTimer_off (h : s.ndkOn = false) : ndkAckTimer d s = s := by
  cases hack : (s.ndkPeer d).ackDue with
  | none => exact ndkAckTimer_none hack
  | some t => exact ndkAckTimer_waits hack (.inl h)

theorem ndkAckTimer_due {t : Nat} (hon : s.ndkOn = true) (hack : (s.ndkPeer d).ackDue = some t) (hdue : t ≤ s.time.ticks) :
    ndkAckTimer d s = s.sendAck d := by
  rw [ndkAckTimer, hack]
  exact if_pos (by rw [hon, decide_eq_true hdue]; rfl)

end

/-! ## The poll master and the time cell -/

section
variable {s : State}

theorem ndkMasterTimer_iff : (s.ndkOn && !s.ndkMaster && (wf s.ndkBody 0 3 1 = 1 || s.ndkAlone) &&
    s.ndk.lastPoll + wf s.ndkBody 1 16 16 * 250 * (1 + s.devNum) ≤ s.time.ticks) = true ↔
      s.ndkOn = true ∧ s.ndkMaster = false ∧ (wf s.ndkBody 0 3 1 = 1 ∨ s.ndkAlone = true) ∧
        s.ndk.lastPoll + wf s.ndkBody 1 16 16 * 250 * (1 + s.devNum) ≤ s.time.ticks := by
  rw [Bool.and_eq_true, Bool.and_eq_true, Bool.and_eq_true, Bool.or_eq_true, Bool.not_eq_true', decide_eq_true_eq, decide_eq_true_eq, and_assoc,
    and_assoc]

theorem ndkMasterTimer_starts (hon : s.ndkOn = true) (hmaster : s.ndkMaster = false) (hmay : wf s.ndkBody 0 3 1 = 1 ∨ s.ndkAlone = true)
    (hdue : s.ndk.lastPoll + wf s.ndkBody 1 16 16 * 250 * (1 + s.devNum) ≤ s.time.ticks) : ndkMasterTimer s =
      (((({ s with ndk := { s.ndk with master := some s.devNum } } : State).setF Reg.NDK_STATUS 4 1 1).setF Reg.NDK_STATUS 5 3 s.devNum).raise
        102).startRound :=
  if_pos (ndkMasterTimer_iff.2 ⟨hon, hmaster, hmay, hdue⟩)

theorem ndkMasterTimer_off (h : s.ndkOn = false) : ndkMasterTimer s = s :=
  if_neg fun hall => by
    obtain ⟨hon, -, -, -⟩ := ndkMasterTimer_iff.1 hall
    rw [hon] at h
    cases h

theorem ndkMasterTimer_waits (h : s.ndkMaster = true ∨ s.time.ticks < s.ndk.lastPoll + wf s.ndkBody 1 16 16 * 250 * (1 + s.devNum)) :
    ndkMasterTimer s = s :=
  if_neg fun hall => by
    obtain ⟨-, hmaster, -, hdue⟩ := ndkMasterTimer_iff.1 hall
    obtain h | h := h
    · rw [hmaster] at h
      cases h
    · exact Nat.not_le.2 h hdue

theorem ndkMasterTimer_barred (hen : wf s.ndkBody 0 3 1 ≠ 1) (halone : s.ndkAlone = false) : ndkMasterTimer s = s :=
  if_neg fun hall => by
    obtain ⟨-, -, hmay, -⟩ := ndkMasterTimer_iff.1 hall
    have htrue := hmay.resolve_left hen
    rw [halone] at htrue
    cases htrue

theorem ndkPollLost_idle (h : s.ndkOn = false ∨ s.ndk.round = none ∨ s.ndkMaster = false ∨ s.ndkAlone = true) : ndkPollLost s = s := by
  unfold ndkPollLost
  split
  · next t hround =>
    refine if_neg ?_
    obtain h | h | h | h := h
    · simp [h]
    · rw [hround] at h
      cases h
    · simp [h]
    · simp [h]
  · rfl

section
variable {t : Nat} (hround : s.ndk.round = some t)
include hround

theorem ndkPollLost_waits (h : s.time.ticks < t + wf s.ndkBody 1 0 16 * 250) : ndkPollLost s = s := by
  rw [ndkPollLost, hround]
  exact if_neg (by rw [decide_eq_false (Nat.not_le.2 h), Bool.and_false]; decide)

theorem ndkPollLost_lost (hon : s.ndkOn = true) (hmaster : s.ndkMaster = true) (halone : s.ndkAlone = false)
    (h : t + wf s.ndkBody 1 0 16 * 250 ≤ s.time.ticks) : ndkPollLost s = ((s.count Reg.NDK_POLL_LOST_CNT).raise 98).startRound := by
  rw [ndkPollLost, hround]
  exact if_pos (by rw [hon, hmaster, halone, decide_eq_true h]; rfl)

end

theorem ndkTimeSend_idle (h : s.ndkOn = false ∨ s.ndkMaster = false ∨ s.time.ticks < s.ndk.timeAt + 250000 * wf s.ndkBody 4 0 10) :
    ndkTimeSend s = s := by
  refine if_neg ?_
  rw [Bool.and_eq_true, Bool.and_eq_true, decide_eq_true_eq]
  rintro ⟨⟨hon, hmaster⟩, hdue⟩
  obtain h | h | h := h
  · rw [hon] at h
    cases h
  · rw [hmaster] at h
    cases h
  · exact Nat.not_le.2 h hdue

theorem ndkTimeSend_due (hon : s.ndkOn = true) (hmaster : s.ndkMaster = true) (hdue : s.ndk.timeAt + 250000 * wf s.ndkBody 4 0 10 ≤ s.time.ticks) :
    ndkTimeSend s = ({ s with ndk := { s.ndk with timeAt := s.time.ticks } } : State).sendControl 4 0xFF
      (leBytes 12 s.nowT80 ++ leBytes 4 (s.disc + s.rf Reg.TIME_QUAL 0 4 * 16 + s.epoch * 256) ++ leBytes 4 (s.rn Reg.TIME_EST_ERR)) :=
  if_pos (by rw [hon, hmaster, decide_eq_true hdue]; rfl)

end

/-! ## Mirroring -/

section
variable {s : State}

theorem mirrorTimeout_active (h : s.standby = false) : mirrorTimeout s = s := if_pos (by rw [h]; rfl)

section
variable (hstandby : s.standby = true) (hdecided : s.ndk.decided = false)
include hstandby hdecided

theorem mirrorTimeout_first : mirrorTimeout s =
    if s.ndk.loadAt + wf s.ndkBody 3 0 16 * 250 ≤ s.time.ticks then
      if (s.mrole = 1 && !(s.ndkPeer s.ndkPeerNum).active) = true then s.mirrorOn.almOutputs
      else { s with ndk := { s.ndk with decided := true } }
    else s :=
  (if_neg (by rw [hstandby]; decide)).trans (if_pos (by rw [hdecided]; rfl))

theorem mirrorTimeout_first_waits (h : s.time.ticks < s.ndk.loadAt + wf s.ndkBody 3 0 16 * 250) : mirrorTimeout s = s :=
  (mirrorTimeout_first hstandby hdecided).trans (if_neg (Nat.not_le.2 h))

theorem mirrorTimeout_first_takes (h : s.ndk.loadAt + wf s.ndkBody 3 0 16 * 250 ≤ s.time.ticks) (hrole : s.mrole = 1)
    (hpeer : (s.ndkPeer s.ndkPeerNum).active = false) : mirrorTimeout s = s.mirrorOn.almOutputs :=
  (mirrorTimeout_first hstandby hdecided).trans ((if_pos h).trans (if_pos (by rw [hpeer, decide_eq_true hrole]; rfl)))

theorem mirrorTimeout_first_stays (h : s.ndk.loadAt + wf s.ndkBody 3 0 16 * 250 ≤ s.time.ticks)
    (hpeer : s.mrole ≠ 1 ∨ (s.ndkPeer s.ndkPeerNum).active = true) : mirrorTimeout s = { s with ndk := { s.ndk with decided := true } } := by
  refine (mirrorTimeout_first hstandby hdecided).trans ((if_pos h).trans (if_neg ?_))
  obtain hpeer | hpeer := hpeer
  · simp [hpeer]
  · simp [hpeer]

end

section
variable (hstandby : s.standby = true) (hdecided : s.ndk.decided = true)
include hstandby hdecided

theorem mirrorTimeout_later : mirrorTimeout s =
    if max (s.ndkPeer s.ndkPeerNum).heard s.ndk.loadAt + wf s.ndkBody 3 0 16 * 250 ≤ s.time.ticks then
      if (s.ndkPeer s.ndkPeerNum).serial = some (s.rn Reg.FEAT_IMG_SERIAL) then s.takeover
      else if s.bit Reg.NDK_MIRROR 1 then s else (s.setF Reg.NDK_MIRROR 1 1 1).raise 103
    else s :=
  (if_neg (by rw [hstandby]; decide)).trans (if_neg (by rw [hdecided]; decide))

theorem mirrorTimeout_later_waits (h : s.time.ticks < max (s.ndkPeer s.ndkPeerNum).heard s.ndk.loadAt + wf s.ndkBody 3 0 16 * 250) :
    mirrorTimeout s = s :=
  (mirrorTimeout_later hstandby hdecided).trans (if_neg (Nat.not_le.2 h))

variable (h : max (s.ndkPeer s.ndkPeerNum).heard s.ndk.loadAt + wf s.ndkBody 3 0 16 * 250 ≤ s.time.ticks)
include h

theorem mirrorTimeout_takeover (hserial : (s.ndkPeer s.ndkPeerNum).serial = some (s.rn Reg.FEAT_IMG_SERIAL)) : mirrorTimeout s = s.takeover :=
  (mirrorTimeout_later hstandby hdecided).trans ((if_pos h).trans (if_pos hserial))

variable (hserial : (s.ndkPeer s.ndkPeerNum).serial ≠ some (s.rn Reg.FEAT_IMG_SERIAL))
include hserial

theorem mirrorTimeout_marked (hmark : s.bit Reg.NDK_MIRROR 1 = true) : mirrorTimeout s = s :=
  (mirrorTimeout_later hstandby hdecided).trans ((if_pos h).trans ((if_neg hserial).trans (if_pos hmark)))

theorem mirrorTimeout_marks (hmark : s.bit Reg.NDK_MIRROR 1 = false) : mirrorTimeout s = (s.setF Reg.NDK_MIRROR 1 1 1).raise 103 :=
  (mirrorTimeout_later hstandby hdecided).trans ((if_pos h).trans ((if_neg hserial).trans (if_neg (by rw [hmark]; decide))))

end

variable {w : Word}

theorem ndkMirrorTake_ignored (h : w.getLsbD 0 = false ∨ s.standby = false) : ndkMirrorTake w s = s := by
  refine if_neg ?_
  obtain h | h := h
  · rw [h, Bool.false_and]
    decide
  · rw [h, Bool.and_false]
    decide

theorem ndkMirrorTake_takes (hgo : w.getLsbD 0 = true) (hstandby : s.standby = true) :
    ndkMirrorTake w s = { s.takeover with ndk := { s.takeover.ndk with take := true } } :=
  if_pos (by rw [hgo, hstandby]; rfl)

end

/-- Settles O45: each timer by the cases of its meaning. -/
theorem stationLinkTimers : Obligations.StationLinkTimers := by
  intro s lane delay dev who w errs b l d now peer tmo
  refine ⟨fun ht => ⟨fun h => .of_running rfl ht (ndkLinkUp_idle (s := s.quiet) h),
      fun hon hdown => .of_running rfl ht (ndkLinkUp_rises (s := s.quiet) hon hdown),
      fun h => ⟨.of_running rfl ht (ndkLinkDown_idle (s := s.quiet) h), .of_running rfl ht (ndkHopEcho_idle (s := s.quiet) _ h),
        .of_running rfl ht (ndkUnwrap_idle (s := s.quiet) (h.imp_right .inl))⟩, fun hon hup => ?_⟩,
    fun ha => ⟨.of_live rfl ha rfl, fun hoff => ⟨.of_live rfl ha (ndkAckTimer_off (s := s.quiet) hoff),
        .of_live rfl ha (ndkMasterTimer_off (s := s.quiet) hoff), .of_live rfl ha (ndkPollLost_idle (s := s.quiet) (.inl hoff)),
        .of_live rfl ha (ndkTimeSend_idle (s := s.quiet) (.inl hoff))⟩, fun hon => ?_, fun h => .of_live rfl ha (mirrorTimeout_active (s := s.quiet) h),
      fun hstandby hdecided => ⟨fun h => .of_live rfl ha (mirrorTimeout_first_waits (s := s.quiet) hstandby hdecided h),
        fun h hrole hpeer => .of_live rfl ha (mirrorTimeout_first_takes (s := s.quiet) hstandby hdecided h hrole hpeer),
        fun h hpeer => .of_live rfl ha (mirrorTimeout_first_stays (s := s.quiet) hstandby hdecided h hpeer)⟩,
      fun hstandby hdecided => ⟨fun h => .of_live rfl ha (mirrorTimeout_later_waits (s := s.quiet) hstandby hdecided h),
        fun h => ⟨fun hserial => .of_live rfl ha (mirrorTimeout_takeover (s := s.quiet) hstandby hdecided h hserial),
          fun hserial hmark => .of_live rfl ha (mirrorTimeout_marked (s := s.quiet) hstandby hdecided h hserial hmark),
          fun hserial hmark => .of_live rfl ha (mirrorTimeout_marks (s := s.quiet) hstandby hdecided h hserial hmark)⟩⟩⟩,
    ndkRetransmit_idle, fun hon x hdue => ⟨ndkRetransmit_abandons hon hdue, ndkRetransmit_sends hon hdue⟩,
    fun htakes => ⟨fun h => .of_takes rfl htakes (ndkMirrorTake_ignored (s := s.quiet) h),
      fun hgo hstandby => .of_takes rfl htakes (ndkMirrorTake_takes (s := s.quiet) hgo hstandby)⟩⟩
  · intro u
    exact ⟨fun h => .of_running rfl ht (ndkLinkDown_wrapped (s := s.quiet) hon hup h),
      fun h => .of_running rfl ht (ndkLinkDown_wraps (s := s.quiet) hon hup h), .of_running rfl ht (ndkHopEcho_up (s := s.quiet) hon hup _),
      fun hwrap htime => .of_running rfl ht (ndkUnwrap_due (s := s.quiet) hon hup hwrap htime),
      fun h => .of_running rfl ht (ndkUnwrap_idle (s := s.quiet) (.inr (.inr h)))⟩
  · exact ⟨fun h => .of_live rfl ha (ndkAckTimer_none (s := s.quiet) h),
      fun t hack => ⟨fun h => .of_live rfl ha (ndkAckTimer_due (s := s.quiet) hon hack h),
        fun h => .of_live rfl ha (ndkAckTimer_waits (s := s.quiet) hack (.inr h))⟩,
      fun h => .of_live rfl ha (ndkMasterTimer_waits (s := s.quiet) h), fun hen halone => .of_live rfl ha (ndkMasterTimer_barred (s := s.quiet) hen halone),
      fun hmaster hmay hdue => .of_live rfl ha (ndkMasterTimer_starts (s := s.quiet) hon hmaster hmay hdue),
      fun h => .of_live rfl ha (ndkPollLost_idle (s := s.quiet) (.inr h)),
      fun t hround hmaster halone => ⟨fun h => .of_live rfl ha (ndkPollLost_lost (s := s.quiet) hround hon hmaster halone h),
        fun h => .of_live rfl ha (ndkPollLost_waits (s := s.quiet) hround h)⟩,
      fun h => .of_live rfl ha (ndkTimeSend_idle (s := s.quiet) (.inr h)),
      fun hmaster hdue => .of_live rfl ha (ndkTimeSend_due (s := s.quiet) hon hmaster hdue)⟩

end Sys2Proof.Machine
end

section
/-! PROOF. The checks of a received Noduko cell (R367), and what its kind does (R370, R371). -/
namespace Sys2Proof.Machine
open Sys2Proof

/-! ## The checks -/

section
variable {s : State} {l : Nat} {c : List Byte}

theorem ndkCellReceive_down (h : (s.ndkOn && s.laneUp l) = false) : ndkCellReceive l c s = s := if_pos (by rw [h]; rfl)

variable (hup : (s.ndkOn && s.laneUp l) = true)
include hup

theorem ndkCellReceive_gate : ¬ (!(s.ndkOn && s.laneUp l)) = true := by
  rw [hup]
  decide

theorem ndkCellReceive_runt (h : c.length < 256) : ndkCellReceive l c s = (s.count Reg.NDK_RUNT_CNT).raise 99 :=
  (if_neg (ndkCellReceive_gate hup)).trans (if_pos h)

theorem ndkCellReceive_long (h : 256 < c.length) : ndkCellReceive l c s = (s.count Reg.NDK_LONG_CNT).raise 99 :=
  (if_neg (ndkCellReceive_gate hup)).trans ((if_neg (by omega)).trans (if_pos h))

variable (hlen : c.length = 256)
include hlen

theorem ndkCellReceive_crc (h : leNat (slice c 240 4) ≠ (crc32 (c.take 240)).toNat) : ndkCellReceive l c s = (s.count Reg.NDK_CRC_CNT).raise 99 :=
  (if_neg (ndkCellReceive_gate hup)).trans ((if_neg (by omega)).trans ((if_neg (by omega)).trans (if_pos h)))

/-- The sender of a cell heard, and shown where it is the peer. -/
def State.cellHeard (s : State) (d : Nat) : State :=
  let u := s.setNdkPeer d { s.ndkPeer d with heard := s.time.ticks }
  if d = u.ndkPeerNum && u.mrole ≠ 0 then u.setF Reg.NDK_MIRROR 2 1 1 else u

variable (hcrc : leNat (slice c 240 4) = (crc32 (c.take 240)).toNat)
include hcrc

theorem ndkCellReceive_sound : ndkCellReceive l c s =
    if wf c 0 0 3 = 0 then s
    else
      let d := wf c 0 3 3
      if d = s.devNum then s.ownCell c
      else
        let v := s.cellHeard d
        let w := if (wf c 0 0 3 = 1 && v.controlNew d (leNat (slice c 4 6))) = true then ((v.pollFrom d (wf c 2 16 16)).sendStatus).sendData else v
        (w.forwardCell l c).handleCell l c :=
  (if_neg (ndkCellReceive_gate hup)).trans ((if_neg (by omega)).trans ((if_neg (by omega)).trans (if_neg (not_not_intro hcrc))))

theorem ndkCellReceive_idle (h : wf c 0 0 3 = 0) : ndkCellReceive l c s = s := (ndkCellReceive_sound hup hlen hcrc).trans (if_pos h)

variable (hkind : wf c 0 0 3 ≠ 0)
include hkind

theorem ndkCellReceive_own (h : wf c 0 3 3 = s.devNum) : ndkCellReceive l c s = s.ownCell c :=
  (ndkCellReceive_sound hup hlen hcrc).trans ((if_neg hkind).trans (if_pos h))

variable (hother : wf c 0 3 3 ≠ s.devNum)
include hother

theorem ndkCellReceive_poll (h : wf c 0 0 3 = 1) (hnew : (s.cellHeard (wf c 0 3 3)).controlNew (wf c 0 3 3) (leNat (slice c 4 6)) = true) :
    ndkCellReceive l c s =
      (((((s.cellHeard (wf c 0 3 3)).pollFrom (wf c 0 3 3) (wf c 2 16 16)).sendStatus).sendData).forwardCell l c).handleCell l c := by
  refine (ndkCellReceive_sound hup hlen hcrc).trans ((if_neg hkind).trans ((if_neg hother).trans ?_))
  dsimp only
  rw [if_pos (by rw [hnew, decide_eq_true h]; rfl)]

theorem ndkCellReceive_other (h : wf c 0 0 3 ≠ 1 ∨ (s.cellHeard (wf c 0 3 3)).controlNew (wf c 0 3 3) (leNat (slice c 4 6)) = false) :
    ndkCellReceive l c s = ((s.cellHeard (wf c 0 3 3)).forwardCell l c).handleCell l c := by
  refine (ndkCellReceive_sound hup hlen hcrc).trans ((if_neg hkind).trans ((if_neg hother).trans ?_))
  dsimp only
  rw [if_neg]
  rw [Bool.and_eq_true, decide_eq_true_eq]
  rintro ⟨hpoll, hnew⟩
  obtain h | h := h
  · exact h hpoll
  · rw [hnew] at h
    cases h

end

/-! ## What its kind does -/

section
variable {s : State} {l : Nat} {c : List Byte}

theorem State.handleCell_elsewhere (hkind : wf c 0 0 3 = 2 ∨ wf c 0 0 3 = 3) (h : fld (wf c 0 6 8) s.devNum 1 = 0) : s.handleCell l c = s := by
  refine if_pos ?_
  rw [Bool.and_eq_true, Bool.or_eq_true, decide_eq_true_eq, decide_eq_true_eq, decide_eq_true_eq]
  exact ⟨hkind, h⟩

variable (hmine : (wf c 0 0 3 ≠ 2 ∧ wf c 0 0 3 ≠ 3) ∨ fld (wf c 0 6 8) s.devNum 1 ≠ 0)
include hmine

theorem State.handleCell_gate : ¬ ((wf c 0 0 3 = 2 || wf c 0 0 3 = 3) && fld (wf c 0 6 8) s.devNum 1 = 0) = true := by
  rw [Bool.and_eq_true, Bool.or_eq_true, decide_eq_true_eq, decide_eq_true_eq, decide_eq_true_eq]
  rintro ⟨hkind, hnot⟩
  obtain ⟨htwo, hthree⟩ | h := hmine
  · exact hkind.elim htwo hthree
  · exact h hnot

theorem State.handleCell_unauthentic {u : State} (hopen : s.openCell c = (none, u)) :
    s.handleCell l c = (u.count Reg.NDK_AUTH_FAIL_CNT).raise 100 := by
  refine (if_neg (State.handleCell_gate hmine)).trans ?_
  rw [hopen]

section
variable {p : List Byte} {late : Bool} {u : State} (hopen : s.openCell c = (some (p, late), u))
include hopen

theorem State.handleCell_opened : s.handleCell l c =
    if wf c 0 0 3 = 2 then u.dataCell (wf c 0 3 3) (leNat (slice c 4 6)) p late
    else if !u.controlNew (wf c 0 3 3) (leNat (slice c 4 6)) then u.count Reg.NDK_DUP_CNT
    else
      let v := u.tookControl (wf c 0 3 3) (leNat (slice c 4 6))
      if wf c 0 0 3 = 3 then v.ackFrom (wf c 0 3 3) (word2 p 0 % 2 ^ 48) (BitVec.ofNat 64 (word2 p 2))
      else if wf c 0 0 3 = 4 then v.timeCell l c p
      else if wf c 0 0 3 = 5 then v.statusFrom (wf c 0 3 3) p
      else v := by
  refine (if_neg (State.handleCell_gate hmine)).trans ?_
  rw [hopen]

theorem State.handleCell_data (h : wf c 0 0 3 = 2) : s.handleCell l c = u.dataCell (wf c 0 3 3) (leNat (slice c 4 6)) p late :=
  (State.handleCell_opened hmine hopen).trans (if_pos h)

theorem State.handleCell_old (h : wf c 0 0 3 ≠ 2) (hnew : u.controlNew (wf c 0 3 3) (leNat (slice c 4 6)) = false) :
    s.handleCell l c = u.count Reg.NDK_DUP_CNT :=
  (State.handleCell_opened hmine hopen).trans ((if_neg h).trans (if_pos (by rw [hnew]; rfl)))

/-- A newer control cell of a kind above DATA. -/
theorem State.handleCell_control (h : wf c 0 0 3 ≠ 2) (hnew : u.controlNew (wf c 0 3 3) (leNat (slice c 4 6)) = true) :
    s.handleCell l c =
      let v := u.tookControl (wf c 0 3 3) (leNat (slice c 4 6))
      if wf c 0 0 3 = 3 then v.ackFrom (wf c 0 3 3) (word2 p 0 % 2 ^ 48) (BitVec.ofNat 64 (word2 p 2))
      else if wf c 0 0 3 = 4 then v.timeCell l c p
      else if wf c 0 0 3 = 5 then v.statusFrom (wf c 0 3 3) p
      else v :=
  (State.handleCell_opened hmine hopen).trans ((if_neg h).trans (if_neg (by rw [hnew]; decide)))

end

end

/-! ## DATA by its distance from HIGH -/

section
variable {s : State} {d n : Nat} {p : List Byte} {late : Bool}

/-- DATA delivered, with its sender's window as it is then, and acknowledged later. -/
def State.dataGiven (s : State) (d : Nat) (p : List Byte) (late : Bool) (y : NdkPeer) : State :=
  ((s.setNdkPeer d y).deliverCell p late).ackLater d

theorem State.dataCell_first (hhigh : (s.ndkPeer d).high = none) :
    s.dataCell d n p late = s.dataGiven d p late { s.ndkPeer d with high := some n, win := 1 } := by
  unfold State.dataCell
  dsimp only
  rw [hhigh]
  rfl

variable {h : Nat} (hhigh : (s.ndkPeer d).high = some h)
include hhigh

theorem State.dataCell_known {k : Int} (hk : k = sInt 48 (2 ^ 48 + n - h)) : s.dataCell d n p late =
    if 0 < k then s.dataGiven d p late { s.ndkPeer d with
      high := some n, win := if k < 64 then ((s.ndkPeer d).win.shiftLeft k.toNat) ||| 1#64 else 1#64 }
    else if (-64 < k && !(s.ndkPeer d).win.getLsbD (-k).toNat) = true then
      s.dataGiven d p late { s.ndkPeer d with win := (s.ndkPeer d).win ||| (1#64).shiftLeft (-k).toNat }
    else (s.count Reg.NDK_DUP_CNT).sendAck d := by
  subst hk
  unfold State.dataCell
  dsimp only
  rw [hhigh]
  rfl

variable {k : Int} (hk : k = sInt 48 (2 ^ 48 + n - h))
include hk

theorem State.dataCell_newer (hpos : 0 < k) (hwin : k < 64) : s.dataCell d n p late =
    s.dataGiven d p late { s.ndkPeer d with high := some n, win := (s.ndkPeer d).win.shiftLeft k.toNat ||| 1#64 } := by
  refine (State.dataCell_known hhigh hk).trans ((if_pos hpos).trans ?_)
  rw [if_pos hwin]

theorem State.dataCell_far (hwin : 64 ≤ k) : s.dataCell d n p late = s.dataGiven d p late { s.ndkPeer d with high := some n, win := 1 } := by
  refine (State.dataCell_known hhigh hk).trans ((if_pos (by omega)).trans ?_)
  rw [if_neg (by omega)]
  rfl

variable (hneg : k ≤ 0)
include hneg

theorem State.dataCell_late (hwin : -64 < k) (hseen : (s.ndkPeer d).win.getLsbD (-k).toNat = false) : s.dataCell d n p late =
    s.dataGiven d p late { s.ndkPeer d with win := (s.ndkPeer d).win ||| (1#64).shiftLeft (-k).toNat } :=
  (State.dataCell_known hhigh hk).trans ((if_neg (by omega)).trans (if_pos (by rw [hseen, decide_eq_true hwin]; rfl)))

theorem State.dataCell_duplicate (hseen : k ≤ -64 ∨ (s.ndkPeer d).win.getLsbD (-k).toNat = true) :
    s.dataCell d n p late = (s.count Reg.NDK_DUP_CNT).sendAck d := by
  refine (State.dataCell_known hhigh hk).trans ((if_neg (by omega)).trans (if_neg ?_))
  rw [Bool.and_eq_true, decide_eq_true_eq, Bool.not_eq_true']
  rintro ⟨hwin, hunseen⟩
  obtain hold | hseen := hseen
  · omega
  · rw [hunseen] at hseen
    cases hseen

end

/-- Settles O46: a cell by the order of its checks, its kind and its distance from HIGH. -/
theorem stationLinkCells : Obligations.StationLinkCells := by
  intro s lane c p l n late errs up bad kind d seq poll
  refine ⟨fun ha => .of_live rfl ha rfl, ndkCellReceive_down, fun hup => ⟨ndkCellReceive_runt hup, ndkCellReceive_long hup,
      fun hlen => ndkCellReceive_crc hup hlen, fun hlen hcrc => ⟨ndkCellReceive_idle hup hlen hcrc, ndkCellReceive_own hup hlen hcrc,
        fun hkind hother => ⟨ndkCellReceive_poll hup hlen hcrc hkind hother, ndkCellReceive_other hup hlen hcrc hkind hother⟩⟩⟩,
    State.handleCell_elsewhere, fun hmine => ⟨fun u => State.handleCell_unauthentic hmine, fun p late u hopen => ?_⟩, ?_⟩
  · have hcontrol := fun h => State.handleCell_control (l := l) hmine hopen h
    intro v
    refine ⟨State.handleCell_data hmine hopen, State.handleCell_old hmine hopen, fun h hnew => ?_, fun h hnew => ?_, fun h hnew => ?_⟩
    · exact (hcontrol (by rw [show wf c 0 0 3 = 3 from h]; decide) hnew).trans (if_pos h)
    · have hne : wf c 0 0 3 ≠ 3 := by rw [show wf c 0 0 3 = 4 from h]; decide
      exact (hcontrol (by rw [show wf c 0 0 3 = 4 from h]; decide) hnew).trans ((if_neg hne).trans (if_pos h))
    · have hkind : wf c 0 0 3 = 5 := h
      exact (hcontrol (by omega) hnew).trans ((if_neg (by omega)).trans ((if_neg (by omega)).trans (if_pos h)))
  · intro x give
    exact ⟨State.dataCell_first, fun h hhigh => ⟨State.dataCell_newer hhigh rfl, State.dataCell_far hhigh rfl, State.dataCell_late hhigh rfl,
      fun hold => State.dataCell_duplicate hhigh rfl (by omega) (.inl hold), fun hneg _ hseen => State.dataCell_duplicate hhigh rfl hneg (.inr hseen)⟩⟩

end Sys2Proof.Machine
end

section
/-! PROOF. Superframes, received radio frames, the receive queue and missed slots (R380 to R389). -/
namespace Sys2Proof.Machine
open Sys2Proof

/-! ## Superframes and hours -/

section
variable {s : State}

theorem superframeStart_idle (h : s.radioOn = false ∨ s.disc = stUnset ∨ s.nowNs < s.radio.next * sfNs s.radBody) : superframeStart s = s := by
  refine if_neg ?_
  rw [Bool.and_eq_true, Bool.and_eq_true, decide_eq_true_eq, decide_eq_true_eq]
  rintro ⟨⟨hon, hset⟩, hdue⟩
  obtain h | h | h := h
  · rw [hon] at h
    cases h
  · exact hset h
  · exact Nat.not_le.2 h hdue

theorem superframeStart_due (hon : s.radioOn = true) (hset : s.disc ≠ stUnset) (hdue : s.radio.next * sfNs s.radBody ≤ s.nowNs) :
    superframeStart s =
      let n := s.nowNs / sfNs s.radBody
      let u : State := { s with radio := { s.radio with next := n + 1, started := n :: s.radio.started.take 1 } }
      ((u.setReg Reg.RADIO_SFN (n % 2 ^ 40)).setF Reg.RADIO_STATUS 0 1 1).sendBeacon n :=
  if_pos (by rw [hon, decide_eq_true hset, decide_eq_true hdue]; rfl)

theorem dutyHourEnd_idle (h : s.radioOn = false ∨ s.utcHour = s.radio.hour) : dutyHourEnd s = s := by
  refine if_neg ?_
  obtain h | h := h
  · simp [h]
  · simp [h]

theorem dutyHourEnd_new (hon : s.radioOn = true) (hhour : s.utcHour ≠ s.radio.hour) : dutyHourEnd s =
    (({ s with radio := { s.radio with hour := s.utcHour } } : State).setReg Reg.RADIO_DUTY_USED 0).setF Reg.RADIO_STATUS 1 1 0 :=
  if_pos (by rw [hon, decide_eq_true hhour]; rfl)

end

/-! ## Missed slots -/

section
variable {s : State} {k : Nat}

/-- Superframe `n` is later than the last one missed. -/
def Sensor.missedLater (x : Sensor) (n : Nat) : Bool :=
  !(match x.missed with
    | some m => decide (n ≤ m)
    | none => false)

/-- The oldest started slot of sensor `k` that has ended unheard and unmissed. -/
def State.slotUnheard (s : State) (k : Nat) : Option Nat :=
  s.radio.started.reverse.find? fun n =>
    s.slotIn k n && s.slotEnded k n && decide ((s.sensor k).heard ≠ some n) && (s.sensor k).missedLater n

theorem slotMiss_off (h : s.radioOn = false ∨ s.disc = stUnset ∨ snsOn s.radBody k = false) : slotMiss k s = s := by
  refine if_neg ?_
  rw [Bool.and_eq_true, Bool.and_eq_true, decide_eq_true_eq]
  rintro ⟨⟨hon, hset⟩, hsensor⟩
  obtain h | h | h := h
  · rw [hon] at h
    cases h
  · exact hset h
  · rw [hsensor] at h
    cases h

variable (hon : s.radioOn = true) (hset : s.disc ≠ stUnset) (hsensor : snsOn s.radBody k = true)
include hon hset hsensor

theorem slotMiss_on : slotMiss k s =
    match s.slotUnheard k with
    | some n => (s.setSensor k { s.sensor k with missed := some n, winEpoch := s.epoch }).miss k
    | none => s :=
  if_pos (by rw [hon, hsensor, decide_eq_true hset]; rfl)

theorem slotMiss_none (h : s.slotUnheard k = none) : slotMiss k s = s := by
  rw [slotMiss_on hon hset hsensor, h]

theorem slotMiss_some {n : Nat} (h : s.slotUnheard k = some n) :
    slotMiss k s = (s.setSensor k { s.sensor k with missed := some n, winEpoch := s.epoch }).miss k := by
  rw [slotMiss_on hon hset hsensor, h]

end

/-! ## The checks of a frame -/

section
variable {s : State} {rx : RadioRx} {t : Int}

/-- The frame without its FCS. -/
def frameBody (rx : RadioRx) : List Byte := rx.psdu.take (rx.psdu.length - if rx.fcs4 then 4 else 2)

theorem State.radioChecks_short (h : rx.ms = true ∨ rx.psdu.length < 9) : s.radioChecks t rx = s.count Reg.RADIO_SHORT_CNT := by
  refine if_pos ?_
  rw [Bool.or_eq_true, decide_eq_true_eq]
  exact h

variable (hms : rx.ms = false) (hlen : 9 ≤ rx.psdu.length)
include hms hlen

theorem radioChecks_gate : ¬ (rx.ms || decide (rx.psdu.length < 9)) = true := by
  rw [hms, decide_eq_false (Nat.not_lt.2 hlen)]
  decide

theorem State.radioChecks_fcs (h : withRadioFcs rx.fcs4 (frameBody rx) ≠ rx.psdu) : s.radioChecks t rx = s.count Reg.RADIO_FCS_ERR_CNT :=
  (if_neg (radioChecks_gate hms hlen)).trans (if_pos h)

variable (hfcs : withRadioFcs rx.fcs4 (frameBody rx) = rx.psdu)
include hfcs

/-- A frame that is no acknowledgement awaited: its source, and the window it lies in. -/
def State.radioWindowed (s : State) (t : Int) (rx : RadioRx) (m : Mhr) : State :=
  match s.radioSource m with
  | none => s.count Reg.RADIO_UNKNOWN_CNT
  | some k =>
    match s.windowOf k t with
    | none => s.count Reg.RADIO_SLOT_ERR_CNT
    | some n => (s.setSensor k { s.sensor k with heard := some n, winEpoch := s.epoch }).radioSecured k n t rx m

theorem State.radioChecks_sound : s.radioChecks t rx =
    match parseMhr (frameBody rx) with
    | none => s.count Reg.RADIO_UNKNOWN_CNT
    | some m =>
      match if fld m.fcf 0 3 = 2 && fld m.fcf 12 2 = 2 then s.ackAwaited else none with
      | some k => s.radioAckIn k m
      | none => s.radioWindowed t rx m :=
  (if_neg (radioChecks_gate hms hlen)).trans (if_neg (not_not_intro hfcs))

theorem State.radioChecks_unparsed (h : parseMhr (frameBody rx) = none) : s.radioChecks t rx = s.count Reg.RADIO_UNKNOWN_CNT := by
  rw [State.radioChecks_sound hms hlen hfcs, h]

variable {m : Mhr} (hparse : parseMhr (frameBody rx) = some m)
include hparse

theorem State.radioChecks_ack {k : Nat} (htype : fld m.fcf 0 3 = 2) (hversion : fld m.fcf 12 2 = 2) (hawait : s.ackAwaited = some k) :
    s.radioChecks t rx = s.radioAckIn k m := by
  rw [State.radioChecks_sound hms hlen hfcs, hparse]
  dsimp only
  rw [htype, hversion, hawait]
  rfl

theorem State.radioChecks_data (h : s.ackAwaited = none ∨ fld m.fcf 0 3 ≠ 2 ∨ fld m.fcf 12 2 ≠ 2) : s.radioChecks t rx = s.radioWindowed t rx m := by
  have hnone : (if (decide (fld m.fcf 0 3 = 2) && decide (fld m.fcf 12 2 = 2)) = true then s.ackAwaited else none) = none := by
    split
    · next hack =>
      rw [Bool.and_eq_true, decide_eq_true_eq, decide_eq_true_eq] at hack
      obtain ⟨htype, hversion⟩ := hack
      exact h.resolve_right (not_or.2 ⟨not_not_intro htype, not_not_intro hversion⟩)
    · rfl
  rw [State.radioChecks_sound hms hlen hfcs, hparse]
  dsimp only
  rw [hnone]

end

section
variable {s : State} {rx : RadioRx} {t : Int} {m : Mhr}

theorem State.radioWindowed_unknown (h : s.radioSource m = none) : s.radioWindowed t rx m = s.count Reg.RADIO_UNKNOWN_CNT := by
  rw [State.radioWindowed, h]

variable {k : Nat} (hsource : s.radioSource m = some k)
include hsource

theorem State.radioWindowed_outside (h : s.windowOf k t = none) : s.radioWindowed t rx m = s.count Reg.RADIO_SLOT_ERR_CNT := by
  rw [State.radioWindowed, hsource]
  dsimp only
  rw [h]

theorem State.radioWindowed_inside {n : Nat} (h : s.windowOf k t = some n) : s.radioWindowed t rx m =
    (s.setSensor k { s.sensor k with heard := some n, winEpoch := s.epoch }).radioSecured k n t rx m := by
  rw [State.radioWindowed, hsource]
  dsimp only
  rw [h]

end

section
variable {s : State} {rx : RadioRx}

/-- The receiver hears a frame whose SFD ended at `t`. -/
def State.radioHears (s : State) (t : Int) : Bool :=
  s.radioOn && decide (s.disc ≠ stUnset) && (s.ackAwaited.isSome || (sensorsOf s.radBody).any fun k => (s.windowOf k t).isSome)

theorem radioFrameReceive_deaf (h : s.radioHears ((s.nowNs : Int) + rx.sfd) = false) : radioFrameReceive rx s = s :=
  if_neg fun hall => Bool.false_ne_true (h.symm.trans hall)

theorem radioFrameReceive_heard (h : s.radioHears ((s.nowNs : Int) + rx.sfd) = true) : radioFrameReceive rx s =
    let u := s.radioChecks ((s.nowNs : Int) + rx.sfd) rx
    { u with radio := { u.radio with busy := max u.radio.busy u.nowNs } } :=
  if_pos h

end

/-! ## Security -/

section
variable {s : State} {k n : Nat} {t : Int} {rx : RadioRx} {m : Mhr}

/-- An authentication failure. -/
def State.radioFailed (u : State) : State := (u.count Reg.RADIO_AUTH_FAIL_CNT).raise 107

theorem State.radioSecured_keyless {u : State} (hkey : s.radioKey k m = (none, u)) : s.radioSecured k n t rx m = u.radioFailed := by
  unfold State.radioSecured
  rw [hkey]
  rfl

variable {key : List Byte} {late : Bool} {u : State} (hkey : s.radioKey k m = (some (key, late), u))
include hkey

theorem State.radioSecured_unopened (h : openFrame key (snsAddr u.radBody k) m = none) : s.radioSecured k n t rx m = u.radioFailed := by
  unfold State.radioSecured
  rw [hkey]
  dsimp only
  rw [h]
  rfl

/-- A frame of the sensor accepted where it is fresh, and counted as a duplicate where not. -/
def State.radioTaken (u : State) (k tnom : Nat) (late : Bool) (t : Int) (rx : RadioRx) (m : Mhr) (plain : List Byte) (fresh : Bool) : State :=
  let v := if late then u.count Reg.RADIO_KEYREV_CNT else u
  if fresh then v.acceptRadio k tnom late t (t - tnom) rx m plain else v.count Reg.RADIO_DUP_CNT

/-- The counter of a frame is above the last of its sensor. -/
def State.radioFresh (u : State) (k : Nat) (late : Bool) (m : Mhr) : Bool :=
  decide ((if late then u.count Reg.RADIO_KEYREV_CNT else u).rn (Reg.RADIO_SNS_RXCTR k) < m.ctr)

section
variable {plain : List Byte} (hopen : openFrame key (snsAddr u.radBody k) m = some plain)
include hopen

theorem State.radioSecured_last (h : m.ctr = 0xFFFFFFFF) : s.radioSecured k n t rx m = u.radioFailed := by
  unfold State.radioSecured
  rw [hkey]
  dsimp only
  rw [hopen]
  exact if_pos h

theorem State.radioSecured_opened (h : m.ctr ≠ 0xFFFFFFFF) : s.radioSecured k n t rx m =
    let tnom := snsNominal s.radBody k n
    let y := u.radioTaken k tnom late t rx m plain (u.radioFresh k late m)
    if fld m.fcf 5 1 = 1 then
      { y with radio := { y.radio with ack := some {
        due := 250000 + y.time.ticks, sensor := k, key := key, keyId := m.keyId, err := t - tnom, seq := m.seq, tnom := tnom
        accepted := u.radioFresh k late m } } }
    else y := by
  unfold State.radioSecured
  rw [hkey]
  dsimp only
  rw [hopen]
  exact if_neg h

end

theorem State.radioSecured_fails (h : openFrame key (snsAddr u.radBody k) m = none ∨ m.ctr = 0xFFFFFFFF) :
    s.radioSecured k n t rx m = u.radioFailed := by
  cases hopen : openFrame key (snsAddr u.radBody k) m with
  | none => exact State.radioSecured_unopened hkey hopen
  | some plain =>
    rw [hopen] at h
    exact State.radioSecured_last hkey hopen (h.resolve_left (Option.some_ne_none plain))

end

/-! ## The receive queue -/

section
variable {s : State} {w : Word}

theorem radioRxqPop_ignored (h : w.getLsbD 0 = false ∨ s.radio.rxCount = 0) : radioRxqPop w s = s := by
  refine if_neg ?_
  rw [Bool.and_eq_true, decide_eq_true_eq]
  rintro ⟨hgo, hcount⟩
  obtain h | h := h
  · rw [hgo] at h
    cases h
  · exact hcount h

theorem radioRxqPop_pops (hgo : w.getLsbD 0 = true) (hcount : s.radio.rxCount ≠ 0) : radioRxqPop w s =
    let a := s.rn Reg.RADIO_RXQ_BASE + 2112 * s.radio.rxHead
    let u := s.sramWrite (a + 3) [Memory.byte s.sram (sramIx (a + 3)) &&& 0x7F]
    ({ u with radio := { u.radio with
      rxHead := (u.radio.rxHead + 1) % 256, rxCount := u.radio.rxCount - 1, watch := u.watchRead } } : State).showRadioQ :=
  if_pos (by rw [hgo, decide_eq_true hcount]; rfl)

end

/-- Settles O47: reception by the order of R385, and the other commands by the cases of their meanings. -/
theorem radioReception : Obligations.RadioReception := by
  intro s rx who w sensor k n t m err errs sf at_ hears f fail x
  refine ⟨fun ht => ⟨fun h => .of_running rfl ht (superframeStart_idle (s := s.quiet) h),
      fun hon hset hdue => .of_running rfl ht (superframeStart_due (s := s.quiet) hon hset hdue),
      fun h => .of_running rfl ht (dutyHourEnd_idle (s := s.quiet) h), fun hon hhour => .of_running rfl ht (dutyHourEnd_new (s := s.quiet) hon hhour)⟩,
    fun ha => ⟨.of_live rfl ha rfl, fun h => .of_live rfl ha (slotMiss_off (s := s.quiet) h), fun hon hset hsensor => ?_⟩,
    radioFrameReceive_deaf, radioFrameReceive_heard, State.radioChecks_short,
    fun hms hlen => ⟨State.radioChecks_fcs hms hlen, State.radioChecks_unparsed hms hlen,
      fun hfcs hparse htype hversion k hawait => State.radioChecks_ack hms hlen hfcs hparse htype hversion hawait, fun hfcs hparse h => ?_⟩,
    fun u => State.radioSecured_keyless, fun key late u hkey => ⟨State.radioSecured_fails hkey, fun plain hopen hctr => ?_⟩,
    fun htakes => ⟨fun h => .of_takes rfl htakes (radioRxqPop_ignored (s := s.quiet) h),
      fun hgo hcount => .of_takes rfl htakes (radioRxqPop_pops (s := s.quiet) hgo hcount)⟩⟩
  · exact ⟨fun h => .of_live rfl ha (slotMiss_none (s := s.quiet) hon hset hsensor h),
      fun n h => .of_live rfl ha (slotMiss_some (s := s.quiet) hon hset hsensor h)⟩
  · have hdata := State.radioChecks_data (s := s) (t := t) hms hlen hfcs hparse h
    exact ⟨fun h => hdata.trans (State.radioWindowed_unknown h), fun hsource h => hdata.trans (State.radioWindowed_outside hsource h),
      fun hsource h => hdata.trans (State.radioWindowed_inside hsource h)⟩
  · have hopened := State.radioSecured_opened (n := n) (t := t) (rx := rx) hkey hopen hctr
    intro tnom v fresh y
    exact ⟨fun hbit => hopened.trans (if_neg (by rw [hbit]; decide)), fun hbit => hopened.trans (if_pos hbit)⟩

end Sys2Proof.Machine
end

section
/-! PROOF. Radio acknowledgements, wake-ups, downlink frames and the duty hold (R387, R390 to R394). -/
namespace Sys2Proof.Machine
open Sys2Proof

/-! ## Acknowledgements -/

section
variable {s : State} {off : Nat}

theorem State.advanceCtr_exhausted (h : 0xFFFFFFFF ≤ s.rn off + 1) : s.advanceCtr off = (none, (s.setReg off 0xFFFFFFFF).count Reg.RADIO_CTR_EXH_CNT) :=
  if_neg (Nat.not_lt.2 h)

theorem State.advanceCtr_next (h : s.rn off + 1 < 0xFFFFFFFF) : s.advanceCtr off = (some (s.rn off + 1), s.setReg off (s.rn off + 1)) := if_pos h

/-- An acknowledgement sent under counter `c`; a downlink frame that it announces starts 1,000 µs after it. -/
def State.ackSent (v : State) (b : List Byte) (a : RadioAck) (c : Nat) : State :=
  let f := v.ackFrame a c
  let x := (v.sendPsdu v.nowNs f).count Reg.RADIO_ACK_CNT
  let y := if a.accepted then x.setSensor a.sensor { x.sensor a.sensor with tref := a.tnom, epoch := x.epoch } else x
  if y.downPending a.sensor then
    { y with radio := { y.radio with
      down := some (y.time.ticks + (airtime b (f.length + if wf b 0 4 1 = 1 then 4 else 2) + 1000) * 250, a.sensor) } }
  else y

/-- The acknowledgement due taken, with what its sending finds. -/
def State.ackTaken (u : State) (a : RadioAck) : State :=
  if u.dutyHold then u.withheld
  else
    match u.advanceCtr (Reg.RADIO_SNS_TXCTR a.sensor) with
    | (none, v) => v
    | (some c, v) => v.ackSent v.radBody a c

theorem radioAckSend_none (h : s.radio.ack = none) : radioAckSend s = s := by
  rw [radioAckSend, h]

section
variable {a : RadioAck} (hack : s.radio.ack = some a)
include hack

theorem radioAckSend_waits (h : s.radioOn = false ∨ s.time.ticks < a.due) : radioAckSend s = s := by
  rw [radioAckSend, hack]
  refine if_pos ?_
  rw [Bool.or_eq_true, Bool.not_eq_true', decide_eq_true_eq]
  exact h

theorem radioAckSend_due (hon : s.radioOn = true) (hdue : a.due ≤ s.time.ticks) :
    radioAckSend s = ({ s with radio := { s.radio with ack := none } } : State).ackTaken a := by
  rw [radioAckSend, hack]
  refine if_neg ?_
  rw [hon, decide_eq_false (Nat.not_lt.2 hdue)]
  decide

end

theorem radioAckSend_off (h : s.radioOn = false) : radioAckSend s = s := by
  cases hack : s.radio.ack with
  | none => exact radioAckSend_none hack
  | some a => exact radioAckSend_waits hack (.inl h)

theorem State.radBody_setReg (a v : Nat) : (s.setReg a v).radBody = s.radBody := rfl

section
variable {u : State} {a : RadioAck}

theorem State.ackTaken_withheld (h : u.dutyHold = true) : u.ackTaken a = u.count Reg.RADIO_DUTY_WAIT_CNT := if_pos h

variable (hduty : u.dutyHold = false)
include hduty

theorem State.ackTaken_sends : u.ackTaken a =
    match u.advanceCtr (Reg.RADIO_SNS_TXCTR a.sensor) with
    | (none, v) => v
    | (some c, v) => v.ackSent v.radBody a c :=
  if_neg (by rw [hduty]; decide)

theorem State.ackTaken_exhausted (h : 0xFFFFFFFF ≤ u.rn (Reg.RADIO_SNS_TXCTR a.sensor) + 1) :
    u.ackTaken a = (u.setReg (Reg.RADIO_SNS_TXCTR a.sensor) 0xFFFFFFFF).count Reg.RADIO_CTR_EXH_CNT := by
  rw [State.ackTaken_sends hduty, State.advanceCtr_exhausted h]

theorem State.ackTaken_sent (h : u.rn (Reg.RADIO_SNS_TXCTR a.sensor) + 1 < 0xFFFFFFFF) : u.ackTaken a =
    (u.setReg (Reg.RADIO_SNS_TXCTR a.sensor) (u.rn (Reg.RADIO_SNS_TXCTR a.sensor) + 1)).ackSent u.radBody a
      (u.rn (Reg.RADIO_SNS_TXCTR a.sensor) + 1) := by
  rw [State.ackTaken_sends hduty, State.advanceCtr_next h]
  dsimp only
  rw [State.radBody_setReg]

end

end

/-! ## Wake-ups -/

section
variable {s : State} {k : Nat}

theorem radioWake_none (h : (s.sensor k).wakeIn = none) : radioWake k s = s := by
  rw [radioWake, h]

/-- Microseconds of a wake-up signature. -/
def wakeUs (b : List Byte) : Nat := (6 + 4 * wf b 7 12 4) * 160

/-- The instant at which the wake-up of sensor `k` before superframe `n` would end ahead of it. -/
def State.wakeEnd (s : State) (k n : Nat) : Nat :=
  let after := ((sensorsOf s.radBody).filter fun j => decide (k ≤ j) && decide ((s.sensor j).wakeIn = some n) && s.wakes j).length
  s.nowNs + (wf s.radBody 8 0 16 + wakeUs s.radBody * after) * 1000

/-- A sensor's wake-up taken, its recovery slot opened with event 111. -/
def State.wakeTaken (s : State) (k n : Nat) : State :=
  (s.setSensor k { s.sensor k with wakeIn := none, recovery := some n, tref := n * sfNs s.radBody, epoch := s.epoch }).raise 111

section
variable {n : Nat} (hwake : (s.sensor k).wakeIn = some n)
include hwake

theorem radioWake_waits (h : s.radioOn = false ∨ s.wakeEnd k n < n * sfNs s.radBody) : radioWake k s = s := by
  rw [radioWake, hwake]
  refine if_pos ?_
  rw [Bool.or_eq_true, Bool.not_eq_true', decide_eq_true_eq]
  exact h

theorem radioWake_due (hon : s.radioOn = true) (hdue : n * sfNs s.radBody ≤ s.wakeEnd k n) : radioWake k s =
    let u := s.wakeTaken k n
    if !u.wakes k then u
    else if u.dutyHold then u.withheld
    else (u.emit (.wake k (wakeSignature s.radBody k))).transmitted u.nowNs (wakeUs s.radBody) := by
  rw [radioWake, hwake]
  refine if_neg ?_
  rw [hon, Bool.or_eq_true, decide_eq_true_eq]
  rintro (h | h)
  · cases h
  · exact Nat.not_le.2 h hdue

end

theorem radioWake_off (h : s.radioOn = false) : radioWake k s = s := by
  cases hwake : (s.sensor k).wakeIn with
  | none => exact radioWake_none hwake
  | some n => exact radioWake_waits hwake (.inl h)

end

/-! ## Downlink -/

section
variable {s : State} {w : Word} {j : Nat}

theorem radioTxqCtrl_ignored (h : w.getLsbD 31 = false ∨ s.radioOn = false) : radioTxqCtrl w s = s := by
  refine if_pos ?_
  obtain h | h := h
  · rw [h, Bool.false_and]
    rfl
  · rw [h, Bool.and_false]
    rfl

section
variable (hj : j = fld w.toNat 0 8) (hgo : w.getLsbD 31 = true) (hon : s.radioOn = true)
include hj hgo hon

theorem radioTxqCtrl_go : radioTxqCtrl w s =
    if (decide (16 ≤ s.radio.txq.length) || !snsOn s.radBody j) = true then s.count Reg.RADIO_TX_FAIL_CNT
    else
      let x : Downlink := { sensor := j, data := Memory.read s.sram (sramIx (s.rn Reg.RADIO_TXQ_ADDR)) (fld w.toNat 8 11) }
      ({ s with radio := { s.radio with txq := s.radio.txq ++ [x] } } : State).showTxq := by
  subst hj
  exact if_neg (by rw [hgo, hon]; decide)

theorem radioTxqCtrl_fails (h : 16 ≤ s.radio.txq.length ∨ snsOn s.radBody j = false) : radioTxqCtrl w s = s.count Reg.RADIO_TX_FAIL_CNT := by
  refine (radioTxqCtrl_go hj hgo hon).trans (if_pos ?_)
  rw [Bool.or_eq_true, Bool.not_eq_true', decide_eq_true_eq]
  exact h

theorem radioTxqCtrl_queues (hroom : s.radio.txq.length < 16) (hsensor : snsOn s.radBody j = true) : radioTxqCtrl w s =
    let x : Downlink := { sensor := j, data := Memory.read s.sram (sramIx (s.rn Reg.RADIO_TXQ_ADDR)) (fld w.toNat 8 11) }
    ({ s with radio := { s.radio with txq := s.radio.txq ++ [x] } } : State).showTxq := by
  refine (radioTxqCtrl_go hj hgo hon).trans (if_neg ?_)
  rw [hsensor, decide_eq_false (Nat.not_le.2 hroom)]
  decide

end

theorem radioDownlinkSend_none (h : s.radio.down = none) : radioDownlinkSend s = s := by
  rw [radioDownlinkSend, h]

/-- The frame of sensor `j` sent under counter `c`, its acknowledgement awaited. -/
def State.downSent (z : State) (j : Nat) (x : Downlink) (key : List Byte) (c : Nat) : State :=
  let f := z.downFrame x key (z.keyIndex (z.bindSlot (snsBind z.radBody j) false)) c
  let us := airtime z.radBody (f.length + if wf z.radBody 0 4 1 = 1 then 4 else 2)
  ({ z with radio := { z.radio with
    txq := setFirst (fun y => y.sensor = j) { x with sends := x.sends + 1 } z.radio.txq
    await := some (z.time.ticks + (us + 3000) * 250, j) } } : State).sendPsdu z.nowNs f

section
variable {due : Nat} (hdown : s.radio.down = some (due, j))
include hdown

theorem radioDownlinkSend_waits (h : s.radioOn = false ∨ s.time.ticks < due) : radioDownlinkSend s = s := by
  rw [radioDownlinkSend, hdown]
  refine if_pos ?_
  rw [Bool.or_eq_true, Bool.not_eq_true', decide_eq_true_eq]
  exact h

end

theorem radioDownlinkSend_off (h : s.radioOn = false) : radioDownlinkSend s = s := by
  cases hdown : s.radio.down with
  | none => exact radioDownlinkSend_none hdown
  | some x => exact radioDownlinkSend_waits (due := x.1) (j := x.2) hdown (.inl h)

theorem downlinkAckTimeout_none (h : s.radio.await = none) : downlinkAckTimeout s = s := by
  rw [downlinkAckTimeout, h]

section
variable {d : Nat} (hawait : s.radio.await = some (d, j))
include hawait

theorem downlinkAckTimeout_waits (h : s.time.ticks < d) : downlinkAckTimeout s = s := by
  rw [downlinkAckTimeout, hawait]
  exact if_pos h

variable (hlate : d ≤ s.time.ticks)
include hlate

theorem downlinkAckTimeout_late : downlinkAckTimeout s =
    match s.radio.txq.find? fun x => x.sensor = j with
    | some x => if 3 ≤ x.sends then (s.downEnd j false).count Reg.RADIO_TX_FAIL_CNT else { s with radio := { s.radio with await := none } }
    | none => { s with radio := { s.radio with await := none } } := by
  rw [downlinkAckTimeout, hawait]
  exact if_neg (Nat.not_lt.2 hlate)

theorem downlinkAckTimeout_fails {x : Downlink} (hx : (s.radio.txq.find? fun x => x.sensor = j) = some x) (hsends : 3 ≤ x.sends) :
    downlinkAckTimeout s = (s.downEnd j false).count Reg.RADIO_TX_FAIL_CNT := by
  rw [downlinkAckTimeout_late hawait hlate, hx]
  exact if_pos hsends

theorem downlinkAckTimeout_again
    (h : (s.radio.txq.find? fun x => x.sensor = j) = none ∨ ∃ x, (s.radio.txq.find? fun x => x.sensor = j) = some x ∧ x.sends < 3) :
    downlinkAckTimeout s = { s with radio := { s.radio with await := none } } := by
  rw [downlinkAckTimeout_late hawait hlate]
  obtain h | ⟨x, hx, hsends⟩ := h
  · rw [h]
  · rw [hx]
    exact if_neg (Nat.not_le.2 hsends)

end

end

section
variable {s : State} {j due : Nat} (hdown : s.radio.down = some (due, j)) (hon : s.radioOn = true) (hdue : due ≤ s.time.ticks)
  {u : State} (hu : u = { s with radio := { s.radio with down := none } })
include hdown hon hdue hu

theorem radioDownlinkSend_due : radioDownlinkSend s =
    match s.radio.txq.find? fun x => x.sensor = j with
    | none => u
    | some x =>
      if u.dutyHold then u.withheld
      else
        match u.takeBound engRadio (snsBind s.radBody j) 3 false with
        | (none, v) => v
        | (some (key, _), v) =>
          match v.advanceCtr (Reg.RADIO_SNS_TXCTR j) with
          | (none, z) => z
          | (some c, z) =>
            let f := z.downFrame x key (z.keyIndex (z.bindSlot (snsBind s.radBody j) false)) c
            let us := airtime z.radBody (f.length + if wf z.radBody 0 4 1 = 1 then 4 else 2)
            ({ z with radio := { z.radio with
              txq := setFirst (fun y => y.sensor = j) { x with sends := x.sends + 1 } z.radio.txq
              await := some (z.time.ticks + (us + 3000) * 250, j) } } : State).sendPsdu z.nowNs f := by
  subst hu
  rw [radioDownlinkSend, hdown]
  refine if_neg ?_
  rw [hon, decide_eq_false (Nat.not_lt.2 hdue)]
  decide

theorem radioDownlinkSend_empty (h : (s.radio.txq.find? fun x => x.sensor = j) = none) : radioDownlinkSend s = u := by
  rw [radioDownlinkSend_due hdown hon hdue hu, h]

variable {x : Downlink} (hx : (s.radio.txq.find? fun x => x.sensor = j) = some x)
include hx

theorem radioDownlinkSend_withheld (h : u.dutyHold = true) : radioDownlinkSend s = u.count Reg.RADIO_DUTY_WAIT_CNT := by
  rw [radioDownlinkSend_due hdown hon hdue hu, hx]
  exact if_pos h

variable (hduty : u.dutyHold = false)
include hduty

theorem radioDownlinkSend_keyless {v : State} (h : u.takeBound engRadio (snsBind s.radBody j) 3 false = (none, v)) : radioDownlinkSend s = v := by
  rw [radioDownlinkSend_due hdown hon hdue hu, hx]
  dsimp only
  rw [if_neg (by rw [hduty]; decide), h]

variable {key : List Byte} {late : Bool} {v z : State} (hkey : u.takeBound engRadio (snsBind s.radBody j) 3 false = (some (key, late), v))
include hkey

theorem radioDownlinkSend_exhausted (h : v.advanceCtr (Reg.RADIO_SNS_TXCTR j) = (none, z)) : radioDownlinkSend s = z := by
  rw [radioDownlinkSend_due hdown hon hdue hu, hx]
  dsimp only
  rw [if_neg (by rw [hduty]; decide), hkey]
  dsimp only
  rw [h]

theorem radioDownlinkSend_sent {c : Nat} (h : v.advanceCtr (Reg.RADIO_SNS_TXCTR j) = (some c, z)) : radioDownlinkSend s =
    let f := z.downFrame x key (z.keyIndex (z.bindSlot (snsBind s.radBody j) false)) c
    let us := airtime z.radBody (f.length + if wf z.radBody 0 4 1 = 1 then 4 else 2)
    ({ z with radio := { z.radio with
      txq := setFirst (fun y => y.sensor = j) { x with sends := x.sends + 1 } z.radio.txq
      await := some (z.time.ticks + (us + 3000) * 250, j) } } : State).sendPsdu z.nowNs f := by
  rw [radioDownlinkSend_due hdown hon hdue hu, hx]
  dsimp only
  rw [if_neg (by rw [hduty]; decide), hkey]
  dsimp only
  rw [h]

end

/-- Settles O48: each command by the cases of its meaning. -/
theorem radioSending : Obligations.RadioSending := by
  intro s sensor who w k b r now fcs
  refine ⟨fun ha => ⟨fun h => ?_, fun a hack hon => ⟨fun h => .of_live rfl ha (radioAckSend_waits (s := s.quiet) hack (.inr h)), fun hdue => ?_⟩,
      fun h => ?_, fun n hwake hon => ?_, fun h => ?_, fun due j hdown hon => ⟨fun h => .of_live rfl ha (radioDownlinkSend_waits (s := s.quiet) hdown (.inr h)),
        fun hdue => ?_⟩, fun h => .of_live rfl ha (downlinkAckTimeout_none (s := s.quiet) h),
      fun d j hawait => ⟨fun h => .of_live rfl ha (downlinkAckTimeout_waits (s := s.quiet) hawait h), fun hlate => ?_⟩⟩, fun htakes => ?_⟩
  · exact .of_live rfl ha (h.elim (fun h => radioAckSend_none (s := s.quiet) h) fun h => radioAckSend_off (s := s.quiet) h)
  · have htaken := radioAckSend_due (s := s.quiet) hack hon hdue
    intro u
    exact ⟨fun h => .of_live rfl ha (htaken.trans (State.ackTaken_withheld (u := u) h)),
      fun hduty h => .of_live rfl ha (htaken.trans (State.ackTaken_exhausted (u := u) hduty h)),
      fun hduty h => .of_live rfl ha (htaken.trans (State.ackTaken_sent (u := u) hduty h))⟩
  · exact .of_live rfl ha (h.elim (fun h => radioWake_none (s := s.quiet) h) fun h => radioWake_off (s := s.quiet) h)
  · intro dur after
    refine ⟨fun h => .of_live rfl ha (radioWake_waits (s := s.quiet) hwake (.inr h)), fun h => ?_⟩
    have hdue := radioWake_due (s := s.quiet) hwake hon h
    intro u
    exact ⟨fun hno => .of_live rfl ha (hdue.trans (if_pos (by rw [show (s.quiet.wakeTaken k n).wakes k = false from hno]; rfl))),
      fun hyes hduty => .of_live rfl ha (hdue.trans ((if_neg (by rw [show (s.quiet.wakeTaken k n).wakes k = true from hyes]; decide)).trans
        (if_pos hduty))),
      fun hyes hduty => .of_live rfl ha (hdue.trans ((if_neg (by rw [show (s.quiet.wakeTaken k n).wakes k = true from hyes]; decide)).trans
        (if_neg (by rw [show (s.quiet.wakeTaken k n).dutyHold = false from hduty]; decide))))⟩
  · exact .of_live rfl ha (h.elim (fun h => radioDownlinkSend_none (s := s.quiet) h) fun h => radioDownlinkSend_off (s := s.quiet) h)
  · intro u q
    exact ⟨fun h => .of_live rfl ha (radioDownlinkSend_empty (s := s.quiet) hdown hon hdue (u := u) rfl h), fun x hx =>
      ⟨fun h => .of_live rfl ha (radioDownlinkSend_withheld (s := s.quiet) hdown hon hdue (u := u) rfl hx h), fun hduty =>
        ⟨fun v h => .of_live rfl ha (radioDownlinkSend_keyless (s := s.quiet) hdown hon hdue (u := u) rfl hx hduty h), fun key late v z hkey =>
          ⟨fun h => .of_live rfl ha (radioDownlinkSend_exhausted (s := s.quiet) hdown hon hdue (u := u) rfl hx hduty hkey h),
            fun c h => .of_live rfl ha (radioDownlinkSend_sent (s := s.quiet) hdown hon hdue (u := u) rfl hx hduty hkey h)⟩⟩⟩⟩
  · intro q
    exact ⟨fun x hx hsends => .of_live rfl ha (downlinkAckTimeout_fails (s := s.quiet) hawait hlate hx hsends),
      fun h => .of_live rfl ha (downlinkAckTimeout_again (s := s.quiet) hawait hlate h)⟩
  · intro j
    have hj : j = fld w.toNat 0 8 := fld_low _ _
    exact ⟨fun h => .of_takes rfl htakes (radioTxqCtrl_ignored (s := s.quiet) h), fun hgo hon =>
      ⟨fun h => .of_takes rfl htakes (radioTxqCtrl_fails (s := s.quiet) hj hgo hon h),
        fun hroom hsensor => .of_takes rfl htakes (radioTxqCtrl_queues (s := s.quiet) hj hgo hon hroom hsensor)⟩⟩

end Sys2Proof.Machine
end

section
/-! PROOF. The key store's mailbox commands (R424, R425). -/
namespace Sys2Proof.Machine
open Sys2Proof

/-- An `if` under an equivalent condition. -/
theorem ite_of_iff {α : Sort _} {c e : Prop} [Decidable c] [Decidable e] {x y u v : α} (h : c ↔ e) (hx : x = u) (hy : y = v) :
    (if c then x else y) = if e then u else v :=
  ite_congr (propext h) (fun _ => hx) fun _ => hy

/-! ## The shared course of a key command -/

section
variable {s : State} {m : Nat} {who : Party} {mbxs lcs : List Nat} {ok : Bool} {inHand : Nat} {f : State → Nat × State}

/-- Whether mailbox `m` takes a command of these mailboxes and life-cycle states from `who` (R424). -/
def State.keyTakes (s : State) (m : Nat) (who : Party) (mbxs lcs : List Nat) (ok : Bool) : Bool :=
  (mbxParty m who && !s.bit (Reg.KEY_MBX_STATUS m) 0) && mbxs.contains m && lcs.contains s.lc && ok

theorem State.keyTakes_eq : s.keyTakes m who mbxs lcs ok =
    (mbxParty m who && mbxs.contains m && lcs.contains s.lc && ok && !s.bit (Reg.KEY_MBX_STATUS m) 0) := by
  unfold State.keyTakes
  ac_rfl

theorem State.keyGo_ignored (h : s.keyTakes m who mbxs lcs ok = false) : s.keyGo m who mbxs lcs ok inHand f = s :=
  if_neg (by rw [← State.keyTakes_eq, h]; decide)

theorem State.keyGo_taken (h : s.keyTakes m who mbxs lcs ok = true) : s.keyGo m who mbxs lcs ok inHand f =
    if s.key.migr.isSome then s.keyEnd m krBusy else ((s.withdraw (f s).2 inHand).showSlots).keyEnd m (f s).1 :=
  if_pos (by rw [← State.keyTakes_eq, h])

/-- The three ends of a key command, given what the step makes of its meaning and the command's own result `r`. -/
theorem State.keyGo_ends {i : Instr} {r : Nat × State} (hend : ∀ u, s.quiet.keyGo m who mbxs lcs ok inHand f = u → Ends i s u)
    (hr : f s.quiet = r) :
    (s.keyTakes m who mbxs lcs ok = false → Ends i s s.quiet) ∧
    (s.keyTakes m who mbxs lcs ok = true → s.key.migr.isSome = true → Ends i s (s.quiet.keyEnd m krBusy)) ∧
    (s.keyTakes m who mbxs lcs ok = true → s.key.migr = none →
      Ends i s (((s.quiet.withdraw r.2 inHand).showSlots).keyEnd m r.1)) := by
  subst hr
  refine ⟨fun h => hend _ (State.keyGo_ignored (s := s.quiet) h), fun h hm => hend _ ?_, fun h hm => hend _ ?_⟩
  · exact (State.keyGo_taken (s := s.quiet) h).trans (if_pos hm)
  · exact (State.keyGo_taken (s := s.quiet) h).trans (if_neg (by show ¬ s.key.migr.isSome = true; rw [hm]; exact Bool.false_ne_true))

/-! ## STATUS -/

theorem keyStatus_ignored (h : (mbxParty m who && !s.bit (Reg.KEY_MBX_STATUS m) 0) = false) : keyStatus m who s = s :=
  if_neg (by rw [h]; exact Bool.false_ne_true)

theorem keyStatus_taken (h : (mbxParty m who && !s.bit (Reg.KEY_MBX_STATUS m) 0) = true) : keyStatus m who s =
    ((s.mbxPut m 0 (leBytes 16 Config.uid.toNat)).mbxPut m 16 (leBytes 4 (s.rn Reg.KEY_STATUS))).keyEnd m krOk :=
  if_pos h

end

/-- Settles O49: a key command is ignored, busy or run by the shared course; each command's own result is read off its meaning. -/
theorem keyCommands : Obligations.KeyCommands := by
  unfold Obligations.KeyCommands
  intro s mbx who h m q idle a b c go silent bad u ha
  refine ⟨fun hi => .of_live rfl ha (keyStatus_ignored (s := s.quiet) hi), fun hi => .of_live rfl ha (keyStatus_taken (s := s.quiet) hi),
    State.keyGo_ends (fun _ hu => .of_live rfl ha hu) rfl, State.keyGo_ends (fun _ hu => .of_live rfl ha hu) rfl,
    State.keyGo_ends (fun _ hu => .of_live rfl ha hu) ?_, State.keyGo_ends (fun _ hu => .of_live rfl ha hu) ?_,
    State.keyGo_ends (fun _ hu => .of_live rfl ha hu) ?_, State.keyGo_ends (fun _ hu => .of_live rfl ha hu) ?_,
    State.keyGo_ends (fun _ hu => .of_live rfl ha hu) ?_, State.keyGo_ends (fun _ hu => .of_live rfl ha hu) rfl,
    State.keyGo_ends (fun _ hu => .of_live rfl ha hu) ?_, State.keyGo_ends (fun _ hu => .of_live rfl ha hu) rfl⟩
  case refine_1 =>
    refine ite_of_iff Iff.rfl rfl (ite_of_iff ?_ rfl rfl)
    rw [Bool.or_eq_true, decide_eq_true_eq, decide_eq_true_eq]
    exact Iff.rfl
  case refine_2 =>
    refine ite_of_iff ?_ rfl (ite_of_iff ?_ rfl rfl)
    · rw [Bool.and_eq_true, decide_eq_true_eq, decide_eq_true_eq]
      exact Iff.rfl
    · rw [Bool.not_eq_true']
      exact Iff.rfl
  case refine_3 =>
    refine ite_of_iff ?_ rfl rfl
    rw [Bool.or_eq_true, decide_eq_true_eq, decide_eq_true_eq]
    exact Iff.rfl
  case refine_4 =>
    refine ite_of_iff ?_ rfl rfl
    simp only [Bool.or_eq_true, Bool.and_eq_true, decide_eq_true_eq, or_assoc]
    exact Iff.rfl
  case refine_5 =>
    refine ite_of_iff ?_ rfl rfl
    rw [Bool.or_eq_true, decide_eq_true_eq, decide_eq_true_eq]
    exact Iff.rfl
  case refine_6 =>
    refine ite_of_iff ?_ rfl (ite_of_iff Iff.rfl rfl rfl)
    rw [Bool.not_eq_true']
    exact Iff.rfl

end Sys2Proof.Machine
end

section
/-! PROOF. Privileged commands, the tag sweep, the end of a migration, and tamper (R413 to R415, R420 to R422). -/
namespace Sys2Proof.Machine
open Sys2Proof

/-! ## The shared course of a privileged command -/

section
variable {s : State} {m code : Nat} {who : Party} {ok : Bool} {inHand : Nat} {f g : State → Option Nat × State}

/-- Whether mailbox `m` takes a block of CODE `code` from `who` (R421, R424). -/
def State.privTakes (s : State) (m code : Nat) (who : Party) (ok : Bool) : Bool :=
  mbxParty m who && decide (s.mbx m 0 % 2 ^ 8 = code) && ok && !s.bit (Reg.KEY_MBX_STATUS m) 0

/-- The nonce spent, the command counted, and its event raised. -/
def State.privSpent (s : State) (m : Nat) : State := ((s.setNonce m none).count Reg.KEY_PRIV_CNT).raise 116

/-- A privileged command of `s` that ends with result `r` in state `t`. -/
def State.privEnd (s t : State) (m inHand r : Nat) : State := (((s.privSpent m).withdraw t inHand).showSlots).keyEnd m r

/-- What a block taken does: its result, none while it runs on, and the state after its effect. -/
def State.privRun (s : State) (m : Nat) (f : State → Option Nat × State) : Option Nat × State :=
  if s.key.migr.isSome then (some krBusy, s.privSpent m)
  else
    let c := (s.privSpent m).privChecks m (Tbl.get s.key.nonces m none)
    if c.1 = krOk then f c.2 else (some c.1, c.2)

theorem State.privGo_ignored (h : s.privTakes m code who ok = false) : s.privGo code m who ok inHand f = s :=
  if_neg (by rw [← fld_low]; exact ne_true_of_eq_false h)

theorem State.privGo_taken (h : s.privTakes m code who ok = true) : s.privGo code m who ok inHand f =
    match (s.privRun m f).1 with
    | some x => s.privEnd (if x = krOk then (s.privRun m f).2 else (s.privRun m f).2.count Reg.KEY_PRIV_FAIL_CNT) m inHand x
    | none => (s.privRun m f).2.setReg (Reg.KEY_MBX_STATUS m) 1 :=
  if_pos (by rw [← fld_low]; exact h)

variable {r : Nat} {t : State}

theorem State.privGo_ok (h : s.privTakes m code who ok = true) (hrun : s.privRun m f = (some krOk, t)) :
    s.privGo code m who ok inHand f = s.privEnd t m inHand krOk := by
  rw [State.privGo_taken h, hrun]
  exact congrArg (s.privEnd · m inHand krOk) (if_pos rfl)

theorem State.privGo_fails (h : s.privTakes m code who ok = true) (hrun : s.privRun m f = (some r, t)) (hr : r ≠ krOk) :
    s.privGo code m who ok inHand f = s.privEnd (t.count Reg.KEY_PRIV_FAIL_CNT) m inHand r := by
  rw [State.privGo_taken h, hrun]
  exact congrArg (s.privEnd · m inHand r) (if_neg hr)

theorem State.privGo_runs (h : s.privTakes m code who ok = true) (hrun : s.privRun m f = (none, t)) :
    s.privGo code m who ok inHand f = t.setReg (Reg.KEY_MBX_STATUS m) 1 := by
  rw [State.privGo_taken h, hrun]

variable {c : Nat} {v : State}

theorem State.privRun_busy (hmigr : s.key.migr.isSome = true) : s.privRun m f = (some krBusy, s.privSpent m) := if_pos hmigr

theorem State.privRun_refused (hmigr : s.key.migr = none) (hchecks : (s.privSpent m).privChecks m (Tbl.get s.key.nonces m none) = (c, v))
    (hc : c ≠ krOk) : s.privRun m f = (some c, v) := by
  unfold State.privRun
  rw [hmigr, hchecks]
  exact if_neg hc

theorem State.privRun_passed (hmigr : s.key.migr = none) (hchecks : (s.privSpent m).privChecks m (Tbl.get s.key.nonces m none) = (c, v))
    (hc : c = krOk) : s.privRun m f = f v := by
  unfold State.privRun
  rw [hmigr, hchecks]
  exact if_pos hc

/-- The ends of a privileged command, given what the step makes of its meaning; `g` says the effect `f` in the statement's words. -/
theorem State.privGo_ends {i : Instr} (hend : ∀ u, s.quiet.privGo code m who ok inHand f = u → Ends i s u) (hfg : ∀ v, f v = g v) :
    (s.privTakes m code who ok = false → Ends i s s.quiet) ∧
    (s.privTakes m code who ok = true → s.key.migr.isSome = true →
      Ends i s (s.quiet.privEnd ((s.quiet.privSpent m).count Reg.KEY_PRIV_FAIL_CNT) m inHand krBusy)) ∧
    (∀ c v, s.privTakes m code who ok = true → s.key.migr = none →
      (s.quiet.privSpent m).privChecks m (Tbl.get s.key.nonces m none) = (c, v) →
      (c ≠ krOk → Ends i s (s.quiet.privEnd (v.count Reg.KEY_PRIV_FAIL_CNT) m inHand c)) ∧
      (∀ t, c = krOk → g v = (some krOk, t) → Ends i s (s.quiet.privEnd t m inHand krOk)) ∧
      (∀ r t, c = krOk → r ≠ krOk → g v = (some r, t) → Ends i s (s.quiet.privEnd (t.count Reg.KEY_PRIV_FAIL_CNT) m inHand r)) ∧
      (∀ t, c = krOk → g v = (none, t) → Ends i s (t.setReg (Reg.KEY_MBX_STATUS m) 1))) := by
  refine ⟨fun h => hend _ (State.privGo_ignored (s := s.quiet) h),
    fun h hm => hend _ (State.privGo_fails (s := s.quiet) h (State.privRun_busy (s := s.quiet) hm) (by decide)),
    fun c v h hm hchecks => ?_⟩
  have passed (hc : c = krOk) : s.quiet.privRun m f = g v := (State.privRun_passed (s := s.quiet) hm hchecks hc).trans (hfg v)
  exact ⟨fun hc => hend _ (State.privGo_fails (s := s.quiet) h (State.privRun_refused (s := s.quiet) hm hchecks hc) hc),
    fun t hc ht => hend _ (State.privGo_ok (s := s.quiet) h ((passed hc).trans ht)),
    fun r t hc hr ht => hend _ (State.privGo_fails (s := s.quiet) h ((passed hc).trans ht) hr),
    fun t hc ht => hend _ (State.privGo_runs (s := s.quiet) h ((passed hc).trans ht))⟩

end

/-- The effect of INSTALL_PK of slot `slot`, past the checks. -/
def State.installedPk (m slot : Nat) (v : State) : Option Nat × State :=
  if hdrOk (pkHeader (v.privParam m)) = false ∨ fld (v.privParam m) 6 9 ≠ fld (fld (v.privParam m) 6 9) 5 2 * 32 then (some krParam, v)
  else (some krOk, v.writeSlot slot (pkHeader (v.privParam m)) (v.mbx m 15) (v.mbxBytes m 64 64))

theorem privInstallPk_eq (s : State) (m : Nat) (who : Party) (inHand : Nat) : privInstallPk m who inHand s =
    s.privGo 5 m who (decide (fld (s.privParam m) 0 6 ≠ 0) && decide (s.lc ≠ lcRetired)) inHand
      (State.installedPk m (fld (s.privParam m) 0 6)) := by
  simp only [privInstallPk, funext fun v => State.installedPk.eq_1 m (fld (s.privParam m) 0 6) v, Bool.or_eq_true, Bool.not_eq_true',
    decide_eq_true_eq]

/-! ## Lapses -/

section
variable {s : State} {m : Nat}

theorem nonceLapse_none (h : Tbl.get s.key.nonces m none = none) : nonceLapse m s = s := by
  rw [nonceLapse, h]

section
variable {n : List Byte} {t : Nat} (hnonce : Tbl.get s.key.nonces m none = some (n, t))
include hnonce

theorem nonceLapse_due (h : 15000000000 + t ≤ s.time.ticks) : nonceLapse m s = s.setNonce m none := by
  rw [nonceLapse, hnonce]
  exact if_pos h

theorem nonceLapse_early (h : s.time.ticks < 15000000000 + t) : nonceLapse m s = s := by
  rw [nonceLapse, hnonce]
  exact if_neg (Nat.not_le.2 h)

end

theorem authWindowExpiry_stats_none (h : s.key.statsAt = none) : authWindowExpiry true s = s := by
  rw [authWindowExpiry, h]
  rfl

theorem authWindowExpiry_rearm_none (h : s.key.rearmAt = none) : authWindowExpiry false s = s := by
  rw [authWindowExpiry, h]
  rfl

theorem authWindowExpiry_stats {x : StatsWindow} (h : s.key.statsAt = some x) : authWindowExpiry true s =
    if 250000000 + x.since ≤ s.time.ticks then { s with key := { s.key with statsAt := none } } else s := by
  rw [authWindowExpiry, h]
  exact if_pos rfl

theorem authWindowExpiry_rearm {t : Nat} (h : s.key.rearmAt = some t) : authWindowExpiry false s =
    if 250000000 + t ≤ s.time.ticks then { s with key := { s.key with rearmAt := none } } else s := by
  rw [authWindowExpiry, h]
  exact if_neg Bool.false_ne_true

/-! ## The sweep -/

variable {damaged inHand : Nat}

theorem tagVerifySweep_early (h : s.time.ticks < 900000000000 + s.key.sweptAt) : tagVerifySweep damaged inHand s = s := if_pos h

theorem tagVerifySweep_due (h : 900000000000 + s.key.sweptAt ≤ s.time.ticks) : tagVerifySweep damaged inHand s =
    s.withdraw (s.forRange (fun k u => if fld damaged k 1 = 1 then u.setSlot k { u.slot k with damaged := true } else u) 1 63).verifyTags
      inHand :=
  if_neg (Nat.not_lt.2 h)

/-! ## Migration -/

/-- A migration to `target` made, its tags judged again on entering RETURNED or RETIRED (R413). -/
def State.migratedTo (s : State) (target : Nat) : State :=
  if target = lcReturned ∨ target = lcRetired then
    (s.migrate target).forRange (fun k v => v.setSlot k { v.slot k with tagOk := v.tagVerifies k }) 1 63
  else s.migrate target

theorem migrationComplete_none (h : s.key.migr = none) : migrationComplete inHand s = s := by
  rw [migrationComplete, h]

section
variable {g : Migration} (hmigr : s.key.migr = some g)
include hmigr

theorem migrationComplete_some : migrationComplete inHand s =
    let v := ((s.withdraw (s.migratedTo g.target) inHand).showSlots).raise 115
    if v.bit (Reg.KEY_MBX_STATUS g.mbx) 0 then v.keyEnd g.mbx krOk else v := by
  have htarget : (if (decide (g.target = lcReturned) || decide (g.target = lcRetired)) = true then
      (s.migrate g.target).forRange (fun k v => v.setSlot k { v.slot k with tagOk := v.tagVerifies k }) 1 63
      else s.migrate g.target) = s.migratedTo g.target :=
    ite_of_iff (by rw [Bool.or_eq_true, decide_eq_true_eq, decide_eq_true_eq]) rfl rfl
  rw [migrationComplete, hmigr, ← htarget]

theorem migrationComplete_busy (h : (((s.withdraw (s.migratedTo g.target) inHand).showSlots).raise 115).bit (Reg.KEY_MBX_STATUS g.mbx) 0 = true) :
    migrationComplete inHand s = (((s.withdraw (s.migratedTo g.target) inHand).showSlots).raise 115).keyEnd g.mbx krOk :=
  (migrationComplete_some hmigr).trans (if_pos h)

theorem migrationComplete_idle (h : (((s.withdraw (s.migratedTo g.target) inHand).showSlots).raise 115).bit (Reg.KEY_MBX_STATUS g.mbx) 0 = false) :
    migrationComplete inHand s = ((s.withdraw (s.migratedTo g.target) inHand).showSlots).raise 115 :=
  (migrationComplete_some hmigr).trans (if_neg (ne_true_of_eq_false h))

end

/-! ## Tamper -/

variable {cause : Nat}

theorem keyTamper_unwatched (h : s.tamperSeen cause = false) : keyTamper cause inHand s = s := if_neg (ne_true_of_eq_false h)

theorem keyTamper_alive (h : s.tamperSeen cause = true) (ha : s.alive = true) :
    keyTamper cause inHand s = ((s.withdraw (s.zeroize cause) inHand).showSlots).raise 117 :=
  (if_pos h).trans (if_pos ha)

theorem keyTamper_dead (h : s.tamperSeen cause = true) (ha : s.alive = false) :
    keyTamper cause inHand s = { s.zeroize cause with key := { (s.zeroize cause).key with tamperDue := true } } :=
  (if_pos h).trans (if_neg (ne_true_of_eq_false ha))

end

/-- Settles O50: a privileged command is ignored, busy, refused by its checks or run by the shared course; the lapses, the sweep, the
migration's end and the tamper reaction follow their own branches. -/
theorem privilegedCommands : Obligations.PrivilegedCommands := by
  unfold Obligations.PrivilegedCommands
  refine ⟨fun s mbx who h => ?_, fun s damaged h cause => ?_⟩
  · intro m q now slot go
    refine ⟨fun ha => ⟨State.privGo_ends (fun _ hu => .of_live rfl ha hu) fun v => rfl,
      State.privGo_ends (fun _ hu => .of_live rfl ha hu) fun v => ?_, State.privGo_ends (fun _ hu => .of_live rfl ha hu) fun v => ?_,
      State.privGo_ends (fun _ hu => .of_live rfl ha hu) fun v => rfl,
      State.privGo_ends (fun _ hu => .of_live rfl ha ((privInstallPk_eq s.quiet m who h.toNat).trans hu)) fun v => rfl⟩, fun ht => ?_⟩
    case refine_1 =>
      simp only [fld_low]
      rfl
    case refine_2 =>
      rw [fld_low]
      exact ite_of_iff (by rw [Bool.not_eq_true']) rfl rfl
    case refine_3 =>
      refine ⟨fun hn => .of_running rfl ht (nonceLapse_none (s := s.quiet) hn), fun n t hn => ⟨fun hd => .of_running rfl ht
        (nonceLapse_due (s := s.quiet) hn hd), fun he => .of_running rfl ht (nonceLapse_early (s := s.quiet) hn he)⟩,
        fun hx => .of_running rfl ht (authWindowExpiry_stats_none (s := s.quiet) hx),
        fun hx => .of_running rfl ht (authWindowExpiry_rearm_none (s := s.quiet) hx), fun x hx => ⟨fun hd => .of_running rfl ht ?_,
        fun he => .of_running rfl ht ?_⟩, fun t hx => ⟨fun hd => .of_running rfl ht ?_, fun he => .of_running rfl ht ?_⟩⟩
      · exact (authWindowExpiry_stats (s := s.quiet) hx).trans (if_pos hd)
      · exact (authWindowExpiry_stats (s := s.quiet) hx).trans (if_neg (Nat.not_le.2 he))
      · exact (authWindowExpiry_rearm (s := s.quiet) hx).trans (if_pos hd)
      · exact (authWindowExpiry_rearm (s := s.quiet) hx).trans (if_neg (Nat.not_le.2 he))
  · intro q
    refine ⟨fun ha he => .of_live rfl ha (tagVerifySweep_early (s := s.quiet) he),
      fun ha hd => .of_live rfl ha (tagVerifySweep_due (s := s.quiet) hd),
      fun hm => .of_done (f := fun s => (migrationComplete h.toNat s).releasePower) rfl (congrArg State.releasePower (migrationComplete_none (s := s.quiet) hm)),
      fun g hm => ⟨fun hb => .of_done (f := fun s => (migrationComplete h.toNat s).releasePower) rfl (congrArg State.releasePower (migrationComplete_busy (s := s.quiet) hm hb)),
        fun hb => .of_done (f := fun s => (migrationComplete h.toNat s).releasePower) rfl (congrArg State.releasePower (migrationComplete_idle (s := s.quiet) hm hb))⟩,
      fun hs => .of_done rfl (keyTamper_unwatched (s := s.quiet) hs),
      fun hs => ⟨fun ha => .of_done rfl (keyTamper_alive (s := s.quiet) hs ha),
        fun ha => .of_done rfl (keyTamper_dead (s := s.quiet) hs ha)⟩⟩

end Sys2Proof.Machine
end

section
/-! PROOF. Faults and events: first detections, checks, clearing and injection (R430 to R436). -/
namespace Sys2Proof.Machine
open Sys2Proof

/-! ## A first detection -/

section
variable (s : State) {n : Nat} (info : Nat) (inj noRec : Bool)

/-- Below the event registers' third word and but for FLT_FIRST, a first detection leaves the sticky bit and the record written. -/
theorem State.rn_firstFault {b : Nat} (hfirst : b ≠ Reg.FLT_FIRST) (hevent : b ≠ Reg.FLT_EVT_PEND 3) :
    (s.firstFault n info inj noRec).rn b = ((s.setF (Reg.FLT_STICKY (n / 32)) (n % 32) 1 1).writeRec n info inj noRec).rn b := by
  refine (State.rn_setF_other _ _ _ _ hevent).trans ?_
  split
  · rfl
  · exact State.rn_setReg_other _ _ hfirst

theorem State.evPending_firstFault : (s.firstFault n info inj noRec).evPending 120 = true := State.evPending_raise_same _ 120

theorem State.nowT80_setF (a lo len x : Nat) : (s.setF a lo len x).nowT80 = s.nowT80 := by
  rw [State.nowT80, State.setF_time, State.nowT80]

section
variable (hn : n < 96)
include hn

theorem State.sticky_firstFault : (s.firstFault n info inj noRec).sticky n = true := by
  have hwritten : (s.firstFault n info inj noRec).rn (Reg.FLT_STICKY (n / 32)) =
      (s.setF (Reg.FLT_STICKY (n / 32)) (n % 32) 1 1).rn (Reg.FLT_STICKY (n / 32)) := by
    rw [s.rn_firstFault info inj noRec (by simp only [Reg.FLT_STICKY, Reg.FLT_FIRST]; omega)
        (by simp only [Reg.FLT_STICKY, Reg.FLT_EVT_PEND]; omega),
      State.rn_writeRec_other _ _ _ _ _ (by simp only [Reg.FLT_STICKY, Reg.FLT_REC_T]; omega)
        (by simp only [Reg.FLT_STICKY, Reg.FLT_REC_INFO]; omega)]
  exact (State.bit_congr hwritten _).trans (State.bit_setF_same _ _ (by omega))

theorem State.rn_firstFault_rec {b : Nat} (hb : b = Reg.FLT_REC_T n ∨ b = Reg.FLT_REC_INFO n) : (s.firstFault n info inj noRec).rn b =
    ((s.setF (Reg.FLT_STICKY (n / 32)) (n % 32) 1 1).writeRec n info inj noRec).rn b := by
  simp only [Reg.FLT_REC_T, Reg.FLT_REC_INFO] at hb
  exact s.rn_firstFault info inj noRec (by simp only [Reg.FLT_FIRST]; omega) (by simp only [Reg.FLT_EVT_PEND]; omega)

end

/-- The time and the information of a record that its memory takes. -/
theorem State.rn_writeRec_time : (s.writeRec n info inj false).rn (Reg.FLT_REC_T n) = s.nowT80 % 2 ^ 80 :=
  (State.rn_setReg_other _ _ (by simp only [Reg.FLT_REC_T, Reg.FLT_REC_INFO]; omega)).trans (State.rn_setReg_same _ _ _)

theorem State.rn_writeRec_info : (s.writeRec n info inj false).rn (Reg.FLT_REC_INFO n) =
    2 ^ 31 + (info % 2 ^ 24 + (if inj then 2 ^ 29 else 0)) := by
  refine (State.rn_setReg_same _ _ _).trans (Nat.mod_eq_of_lt ?_)
  split <;> omega

/-- A record that its memory fails to take: VALID = 0 and NOREC = 1 above 24 open bits. -/
theorem State.rn_writeRec_failed : ∃ d < 2 ^ 24, (s.writeRec n info inj true).rn (Reg.FLT_REC_INFO n) = 2 ^ 28 + d := by
  refine ⟨_, (((s.setReg (Reg.FLT_REC_T n) (s.draw 80).toNat).drawn).draw 24).isLt, ?_⟩
  refine (State.rn_setReg_same _ _ _).trans (Nat.mod_eq_of_lt ?_)
  have hd := (((s.setReg (Reg.FLT_REC_T n) (s.draw 80).toNat).drawn).draw 24).isLt
  omega

theorem State.detectRec_first (hn : n < 96) (h : s.sticky n = false) :
    s.detectRec n info inj noRec = (s.count (Reg.FLT_SRC_CNT n)).firstFault n info inj noRec := by
  rw [s.detectRec_eq info inj noRec hn, h]
  exact if_neg Bool.false_ne_true

end

/-! ## Errors met while an error is handled -/

section
variable {s : State} {n info : Nat} (hinject : s.flt.inject = none)
include hinject

theorem State.check_ueNoRec : s.check n info .ueNoRec = (.ue, s.detectRec n info false true) := by
  have hkept : (s.detectRec n info false true).flt.inject = none := by rw [State.detectRec_flt, hinject]
  simp only [State.check, State.injected, hinject, errFound, errAgain, if_true, reduceCtorEq, decide_true, decide_false, Bool.or_self,
    Bool.false_eq_true, if_false, State.injectionUsed, hkept]

theorem State.check_ueAgain : s.check n info .ueAgain = (.ue, (s.detect n info false).detect n info false) := by
  have hkept : ((s.detectRec n info false false).detectRec n info false false).flt.inject = none := by
    rw [State.detectRec_flt, State.detectRec_flt, hinject]
  simp only [State.check, State.injected, hinject, errFound, errAgain, if_true, reduceCtorEq, decide_true, decide_false, Bool.or_true,
    State.injectionUsed, State.detect, hkept]

theorem State.check_ceAgain : s.check n info .ceAgain = (.ce, s.detect n info false) := by
  have hkept : (s.detectRec n info false false).flt.inject = none := by rw [State.detectRec_flt, hinject]
  simp only [State.check, State.injected, hinject, errFound, errAgain, if_true, reduceCtorEq, decide_true, decide_false, Bool.true_or,
    if_false, State.injectionUsed, State.detect, hkept]

end

/-! ## Injection -/

theorem fld_bit_clear {v i : Nat} : fld v i 1 = 0 ↔ v.testBit i = false := by
  have hbit : decide (fld v i 1 = 1) = v.testBit i := fld_bit v i
  have hlt : fld v i 1 < 2 := Nat.mod_lt _ (by decide)
  rw [← hbit, decide_eq_false_iff_not]
  omega

section
variable {s : State} {w : Word}

theorem faultInject_refused (h : w.getLsbD 31 = false ∨ s.lc = lcRetired) : faultInject w s = s := by
  refine if_pos ?_
  rw [Bool.or_eq_true, decide_eq_true_eq, decide_eq_true_eq, fld_bit_clear]
  exact h

variable (harm : w.getLsbD 31 = true) (hlc : s.lc ≠ lcRetired)
include harm hlc

theorem faultInject_armed {a c : Nat} (ha : a = fld w.toNat 0 7) (hc : c = fld w.toNat 16 8) : faultInject w s =
    if c = 0 then ({ s with flt := { s.flt with inject := none } } : State).setReg Reg.FLT_INJ_STATUS a
    else if hasChecker a then
      ({ s with flt := { s.flt with inject := some { source := a, double := fld w.toNat 8 1 = 1, left := c } } } : State).setReg
        Reg.FLT_INJ_STATUS (a + c * 2 ^ 8)
    else s.setF Reg.FLT_INJ_STATUS 16 1 1 := by
  subst ha hc
  refine if_neg ?_
  rw [Bool.or_eq_true, decide_eq_true_eq, decide_eq_true_eq, fld_bit_clear]
  rintro (h | h)
  · exact Bool.false_ne_true (h.symm.trans harm)
  · exact hlc h

end

theorem State.levelOnset_edge {s : State} {n : Nat} (info : Nat) (noRec : Bool) (h : isLevel n = false) : s.levelOnset n info noRec = s :=
  if_neg (by rw [h]; exact Bool.false_ne_true)

/-- Settles O52: a first detection is a count and a `firstFault`; checks, clears and injections follow their own branches. -/
theorem faultsAndEvents : Obligations.FaultsAndEvents := by
  unfold Obligations.FaultsAndEvents
  intro s src info inj noRec who k j w n t
  have hn : n < 96 := src.isLt
  refine ⟨fun hs => ?_, fun hs => ?_, fun hi => ⟨State.check_ue hi, State.check_ueNoRec hi, State.check_ueAgain hi, State.check_ceAgain hi⟩,
    fun hl => .of_done rfl (State.levelOnset_edge (s := s.quiet) _ _ hl), .of_done (f := fun u => u.levelEnd n) rfl rfl, fun ha => ⟨.of_live rfl ha rfl,
      .of_live rfl ha rfl, fun h => .of_live rfl ha (faultInject_refused (s := s.quiet) h), fun harm hlc => ?_⟩⟩
  case refine_1 =>
    have ht : t = (s.count (Reg.FLT_SRC_CNT n)).firstFault n info.toNat inj false := s.detectRec_first _ _ _ hn hs
    rw [ht]
    refine ⟨State.sticky_firstFault _ _ _ _ hn, ?_, State.evPending_firstFault _ _ _ _, ?_⟩
    · rw [State.rn_firstFault_rec _ _ _ _ hn (.inl rfl), State.rn_writeRec_time, State.nowT80_setF, State.count, State.countBy,
        State.nowT80, State.setReg_time, State.nowT80]
    · rw [State.rn_firstFault_rec _ _ _ _ hn (.inr rfl), State.rn_writeRec_info, Nat.mod_eq_of_lt info.isLt]
  case refine_2 =>
    intro x
    have hx : x = (s.count (Reg.FLT_SRC_CNT n)).firstFault n info.toNat inj true := s.detectRec_first _ _ _ hn hs
    obtain ⟨d, hd, hinfo⟩ := State.rn_writeRec_failed
      ((s.count (Reg.FLT_SRC_CNT n)).setF (Reg.FLT_STICKY (n / 32)) (n % 32) 1 1) (n := n) info.toNat inj
    have hrec : x.rn (Reg.FLT_REC_INFO n) = 2 ^ 28 + d := by
      rw [hx, State.rn_firstFault_rec _ _ _ _ hn (.inr rfl), hinfo]
    refine ⟨by rw [hx]; exact State.sticky_firstFault _ _ _ _ hn, by rw [hx]; exact State.evPending_firstFault _ _ _ _, ?_, ?_⟩
    · rw [State.bit, State.rf, hrec, decide_eq_false_iff_not, fld]
      omega
    · rw [State.bit, State.rf, hrec, decide_eq_true_eq, fld]
      omega
  case refine_3 =>
    have heffect := faultInject_armed (s := s.quiet) harm hlc (fld_low _ _) rfl
    intro a c
    refine ⟨fun hc => .of_live rfl ha (heffect.trans (if_pos hc)),
      fun hc hcheck => .of_live rfl ha (heffect.trans ((if_neg hc).trans (if_pos hcheck))),
      fun hc hcheck => .of_live rfl ha (heffect.trans ((if_neg hc).trans (if_neg (ne_true_of_eq_false hcheck))))⟩

end Sys2Proof.Machine
end

section
/-! PROOF. RUN, PARK and HOLD, the supply monitor and the temperature (R442 to R447). -/
namespace Sys2Proof.Machine
open Sys2Proof

/-! ## Requests -/

theorem powerKey_iff {w : Word} {t : Nat} : powerKey w t = true ↔ decide (w.extractLsb' 16 16 = 0x9A7E) = true ∧ w.toNat % 2 ^ 2 = t := by
  rw [powerKey, Bool.and_eq_true, decide_eq_true_eq (p := fld w.toNat 0 2 = t), ← fld_low]

theorem powerKey_other {w : Word} {t : Nat} (h : decide (w.extractLsb' 16 16 = 0x9A7E) = false ∨ w.toNat % 2 ^ 2 ≠ t) :
    powerKey w t = false := by
  rw [← Bool.not_eq_true, powerKey_iff]
  rintro ⟨hkey, ht⟩
  obtain h | h := h
  · exact Bool.false_ne_true (h.symm.trans hkey)
  · exact h ht

section
variable {s : State} {w : Word}

theorem holdRequest_other (h : powerKey w 2 = false) : holdRequest w s = s := if_neg (ne_true_of_eq_false h)

theorem holdRequest_waits (h : powerKey w 2 = true) (hm : (s.requestPower .hold).pwr.moving ≠ some .hold) :
    holdRequest w s = s.requestPower .hold :=
  (if_pos h).trans (if_neg hm)

theorem holdRequest_moves (h : powerKey w 2 = true) (hm : (s.requestPower .hold).pwr.moving = some .hold) :
    holdRequest w s = pwrState (s.requestPower .hold) :=
  (if_pos h).trans (if_pos hm)

/-! ## Moves -/

theorem pwrState_still (h : s.pwr.moving = none) : pwrState s = s := by
  rw [pwrState, h]

theorem pwrState_run (h : s.pwr.moving = some .run) : pwrState s =
    (((({ s with pwr := { s.pwr with state := Power.run, moving := none } } : State).showPower).raise 125).beginAll.unpark.answerHeld) := by
  rw [pwrState, h]

theorem pwrState_busy (hidle : s.enginesIdle = false) (h : s.pwr.moving = some .park ∨ s.pwr.moving = some .hold) : pwrState s = s := by
  obtain h | h := h
  all_goals
    rw [pwrState, h]
    exact if_neg (ne_true_of_eq_false hidle)

/-- The device parked, with measurement stopped and a pending image released where it may be. -/
def State.parked (u : State) : State :=
  ((({ u with pwr := { u.pwr with state := .park, moving := none } } : State).showPower).raise 125).releaseCheck

theorem pwrState_park (hidle : s.enginesIdle = true) (h : s.pwr.moving = some .park) : pwrState s = s.stopMeasuring.parked := by
  rw [pwrState, h]
  exact if_pos hidle

theorem pwrState_hold (hidle : s.enginesIdle = true) (h : s.pwr.moving = some .hold) : pwrState s = s.enterHold := by
  rw [pwrState, h]
  exact if_pos hidle

/-- HOLD asked for while an instant still runs changes no more than the request does. -/
theorem holdRequest_busy (h : powerKey w 2 = true)
    (hbusy : (s.requestPower .hold).pwr.moving ≠ some .hold ∨ (s.requestPower .hold).enginesIdle = false) :
    holdRequest w s = s.requestPower .hold := by
  by_cases hm : (s.requestPower .hold).pwr.moving = some .hold
  · exact (holdRequest_moves h hm).trans (pwrState_busy (hbusy.resolve_left (not_not_intro hm)) (.inr hm))
  · exact holdRequest_waits h hm

theorem holdRequest_enters (h : powerKey w 2 = true) (hm : (s.requestPower .hold).pwr.moving = some .hold)
    (hidle : (s.requestPower .hold).enginesIdle = true) : holdRequest w s = (s.requestPower .hold).enterHold :=
  (holdRequest_moves h hm).trans (pwrState_hold hidle hm)

/-! ## Supply -/

/-- The supply monitor is watched: outside HOLD and outside a POR (R447). -/
def State.supplyWatched (s : State) : Bool := decide (s.pwr.state ≠ .hold) && decide (s.pwr.seq ≠ some .por)

section
variable {mv : Nat}

theorem supplyWarn_low (hmv : mv < s.rf Reg.PWR_SUPMON_CFG 0 10) (hlow : s.pwr.supLow = false) (hw : s.supplyWatched = true) :
    supplyWarn mv s = (((s.setSupLow true).count Reg.PWR_SUPPLY_WARN_CNT).raise 121).closeCycles.trigSave saveWarning := by
  rw [State.supplyWatched, Bool.and_eq_true] at hw
  obtain ⟨hstate, hseq⟩ := hw
  exact if_pos (by rw [decide_eq_true hmv, hlow, hstate, hseq]; rfl)

theorem supplyWarn_none (h : s.rf Reg.PWR_SUPMON_CFG 0 10 ≤ mv ∨ s.pwr.supLow = true ∨ s.supplyWatched = false) : supplyWarn mv s = s := by
  refine if_neg ?_
  rw [Bool.and_assoc, ← State.supplyWatched, Bool.and_eq_true, Bool.and_eq_true, decide_eq_true_eq, Bool.not_eq_true']
  rintro ⟨⟨hmv, hlow⟩, hw⟩
  obtain h | h | h := h
  · exact Nat.not_le.2 hmv h
  · exact Bool.false_ne_true (hlow.symm.trans h)
  · exact Bool.false_ne_true (h.symm.trans hw)

theorem supplyDip_high (hmv : s.rf Reg.PWR_SUPMON_CFG 0 10 + 20 < mv) (hlow : s.pwr.supLow = true) (hw : s.supplyWatched = true) :
    supplyDip mv s = ((s.setSupLow false).count Reg.PWR_SUPPLY_DIP_CNT).raise 122 := by
  rw [State.supplyWatched, Bool.and_eq_true] at hw
  obtain ⟨hstate, hseq⟩ := hw
  exact if_pos (by rw [decide_eq_true hmv, hlow, hstate, hseq]; rfl)

theorem supplyDip_none (h : mv ≤ s.rf Reg.PWR_SUPMON_CFG 0 10 + 20 ∨ s.pwr.supLow = false ∨ s.supplyWatched = false) :
    supplyDip mv s = s := by
  refine if_neg ?_
  rw [Bool.and_assoc, ← State.supplyWatched, Bool.and_eq_true, Bool.and_eq_true, decide_eq_true_eq]
  rintro ⟨⟨hmv, hlow⟩, hw⟩
  obtain h | h | h := h
  · exact Nat.not_le.2 hmv h
  · exact Bool.false_ne_true (h.symm.trans hlow)
  · exact Bool.false_ne_true (h.symm.trans hw)

end

/-! ## Temperature -/

section
variable {temp : BitVec 12}

/-- The temperature written, with its warning (R446). -/
def State.heated (s : State) (temp : BitVec 12) : State :=
  let hot := decide (sInt 12 (s.rn Reg.PWR_TEMP_WARN) < temp.toInt)
  let t := s.setReg Reg.PWR_TEMP temp.toNat
  let u := if hot && !s.pwr.hot then (t.raise 123).count Reg.PWR_THERM_CNT else t
  { u with pwr := { u.pwr with hot := hot } }

theorem thermal_critical (h : sInt 12 (s.rn Reg.PWR_TEMP_CRIT) < temp.toInt) : thermal temp s = (s.heated temp).levelOnset 42 temp.toNat false :=
  if_pos (decide_eq_true h)

theorem thermal_below (h : temp.toInt ≤ sInt 12 (s.rn Reg.PWR_TEMP_CRIT)) : thermal temp s = (s.heated temp).levelEnd 42 :=
  if_neg (by rw [decide_eq_false (Int.not_lt.2 h)]; exact Bool.false_ne_true)

end

end

/-- Settles O54: requests, moves, the supply monitor and the temperature follow their own branches. -/
theorem operatingStates : Obligations.OperatingStates := by
  unfold Obligations.OperatingStates
  intro s who w mv temp q key tgt waits ask warn low watched
  refine ⟨fun ha => ?_, fun hmv hlow hw => .of_done rfl (supplyWarn_low (s := s.quiet) hmv hlow hw),
    fun h => .of_done rfl (supplyWarn_none (s := s.quiet) h),
    fun hmv hlow hw => .of_done rfl (supplyDip_high (s := s.quiet) hmv hlow hw),
    fun h => .of_done rfl (supplyDip_none (s := s.quiet) h), fun ht => ?_⟩
  case refine_1 =>
    refine ⟨fun hkey ht => .of_live rfl ha (if_pos (powerKey_iff.2 ⟨hkey, ht⟩)),
      fun h => .of_live rfl ha (if_neg (ne_true_of_eq_false (powerKey_other h))),
      fun hkey ht => .of_live rfl ha (if_pos (powerKey_iff.2 ⟨hkey, ht⟩)),
      fun h => .of_live rfl ha (if_neg (ne_true_of_eq_false (powerKey_other h))),
      fun h => .of_live rfl ha (holdRequest_other (powerKey_other h)),
      fun hkey ht h => .of_live rfl ha (holdRequest_busy (s := s.quiet) (powerKey_iff.2 ⟨hkey, ht⟩) h),
      fun hkey ht hm hidle => .of_live rfl ha (holdRequest_enters (s := s.quiet) (powerKey_iff.2 ⟨hkey, ht⟩) hm hidle),
      fun hm => .of_live rfl ha (pwrState_still (s := s.quiet) hm),
      fun hidle hm => .of_live rfl ha (pwrState_busy (s := s.quiet) hidle hm),
      fun hidle hm => .of_live rfl ha (pwrState_park (s := s.quiet) hidle hm),
      fun hidle hm => .of_live rfl ha (pwrState_hold (s := s.quiet) hidle hm),
      fun hm => .of_live rfl ha (pwrState_run (s := s.quiet) hm)⟩
  case refine_2 =>
    exact ⟨fun h => .of_running rfl ht (thermal_critical (s := s.quiet) h), fun h => .of_running rfl ht (thermal_below (s := s.quiet) h)⟩

end Sys2Proof.Machine
end

section
/-! PROOF. Where each reset, watchdog, power, supply and temperature command completes (R438 to R447). -/
namespace Sys2Proof.Machine
open Sys2Proof

/-! ## What detections keep of the power state -/

section
variable (s : State)

theorem State.mergeRec_pwr (n : Nat) (inj : Bool) : (s.mergeRec n inj).pwr = s.pwr := by
  unfold State.mergeRec
  split
  · rw [State.setF_pwr, State.setF_pwr]
  · rw [State.setF_pwr]

theorem State.writeRec_pwr (n info : Nat) (inj noRec : Bool) : (s.writeRec n info inj noRec).pwr = s.pwr := by
  cases noRec <;> rfl

theorem State.firstFault_pwr (n info : Nat) (inj noRec : Bool) : (s.firstFault n info inj noRec).pwr = s.pwr := by
  rw [State.firstFault, State.raise_pwr]
  split
  · rw [State.writeRec_pwr, State.setF_pwr]
  · rw [State.setReg_pwr, State.writeRec_pwr, State.setF_pwr]

theorem State.detectRec_pwr (n info : Nat) (inj noRec : Bool) : (s.detectRec n info inj noRec).pwr = s.pwr := by
  unfold State.detectRec
  dsimp only
  split
  · exact (State.mergeRec_pwr _ n inj).trans (s.count_pwr _)
  · exact (State.firstFault_pwr _ n info inj noRec).trans (s.count_pwr _)

theorem State.levelOnset_pwr (n info : Nat) (noRec : Bool) : (s.levelOnset n info noRec).pwr = s.pwr := by
  unfold State.levelOnset
  split
  · exact State.detectRec_pwr _ _ _ _ _
  · rfl

/-- No detection writes a register of the power block, which lies above the fault collector's. -/
theorem State.rn_detectRec_power {n : Nat} (info : Nat) (inj noRec : Bool) (hn : n < 96) {b : Nat} (hb : 0x1900000 ≤ b) :
    (s.detectRec n info inj noRec).rn b = s.rn b := by
  rw [s.detectRec_eq info inj noRec hn]
  split
  · rw [State.rn_mergeRec_other _ _ _ (by simp only [Reg.FLT_REC_INFO]; omega),
      State.rn_count_other _ (by simp only [Reg.FLT_SRC_CNT]; omega)]
  · rw [State.rn_firstFault_above _ _ _ _ hn (by simp only [Reg.FLT_SRC_CNT]; omega),
      State.rn_count_other _ (by simp only [Reg.FLT_SRC_CNT]; omega)]

theorem State.rn_levelOnset_power {n : Nat} (info : Nat) (noRec : Bool) (hn : n < 96) {b : Nat} (hb : 0x1900000 ≤ b) :
    (s.levelOnset n info noRec).rn b = s.rn b := by
  unfold State.levelOnset
  split
  · exact State.rn_detectRec_power _ _ _ _ hn hb
  · rfl

theorem State.rn_raise_power {n b : Nat} (hn : n < 128) (hb : 0x1900000 ≤ b) : (s.raise n).rn b = s.rn b :=
  s.rn_setF_other _ _ _ (by simp only [Reg.FLT_EVT_PEND]; omega)

/-! ## Level conditions -/

theorem State.levelHolds_levelOnset {n : Nat} (info : Nat) (noRec : Bool) (hlevel : isLevel n = true) :
    (s.levelOnset n info noRec).levelHolds n = true := by
  cases hholds : s.levelHolds n with
  | true => rw [s.levelOnset_held _ _ hholds, hholds]
  | false =>
    rw [s.levelOnset_new _ _ hlevel hholds, State.levelHolds, State.detectRec_flt]
    exact s.levelHolds_withLevel n info

theorem State.levelHolds_levelEnd (n : Nat) : (s.levelEnd n).levelHolds n = false := by
  refine List.any_eq_false.2 fun e he => ?_
  rw [decide_eq_true_eq]
  exact Tbl.del_lacks s.flt.levels n e he

end

/-! ## Starts of reset sequences -/

section
variable {s : State}

theorem State.pwr_raise_if (c : Prop) [Decidable c] (n : Nat) : (if c then s.raise n else s).pwr = s.pwr := by
  split
  · exact s.raise_pwr n
  · rfl

theorem saveComplete_pwr : (saveComplete s).pwr = s.pwr := by
  unfold saveComplete
  split
  · rfl
  · exact (State.pwr_raise_if _ _).trans ((State.count_pwr _ _).trans ((State.setReg_pwr _ _ _).trans
      ((State.setReg_pwr _ _ _).trans (State.setReg_pwr _ _ _))))

theorem State.causeOf_pwr (k : ResetKind) (more : Nat) (fresh : Bool) : (s.causeOf k more fresh).pwr = s.pwr :=
  (State.setF_pwr _ _ _ _ _).trans (State.setReg_pwr _ _ _)

theorem State.causeOf_bit (k : ResetKind) (more : Nat) (fresh : Bool) :
    (s.causeOf k more fresh).bit Reg.PWR_RESET_CAUSE (resetRank k) = true :=
  State.bit_setF_same _ _ (by cases k <;> decide)

/-- A reset met outside a sequence starts its own and enters the cause. -/
theorem State.startReset_starts (k : ResetKind) (more : Nat) (lost : Bool) (h : s.pwr.seq = none) :
    (s.startReset k more lost).pwr.seq = some k ∧ (s.startReset k more lost).bit Reg.PWR_RESET_CAUSE (resetRank k) = true := by
  have hstart : s.startReset k more lost = (s.resetAs k lost).causeOf k more true := by rw [State.startReset, h]
  rw [hstart, State.causeOf_pwr]
  exact ⟨rfl, State.causeOf_bit k more true⟩

theorem State.alive_iff : s.alive = true ↔ s.pwr.state ≠ .hold ∧ s.pwr.seq = none := by
  rw [State.alive, Bool.and_eq_true, decide_eq_true_eq, decide_eq_true_eq]

/-- A POR outside HOLD is a reset like any other, after the save that a fall of the supply completes. -/
theorem por_running (supply lost : Bool) (h : s.pwr.state ≠ .hold) :
    por supply lost s = (if supply then saveComplete s else s).startReset .por (bitAt supply 5 + bitAt (decide (s.pwr.state = .hold)) 6) lost :=
  if_neg h

theorem linkReset_starts (h : s.pwr.state ≠ .hold) (hmode : s.bit Reg.PWR_CFG 0 = false) : linkReset s = s.startReset .link 0 false :=
  (if_neg h).trans (if_neg (by rw [hmode]; exact Bool.false_ne_true))

theorem wdtReset_starts (hexp : s.wdtExpired = true) (hwarned : s.bit Reg.PWR_WDT_STATE 1 = true) : wdtReset s = s.startReset .wdt 0 false :=
  if_pos (by rw [hexp, hwarned]; rfl)

theorem resetSequenceEnd_warm {k : ResetKind} (hpor : k ≠ .por) (hpin : k ≠ .pin) (h : s.pwr.seq = some k) : resetSequenceEnd s =
    ((((({ s with pwr := { s.pwr with seq := none } } : State).count (Reg.PWR_RST_CNT (resetRank k))).raise
      126).showDdr.showSlots.showRunning).releaseCheck) := by
  have hgrace : ¬ (decide (k = .por) || decide (k = .pin)) = true := by
    rw [Bool.or_eq_true, decide_eq_true_eq, decide_eq_true_eq, not_or]
    exact ⟨hpor, hpin⟩
  rw [resetSequenceEnd, h]
  exact (if_neg hpor).trans (congrArg State.releaseCheck (if_neg hgrace))

/-! ## DDR5 training and the watchdog -/

theorem ddrTrained_zero (ok : Bool) (size : Nat) (h : s.pwr.ddr0 = false) :
    (ddrTrained 0 ok size s).pwr.ddr0 = ok ∧ (ddrTrained 0 ok size s).pwr.size0 = size := by
  have htrained : (ddrTrained 0 ok size s).pwr = { s.pwr with ddr0 := ok, size0 := size } := by
    unfold ddrTrained
    rw [if_pos rfl, if_neg (ne_true_of_eq_false h)]
    dsimp only
    split
    · exact State.setReg_pwr _ _ _
    · exact (State.levelOnset_pwr _ _ _ _).trans (State.setReg_pwr _ _ _)
  rw [htrained]
  exact ⟨rfl, rfl⟩

theorem ddrTrained_one (ok : Bool) (size : Nat) (h : s.pwr.ddr1 = false) :
    (ddrTrained 1 ok size s).pwr.ddr1 = ok ∧ (ddrTrained 1 ok size s).pwr.size1 = size := by
  have htrained : (ddrTrained 1 ok size s).pwr = { s.pwr with ddr1 := ok, size1 := size } := by
    unfold ddrTrained
    rw [if_neg Nat.one_ne_zero, if_neg (ne_true_of_eq_false h)]
    dsimp only
    split
    · exact State.setReg_pwr _ _ _
    · exact (State.levelOnset_pwr _ _ _ _).trans (State.setReg_pwr _ _ _)
  rw [htrained]
  exact ⟨rfl, rfl⟩

theorem State.showWdt_pwr : s.showWdt.pwr = s.pwr := by
  unfold State.showWdt
  split
  · exact s.setF_pwr _ _ _ _
  · rfl

theorem State.showWdt_flt : s.showWdt.flt = s.flt := by
  unfold State.showWdt
  split
  · exact s.setF_flt _ _ _ _
  · rfl

theorem State.rn_showWdt_other {b : Nat} (h : b ≠ Reg.PWR_WDT_STATE) : s.showWdt.rn b = s.rn b := by
  unfold State.showWdt
  split
  · exact s.rn_setF_other _ _ _ h
  · rfl

/-- A watchdog configuration with a period is no start without one. -/
theorem wdtCfg_period {w : Word} (h : w.extractLsb' 0 16 ≠ 0) : w.toNat &&& 0x8000FFFF ≠ 0x80000000 := by
  have hlow : w.toNat % 2 ^ 16 ≠ 0 := by
    intro hzero
    refine h (BitVec.eq_of_toNat_eq ?_)
    rw [BitVec.extractLsb'_toNat, Nat.shiftRight_zero, hzero, BitVec.ofNat_eq_ofNat, BitVec.toNat_ofNat, Nat.zero_mod]
  intro hcfg
  have hcut : (w.toNat &&& 0x8000FFFF) % 2 ^ 16 = w.toNat % 2 ^ 16 := by
    rw [Nat.and_mod_two_pow, show 0x8000FFFF % 2 ^ 16 = 2 ^ 16 - 1 from rfl, Nat.and_two_pow_sub_one_eq_mod, Nat.mod_mod]
  rw [hcfg] at hcut
  exact hlow hcut.symm

section
variable {w : Word}

theorem wdtStart_effect (hoff : s.bit Reg.PWR_WDT_CFG 31 = false) (hgo : w.getLsbD 31 = true) (hperiod : w.extractLsb' 0 16 ≠ 0) :
    (wdtStart w s).rn Reg.PWR_WDT_CFG = w.toNat &&& 0x8000FFFF ∧ (wdtStart w s).pwr.wdtTicks = 0 := by
  have hstart : wdtStart w s = ((({ s.setReg Reg.PWR_WDT_CFG (w.toNat &&& 0x8000FFFF) with
      pwr := { (s.setReg Reg.PWR_WDT_CFG (w.toNat &&& 0x8000FFFF)).pwr with wdtTicks := 0 } } : State).setReg Reg.PWR_WDT_STATE 1).showWdt) := by
    refine (if_neg ?_).trans (if_pos hgo)
    rw [hoff, decide_eq_false (wdtCfg_period hperiod)]
    exact Bool.false_ne_true
  have hlt : w.toNat &&& 0x8000FFFF < 2 ^ 80 := Nat.lt_of_le_of_lt Nat.and_le_left (Nat.lt_trans w.isLt (by decide))
  rw [hstart]
  constructor
  · refine (State.rn_showWdt_other (by decide)).trans ((State.rn_setReg_other _ _ (by decide)).trans ?_)
    exact (State.rn_setReg_same s _ _).trans (Nat.mod_eq_of_lt hlt)
  · rw [State.showWdt_pwr, State.setReg_pwr]

theorem wdtKick_effect (hkey : w.extractLsb' 0 16 = 0x4B1D) (hon : s.bit Reg.PWR_WDT_CFG 31 = true) :
    (wdtKick w s).pwr.wdtTicks = 0 ∧ (wdtKick w s).levelHolds 28 = false := by
  have hkick : wdtKick w s = (((({ s with pwr := { s.pwr with wdtTicks := 0 } } : State).setF Reg.PWR_WDT_STATE 1 1 0).showWdt).levelEnd 28) :=
    if_pos (by rw [decide_eq_true hkey, hon]; rfl)
  rw [hkick]
  refine ⟨?_, State.levelHolds_levelEnd _ 28⟩
  show (({ s with pwr := { s.pwr with wdtTicks := 0 } } : State).setF Reg.PWR_WDT_STATE 1 1 0).showWdt.pwr.wdtTicks = 0
  rw [State.showWdt_pwr, State.setF_pwr]

theorem wdtWarn_effect (hexp : s.wdtExpired = true) (hfirst : s.bit Reg.PWR_WDT_STATE 1 = false) :
    (wdtWarn s).pwr.wdtTicks = s.pwr.wdtTicks - s.wdtPeriod ∧ (wdtWarn s).levelHolds 28 = true ∧ (wdtWarn s).evPending 124 = true := by
  have hwarn : wdtWarn s = ((((({ s with pwr := { s.pwr with wdtTicks := s.pwr.wdtTicks - s.wdtPeriod } } : State).setF Reg.PWR_WDT_STATE 1 1
      1).showWdt).count Reg.PWR_WDT_WARN_CNT).levelOnset 28 0 false).raise 124 :=
    if_pos (by rw [hexp, hfirst]; rfl)
  rw [hwarn]
  refine ⟨?_, ?_, State.evPending_raise_same _ 124⟩
  · rw [State.raise_pwr, State.levelOnset_pwr, State.count_pwr, State.showWdt_pwr, State.setF_pwr]
  · rw [State.levelHolds, State.raise_flt]
    exact State.levelHolds_levelOnset _ 0 false rfl

end

/-! ## Power moves, the supply monitor and the temperature -/

theorem State.showPower_pwr : s.showPower.pwr = s.pwr := (State.setF_pwr _ _ _ _ _).trans (s.setF_pwr _ _ _ _)

theorem State.requestPower_moves {p : Power} (hstate : s.pwr.state ≠ p) (himg : s.imgState ≠ 1) (hmigr : s.key.migr = none) :
    s.requestPower p = ({ s with pwr := { s.pwr with moving := some p } } : State).showPower := by
  refine (if_neg hstate).trans (if_neg ?_)
  rw [decide_eq_false himg, hmigr]
  exact Bool.false_ne_true

theorem State.requestPower_moving {p : Power} (hstate : s.pwr.state ≠ p) (himg : s.imgState ≠ 1) (hmigr : s.key.migr = none) :
    (s.requestPower p).pwr.moving = some p := by
  rw [State.requestPower_moves hstate himg hmigr, State.showPower_pwr]

theorem supplyDip_effect {mv : Nat} (hmv : s.rf Reg.PWR_SUPMON_CFG 0 10 + 20 < mv) (hlow : s.pwr.supLow = true) (hw : s.supplyWatched = true) :
    (supplyDip mv s).pwr.supLow = false ∧ (supplyDip mv s).bit Reg.PWR_STATE 2 = false ∧ (supplyDip mv s).evPending 122 = true := by
  rw [supplyDip_high hmv hlow hw]
  refine ⟨?_, ?_, State.evPending_raise_same _ 122⟩
  · rw [State.raise_pwr, State.count_pwr, State.setSupLow, State.setF_pwr]
  · have hkept : (((s.setSupLow false).count Reg.PWR_SUPPLY_DIP_CNT).raise 122).rn Reg.PWR_STATE = (s.setSupLow false).rn Reg.PWR_STATE :=
      (State.rn_raise_power _ (by decide) (by decide)).trans (State.rn_count_other _ (by decide))
    rw [State.bit_congr hkept, State.bit, State.setSupLow, State.rf_setF_same _ _ _ (by decide)]
    rfl

theorem State.heated_hot (temp : BitVec 12) :
    (s.heated temp).pwr.hot = decide (sInt 12 (s.rn Reg.PWR_TEMP_WARN) < temp.toInt) := rfl

theorem State.rn_withPwr (p : Pwr) (b : Nat) : ({ s with pwr := p } : State).rn b = s.rn b := rfl

/-- The warning of a temperature leaves the power block's registers but its count. -/
theorem State.rn_warned (c : Prop) [Decidable c] {b : Nat} (hb : 0x1900000 ≤ b) (hcnt : b ≠ Reg.PWR_THERM_CNT) :
    (if c then (s.raise 123).count Reg.PWR_THERM_CNT else s).rn b = s.rn b := by
  split
  · exact (State.rn_count_other _ hcnt).trans (State.rn_raise_power _ (by decide) hb)
  · rfl

theorem State.heated_rn (temp : BitVec 12) : (s.heated temp).rn Reg.PWR_TEMP = temp.toNat :=
  (State.rn_withPwr _ _).trans ((State.rn_warned _ (by decide) (by decide)).trans
    ((s.rn_setReg_same _ _).trans (Nat.mod_eq_of_lt (Nat.lt_trans temp.isLt (by decide)))))

theorem thermal_effect (temp : BitVec 12) : (thermal temp s).rn Reg.PWR_TEMP = temp.toNat ∧
    (thermal temp s).pwr.hot = decide (sInt 12 (s.rn Reg.PWR_TEMP_WARN) < temp.toInt) ∧
    (thermal temp s).levelHolds 42 = decide (sInt 12 (s.rn Reg.PWR_TEMP_CRIT) < temp.toInt) := by
  by_cases hcrit : sInt 12 (s.rn Reg.PWR_TEMP_CRIT) < temp.toInt
  · rw [thermal_critical hcrit, decide_eq_true hcrit]
    refine ⟨(State.rn_levelOnset_power _ _ _ (by decide) (by decide)).trans (State.heated_rn temp), ?_, State.levelHolds_levelOnset _ _ _ rfl⟩
    rw [State.levelOnset_pwr, State.heated_hot]
  · rw [thermal_below (Int.not_lt.1 hcrit), decide_eq_false hcrit]
    exact ⟨State.heated_rn temp, State.heated_hot temp, State.levelHolds_levelEnd _ 42⟩

end

/-- Settles O60: each command ends, by its own branch, in the state its effect lemma describes. -/
theorem resetAndPowerCommandsComplete : Obligations.ResetAndPowerCommandsComplete := by
  unfold Obligations.ResetAndPowerCommandsComplete
  intro s supply lost ok who w size k mv temp q starts key moves ended toHold
  refine ⟨fun ha => ?_, fun hpor hpin h => .of_done rfl (resetSequenceEnd_warm (s := s.quiet) hpor hpin h)⟩
  obtain ⟨hstate, hseq⟩ := State.alive_iff.1 ha
  have ht : s.ticking = true := by
    rw [State.ticking, hseq, decide_eq_true hstate]
    rfl
  have hwatched : s.quiet.supplyWatched = true := by
    show (decide (s.pwr.state ≠ .hold) && decide (s.pwr.seq ≠ some .por)) = true
    rw [hseq, decide_eq_true hstate]
    rfl
  have hmoves (h : moves = true) : s.imgState ≠ 1 ∧ s.key.migr = none := by
    rw [Bool.and_eq_true, decide_eq_true_eq, Option.isNone_iff_eq_none] at h
    exact h
  have started {v : State} (j : ResetKind) (more : Nat) (hv : v.pwr.seq = none) (lost : Bool) :=
    State.startReset_starts (s := v) j more lost hv
  refine ⟨?_, ?_, fun hkey => ?_, fun hmode => ?_, fun hexp hwarned => ?_, fun h => ?_, fun h => ?_, fun hoff hgo hperiod => ?_,
    fun hkey hon => ?_, fun hexp hfirst => ?_, fun hkey htgt hs hm => ?_, fun hkey htgt hs hm => ?_, fun hkey htgt hm => ?_,
    fun hidle hm => ?_, fun hm => ?_, fun hmv hlow => ?_, fun hmv hlow => ?_, ?_⟩
  case refine_1 =>
    refine .of_ends (.of_done rfl (por_running (s := s.quiet) supply lost hstate)) (started .por _ ?_ _)
    split
    · exact (congrArg Pwr.seq saveComplete_pwr).trans hseq
    · exact hseq
  case refine_2 => exact .of_ends (.of_done rfl (if_neg hstate)) (started (v := s.quiet) .pin _ hseq _)
  case refine_3 => exact .of_ends (.of_live rfl ha (if_pos hkey)) (started (v := s.quiet) .soft _ hseq _)
  case refine_4 => exact .of_ends (.of_done rfl (linkReset_starts (s := s.quiet) hstate hmode)) (started (v := s.quiet) .link _ hseq _)
  case refine_5 => exact .of_ends (.of_live rfl ha (wdtReset_starts (s := s.quiet) hexp hwarned)) (started (v := s.quiet) .wdt _ hseq _)
  case refine_6 => exact .of_ends (.of_live rfl ha rfl) (ddrTrained_zero (s := s.quiet) ok size.toNat h)
  case refine_7 => exact .of_ends (.of_live rfl ha rfl) (ddrTrained_one (s := s.quiet) ok size.toNat h)
  case refine_8 => exact .of_ends (.of_live rfl ha rfl) (wdtStart_effect (s := s.quiet) hoff hgo hperiod)
  case refine_9 => exact .of_ends (.of_live rfl ha rfl) (wdtKick_effect (s := s.quiet) hkey hon)
  case refine_10 => exact .of_ends (.of_live rfl ha rfl) (wdtWarn_effect (s := s.quiet) hexp hfirst)
  case refine_11 =>
    obtain ⟨himg, hmigr⟩ := hmoves hm
    exact .of_ends (.of_live rfl ha (if_pos (powerKey_iff.2 ⟨hkey, htgt⟩))) (State.requestPower_moving (s := s.quiet) hs himg hmigr)
  case refine_12 =>
    obtain ⟨himg, hmigr⟩ := hmoves hm
    exact .of_ends (.of_live rfl ha (if_pos (powerKey_iff.2 ⟨hkey, htgt⟩))) (State.requestPower_moving (s := s.quiet) hs himg hmigr)
  case refine_13 =>
    obtain ⟨himg, hmigr⟩ := hmoves hm
    have hto : s.quiet.requestPower .hold = toHold := State.requestPower_moves (s := s.quiet) hstate himg hmigr
    have hmoving : (s.quiet.requestPower .hold).pwr.moving = some .hold := State.requestPower_moving (s := s.quiet) hstate himg hmigr
    have hpower : powerKey w 2 = true := powerKey_iff.2 ⟨hkey, htgt⟩
    rw [← hto]
    exact ⟨fun hidle => .of_live rfl ha (holdRequest_enters hpower hmoving hidle),
      fun hidle => .of_live rfl ha (holdRequest_busy hpower (.inr hidle))⟩
  case refine_14 => exact .of_live rfl ha (pwrState_park (s := s.quiet) hidle hm)
  case refine_15 => exact .of_live rfl ha (pwrState_run (s := s.quiet) hm)
  case refine_16 => exact .of_done rfl (supplyWarn_low (s := s.quiet) hmv hlow hwatched)
  case refine_17 => exact .of_ends (.of_done rfl rfl) (supplyDip_effect (s := s.quiet) hmv hlow hwatched)
  case refine_18 => exact .of_ends (.of_running rfl ht rfl) (thermal_effect (s := s.quiet) temp)

end Sys2Proof.Machine
end

section
/-! PROOF. The PCI Express endpoint, the host completion rings and the DDR5 window (R452 to R460). -/
namespace Sys2Proof.Machine
open Sys2Proof

section
variable {s : State}

/-! ## The endpoint -/

theorem dmaResume_up (hbme : s.hq.bme = true) (hd : s.hq.d3hot = false) : dmaResume s = s.linkTrained.showPcie :=
  if_pos (by rw [hbme, hd]; rfl)

theorem dmaResume_stays (h : s.hq.bme = false ∨ s.hq.d3hot = true) : dmaResume s = s := by
  refine if_neg ?_
  rw [Bool.and_eq_true, Bool.not_eq_true']
  rintro ⟨hbme, hd⟩
  obtain h | h := h
  · exact Bool.false_ne_true (h.symm.trans hbme)
  · exact Bool.false_ne_true (hd.symm.trans h)

/-! ## Host completion rings -/

section
variable {q : Nat} {w : Word}

/-- The control word that a write of a ring's configuration stores. -/
abbrev ringCfg (w : Word) : Nat := w.toNat &&& 0x11F

theorem ringCfg_enable : fld (ringCfg w) 8 1 = 1 ↔ w.getLsbD 8 = true := by
  have hbit : decide (fld (ringCfg w) 8 1 = 1) = (ringCfg w).testBit 8 := fld_bit _ _
  rw [← decide_eq_true_eq (p := fld (ringCfg w) 8 1 = 1), hbit, Nat.testBit_and, show Nat.testBit 0x11F 8 = true from rfl, Bool.and_true]
  exact Iff.rfl

theorem ringCfg_disable : fld (ringCfg w) 8 1 = 0 ↔ w.getLsbD 8 = false := by
  rw [fld_bit_clear, Nat.testBit_and, show Nat.testBit 0x11F 8 = true from rfl, Bool.and_true]
  exact Iff.rfl

theorem hringCfg_off (h : w.getLsbD 8 = false) : hringCfg q w s =
    if s.hringOn q then (s.setReg (Reg.HQ_RING_CFG q) (ringCfg w)).hringBack q else s.setReg (Reg.HQ_RING_CFG q) (ringCfg w) := by
  have hclear : fld (ringCfg w) 8 1 = 0 := ringCfg_disable.2 h
  refine (if_neg ?_).trans (ite_of_iff ?_ rfl rfl)
  · rw [hclear]
    exact Bool.false_ne_true
  · rw [decide_eq_true hclear, Bool.true_and]

theorem hringCfg_stays_on (h : w.getLsbD 8 = true) (hon : s.hringOn q = true) : hringCfg q w s = s.setReg (Reg.HQ_RING_CFG q) (ringCfg w) := by
  refine (if_neg ?_).trans (if_neg ?_)
  · rw [hon, Bool.not_true, Bool.and_false]
    exact Bool.false_ne_true
  · rw [ringCfg_enable.2 h]
    exact Bool.false_ne_true

theorem hringCfg_enable (h : w.getLsbD 8 = true) (hoff : s.hringOn q = false) : hringCfg q w s =
    (((s.setReg (Reg.HQ_RING_CFG q) (ringCfg w)).setReg (Reg.HQ_RING_HEAD q) 0).setReg (Reg.HQ_RING_TAIL q) 0).setHring q
      { s.hring q with
        base := s.rn (Reg.HQ_RING_BASE_LO q) + 2 ^ 32 * s.rn (Reg.HQ_RING_BASE_HI q), log2n := ringCfg w % 2 ^ 5
        wb := s.rn (Reg.HQ_RING_WB_LO q) + 2 ^ 32 * s.rn (Reg.HQ_RING_WB_HI q) } := by
  rw [fld_low]
  exact if_pos (by rw [decide_eq_true (ringCfg_enable.2 h), hoff]; rfl)

theorem hqRingWrite_closed (h : s.hringRoom q = false) : hqRingWrite q s = s := if_neg (ne_true_of_eq_false h)

section
variable (hroom : s.hringRoom q = true)
include hroom

theorem hqRingWrite_none {u : State} (h : s.takeEntry q = (none, u)) : hqRingWrite q s = s := by
  rw [hqRingWrite, if_pos hroom, h]

theorem hqRingWrite_some {u : State} {e : List Byte} (h : s.takeEntry q = (some e, u)) : hqRingWrite q s =
    (((((u.emit (.dma ((u.hring q).base + (if q = 0 then 64 else 32) * u.rn (Reg.HQ_RING_HEAD q)) e)).setReg (Reg.HQ_RING_HEAD q)
      ((u.rn (Reg.HQ_RING_HEAD q) + 1) % 2 ^ (u.hring q).log2n)).count (Reg.HQ_DMA_CNT q)).hringBack q).hringCount q) := by
  rw [hqRingWrite, if_pos hroom, h]

end

section
variable {irq : Nat} (hirq : irq = s.rn (Reg.HQ_RING_IRQ q))
include hirq

theorem hqRingIrqTimer_waits
    (h : (s.hring q).since = 0 ∨ irq % 2 ^ 16 = 0 ∨ s.time.ticks < (s.hring q).firstAt + fld irq 16 16 * 250) : hqRingIrqTimer q s = s := by
  subst hirq
  refine if_neg ?_
  rw [Bool.and_eq_true, Bool.and_eq_true, decide_eq_true_eq, decide_eq_true_eq, decide_eq_true_eq, ← fld_low]
  rintro ⟨⟨hsince, htime⟩, hdue⟩
  obtain h | h | h := h
  · exact hsince h
  · exact htime h
  · exact Nat.not_le.2 h hdue

theorem hqRingIrqTimer_due (hsince : (s.hring q).since ≠ 0) (htime : irq % 2 ^ 16 ≠ 0)
    (hdue : (s.hring q).firstAt + fld irq 16 16 * 250 ≤ s.time.ticks) : hqRingIrqTimer q s = s.setF Reg.HQ_RING_PEND q 1 1 := by
  subst hirq
  refine if_pos ?_
  rw [← fld_low, decide_eq_true hsince, decide_eq_true htime, decide_eq_true hdue]
  rfl

end

end

/-! ## The DDR5 window -/

/-- The bytes that a read of the window returns, zero where none is served. -/
def State.winBytes (s : State) (off len : Nat) : List Byte :=
  (List.range len).map fun i => if s.ddrServed (s.winAddr off + i) then Memory.byte s.ddr (s.winAddr off + i) else 0

/-- Bytes placed from DDR5 address `a` on, where they are served. -/
def State.winPut (a : Nat) (data : List Byte) (t : State) : State :=
  { t with
    ddr := (List.range data.length).foldl
      (fun (m : List Host.Cell) i => if t.ddrServed (a + i) then Memory.setByte m (a + i) (data.getD i 0) else m) t.ddr }

section
variable {off len : Nat} {err e : MemErr} {u : State}

theorem bar2Read_unserved (h : s.ddrServed (s.winAddr off) = false) :
    bar2Read off len err s = s.emit (.completion (s.winBytes off len) false) :=
  if_pos (by rw [h]; rfl)

section
variable (hserved : s.ddrServed (s.winAddr off) = true)
include hserved

theorem bar2Read_stopped (h : s.pwr.state ≠ .run) :
    bar2Read off len err s = s.drawn.emit (.completion (leBytes len (s.draw (8 * len)).toNat) false) :=
  (if_neg (by rw [hserved]; exact Bool.false_ne_true)).trans (if_pos h)

theorem bar2Read_checked (h : s.pwr.state = .run) (hcheck : s.ddrCheck (s.winAddr off) err = (e, u)) : bar2Read off len err s =
    (if e = .ue then u.count Reg.HQ_BAR2_POISON_CNT else u).emit (.completion (s.winBytes off len) (decide (e = .ue))) := by
  refine (if_neg (by rw [hserved]; exact Bool.false_ne_true)).trans ((if_neg (not_not_intro h)).trans ?_)
  rw [hcheck]
  rfl

theorem bar2Read_poisoned (h : s.pwr.state = .run) (hcheck : s.ddrCheck (s.winAddr off) err = (e, u)) (hue : e = .ue) :
    bar2Read off len err s = (u.count Reg.HQ_BAR2_POISON_CNT).emit (.completion (s.winBytes off len) true) := by
  rw [bar2Read_checked hserved h hcheck, if_pos hue, decide_eq_true hue]

theorem bar2Read_sound (h : s.pwr.state = .run) (hcheck : s.ddrCheck (s.winAddr off) err = (e, u)) (hue : e ≠ .ue) :
    bar2Read off len err s = u.emit (.completion (s.winBytes off len) false) := by
  rw [bar2Read_checked hserved h hcheck, if_neg hue, decide_eq_false hue]

end

variable {data : List Byte}

theorem bar2Write_stopped (h : s.pwr.state ≠ .run) : bar2Write off data err s = s := if_pos h

variable (hrun : s.pwr.state = .run)
include hrun

theorem bar2Write_whole (h : 8 ≤ data.length ∨ s.ddrServed (s.winAddr off) = false) :
    bar2Write off data err s = s.winPut (s.winAddr off) data := by
  refine (if_neg (not_not_intro hrun)).trans (if_neg ?_)
  rw [Bool.and_eq_true, decide_eq_true_eq]
  rintro ⟨hshort, hserved⟩
  obtain h | h := h
  · exact Nat.not_le.2 hshort h
  · exact Bool.false_ne_true (h.symm.trans hserved)

section
variable (hshort : data.length < 8) (hserved : s.ddrServed (s.winAddr off) = true) (hcheck : s.ddrCheck (s.winAddr off) err = (e, u))
include hshort hserved hcheck

theorem bar2Write_narrow : bar2Write off data err s = if e = .ue then u else u.winPut (s.winAddr off) data := by
  refine (if_neg (not_not_intro hrun)).trans ((if_pos (by rw [decide_eq_true hshort, hserved]; rfl)).trans ?_)
  rw [hcheck]
  rfl

theorem bar2Write_uncorrectable (hue : e = .ue) : bar2Write off data err s = u :=
  (bar2Write_narrow hrun hshort hserved hcheck).trans (if_pos hue)

theorem bar2Write_sound (hue : e ≠ .ue) : bar2Write off data err s = u.winPut (s.winAddr off) data :=
  (bar2Write_narrow hrun hshort hserved hcheck).trans (if_neg hue)

end

end

end

/-- Settles O55: the endpoint, each ring and the window follow their own branches. -/
theorem hostQueues : Obligations.HostQueues := by
  unfold Obligations.HostQueues
  intro s bme d3 msix who r w off len data err q a v was ha
  refine ⟨.of_live rfl ha rfl, .of_live (f := pcieLinkDown) rfl ha rfl, fun hb hd => .of_live rfl ha (dmaResume_up (s := s.quiet) hb hd),
    fun h => .of_live rfl ha (dmaResume_stays (s := s.quiet) h), fun ht => ⟨fun hoff => ⟨.of_takes rfl ht (if_neg (ne_true_of_eq_false hoff)),
      .of_takes rfl ht ((if_neg (ne_true_of_eq_false hoff)).trans (hringCfg_off (s := s.quiet) hoff))⟩, fun hon => ⟨.of_takes rfl ht (if_pos hon),
      fun hwas => .of_takes rfl ht ((if_pos hon).trans (hringCfg_stays_on (s := s.quiet) hon hwas)),
      fun hwas => .of_takes rfl ht ((if_pos hon).trans (hringCfg_enable (s := s.quiet) hon hwas))⟩⟩,
    fun h => .of_live rfl ha (hqRingWrite_closed (s := s.quiet) h), fun h => ⟨fun u hu => .of_live rfl ha (hqRingWrite_none (s := s.quiet) h hu),
      fun e u hu => .of_live rfl ha (hqRingWrite_some (s := s.quiet) h hu)⟩,
    ⟨fun h => .of_live rfl ha (hqRingIrqTimer_waits (s := s.quiet) rfl h),
      fun hsince htime hdue => .of_live rfl ha (hqRingIrqTimer_due (s := s.quiet) rfl hsince htime hdue)⟩,
    ⟨fun h => .of_live rfl ha (bar2Read_unserved (s := s.quiet) h), fun h hs => .of_live rfl ha (bar2Read_stopped (s := s.quiet) h hs),
      fun e u h hs hc => ⟨fun hue => .of_live rfl ha (bar2Read_poisoned (s := s.quiet) h hs hc hue),
        fun hue => .of_live rfl ha (bar2Read_sound (s := s.quiet) h hs hc hue)⟩⟩,
    fun h => .of_live rfl ha (bar2Write_stopped (s := s.quiet) h), fun h hl => .of_live rfl ha (bar2Write_whole (s := s.quiet) h hl),
    fun e u h hl hs hc => ⟨fun hue => .of_live rfl ha (bar2Write_uncorrectable (s := s.quiet) h hl hs hc hue),
      fun hue => .of_live rfl ha (bar2Write_sound (s := s.quiet) h hl hs hc hue)⟩⟩

end Sys2Proof.Machine
end

section
/-! PROOF. Flash, I2C, UART, JTAG and core debug (R467 to R470). -/
namespace Sys2Proof.Machine
open Sys2Proof

section
variable {s : State}

/-! ## Flash -/

section
variable {who : Party} {w : Word} {c : Nat} (hc : c = w.toNat &&& 0x21FFFFFF)
include hc

theorem qspiCommand_busy (h : s.hq.qspiBusy = true) : qspiCommand who w s = s.setReg Reg.HQ_QSPI_CTRL (2 ^ 30 + c) := by
  subst hc
  have hshown : bitAt s.hq.qspiBusy 30 = 2 ^ 30 := if_pos h
  rw [← hshown]
  exact if_pos (by rw [State.setReg_hq, h]; rfl)

section
variable (hidle : s.hq.qspiBusy = false)
include hidle

omit hc in
/-- With no flash command running, the control word is stored with BUSY clear. -/
theorem qspiCtrl_stored : s.setReg Reg.HQ_QSPI_CTRL (bitAt s.hq.qspiBusy 30 + c) = s.setReg Reg.HQ_QSPI_CTRL c := by
  rw [hidle]
  exact congrArg (s.setReg Reg.HQ_QSPI_CTRL) (Nat.zero_add c)

theorem qspiCommand_stored (h : w.getLsbD 31 = false ∨ who = .host) : qspiCommand who w s = s.setReg Reg.HQ_QSPI_CTRL c := by
  rw [← qspiCtrl_stored hidle]
  subst hc
  refine if_pos ?_
  rw [State.setReg_hq, hidle, Bool.false_or, Bool.or_eq_true, Bool.not_eq_true', decide_eq_true_eq]
  exact h

theorem qspiCommand_issued {u : State} (hu : u = s.setReg Reg.HQ_QSPI_CTRL c) {n : Nat} (hn : n = if fld c 8 1 = 1 then 4 else fld c 9 3)
    {x : State} (hx : x = u.emit (.flash (c % 2 ^ 8) n (u.rn Reg.HQ_QSPI_ADDR % 2 ^ (8 * n)) (fld c 12 4) (qspiLen c)
      (if fld c 29 1 = 1 then u.qspiBytes (qspiLen c) else [])))
    (hgo : w.getLsbD 31 = true) (hwho : who ≠ .host) :
    qspiCommand who w s = ({ x with hq := { x.hq with qspiBusy := true, qspiCtrl := c } } : State).setF Reg.HQ_QSPI_CTRL 30 1 1 := by
  rw [← qspiCtrl_stored hidle] at hu
  rw [fld_low] at hx
  subst hc hu hn hx
  refine if_neg ?_
  rw [State.setReg_hq, hidle, hgo, decide_eq_false hwho]
  exact Bool.false_ne_true

end

end

theorem qspiDone_idle (data : List Byte) (h : s.hq.qspiBusy = false) : qspiDone data s = s := if_neg (ne_true_of_eq_false h)

/-- BUSY cleared at a flash command's end. -/
def State.qspiEnded (s : State) : State := ({ s with hq := { s.hq with qspiBusy := false } } : State).setF Reg.HQ_QSPI_CTRL 30 1 0

theorem State.qspiEnded_ctrl : s.qspiEnded.hq.qspiCtrl = s.hq.qspiCtrl := by
  rw [State.qspiEnded, State.setF_hq]

section
variable (hbusy : s.hq.qspiBusy = true) (data : List Byte)
include hbusy

theorem qspiDone_ended : qspiDone data s = if fld s.qspiEnded.hq.qspiCtrl 29 1 = 1 then s.qspiEnded
    else s.qspiEnded.setWords (Reg.HQ_QSPI_BUF 0) (wordsOf (data.take (qspiLen s.qspiEnded.hq.qspiCtrl) ++
      (s.qspiEnded.qspiBytes 256).drop (data.take (qspiLen s.qspiEnded.hq.qspiCtrl)).length) 64) :=
  if_pos hbusy

theorem qspiDone_write (h : fld s.hq.qspiCtrl 29 1 = 1) : qspiDone data s = s.qspiEnded := by
  rw [qspiDone_ended hbusy, State.qspiEnded_ctrl, if_pos h]

theorem qspiDone_read (h : fld s.hq.qspiCtrl 29 1 = 0) : qspiDone data s =
    s.qspiEnded.setWords (Reg.HQ_QSPI_BUF 0) (wordsOf (data.take (qspiLen s.hq.qspiCtrl) ++
      (s.qspiEnded.qspiBytes 256).drop (data.take (qspiLen s.hq.qspiCtrl)).length) 64) := by
  rw [qspiDone_ended hbusy, State.qspiEnded_ctrl, if_neg fun hone => Nat.zero_ne_one (h.symm.trans hone)]

end

/-! ## UART -/

theorem uartRx_queued (b : Byte) (h : s.hq.uartRx.length < 64) :
    uartRx b s = ({ s with hq := { s.hq with uartRx := s.hq.uartRx ++ [b] } } : State).showUart :=
  if_pos h

theorem uartRx_lost (b : Byte) (h : 64 ≤ s.hq.uartRx.length) : uartRx b s = s.count Reg.HQ_UART_LOST_CNT := if_neg (Nat.not_lt.2 h)

theorem uartDataWrite_queued (w : Word) (h : s.hq.uartTx.length < 64) :
    uartDataWrite w s = ({ s with hq := { s.hq with uartTx := s.hq.uartTx ++ [w.setWidth 8] } } : State).showUart :=
  if_pos h

theorem uartDataWrite_full (w : Word) (h : 64 ≤ s.hq.uartTx.length) : uartDataWrite w s = s := if_neg (Nat.not_lt.2 h)

theorem uartDataRead_empty (h : s.hq.uartRx = []) : uartDataRead s = s.emit (.read 0) := by
  rw [uartDataRead, h]

theorem uartDataRead_oldest {b : Byte} {t : List Byte} (h : s.hq.uartRx = b :: t) :
    uartDataRead s = (({ s with hq := { s.hq with uartRx := t } } : State).showUart).emit (.read (b.setWidth 64)) := by
  rw [uartDataRead, h]

theorem uartTx_empty (h : s.hq.uartTx = []) : uartTx s = s := by
  rw [uartTx, h]

theorem uartTx_oldest {b : Byte} {t : List Byte} (h : s.hq.uartTx = b :: t) :
    uartTx s = (({ s with hq := { s.hq with uartTx := t } } : State).showUart).emit (.uart b) := by
  rw [uartTx, h]

/-! ## Debug and JTAG -/

section
variable {core : Nat} {halt : Bool}

theorem coreDebugAccess_open (h : s.lc = lcManufacture ∨ s.lc = lcProvisioned ∨ s.lc = lcReturned) : coreDebugAccess core halt s =
    { s with hq := { s.hq with halted := (s.hq.halted.filter fun k => k ≠ core) ++ (if halt then [core] else []) } } := by
  have hopen : (decide (s.lc = lcManufacture) || decide (s.lc = lcProvisioned) || decide (s.lc = lcReturned)) = true := by
    rw [Bool.or_eq_true, Bool.or_eq_true, decide_eq_true_eq, decide_eq_true_eq, decide_eq_true_eq, or_assoc]
    exact h
  refine (if_pos hopen).trans ?_
  cases halt with
  | true => rfl
  | false => simp only [Bool.false_eq_true, if_false, List.append_nil]

theorem coreDebugAccess_closed (h : s.lc = lcDeployed ∨ s.lc = lcRetired) : coreDebugAccess core halt s = s := by
  refine if_neg ?_
  obtain h | h := h
  all_goals
    rw [h]
    decide

end

section
variable {i : Instr} {f : State → State}

theorem Ends.of_tap (hexec : exec i s = tap f s) (hpower : s.pwr.state ≠ .hold) : Ends i s (f s.quiet) :=
  .of_done hexec (if_pos hpower)

theorem Ends.of_tap_off (hexec : exec i s = tap f s) (hpower : s.pwr.state = .hold) : Ends i s s.quiet :=
  .of_done hexec (if_neg (not_not_intro hpower))

end

end

/-- Settles O56: the flash, I2C, UART and debug commands follow their own branches; JTAG shifts wherever the die has power. -/
theorem flashSerialDebug : Obligations.FlashSerialDebug := by
  unfold Obligations.FlashSerialDebug
  intro s who w data index count b pins tdi core halt q
  refine ⟨fun ha => ⟨fun h => .of_live rfl ha (qspiCommand_busy (s := s.quiet) rfl h), fun h => ?_, fun h =>
    ⟨fun hw => .of_live rfl ha (qspiDone_write (s := s.quiet) h data hw), fun hr => .of_live rfl ha (qspiDone_read (s := s.quiet) h data hr)⟩,
    .of_live rfl ha rfl, fun h => .of_live rfl ha (uartRx_queued (s := s.quiet) b h), fun h => .of_live rfl ha (uartRx_lost (s := s.quiet) b h),
    fun h => .of_live rfl ha (uartDataWrite_queued (s := s.quiet) w h), fun h => .of_live rfl ha (uartDataWrite_full (s := s.quiet) w h),
    fun h => .of_live rfl ha (uartDataRead_empty (s := s.quiet) h), fun b t h => .of_live rfl ha (uartDataRead_oldest (s := s.quiet) h),
    fun h => .of_live rfl ha (uartTx_empty (s := s.quiet) h), fun b t h => .of_live rfl ha (uartTx_oldest (s := s.quiet) h),
    fun h => .of_live rfl ha (coreDebugAccess_open (s := s.quiet) h), fun h => .of_live rfl ha (coreDebugAccess_closed (s := s.quiet) h)⟩,
    fun h => ?_, fun h => ?_⟩
  case refine_1 =>
    intro c u n x
    exact ⟨fun hgo => .of_live rfl ha (qspiCommand_stored (s := s.quiet) rfl h hgo),
      fun hgo hwho => .of_live rfl ha (qspiCommand_issued (s := s.quiet) rfl h rfl rfl rfl hgo hwho),
      .of_live rfl ha (qspiDone_idle (s := s.quiet) data h)⟩
  case refine_2 =>
    exact ⟨.of_tap (f := fun s => s.jtag .bypass [false] tdi) rfl h, .of_tap (f := fun s => s.jtag .clamp [false] tdi) rfl h,
      .of_tap (f := fun s => s.jtag .highz [false] tdi) rfl h,
      .of_tap (f := fun s => s.jtag .idcode idcodeBits (List.replicate 32 false)) rfl h,
      .of_tap (f := fun s => s.boundaryScan .samplePreload pins tdi) rfl h, .of_tap (f := fun s => s.boundaryScan .extest pins tdi) rfl h⟩
  case refine_3 =>
    exact ⟨.of_tap_off (f := fun s => s.jtag .bypass [false] tdi) rfl h, .of_tap_off (f := fun s => s.jtag .clamp [false] tdi) rfl h,
      .of_tap_off (f := fun s => s.jtag .highz [false] tdi) rfl h,
      .of_tap_off (f := fun s => s.jtag .idcode idcodeBits (List.replicate 32 false)) rfl h,
      .of_tap_off (f := fun s => s.boundaryScan .samplePreload pins tdi) rfl h, .of_tap_off (f := fun s => s.boundaryScan .extest pins tdi) rfl h⟩

end Sys2Proof.Machine
end
